-- ==== Sys2Proof/Word.lean ====
section
/-! DEFINITION. The byte, the byte string and the words of the GZ8's registers and structures (R4, R5, R6). -/

namespace Sys2Proof

/-- One byte (R6). -/
abbrev Byte := BitVec 8

/-- A string of bytes, lowest address first. -/
abbrev Bytes := List (BitVec 8)

/-- A 32-bit register (R65). -/
abbrev Word32 := BitVec 32

/-- A 64-bit register (R65). -/
abbrev Word64 := BitVec 64

end Sys2Proof
end

