-- ==== Sys2Proof/Syntax.lean ====
section
/-! DEFINITION. The commands of the GZ8: one constructor of `Instr` per row of spec/opcode_table.json, with the row's
operands. Structures that arrive from outside (flits, GMP requests, SPDM requests) are given as the bytes or fields the
owning chapter names. -/

namespace Sys2Proof

/-- Tarn index, 0 to 7 (R426). -/
abbrev TarnIx := Fin 8
/-- Queue-pair number, 0 to 63 (R64). -/
abbrev QpIx := Fin 64
/-- Tile-group number, 0 to 15 (R110). -/
abbrev GroupIx := Fin 16
/-- Logical tile number within its group, 0 to 7 (R123). -/
abbrev TileIx := Fin 8
/-- Basin lane number (R242). -/
abbrev LaneIx := Fin 16
/-- Spillway link number (R335). -/
abbrev LinkIx := Fin 12
/-- Memory stack number (R196). -/
abbrev StackIx := Fin 8
/-- Channel number within a stack (R196). -/
abbrev ChanIx := Fin 32

/-- What the device measures and what the bus answers in one seam: the inputs of step 7 (R229, R630, R693), the outcome of
the seam's posted writes (R77, R102), and whether the governor lends where R30 says it may. -/
structure SeamIn where
  /-- Junction temperature of each quadrant, in tenths of a degree Celsius. -/
  tj : List Int
  /-- Package power over the beat just ended, in milliwatts. -/
  powerMw : Nat
  /-- DRAM temperature of each stack, in tenths of a degree Celsius. -/
  tDram : List Int
  /-- Measured VDD_CORE in microvolts (R693). -/
  vddUv : Nat
  /-- Queue pairs whose completion write fails in this seam (R102). -/
  cqFail : List (TarnIx × QpIx)
  /-- Functions whose advisory write fails in this seam (R77). -/
  advFail : List TarnIx
  /-- The governor's choice under the "may" of R30. -/
  lend : Bool
  deriving DecidableEq, Repr

/-- A PCIe port (R381). -/
inductive Port where
  | a
  | b
  deriving DecidableEq, Repr

/-- A PCIe function: function 0 of a port, or the function of a Tarn index (R383). -/
inductive Func where
  | zero (p : Port)
  | tarn (t : TarnIx)
  deriving DecidableEq, Repr

/-- What a port's link runs once it has trained (R386, R421). -/
inductive PortProto where
  | pcie
  | cxl
  deriving DecidableEq, Repr

/-- A capability of Table 09-2. -/
inductive Capability where
  | pciExpress
  | powerManagement
  | msi
  | msix
  | aer
  | ari
  | linkFeatures
  | doe
  | cxlDvsec
  | bandExposure
  deriving DecidableEq, Repr

/-- A feature of Table 09-3. -/
inductive Feature where
  /-- Link rate in units of 0.5 GT/s. -/
  | rate (half : Nat)
  | width (lanes : Nat)
  | maxPayload (bytes : Nat)
  | maxReadRequest (bytes : Nat)
  | tagBits (n : Nat)
  /-- A completion-timeout range, A to D as 0 to 3. -/
  | timeoutRange (n : Nat)
  | relaxedOrdering
  | idOrdering
  | noSnoop
  | timeoutDisable
  | aspm
  | addressServices
  | sriov
  | pcieIde
  | tdisp
  | cxlProtocols
  | hdmInterleave (ways : Nat)
  | backInvalidate
  | cxlIde
  deriving DecidableEq, Repr

/-- What a configuration request addresses (R383, R385, R386, R390, R394). -/
inductive ConfigReg where
  | vendor
  | device
  | classCode
  | subsystemVendor
  | subsystem
  | barSize (bar : Nat)
  | capability (c : Capability)
  | feature (x : Feature)
  | deviceControl2
  | powerState
  | busMaster
  | errorStatus
  | bandExposure
  | hdmDecoders
  | cxlCache
  deriving DecidableEq, Repr

/-- Where a register of a function lies: in BAR0, or in configuration space. -/
inductive RegAt where
  | bar0 (offset : BitVec 19)
  | config (r : ConfigReg)
  deriving DecidableEq, Repr

/-- The answer to an outstanding host read (R389, R390). -/
inductive DmaResult where
  | data (bytes : Bytes)
  | unsupportedRequest
  | completerAbort
  | poisoned
  deriving DecidableEq, Repr

/-- Whose host read an answer is for: a ticket (by its admission serial number), or a submission ring. -/
inductive DmaTarget where
  | ticket (uid : Nat)
  | ring (t : TarnIx) (q : QpIx)
  deriving DecidableEq, Repr

/-- A resource of Table 10-1, with the Tarn records and key slots that scrub also clears (Table 10-7). -/
inductive Resource where
  | tileGroup (g : GroupIx)
  | lane (j : LaneIx)
  | kaeGroup (g : Fin 8)
  | link (n : LinkIx)
  | memUnit (s : StackIx) (u : Fin 32)
  | keySlots (t : TarnIx)
  | tarnRecords (t : TarnIx)
  deriving DecidableEq, Repr

/-- How a self-test ends (R635). -/
inductive BistResult where
  | signature (v : BitVec 32)
  | cannotComplete
  deriving DecidableEq, Repr

/-- The channel a GMP request came by (R612): an open TLS session, or the board channel. -/
inductive GmpChannel where
  | port (session : Nat)
  | board
  deriving DecidableEq, Repr

/-- The 144-byte signed block of R618. -/
structure SignedBlock where
  nonce : Bytes
  anchorSlot : Nat
  reserved : Bytes
  sig : Bytes
  deriving DecidableEq, Repr

/-- One GMP request as received (R617, R618): its header and body bytes (what the signature covers) and its signed block. `lengthOk` says
that the body has the length of its CODE, for the codes whose body the spec does not lay out. -/
structure GmpReq where
  channel : GmpChannel
  requestId : Nat
  header : Bytes
  body : Bytes
  lengthOk : Bool
  signedBlock : Option SignedBlock
  deriving DecidableEq, Repr

/-- The complete set of governor bounds of Table 14-4. -/
structure Bounds where
  powerCap : Nat
  clkMax : Nat
  clkMin : Nat
  tjTarget : Nat
  dramOffset : Nat
  lendMask : BitVec 8
  adaptMask : BitVec 8
  qMin : Nat
  degradeMask : BitVec 12
  retireMode : Nat
  ceChannel : Nat
  ueChannel : Nat
  ceTile : Nat
  ceEngine : Nat
  deriving DecidableEq, Repr

/-- Timing mode of a device (R49). -/
inductive TimingMode where
  | internal
  | link
  | pin
  deriving DecidableEq, Repr

/-- Link mode (Table 08-1). -/
inductive LinkMode where
  | fabric
  | edge
  | intake
  | off
  deriving DecidableEq, Repr

/-- One change that LINK_SET makes (R624, Table 14-2): a link's mode, the whole allow list, a rack grant, or an operator
drain's counterpart, releasing nothing else. -/
inductive LinkSetItem where
  | mode (n : LinkIx) (m : LinkMode)
  | allowList (digests : List Bytes)
  | grant (t : TarnIx) (srcDevice : Fin 64) (srcTarn : TarnIx)
  | ungrant (t : TarnIx) (srcDevice : Fin 64) (srcTarn : TarnIx)
  deriving DecidableEq, Repr

/-- Life-cycle state (Table 11-7). -/
inductive LifeCycle where
  | manufacture
  | provisioned
  | deployed
  | retired
  deriving DecidableEq, Repr

/-- What a tamper signal is (R502). -/
inductive TamperCause where
  | meshOpen
  | meshShort
  | switch (n : Fin 4)
  deriving DecidableEq, Repr

/-- What a unit control or fault names (Table 13-2), as its 32-bit identifier's kind and index. -/
structure UnitId where
  kind : BitVec 8
  index : BitVec 24
  deriving DecidableEq, Repr

/-- The instruments DEBUG_SET switches (R450, Table 12-2 DEBUG_DEVICE). -/
structure DebugSwitch where
  testPort : Bool
  ieee1687 : Bool
  trace : Bool
  counters : Bool
  readBack : Bool
  deriving DecidableEq, Repr

/-- A kind of instrument access (R452). -/
inductive DebugKind where
  | trace
  | counters
  | scan
  | readBack
  deriving DecidableEq, Repr

/-- An IEEE 1149.1 instruction (R451). -/
inductive TestInstr where
  | bypass
  | idcode
  | samplePreload
  | other (code : Nat)
  deriving DecidableEq, Repr

/-- What NEGOTIATE_ALGORITHMS offers in each category of R399: does it offer the one the GZ8 accepts. -/
structure AlgOffer where
  ecdsaP384 : Bool
  sha384 : Bool
  secp384r1 : Bool
  aes256Gcm : Bool
  measSha384 : Bool
  measSpecDmtf : Bool
  deriving DecidableEq, Repr

/-- What a partner presents in a key agreement of R352. -/
structure LinkPartner where
  /-- Ephemeral P-384 public key, 97 bytes. -/
  ephemeral : Bytes
  /-- Partner's long-term public key, 97 bytes. -/
  signer : Bytes
  /-- r then s over the partner's and the GZ8's key. -/
  sig : Bytes
  /-- Device serial or key digest used in the key derivation. -/
  identity : Bytes
  deriving DecidableEq, Repr

/-- A CXL.mem access from the host (R239): a read of one 64-byte line or a write of it. -/
inductive CxlReq where
  | read
  | write (line : Bytes)
  deriving DecidableEq, Repr

/-- A read of 4 or 8 bytes of a Tarn function's BAR0 (R65). -/
structure BarRead where
  t : TarnIx
  offset : BitVec 19
  width : Nat
  deriving DecidableEq, Repr

/-- A configuration read of one function (R667). -/
structure ConfigRead where
  f : Func
  reg : ConfigReg
  deriving DecidableEq, Repr

/-- A port's link as it returns, with the protocol that it runs (R421, R422). -/
structure PortLink where
  p : Port
  proto : PortProto
  deriving DecidableEq, Repr

/-- One instant of a delay exchange (R368), in picoseconds of the clock that stamps it. -/
abbrev Ps := Int

/-- The NETWORK_SET body (Table 14-2a). -/
structure NetBody where
  mode : Nat
  family : Nat
  prefixLen : Nat
  phyMode : Nat
  address : Bytes
  gateway : Bytes
  vlan : Nat
  deriving DecidableEq, Repr

/-- The firmware half of R640. -/
inductive Half where
  | kernel
  | firmware
  deriving DecidableEq, Repr

/-- Which ledger records a management LEDGER_READ selects (Table 02-9, Table 14-2). -/
inductive LedgerSel where
  | one (ticketId : BitVec 32)
  | live
  | since (beat : Nat)
  deriving DecidableEq, Repr

set_option maxRecDepth 4000 in
/-- The commands of the GZ8: one constructor per row of spec/opcode_table.json, in the table's order. -/
inductive Instr where
  | seam (i : SeamIn)
  | figureFinish (g : GroupIx) (cycles : Nat)
  | spillStop (g : GroupIx)
  | throttleSet (t : TarnIx)
  | throttleLift (t : TarnIx)
  | scheduleSwap
  | mapChangeApply
  | ruleChangeDrained
  | scrubComplete (r : Resource)
  | phaseApply
  | phaseTimeout
  | hostSetApply
  | beatFlit (n : LinkIx) (flit : Bytes) (arrivalPs : Ps)
  /-- The flit, and the times of its arrival and of the answer's departure. -/
  | delayReq (n : LinkIx) (flit : Bytes) (stamps : Ps × Ps)
  /-- The flit's header and the rest of it, and the follower's times of departure and arrival. -/
  | delayResp (n : LinkIx) (header rest : Bytes) (t1 t4 : Ps)
  | domainJoin (offsetNs : Nat)
  | leaderLoss
  | beatInPulse (widthNs : Nat) (offsetNs : Int)
  | pinHoldover (missed : Nat) (periodErrPpm : Nat)
  | pinHoldoverExit
  | sqDoorbell (t : TarnIx) (q : QpIx) (value : BitVec 32)
  | cqDoorbell (t : TarnIx) (q : QpIx) (value : BitVec 32)
  | qpEnable (t : TarnIx) (q : QpIx) (value : BitVec 32)
  | qpDisable (t : TarnIx) (q : QpIx) (value : BitVec 32)
  | advEnable (t : TarnIx) (value : BitVec 32)
  | advDisable (t : TarnIx) (value : BitVec 32)
  | advHeadWrite (t : TarnIx) (value : BitVec 32)
  | beatRead (r : BarRead)
  | registerWrite (f : Func) (reg : RegAt) (width : Nat) (value : BitVec 64)
  | flr (t : TarnIx)
  | busMasterEnable (t : TarnIx) (on : Bool)
  | msixUnmask (t : TarnIx) (v : Fin 64)
  | dmaCompletion (target : DmaTarget) (r : DmaResult)
  | completionTimeout (target : DmaTarget)
  | perstAssert (p : Port)
  | perstRelease (p : Port)
  | portLinkDown (p : Port)
  | configRetry (r : ConfigRead)
  | rekeyDue (t : TarnIx) (session : BitVec 32)
  | sessionExhausted (t : TarnIx) (session : BitVec 32)
  | bounceTagFailureLimit (t : TarnIx) (session : BitVec 32)
  | doeDiscovery (f : Func) (index : Nat)
  | getVersion (f : Func)
  | getCapabilities (f : Func)
  | negotiateAlgorithms (f : Func) (offer : AlgOffer)
  | getDigests (f : Func)
  | getCertificate (f : Func) (slot : Nat) (offset length : Nat)
  | challenge (f : Func) (slot : Nat) (nonce : Bytes)
  | getMeasurements (f : Func) (index : Nat) (nonce : Bytes)
  | keyExchange (f : Func) (summaryType : BitVec 8) (reqSessionId : BitVec 16) (exchangeData : Bytes)
  | finish (f : Func) (session : BitVec 32) (verifyOk : Bool)
  | keyUpdate (f : Func) (session : BitVec 32)
  | endSession (f : Func) (session : BitVec 32)
  | spdmUnsupported (f : Func) (code : BitVec 8)
  | nop (uid : Nat)
  | ledgerRead (uid : Nat)
  | changeSubmit (uid : Nat)
  | changeStatus (uid : Nat)
  | tallyRead (uid : Nat)
  | reportGet (uid : Nat)
  | bistRun (uid : Nat)
  | bistComplete (u : UnitId) (code : Nat) (r : BistResult)
  | keyLoad (uid : Nat)
  | keyUnload (uid : Nat)
  | keyReplace (uid : Nat)
  | keyReplaceCommit (j : Fin 16)
  | keyJournalIdle (j : Fin 16)
  | parentInvalidate (uid : Nat)
  | copy (uid : Nat)
  | modelLoad (uid : Nat)
  | microprogLoad (uid : Nat)
  | submitGraph (t : TarnIx) (q : QpIx)
  | bounceSetup (uid : Nat)
  | roundOpen (uid : Nat)
  | roundOpened (t : TarnIx) (round : BitVec 32)
  | contribSubmit (uid : Nat)
  | recordArrival (t : TarnIx) (round : BitVec 32) (slot : Nat)
  | foldComplete (t : TarnIx) (round : BitVec 32) (slot : Nat)
  | stageTimeout (t : TarnIx) (round : BitVec 32) (slot : Nat)
  | recordIntakeResume (t : TarnIx)
  | sharesSubmit (uid : Nat)
  | shareEntry (t : TarnIx) (round : BitVec 32)
  | rebuildComplete
  | kaeJobComplete (t : TarnIx) (job : Nat)
  | maskCorrectionDone (t : TarnIx) (round : BitVec 32) (corr : Nat)
  | roundClose (uid : Nat)
  | close (t : TarnIx) (round : BitVec 32)
  | roundLeaveClosed (t : TarnIx) (round : BitVec 32)
  | roundRelease (t : TarnIx) (round : BitVec 32)
  | unmaskTimeout (t : TarnIx) (round : BitVec 32)
  | roundAbort (uid : Nat)
  | roundRegionScrubbed (t : TarnIx) (round : BitVec 32)
  | roundStatus (uid : Nat)
  | certRead (uid : Nat)
  | combineAttach (uid : Nat)
  | combineConfirm (t : TarnIx) (round : BitVec 32) (member : Nat) (planDigest descDigest : Bytes)
  | combineAttachTimeout (uid : Nat)
  | leaderCloseMessage (t : TarnIx) (round : BitVec 32)
  | combineData (t : TarnIx) (round : BitVec 32) (member : Nat) (bitmap image : Bytes)
  | memberMissing (t : TarnIx) (round : BitVec 32) (member : Nat)
  | memberOrphanAbort (t : TarnIx) (round : BitVec 32)
  | leaderAbortMessage (t : TarnIx) (round : BitVec 32)
  | memoryRequest (g : GroupIx) (tile : TileIx)
  | reelCommand (g : GroupIx) (tile : TileIx)
  | atomicRequest (g : GroupIx) (tile : TileIx)
  | patrolScrub (s : StackIx) (c : ChanIx) (offset : Nat) (outcome : Nat)
  | targetedRefresh (s : StackIx) (c : ChanIx) (row : Nat) (activations : Nat)
  | cxlMemAccess (p : Port) (t : TarnIx) (offset : Nat) (req : CxlReq)
  | cxlSnoop (p : Port) (line : Nat)
  | linkSignalDetect (n : LinkIx)
  | linkTrained (n : LinkIx)
  | trainingTimeout (n : LinkIx)
  | trainingRetry (n : LinkIx)
  | helloReceived (n : LinkIx) (flit : Bytes)
  | helloTimeout (n : LinkIx)
  | fecLockLoss (n : LinkIx)
  | drainTimeout (n : LinkIx)
  | dataFlit (n : LinkIx) (flit : Bytes)
  | nakReceived (n : LinkIx) (flit : Bytes)
  | replayTimeout (n : LinkIx)
  | ackDeadline (n : LinkIx)
  | linkTagFailureLimit (n : LinkIx)
  | remoteWrite (n : LinkIx)
  | remoteAtomic (n : LinkIx)
  | remoteRead (n : LinkIx)
  | readData (n : LinkIx)
  | done (n : LinkIx)
  | refused (n : LinkIx)
  | messageForward (n : LinkIx)
  | remoteResponseTimeout (tag : BitVec 32)
  | linkKeyAgreement (n : LinkIx) (p : LinkPartner)
  | linkKeyReplace (n : LinkIx)
  | linkSessionRenew (n : LinkIx) (p : LinkPartner)
  | laneFault (n : LinkIx) (lane : Fin 8)
  | routeUpdate
  | recordPart (n : LinkIx) (frame : Bytes) (fcsOk : Bool)
  | tileFault (tile : Fin 128)
  | sparePlaced (quadrant : Fin 4)
  | channelRetire (s : StackIx) (c : ChanIx)
  | channelCopyDone (s : StackIx) (c : ChanIx)
  | channelLost (s : StackIx) (c : ChanIx)
  | reelUnitFault (s : StackIx) (c : ChanIx)
  | basinLaneFault (j : LaneIx)
  | kaeCoreFault (core : Fin 64)
  | fieldUnitFault
  | controlCoreFault (core : Fin 8)
  | firmwareFault
  | firmwareRestart
  | fatalFault
  | errorRateRetire (u : UnitId) (count : Nat)
  | sysReset
  | sysResetRelease
  | firstBeat
  | brownOut
  | sysClkStop
  | refclkStop (p : Port)
  | spwRefclkStop (k : Fin 3)
  | thermtrip (tj : Int)
  | tamper (c : TamperCause)
  | batteryAbsent (vbatMv : Nat)
  | batteryRestored (vbatMv : Nat)
  | tallyCheckpointAuto
  | checkpointSigned
  | testPortInstruction (i : TestInstr)
  | tlsHandshake (anchorSlot : Nat) (clientKey : Bytes) (paramsOk : Bool)
  | getNonce (req : GmpReq)
  | telemetryRead (req : GmpReq) (items : List Nat)
  | gmpChangeSubmit (req : GmpReq) (force : Bool) (set : Bytes)
  | gmpChangeStatus (req : GmpReq) (changeId : Nat)
  | governorSet (req : GmpReq) (b : Bounds)
  | gmpBistRun (req : GmpReq) (u : UnitId) (code : Nat)
  | unitRetire (req : GmpReq) (u : UnitId)
  | linkReenable (req : GmpReq) (n : LinkIx)
  | timingSet (req : GmpReq) (mode : TimingMode) (domain : BitVec 16) (deviceNo : Fin 64) (priority : BitVec 8)
  | portSet (req : GmpReq) (x8 : Bool) (assign : List Port)
  | linkSet (req : GmpReq) (items : List LinkSetItem)
  | networkSet (req : GmpReq) (b : NetBody)
  | gmpLedgerRead (req : GmpReq) (t : TarnIx) (sel : LedgerSel) (max : Nat)
  | gmpTallyRead (req : GmpReq) (first count : Nat)
  | tallyAck (req : GmpReq) (seq : Nat)
  | checkpoint (req : GmpReq)
  | trustAdd (req : GmpReq) (keyDigest : Bytes) (roles : BitVec 4)
  | trustRemove (req : GmpReq) (slot : Nat)
  | floorSet (req : GmpReq) (t : TarnIx) (floor : Nat)
  | authoritySet (req : GmpReq) (t : TarnIx) (keys : List Bytes)
  | tagKeySet (req : GmpReq) (t : TarnIx) (ephemeral nonce ciphertext tag : Bytes)
  | parentAssign (req : GmpReq) (entry : Nat) (t : TarnIx)
  | parentFree (req : GmpReq) (entry : Nat)
  | rootBlobCreate (req : GmpReq) (entry : Nat) (usage : Nat) (label : Bytes)
  | debugSet (req : GmpReq) (sw : DebugSwitch)
  | lifecycleSet (req : GmpReq) (target : LifeCycle)
  | reprovision (req : GmpReq)
  | tamperArm (req : GmpReq) (n : Fin 4)
  | fwStage (req : GmpReq) (image : Bytes)
  | fwActivate (req : GmpReq) (kernel firmware : Bool) (drainBars : Nat)
  | firmwareDrainEnd
  | fwStatus (req : GmpReq)
  | queryDeviceIdentifiers
  | getFirmwareParameters
  | requestUpdate
  | passComponentTable (components : List Nat)
  | updateComponent (component : Nat) (image : Bytes)
  | activateFirmware
  | getStatus
  | cancelUpdateComponent
  | cancelUpdate
  | getSensorReading (sensor : Nat)
  | getStateSensorReadings (sensor : Nat)
  | operatorDrain (n : LinkIx) (complete : Bool)
  | idleFlit (n : LinkIx) (flit : Bytes)
  | leaderReleaseMessage (t : TarnIx) (round : BitVec 32)
  | tlsSessionEnd (session : Nat)
  | debugReadRequest (req : GmpReq) (kind : DebugKind) (r : Resource) (offset : Nat)
  | portLinkReturn (l : PortLink)
  | hkdfComplete (t : TarnIx) (job : Nat)
  | mainPowerApplied
  | mainPowerRemoved
  | batteryRetentionLost
  deriving DecidableEq, Repr

end Sys2Proof
end

