-- ==== Sys2Proof/Decode.lean ====
section
/-! DEFINITION. The GZ8 takes commands at its ports and pins; no row of spec/opcode_table.json gives bits, so no word spells a
command. -/

namespace Sys2Proof

/-- The command that a word spells by the table's bits: none, since no row of the table has bits (DESIGN CHOICE, log 4). -/
def decodeTableWord (_nbits _w : Nat) : Option Instr := none

end Sys2Proof
end

