-- ==== Sys2Proof/Config.lean ====
section
/-! DEFINITION. What a part fixes and the spec leaves open: fused values, free choices and free values. Each is an opaque
constant, so nothing can be proved of its value; each is named in the assumption log. -/

namespace Sys2Proof

/-- Which of the bytes that R699 allows a figure reads where it has not written: by the figure's ticket, index, tile and offset
(DESIGN CHOICE, log 8). -/
opaque Config.freeScratch : Nat → Nat → Nat → Nat → Nat

/-- The arrival of a figure's unordered requests at the Reel units (R128, R221, R222), by draw: how many have arrived, which is next, or
whether a request arrives at once (DESIGN CHOICE, log 80). -/
opaque Config.arrival : Nat → Nat

/-- A byte whose value the spec leaves undefined, drawn by a counter of the state and a position (DESIGN CHOICE, log 9). -/
opaque Config.freeByte : Nat → Nat → BitVec 8

/-- The on-chip entropy source: byte `i` of draw `n` (DESIGN CHOICE, log 10). -/
opaque Config.entropy : Nat → Nat → BitVec 8

/-- The choice of a ticket-table index among the free ones (R85) (DESIGN CHOICE, log 6). -/
opaque Config.pickIndex : Nat → Nat

/-- The control core, 0 to 7, that serves a ticket's command (R581) (DESIGN CHOICE, log 22). -/
opaque Config.servingCore : Nat → Nat

/-- Byte `i` of the 56 bytes from which the boot ROM derives the DeviceID key (R519) (DESIGN CHOICE, log 11). -/
opaque Config.deviceSecret : Nat → BitVec 8

/-- Byte `i` of the 56 bytes from which the boot ROM derives the Alias key of a kernel digest (R519, R520) (DESIGN CHOICE, log 11). -/
opaque Config.aliasSecret : Bytes → Nat → BitVec 8

/-- The per-signature secret number of an ECDSA signature (FIPS 186 leaves the choice) (DESIGN CHOICE, log 14). -/
opaque Config.ecdsaNonce : Nat → Nat

/-- Subsystem vendor ID and subsystem ID, fused at manufacture (R383) (DESIGN CHOICE, log 17). -/
opaque Config.subsystemVendor : BitVec 16

/-- Subsystem ID (R383) (DESIGN CHOICE, log 17). -/
opaque Config.subsystem : BitVec 16

/-- Fused core voltage V(f) in microvolts, for f in 25 MHz units (R658) (DESIGN CHOICE, log 17). -/
opaque Config.vCore : Nat → Nat

/-- Fused expected signature of a self-test (R635): test code, unit kind (DESIGN CHOICE, log 17). -/
opaque Config.bistExpected : Nat → Nat → BitVec 32

/-- The governor's estimate of package power in milliwatts at a clock, from the last measurement (R630) (DESIGN CHOICE, log 18). -/
opaque Config.powerEstimate : Nat → Nat → Nat → Nat

/-- Byte `i` of the certificate of a level with what it must say (R517, R518) (DESIGN CHOICE, log 13). -/
opaque Config.certByte : Nat → List (BitVec 8) → Nat → BitVec 8

/-- Length in bytes of a certificate of a level with what it must say (DESIGN CHOICE, log 13). -/
opaque Config.certLen : Nat → List (BitVec 8) → Nat

/-- Byte `i` of a telemetry item as TELEMETRY_READ returns it: item, the values it reports, position; the spec gives the values but
not their encoding (R627) (DESIGN CHOICE, log 15). -/
opaque Config.telemetryByte : Nat → Bytes → Nat → BitVec 8

/-- Length in bytes of a telemetry item (DESIGN CHOICE, log 15). -/
opaque Config.telemetryLen : Nat → Bytes → Nat

/-- Byte `i` of a measurement block of Table 09-5 whose encoding the spec does not give: block, the state it reports, position (DESIGN CHOICE, log 16). -/
opaque Config.measureByte : Nat → Bytes → Nat → BitVec 8

/-- Length in bytes of such a block (DESIGN CHOICE, log 16). -/
opaque Config.measureLen : Nat → Bytes → Nat

/-- The initial flit credits that the device advertises for a virtual channel (R342, R360) (DESIGN CHOICE, log 19). -/
opaque Config.initialCredits : Nat → Nat

/-- The time in picoseconds from a beat's start, or from the arrival of the flit forwarded, to the departure of a BEAT flit (R367) (DESIGN CHOICE, log 19). -/
opaque Config.departPs : Nat → Nat

/-- A secret of the SPDM 1.3 key schedule, which DSP0274 defines: which secret, the ECDHE secret, the session, position (PRESUMED, log 12). -/
opaque Config.spdmSecret : Nat → Bytes → Nat → Nat → BitVec 8

/-- Byte `i` of the digest that an SPDM signature covers, which DSP0274 takes over the messages exchanged so far: draw, the message signed (PRESUMED, log 12). -/
opaque Config.spdmDigest : Nat → Bytes → Nat → BitVec 8

/-- ACTION of the GOVERNOR entry that records a changed bound, which Table 12-5 does not give (R628), by bound number (DESIGN CHOICE, log 20). -/
opaque Config.boundAction : Nat → BitVec 8

/-- A field of a GOVERNOR entry that the spec does not state for its ACTION (R632, Table 12-5): SEQ of the entry, ACTION, and the
field: 0 REASON, 1 OBJECT, 2 OLD, 3 NEW (DESIGN CHOICE, log 72). -/
opaque Config.governorField : Nat → Nat → Nat → Nat

/-- Byte `i` of the public key that the boot flash holds for an anchor's key digest (R614) (DESIGN CHOICE, log 21). -/
opaque Config.flashKey : Bytes → Nat → BitVec 8

/-- Which of a Tarn's Basin lanes holds the record of a staging slot: round, slot (R260) (DESIGN CHOICE, log 22). -/
opaque Config.laneChoice : Nat → Nat → Nat

/-- Byte `i` of the Ethernet address of a link's port (R355) (DESIGN CHOICE, log 87). -/
opaque Config.macByte : Nat → Nat → BitVec 8

/-- How many bytes of a retired channel have been copied when it stops responding (R578) (DESIGN CHOICE, log 22). -/
opaque Config.copyProgress : Nat → Nat

end Sys2Proof
end

