-- ==== Sys2Proof/Machine/Bits.lean ====
section
/-! DEFINITION. Byte order, bit fields and list helpers that the structures of the GZ8 use. Integers of the device's structures
are little-endian unless a table says otherwise (R5). -/

namespace Sys2Proof.Machine

/-- `n` bytes of `v`, least significant first. -/
def leBytes : Nat → Nat → Bytes
  | 0, _ => []
  | n + 1, v => BitVec.ofNat 8 v :: leBytes n (v / 256)

/-- `n` bytes of `v`, most significant first. -/
def beBytes (n v : Nat) : Bytes := (leBytes n v).reverse

/-- Value of a little-endian byte string. -/
def leNat : Bytes → Nat
  | [] => 0
  | b :: bs => b.toNat + 256 * leNat bs

/-- Value of a big-endian byte string. -/
def beNat (bs : Bytes) : Nat := leNat bs.reverse

/-- Byte `i` of a structure; 0 beyond its end. -/
def byteAt (bs : Bytes) (i : Nat) : Nat := (bs.getD i 0).toNat

/-- `n` bytes from offset `o`. -/
def slice (bs : Bytes) (o n : Nat) : Bytes := (bs.drop o).take n

/-- The `n`-byte little-endian field at offset `o`. -/
def field (bs : Bytes) (o n : Nat) : Nat := leNat (slice bs o n)

/-- Bits `[hi:lo]` of `v`. -/
def bits (v hi lo : Nat) : Nat := (v >>> lo) % 2 ^ (hi + 1 - lo)

/-- Bit `i` of `v`. -/
def bit (v i : Nat) : Bool := v.testBit i

/-- A Bool as a bit. -/
def b2n (b : Bool) : Nat := if b then 1 else 0

/-- Every byte is zero. -/
def allZero (bs : Bytes) : Bool := bs.all (· == 0)

/-- `n` zero bytes. -/
def zeros (n : Nat) : Bytes := List.replicate n 0

/-- `bs` cut or padded with zeros to `n` bytes. -/
def padTo (n : Nat) (bs : Bytes) : Bytes := (bs ++ zeros (n - bs.length)).take n

/-- The ASCII bytes of a string. -/
def ascii (s : String) : Bytes := s.toList.map fun c => BitVec.ofNat 8 c.toNat

/-- Bytewise exclusive or, as long as the shorter. -/
def xorBytes (a b : Bytes) : Bytes := List.zipWith (· ^^^ ·) a b

/-- Ceiling division. -/
def cdiv (a b : Nat) : Nat := (a + b - 1) / b

/-- The lowest multiple of `m` that is at least `n`. -/
def roundUp (n m : Nat) : Nat := cdiv n m * m

/-- `bs` cut into pieces of `n` bytes, the last possibly shorter (`n` ≥ 1); `fuel` bounds the pieces. -/
def chunksAux (n : Nat) : Nat → Bytes → List Bytes
  | 0, _ => []
  | fuel + 1, bs => if bs.isEmpty then [] else bs.take n :: chunksAux n fuel (bs.drop n)

/-- `bs` cut into pieces of `n` bytes. -/
def chunks (n : Nat) (bs : Bytes) : List Bytes := chunksAux n bs.length bs

/-- Numbers `0 … n-1`. -/
abbrev upto (n : Nat) : List Nat := List.range n

/-- First index at which `p` holds. -/
def findIx {α : Type} (p : α → Bool) (l : List α) : Option Nat := (l.zipIdx.find? fun x => p x.1).map (·.2)

/-- Indexes of the set bits of a mask of width `n`, ascending. -/
def setBits (n : Nat) (mask : Nat) : List Nat := (upto n).filter fun i => mask.testBit i

/-- The mask with exactly the listed bits set. -/
def maskOf (l : List Nat) : Nat := l.foldl (fun m i => m ||| 2 ^ i) 0

/-- Set or clear bit `i`. -/
def putBit (m i : Nat) (b : Bool) : Nat := if b then m ||| 2 ^ i else if m.testBit i then m - 2 ^ i else m

/-- Two ranges of addresses share a byte. -/
def rangesOverlap (a la b lb : Nat) : Bool := a < b + lb && b < a + la && 0 < la && 0 < lb

/-- floor(log2 n), 0 for 0. -/
abbrev flog2 (n : Nat) : Nat := n.log2

/-- `f` applied `n` times. -/
def iter {α : Type} (f : α → α) : Nat → α → α
  | 0, a => a
  | n + 1, a => iter f n (f a)

/-- Insert, or replace, the value of a key in an association list. -/
def assocPut {κ β : Type} [BEq κ] (k : κ) (v : β) : List (κ × β) → List (κ × β)
  | [] => [(k, v)]
  | (k', v') :: l => if k' == k then (k, v) :: l else (k', v') :: assocPut k v l

/-- The value of a key in an association list. -/
def assocGet {κ β : Type} [BEq κ] (k : κ) (l : List (κ × β)) : Option β := (l.find? fun x => x.1 == k).map (·.2)

/-- Remove a key. -/
def assocDel {κ β : Type} [BEq κ] (k : κ) (l : List (κ × β)) : List (κ × β) := l.filter fun x => !(x.1 == k)

/-- Half-open intervals less one interval. -/
def ivSub (lo hi : Nat) : List (Nat × Nat) → List (Nat × Nat)
  | [] => []
  | (a, b) :: l =>
    (if a < min b lo then [(a, min b lo)] else []) ++ (if max a hi < b then [(max a hi, b)] else []) ++ ivSub lo hi l

/-- A CRC with reflected bits: one byte in, `poly` already reflected. -/
def crcByte (poly : Nat) (crc : Nat) (b : Byte) : Nat :=
  iter (fun c => if c.testBit 0 then (c >>> 1) ^^^ poly else c >>> 1) 8 (crc ^^^ b.toNat)

/-- CRC-32C (Castagnoli), initial and final value all ones, reflected. -/
def crc32c (bs : Bytes) : Nat := bs.foldl (crcByte 0x82F63B78) 0xFFFFFFFF ^^^ 0xFFFFFFFF

/-- The frame check sequence of Ethernet: CRC-32, initial and final value all ones, reflected (R355) (PRESUMED, log 87). -/
def crc32 (bs : Bytes) : Nat := bs.foldl (crcByte 0xEDB88320) 0xFFFFFFFF ^^^ 0xFFFFFFFF

/-- CRC-64/XZ, initial and final value all ones, reflected. -/
def crc64xz (bs : Bytes) : Nat :=
  bs.foldl (crcByte 0xC96C5795D7870F42) 0xFFFFFFFFFFFFFFFF ^^^ 0xFFFFFFFFFFFFFFFF

end Sys2Proof.Machine
end

