-- ==== Sys2Proof/Machine/Crypto.lean ====
section
/-! DEFINITION. The published algorithms that the GZ8's rules name: SHA-256 and SHA-384 (FIPS 180-4), HMAC, HKDF (RFC 5869),
AES-256 (FIPS 197) with GCM and GMAC (SP 800-38D) and its counter blocks, ChaCha20 (RFC 8439), X25519 (RFC 7748), ECDSA and
ECDH over P-256 and P-384 (FIPS 186), and Philox-4x32-10 (R147). -/

namespace Sys2Proof.Machine

/-- Round constants of SHA-256 (FIPS 180-4). -/
def sha256K : List Nat :=
  [0x428a2f98, 0x71374491, 0xb5c0fbcf, 0xe9b5dba5, 0x3956c25b, 0x59f111f1, 0x923f82a4, 0xab1c5ed5,
   0xd807aa98, 0x12835b01, 0x243185be, 0x550c7dc3, 0x72be5d74, 0x80deb1fe, 0x9bdc06a7, 0xc19bf174] ++
  [0xe49b69c1, 0xefbe4786, 0x0fc19dc6, 0x240ca1cc, 0x2de92c6f, 0x4a7484aa, 0x5cb0a9dc, 0x76f988da,
   0x983e5152, 0xa831c66d, 0xb00327c8, 0xbf597fc7, 0xc6e00bf3, 0xd5a79147, 0x06ca6351, 0x14292967] ++
  [0x27b70a85, 0x2e1b2138, 0x4d2c6dfc, 0x53380d13, 0x650a7354, 0x766a0abb, 0x81c2c92e, 0x92722c85,
   0xa2bfe8a1, 0xa81a664b, 0xc24b8b70, 0xc76c51a3, 0xd192e819, 0xd6990624, 0xf40e3585, 0x106aa070] ++
  [0x19a4c116, 0x1e376c08, 0x2748774c, 0x34b0bcb5, 0x391c0cb3, 0x4ed8aa4a, 0x5b9cca4f, 0x682e6ff3,
   0x748f82ee, 0x78a5636f, 0x84c87814, 0x8cc70208, 0x90befffa, 0xa4506ceb, 0xbef9a3f7, 0xc67178f2]

/-- Initial hash value of SHA-256. -/
def sha256H0 : List Nat :=
  [0x6a09e667, 0xbb67ae85, 0x3c6ef372, 0xa54ff53a, 0x510e527f, 0x9b05688c, 0x1f83d9ab, 0x5be0cd19]

/-- Round constants of SHA-384 (FIPS 180-4). -/
def sha512K : List Nat :=
  [0x428a2f98d728ae22, 0x7137449123ef65cd, 0xb5c0fbcfec4d3b2f, 0xe9b5dba58189dbbc,
   0x3956c25bf348b538, 0x59f111f1b605d019, 0x923f82a4af194f9b, 0xab1c5ed5da6d8118,
   0xd807aa98a3030242, 0x12835b0145706fbe, 0x243185be4ee4b28c, 0x550c7dc3d5ffb4e2,
   0x72be5d74f27b896f, 0x80deb1fe3b1696b1, 0x9bdc06a725c71235, 0xc19bf174cf692694] ++
  [0xe49b69c19ef14ad2, 0xefbe4786384f25e3, 0x0fc19dc68b8cd5b5, 0x240ca1cc77ac9c65,
   0x2de92c6f592b0275, 0x4a7484aa6ea6e483, 0x5cb0a9dcbd41fbd4, 0x76f988da831153b5,
   0x983e5152ee66dfab, 0xa831c66d2db43210, 0xb00327c898fb213f, 0xbf597fc7beef0ee4,
   0xc6e00bf33da88fc2, 0xd5a79147930aa725, 0x06ca6351e003826f, 0x142929670a0e6e70] ++
  [0x27b70a8546d22ffc, 0x2e1b21385c26c926, 0x4d2c6dfc5ac42aed, 0x53380d139d95b3df,
   0x650a73548baf63de, 0x766a0abb3c77b2a8, 0x81c2c92e47edaee6, 0x92722c851482353b,
   0xa2bfe8a14cf10364, 0xa81a664bbc423001, 0xc24b8b70d0f89791, 0xc76c51a30654be30,
   0xd192e819d6ef5218, 0xd69906245565a910, 0xf40e35855771202a, 0x106aa07032bbd1b8] ++
  [0x19a4c116b8d2d0c8, 0x1e376c085141ab53, 0x2748774cdf8eeb99, 0x34b0bcb5e19b48a8,
   0x391c0cb3c5c95a63, 0x4ed8aa4ae3418acb, 0x5b9cca4f7763e373, 0x682e6ff3d6b2b8a3,
   0x748f82ee5defb2fc, 0x78a5636f43172f60, 0x84c87814a1f0ab72, 0x8cc702081a6439ec,
   0x90befffa23631e28, 0xa4506cebde82bde9, 0xbef9a3f7b2c67915, 0xc67178f2e372532b] ++
  [0xca273eceea26619c, 0xd186b8c721c0c207, 0xeada7dd6cde0eb1e, 0xf57d4f7fee6ed178,
   0x06f067aa72176fba, 0x0a637dc5a2c898a6, 0x113f9804bef90dae, 0x1b710b35131c471b,
   0x28db77f523047d84, 0x32caab7b40c72493, 0x3c9ebe0a15c9bebc, 0x431d67c49c100d4c,
   0x4cc5d4becb3e42b6, 0x597f299cfc657e2a, 0x5fcb6fab3ad6faec, 0x6c44198c4a475817]

/-- Initial hash value of SHA-384. -/
def sha384H0 : List Nat :=
  [0xcbbb9d5dc1059ed8, 0x629a292a367cd507, 0x9159015a3070dd17, 0x152fecd8f70e5939,
   0x67332667ffc00b31, 0x8eb44a8768581511, 0xdb0c2e0d64f98fa7, 0x47b5481dbefa4fa4]

/-- S-box of AES (FIPS 197). -/
def aesSbox : List Nat :=
  [0x63, 0x7c, 0x77, 0x7b, 0xf2, 0x6b, 0x6f, 0xc5, 0x30, 0x01, 0x67, 0x2b, 0xfe, 0xd7, 0xab, 0x76] ++
  [0xca, 0x82, 0xc9, 0x7d, 0xfa, 0x59, 0x47, 0xf0, 0xad, 0xd4, 0xa2, 0xaf, 0x9c, 0xa4, 0x72, 0xc0] ++
  [0xb7, 0xfd, 0x93, 0x26, 0x36, 0x3f, 0xf7, 0xcc, 0x34, 0xa5, 0xe5, 0xf1, 0x71, 0xd8, 0x31, 0x15] ++
  [0x04, 0xc7, 0x23, 0xc3, 0x18, 0x96, 0x05, 0x9a, 0x07, 0x12, 0x80, 0xe2, 0xeb, 0x27, 0xb2, 0x75] ++
  [0x09, 0x83, 0x2c, 0x1a, 0x1b, 0x6e, 0x5a, 0xa0, 0x52, 0x3b, 0xd6, 0xb3, 0x29, 0xe3, 0x2f, 0x84] ++
  [0x53, 0xd1, 0x00, 0xed, 0x20, 0xfc, 0xb1, 0x5b, 0x6a, 0xcb, 0xbe, 0x39, 0x4a, 0x4c, 0x58, 0xcf] ++
  [0xd0, 0xef, 0xaa, 0xfb, 0x43, 0x4d, 0x33, 0x85, 0x45, 0xf9, 0x02, 0x7f, 0x50, 0x3c, 0x9f, 0xa8] ++
  [0x51, 0xa3, 0x40, 0x8f, 0x92, 0x9d, 0x38, 0xf5, 0xbc, 0xb6, 0xda, 0x21, 0x10, 0xff, 0xf3, 0xd2] ++
  [0xcd, 0x0c, 0x13, 0xec, 0x5f, 0x97, 0x44, 0x17, 0xc4, 0xa7, 0x7e, 0x3d, 0x64, 0x5d, 0x19, 0x73] ++
  [0x60, 0x81, 0x4f, 0xdc, 0x22, 0x2a, 0x90, 0x88, 0x46, 0xee, 0xb8, 0x14, 0xde, 0x5e, 0x0b, 0xdb] ++
  [0xe0, 0x32, 0x3a, 0x0a, 0x49, 0x06, 0x24, 0x5c, 0xc2, 0xd3, 0xac, 0x62, 0x91, 0x95, 0xe4, 0x79] ++
  [0xe7, 0xc8, 0x37, 0x6d, 0x8d, 0xd5, 0x4e, 0xa9, 0x6c, 0x56, 0xf4, 0xea, 0x65, 0x7a, 0xae, 0x08] ++
  [0xba, 0x78, 0x25, 0x2e, 0x1c, 0xa6, 0xb4, 0xc6, 0xe8, 0xdd, 0x74, 0x1f, 0x4b, 0xbd, 0x8b, 0x8a] ++
  [0x70, 0x3e, 0xb5, 0x66, 0x48, 0x03, 0xf6, 0x0e, 0x61, 0x35, 0x57, 0xb9, 0x86, 0xc1, 0x1d, 0x9e] ++
  [0xe1, 0xf8, 0x98, 0x11, 0x69, 0xd9, 0x8e, 0x94, 0x9b, 0x1e, 0x87, 0xe9, 0xce, 0x55, 0x28, 0xdf] ++
  [0x8c, 0xa1, 0x89, 0x0d, 0xbf, 0xe6, 0x42, 0x68, 0x41, 0x99, 0x2d, 0x0f, 0xb0, 0x54, 0xbb, 0x16]

/-- Right rotation of a `w`-bit word. -/
def rotr (w n x : Nat) : Nat := (x >>> n) ||| ((x <<< (w - n)) % 2 ^ w)

/-- The parameters in which SHA-256 and SHA-512 differ. -/
structure ShaPar where
  w : Nat
  k : List Nat
  s0 : Nat × Nat × Nat
  s1 : Nat × Nat × Nat
  e0 : Nat × Nat × Nat
  e1 : Nat × Nat × Nat

/-- The functions of SHA-256. -/
def par256 : ShaPar := ⟨32, sha256K, (7, 18, 3), (17, 19, 10), (2, 13, 22), (6, 11, 25)⟩

/-- The functions of SHA-512, on which SHA-384 rests. -/
def par512 : ShaPar := ⟨64, sha512K, (1, 8, 7), (19, 61, 6), (28, 34, 39), (14, 18, 41)⟩

/-- The small sigma functions. -/
def shaSmall (p : ShaPar) (c : Nat × Nat × Nat) (x : Nat) : Nat :=
  rotr p.w c.1 x ^^^ rotr p.w c.2.1 x ^^^ (x >>> c.2.2)

/-- The big sigma functions. -/
def shaBig (p : ShaPar) (c : Nat × Nat × Nat) (x : Nat) : Nat :=
  rotr p.w c.1 x ^^^ rotr p.w c.2.1 x ^^^ rotr p.w c.2.2 x

/-- One more message-schedule word: `win` holds the last sixteen, oldest first. -/
def shaNextW (p : ShaPar) (win : List Nat) : Nat :=
  (shaSmall p p.s1 (win.getD 14 0) + win.getD 9 0 + shaSmall p p.s0 (win.getD 1 0) + win.getD 0 0) % 2 ^ p.w

/-- The rounds: the working variables `a … h` and the window of schedule words, over the round constants. -/
def shaRounds (p : ShaPar) : List Nat → List Nat → List Nat → List Nat
  | k :: ks, win, [a, b, c, d, e, f, g, h] =>
    let m := 2 ^ p.w
    let ch := (e &&& f) ^^^ ((m - 1 - e) &&& g)
    let maj := (a &&& b) ^^^ (a &&& c) ^^^ (b &&& c)
    let t1 := h + shaBig p p.e1 e + ch + k + win.getD 0 0
    let t2 := shaBig p p.e0 a + maj
    shaRounds p ks (win.drop 1 ++ [shaNextW p win]) [(t1 + t2) % m, a, b, c, (d + t1) % m, e, f, g]
  | _, _, v => v

/-- Compression of one block into the chaining value. -/
def shaBlock (p : ShaPar) (h : List Nat) (block : Bytes) : List Nat :=
  let win := (chunks (p.w / 8) block).map beNat
  List.zipWith (fun x y => (x + y) % 2 ^ p.w) h (shaRounds p p.k win h)

/-- Padding of a message of `n` bytes. -/
def shaPad (p : ShaPar) (n : Nat) : Bytes :=
  let blk := 2 * p.w
  let lenB := p.w / 4
  let z := (blk - (n + 1 + lenB) % blk) % blk
  0x80 :: (zeros z ++ beBytes lenB (8 * n))

/-- The hash of a message. -/
def shaHash (p : ShaPar) (h0 : List Nat) (m : Bytes) : List Nat :=
  (chunks (2 * p.w) (m ++ shaPad p m.length)).foldl (shaBlock p) h0

/-- SHA-256. -/
def sha256 (m : Bytes) : Bytes := ((shaHash par256 sha256H0 m).map (beBytes 4)).flatten

/-- SHA-384. -/
def sha384 (m : Bytes) : Bytes := (((shaHash par512 sha384H0 m).map (beBytes 8)).flatten).take 48

/-- HMAC over a hash with block size `blk`. -/
def hmacOf (hash : Bytes → Bytes) (blk : Nat) (key m : Bytes) : Bytes :=
  let k := padTo blk (if key.length > blk then hash key else key)
  hash (k.map (· ^^^ 0x5c) ++ hash (k.map (· ^^^ 0x36) ++ m))

/-- HMAC-SHA-384. -/
def hmac384 (key m : Bytes) : Bytes := hmacOf sha384 128 key m

/-- HMAC-SHA-256. -/
def hmac256 (key m : Bytes) : Bytes := hmacOf sha256 64 key m

/-- The blocks T(i) of HKDF-Expand. -/
def hkdfBlocks (mac : Bytes → Bytes → Bytes) (prk info : Bytes) : Nat → Nat → Bytes → Bytes
  | 0, _, _ => []
  | n + 1, i, prev =>
    let t := mac prk (prev ++ info ++ [BitVec.ofNat 8 i])
    t ++ hkdfBlocks mac prk info n (i + 1) t

/-- HKDF-Expand with SHA-384. -/
def hkdfExpand384 (prk info : Bytes) (len : Nat) : Bytes :=
  (hkdfBlocks hmac384 prk info (cdiv len 48) 1 []).take len

/-- HKDF with SHA-384; an empty salt is 48 zero bytes (RFC 5869). -/
def hkdf384 (salt ikm info : Bytes) (len : Nat) : Bytes := hkdfExpand384 (hmac384 salt ikm) info len

/-- HKDF with SHA-256. -/
def hkdf256 (salt ikm info : Bytes) (len : Nat) : Bytes :=
  (hkdfBlocks hmac256 (hmac256 salt ikm) info (cdiv len 32) 1 []).take len

/-- Doubling in the field of AES. -/
def aesXtime (a : Nat) : Nat := if a.testBit 7 then ((a <<< 1) % 256) ^^^ 0x1b else a <<< 1

/-- S-box look-up. -/
def aesSub (a : Nat) : Nat := aesSbox.getD a 0

/-- The sixty words of the AES-256 key schedule, four bytes each, newest first in `acc`; `i` is the next word's number. -/
def aesExpand : Nat → Nat → Nat → List (List Nat) → List (List Nat)
  | 0, _, _, acc => acc
  | n + 1, i, rcon, acc =>
    let t := acc.getD 0 []
    let back := acc.getD 7 []
    let rot := (t.drop 1 ++ t.take 1).map aesSub
    let t' := if i % 8 == 0 then List.zipWith (· ^^^ ·) rot [rcon, 0, 0, 0]
              else if i % 8 == 4 then t.map aesSub else t
    aesExpand n (i + 1) (if i % 8 == 0 then aesXtime rcon else rcon) (List.zipWith (· ^^^ ·) back t' :: acc)

/-- The fifteen round keys of AES-256, sixteen bytes each. -/
def aesKeys (key : Bytes) : List (List Nat) :=
  let k0 := ((chunks 4 key).map fun w => w.map BitVec.toNat).reverse
  let ws := (aesExpand 52 8 1 k0).reverse
  (upto 15).map fun r => ((ws.drop (4 * r)).take 4).flatten

/-- ShiftRows, the state in column order. -/
def aesShift (s : List Nat) : List Nat := (upto 16).map fun i => s.getD ((i + 4 * (i % 4)) % 16) 0

/-- MixColumns on one column. -/
def aesMixCol (c : List Nat) : List Nat :=
  (upto 4).map fun i =>
    let a := fun j => c.getD ((i + j) % 4) 0
    aesXtime (a 0) ^^^ (aesXtime (a 1) ^^^ a 1) ^^^ a 2 ^^^ a 3

/-- MixColumns. -/
def aesMix (s : List Nat) : List Nat := ((upto 4).map fun c => aesMixCol ((s.drop (4 * c)).take 4)).flatten

/-- The rounds after the first key addition. -/
def aesRounds : List (List Nat) → List Nat → List Nat
  | [], s => s
  | [k], s => List.zipWith (· ^^^ ·) (aesShift (s.map aesSub)) k
  | k :: ks, s => aesRounds ks (List.zipWith (· ^^^ ·) (aesMix (aesShift (s.map aesSub))) k)

/-- One block of AES-256 under expanded keys. -/
def aesBlockK (ks : List (List Nat)) (b : Bytes) : Bytes :=
  (aesRounds (ks.drop 1) (List.zipWith (· ^^^ ·) (b.map BitVec.toNat) (ks.getD 0 []))).map (BitVec.ofNat 8)

/-- One block of AES-256. -/
def aes256Block (key b : Bytes) : Bytes := aesBlockK (aesKeys key) b

/-- Multiplication in the field of GHASH, both operands as 128-bit big-endian numbers; `i` bits of `x` remain. -/
def ghashMul (x : Nat) : Nat → Nat → Nat → Nat
  | 0, _, z => z
  | i + 1, v, z =>
    ghashMul x i (if v.testBit 0 then (v >>> 1) ^^^ 0xE1000000000000000000000000000000 else v >>> 1)
      (if x.testBit i then z ^^^ v else z)

/-- GHASH of a string of whole blocks. -/
def ghash (h : Nat) (bs : Bytes) : Nat :=
  (chunks 16 bs).foldl (fun y b => ghashMul (y ^^^ beNat b) 128 h 0) 0

/-- Zero-padding to a whole number of 16-byte blocks. -/
def pad16 (bs : Bytes) : Bytes := bs ++ zeros (roundUp bs.length 16 - bs.length)

/-- The key stream of GCM from counter `c`, for the given pieces of text. -/
def gcmStream (ks : List (List Nat)) (nonce : Bytes) : Nat → List Bytes → Bytes
  | _, [] => []
  | c, p :: ps => xorBytes p (aesBlockK ks (nonce ++ beBytes 4 c)) ++ gcmStream ks nonce (c + 1) ps

/-- The tag of AES-256-GCM over ciphertext and additional data, with a 12-byte nonce. -/
def gcmTag (ks : List (List Nat)) (nonce aad ct : Bytes) : Bytes :=
  let h := beNat (aesBlockK ks (zeros 16))
  let s := ghash h (pad16 aad ++ pad16 ct ++ beBytes 8 (8 * aad.length) ++ beBytes 8 (8 * ct.length))
  xorBytes (beBytes 16 s) (aesBlockK ks (nonce ++ beBytes 4 1))

/-- AES-256-GCM encryption: ciphertext and 16-byte tag. -/
def gcmSeal (key nonce aad pt : Bytes) : Bytes × Bytes :=
  let ks := aesKeys key
  let ct := gcmStream ks nonce 2 (chunks 16 pt)
  (ct, gcmTag ks nonce aad ct)

/-- AES-256-GCM decryption: the plaintext when the tag verifies. -/
def gcmOpen (key nonce aad ct tag : Bytes) : Option Bytes :=
  let ks := aesKeys key
  if gcmTag ks nonce aad ct == tag then some (gcmStream ks nonce 2 (chunks 16 ct)) else none

/-- AES-256-GMAC: the tag over additional data alone (R341). -/
def gmac (key nonce aad : Bytes) : Bytes := gcmTag (aesKeys key) nonce aad []

/-- Left rotation of a 32-bit word. -/
def rotl32 (x n : Nat) : Nat := ((x <<< n) % 2 ^ 32) ||| (x >>> (32 - n))

/-- The quarter round of ChaCha20 on positions `a b c d`. -/
def chachaQuarter (s : List Nat) (a b c d : Nat) : List Nat :=
  let add := fun (s : List Nat) (i j : Nat) => s.set i ((s.getD i 0 + s.getD j 0) % 2 ^ 32)
  let xr := fun (s : List Nat) (i j n : Nat) => s.set i (rotl32 (s.getD i 0 ^^^ s.getD j 0) n)
  let s := xr (add s a b) d a 16
  let s := xr (add s c d) b c 12
  let s := xr (add s a b) d a 8
  xr (add s c d) b c 7

/-- Two rounds of ChaCha20. -/
def chachaDouble (s : List Nat) : List Nat :=
  let s := chachaQuarter (chachaQuarter (chachaQuarter (chachaQuarter s 0 4 8 12) 1 5 9 13) 2 6 10 14) 3 7 11 15
  chachaQuarter (chachaQuarter (chachaQuarter (chachaQuarter s 0 5 10 15) 1 6 11 12) 2 7 8 13) 3 4 9 14

/-- The ChaCha20 block function: 64 bytes. -/
def chachaBlock (key : Bytes) (counter : Nat) (nonce : Bytes) : Bytes :=
  let s := [0x61707865, 0x3320646e, 0x79622d32, 0x6b206574] ++ (chunks 4 key).map leNat ++ [counter % 2 ^ 32]
    ++ (chunks 4 nonce).map leNat
  (List.zipWith (fun x y => leBytes 4 ((x + y) % 2 ^ 32)) s (iter chachaDouble 10 s)).flatten

/-- Modular power by the bits of the exponent, `n` bits from the top. -/
def powModAux (m b e : Nat) : Nat → Nat → Nat
  | 0, acc => acc
  | n + 1, acc =>
    let a2 := acc * acc % m
    powModAux m b e n (if e.testBit n then a2 * b % m else a2)

/-- `b ^ e mod m`. -/
def powMod (m b e : Nat) : Nat := powModAux m (b % m) e (e.log2 + 1) (1 % m)

/-- Inverse modulo a prime. -/
def invMod (p a : Nat) : Nat := powMod p a (p - 2)

/-- Subtraction modulo `p` of reduced values. -/
def subMod (p a b : Nat) : Nat := (a + p - b % p) % p

/-- The prime of X25519. -/
def p25519 : Nat := 2 ^ 255 - 19

/-- The Montgomery ladder of RFC 7748, bit by bit from the top: (x2, z2) and (x3, z3). -/
def ladder25519 (k u : Nat) : Nat → Nat → Nat → Nat → Nat → Nat × Nat
  | 0, x2, z2, _, _ => (x2, z2)
  | n + 1, x2, z2, x3, z3 =>
    let p := p25519
    let sw := k.testBit n
    let (x2, x3) := if sw then (x3, x2) else (x2, x3)
    let (z2, z3) := if sw then (z3, z2) else (z2, z3)
    let a := (x2 + z2) % p
    let aa := a * a % p
    let b := subMod p x2 z2
    let bb := b * b % p
    let e := subMod p aa bb
    let c := (x3 + z3) % p
    let d := subMod p x3 z3
    let da := d * a % p
    let cb := c * b % p
    let s := (da + cb) % p
    let t := subMod p da cb
    let x3' := s * s % p
    let z3' := u * (t * t % p) % p
    let x2' := aa * bb % p
    let z2' := e * ((aa + 121665 * e) % p) % p
    if sw then ladder25519 k u n x3' z3' x2' z2' else ladder25519 k u n x2' z2' x3' z3'

/-- The scalar of RFC 7748 from 32 bytes. -/
def clamp25519 (k : Bytes) : Nat :=
  let v := leNat k
  (v % 2 ^ 254 / 8 * 8) + 2 ^ 254

/-- X25519 of RFC 7748: scalar bytes and u-coordinate bytes to 32 bytes. -/
def x25519 (k u : Bytes) : Bytes :=
  let u' := (leNat u % 2 ^ 255) % p25519
  let r := ladder25519 (clamp25519 k) u' 255 1 0 u' 1
  leBytes 32 (r.1 * invMod p25519 r.2 % p25519)

/-- A short Weierstrass curve with a = -3. -/
structure Curve where
  p : Nat
  b : Nat
  n : Nat
  gx : Nat
  gy : Nat
  len : Nat

/-- NIST P-256. -/
def p256 : Curve :=
  { p := 0xffffffff00000001000000000000000000000000ffffffffffffffffffffffff
    b := 0x5ac635d8aa3a93e7b3ebbd55769886bc651d06b0cc53b0f63bce3c3e27d2604b
    n := 0xffffffff00000000ffffffffffffffffbce6faada7179e84f3b9cac2fc632551
    gx := 0x6b17d1f2e12c4247f8bce6e563a440f277037d812deb33a0f4a13945d898c296
    gy := 0x4fe342e2fe1a7f9b8ee7eb4a7c0f9e162bce33576b315ececbb6406837bf51f5
    len := 32 }

/-- NIST P-384. -/
def p384 : Curve :=
  { p := 0xfffffffffffffffffffffffffffffffffffffffffffffffffffffffffffffffeffffffff0000000000000000ffffffff
    b := 0xb3312fa7e23ee7e4988e056be3f82d19181d9c6efe8141120314088f5013875ac656398d8a2ed19d2a85c8edd3ec2aef
    n := 0xffffffffffffffffffffffffffffffffffffffffffffffffc7634d81f4372ddf581a0db248b0a77aecec196accc52973
    gx := 0xaa87ca22be8b05378eb1c71ef320ad746e1d3b628ba79b9859f741e082542a385502f25dbf55296c3a545e3872760ab7
    gy := 0x3617de4a96262c6f5d9e98bf9292dc29f8f41dbd289a147ce9da3113b5f0b8c00a60b1ce1d7e819d7a431d7c90ea0e5f
    len := 48 }

/-- A point is on the curve, with reduced coordinates. -/
def onCurve (c : Curve) (x y : Nat) : Bool :=
  x < c.p && y < c.p && (y * y) % c.p == (x * x * x + (c.p - 3) * x + c.b) % c.p

/-- A point in Jacobian coordinates; z = 0 is the point at infinity. -/
abbrev Jac := Nat × Nat × Nat

/-- Point doubling. -/
def jacDouble (c : Curve) (q : Jac) : Jac :=
  let p := c.p
  let (x, y, z) := q
  if z == 0 || y == 0 then (1, 1, 0) else
  let zz := z * z % p
  let m := 3 * (subMod p x zz * ((x + zz) % p)) % p
  let yy := y * y % p
  let s := 4 * x * yy % p
  let x' := subMod p (m * m % p) (2 * s % p)
  let y' := subMod p (m * subMod p s x' % p) (8 * yy * yy % p)
  (x', y', 2 * y * z % p)

/-- Point addition. -/
def jacAdd (c : Curve) (q r : Jac) : Jac :=
  let p := c.p
  let (x1, y1, z1) := q
  let (x2, y2, z2) := r
  if z1 == 0 then r else if z2 == 0 then q else
  let z1z := z1 * z1 % p
  let z2z := z2 * z2 % p
  let u1 := x1 * z2z % p
  let u2 := x2 * z1z % p
  let s1 := y1 * z2 * z2z % p
  let s2 := y2 * z1 * z1z % p
  if u1 == u2 then (if s1 == s2 then jacDouble c q else (1, 1, 0)) else
  let h := subMod p u2 u1
  let rr := subMod p s2 s1
  let hh := h * h % p
  let hhh := h * hh % p
  let v := u1 * hh % p
  let x3 := subMod p (subMod p (rr * rr % p) hhh) (2 * v % p)
  let y3 := subMod p (rr * subMod p v x3 % p) (s1 * hhh % p)
  (x3, y3, h * z1 * z2 % p)

/-- Scalar multiplication by the bits of `k`, `n` bits from the top. -/
def jacMulAux (c : Curve) (k : Nat) (q : Jac) : Nat → Jac → Jac
  | 0, acc => acc
  | n + 1, acc =>
    let d := jacDouble c acc
    jacMulAux c k q n (if k.testBit n then jacAdd c d q else d)

/-- Scalar multiplication. -/
def jacMul (c : Curve) (k : Nat) (q : Jac) : Jac := jacMulAux c k q (k.log2 + 1) (1, 1, 0)

/-- Affine coordinates, none at infinity. -/
def jacAffine (c : Curve) (q : Jac) : Option (Nat × Nat) :=
  if q.2.2 == 0 then none else
  let zi := invMod c.p q.2.2
  let zi2 := zi * zi % c.p
  some (q.1 * zi2 % c.p, q.2.1 * (zi2 * zi % c.p) % c.p)

/-- The public point of a private key. -/
def ecPub (c : Curve) (d : Nat) : Option (Nat × Nat) := jacAffine c (jacMul c d (c.gx, c.gy, 1))

/-- A point in uncompressed SEC 1 form. -/
def sec1 (c : Curve) (q : Option (Nat × Nat)) : Bytes :=
  match q with
  | some (x, y) => 0x04 :: (beBytes c.len x ++ beBytes c.len y)
  | none => zeros (2 * c.len + 1)

/-- The coordinates of an uncompressed SEC 1 point on the curve. -/
def unSec1 (c : Curve) (bs : Bytes) : Option (Nat × Nat) :=
  let x := beNat (slice bs 1 c.len)
  let y := beNat (slice bs (1 + c.len) c.len)
  if bs.length == 2 * c.len + 1 && byteAt bs 0 == 4 && onCurve c x y then some (x, y) else none

/-- ECDH: the x-coordinate of the shared point as big-endian bytes, none at infinity. -/
def ecdh (c : Curve) (d : Nat) (q : Nat × Nat) : Option Bytes :=
  (jacAffine c (jacMul c d (q.1, q.2, 1))).map fun r => beBytes c.len r.1

/-- ECDSA P-384 signature of a digest with a given nonce: r then s, 48 bytes big-endian each. -/
def ecdsaSign (d k : Nat) (digest : Bytes) : Bytes :=
  let c := p384
  let r := match ecPub c k with
    | some (x, _) => x % c.n
    | none => 0
  let s := invMod c.n k * ((beNat digest + r * d) % c.n) % c.n
  beBytes 48 r ++ beBytes 48 s

/-- ECDSA P-384 verification of r then s over a digest under a 97-byte public key. -/
def ecdsaVerify (pub digest sig : Bytes) : Bool :=
  let c := p384
  let r := beNat (sig.take 48)
  let s := beNat ((sig.drop 48).take 48)
  match unSec1 c pub with
  | none => false
  | some q =>
    if r == 0 || s == 0 || r ≥ c.n || s ≥ c.n || sig.length != 96 then false else
    let w := invMod c.n s
    let u1 := beNat digest * w % c.n
    let u2 := r * w % c.n
    match jacAffine c (jacAdd c (jacMul c u1 (c.gx, c.gy, 1)) (jacMul c u2 (q.1, q.2, 1))) with
    | some (x, _) => x % c.n == r
    | none => false

/-- The private key that 56 derived bytes give (R466): (c mod (n − 1)) + 1. -/
def p384Key (bs : Bytes) : Nat := beNat bs % (p384.n - 1) + 1

/-- One round of Philox-4x32 (R147). -/
def philoxRound (k0 k1 n : Nat) (c : Nat × Nat × Nat × Nat) : Nat × Nat × Nat × Nat :=
  let (c0, c1, c2, c3) := c
  let key0 := (k0 + n * 0x9E3779B9) % 2 ^ 32
  let key1 := (k1 + n * 0xBB67AE85) % 2 ^ 32
  let p0 := 0xD2511F53 * c0
  let p1 := 0xCD9E8D57 * c2
  ((p1 / 2 ^ 32) ^^^ c1 ^^^ key0, p1 % 2 ^ 32, (p0 / 2 ^ 32) ^^^ c3 ^^^ key1, p0 % 2 ^ 32)

/-- The random value of an element (R147). -/
def srRandom (seed figureIndex site i j : Nat) : Nat :=
  let h := sha256 (ascii "GZ8-SR1" ++ leBytes 8 seed ++ leBytes 4 figureIndex)
  let k0 := field h 0 4
  let k1 := field h 4 4
  let c := (upto 10).foldl (fun c n => philoxRound k0 k1 n c) (j / 4 % 2 ^ 32, i % 2 ^ 32, site, 0)
  let w := match j % 4 with
    | 0 => c.1
    | 1 => c.2.1
    | 2 => c.2.2.1
    | _ => c.2.2.2
  w % 65536

end Sys2Proof.Machine
end

