-- ==== Sys2Proof/Machine/State.lean ====
section
/-! DEFINITION. The state of the GZ8 as plain data: every register, table, buffer, mode and pin that the spec gives the device,
the queue of waiting commands, and the state right after reset (R664). Field defaults are reset values. -/

namespace Sys2Proof.Machine

/-- The model stops with a fault on no command: every command of the table has an effect on every state. -/
inductive Fault where
  deriving DecidableEq, Repr

/-- Reasons a command has no meaning. -/
inductive Refusal where
  /-- Raised by an arm of `exec` whose command has no meaning in the model yet. Safe: the machine stops. -/
  | notModelled (mnemonic : String)
  deriving DecidableEq, Repr

/-- Status codes of Table 02-12. -/
inductive Status where
  | ok | partialRead | ticketQuota | badCommand | notPermitted | keyRevoked | keyOrphaned | overrun | unitFailed | dataLost
  | abortedByRecovery | staged | busyChange | rekeyDue | sessionExhausted | belowFloor | recoveryRefused | notOnCurve
  | noncanonical | zeroSecret | invalidScalar | invalidShare | duplicate | late | headroom | counterExhausted | rootLost
  | debugLocked | roundAborted | timeout
  deriving DecidableEq, Repr

/-- Ticket classes, highest first (R24, Table 01-2). -/
inductive TClass where
  | express | basin | steady | house
  deriving DecidableEq, Repr

/-- Slot codes (R43). -/
inductive SlotCode where
  | idle | express | steady | basin | house
  deriving DecidableEq, Repr

/-- A schedule table row (Table 01-6). -/
structure SchedRow where
  tg : List SlotCode := List.replicate 16 .house
  lane : List SlotCode := List.replicate 16 .house
  tgLend : BitVec 16 := 0
  deriving DecidableEq, Repr

/-- A schedule table: header (Table 01-5) and one row per beat of the bar; BAR_BEATS is the number of rows. -/
structure SchedTable where
  tableId : BitVec 32 := 0
  beatUs : Nat := 40
  clkFloor : Nat := 48
  rows : List SchedRow := List.replicate 16 {}
  deriving DecidableEq, Repr

/-- Rack-wide beat alignment of this device (R49 to R60, R367 to R369). -/
structure Timing where
  mode : TimingMode := .internal
  domain : BitVec 16 := 0
  deviceNo : Fin 64 := 0
  priority : BitVec 8 := 255
  /-- DEV_STATE.HOLDOVER (R59, R60). -/
  holdover : Bool := false
  /-- BEAT_IN carries valid pulses. -/
  beatInValid : Bool := false
  /-- BEAT_US or BAR_BEATS differ from the domain's (R50). -/
  mismatch : Bool := false
  /-- Serial of the leader followed; empty for none. -/
  leader : Bytes := []
  /-- Links to the leader; 255 when not aligned. -/
  hops : Nat := 255
  /-- Link toward the leader. -/
  upstream : Option LinkIx := none
  /-- Phase still to be corrected, in picoseconds; positive lengthens the work window (R52). -/
  owedPs : Int := 0
  /-- Change of the current work window, in picoseconds. -/
  windowPs : Int := 0
  /-- A join waiting for the bar boundary: offset in ns (R53). -/
  join : Option Nat := none
  /-- Picoseconds of device time beyond the whole microseconds counted (R17, R52). -/
  fracPs : Int := 0
  /-- Serial of a leader whose beat marks stopped, which does not stand again while it calls itself leader (R59). -/
  gone : Bytes := []
  /-- Measured delay of each link in picoseconds. -/
  linkDelay : List Int := List.replicate 12 0
  /-- Bars since the leader's marks stopped (R59). -/
  lostBars : Nat := 0
  /-- Beats of valid BEAT_IN pulses since holdover (R60). -/
  validPulses : Nat := 0
  /-- Expected pulses missed in a row. -/
  missed : Nat := 0
  deriving DecidableEq, Repr

/-- Final outcome of a consumed entry, held until its completion is posted (R91). -/
structure Comp where
  status : Status
  progress : Bool := false
  overrunSeen : Bool := false
  tagValid : Bool := false
  ticketId : BitVec 32 := 0xFFFFFFFF
  result0 : BitVec 32 := 0
  result1 : BitVec 64 := 0
  deriving DecidableEq, Repr

/-- A consumed entry whose completion is not yet posted, in ring order (R91). -/
structure PostItem where
  commandId : BitVec 16
  irqNow : Bool := false
  /-- The ticket, when one was created. -/
  uid : Option Nat := none
  comp : Option Comp := none
  /-- A FENCE entry not yet admitted (R86): its bytes. -/
  fence : Option Bytes := none
  deriving DecidableEq, Repr

/-- A completion counted toward an interrupt (R95). -/
structure Counted where
  beat : Nat
  irqNow : Bool
  deriving DecidableEq, Repr

/-- One queue pair (Table 02-3, Table 02-4) with the GZ8's copies of the host's indices. -/
structure Qp where
  sqBase : BitVec 64 := 0
  cqBase : BitVec 64 := 0
  sqBaseLo : Option (BitVec 32) := none
  cqBaseLo : Option (BitVec 32) := none
  depthLog2 : BitVec 4 := 6
  enable : Bool := false
  qclass : BitVec 2 := 2
  vector : BitVec 6 := 0
  irqEn : Bool := false
  coalCount : BitVec 8 := 1
  coalBeats : BitVec 4 := 0
  error : Bool := false
  cause : BitVec 4 := 0
  sqHead : BitVec 16 := 0
  sqTail : BitVec 16 := 0
  cqHead : BitVec 16 := 0
  cqTail : BitVec 16 := 0
  /-- Entries consumed and not yet posted, oldest first; their number is OUTSTANDING. -/
  order : List PostItem := []
  counted : List Counted := []
  /-- Entries read from the ring and not yet consumed, oldest first. -/
  fetched : List Bytes := []
  /-- Entries asked for by the outstanding ring read; 0 when none is outstanding. -/
  reading : Nat := 0
  /-- Device time at which it went out (R390). -/
  readUs : Nat := 0
  /-- A completion write has failed since the last enable (R102). -/
  withhold : Bool := false
  deriving DecidableEq, Repr

/-- An entry of the MSI-X table (R96). -/
structure MsixEntry where
  addrLo : BitVec 32 := 0
  addrHi : BitVec 32 := 0
  data : BitVec 32 := 0
  mask : Bool := true
  deriving DecidableEq, Repr

/-- An advisory waiting for step 10 (R77). -/
structure Advisory where
  kind : Nat
  status : Status
  ticketId : BitVec 32 := 0xFFFFFFFF
  result0 : BitVec 32 := 0
  result1 : BitVec 64 := 0
  deriving DecidableEq, Repr

/-- An SPDM session of a confidential Tarn function (R402, R406, R409 to R415). -/
structure Session where
  id : BitVec 32
  established : Bool := false
  exportSecret : Bytes := []
  /-- Request-direction and response-direction secrets of secured messages. -/
  reqSecret : Bytes := []
  rspSecret : Bytes := []
  /-- Highest host-to-device SEQ accepted. -/
  h2dHigh : Option Nat := none
  /-- SEQs accepted within the replay window. -/
  h2dSeen : List Nat := []
  /-- Device-to-host records written. -/
  d2hNext : Nat := 0
  tagFails : Nat := 0
  rekeyPosted : Bool := false
  exhausted : Bool := false
  deriving DecidableEq, Repr

/-- SPDM negotiation of a function (R398, R399). -/
structure SpdmConn where
  version : Bool := false
  caps : Bool := false
  algs : Bool := false
  deriving DecidableEq, Repr

/-- A bounce area (R403). -/
structure BounceArea where
  base : Nat
  len : Nat
  session : BitVec 32
  deriving DecidableEq, Repr

/-- The registers of a Tarn function (Table 02-2) and its PCIe state. -/
structure FnRegs where
  qps : List Qp := List.replicate 64 {}
  advSummary : BitVec 6 := 0
  advMask : BitVec 6 := 0
  advBase : BitVec 64 := 0
  advBaseLo : Option (BitVec 32) := none
  advEnable : Bool := false
  advVector : BitVec 6 := 0
  advLost : BitVec 32 := 0
  advTail : BitVec 16 := 0
  advHead : BitVec 16 := 0
  /-- Latched upper half of BEAT (R65). -/
  beatLatch : Option (BitVec 32) := none
  msix : List MsixEntry := List.replicate 64 {}
  msixPending : BitVec 64 := 0
  busMaster : Bool := false
  /-- Completion timeout encoding of Device Control 2 (R390). -/
  ctoEnc : BitVec 4 := 0
  /-- The function is in D3hot (R385, R392). -/
  d3hot : Bool := false
  /-- Uncorrectable error status of Advanced Error Reporting (R385, R389). -/
  aer : BitVec 32 := 0
  advisories : List Advisory := []
  /-- An advisory of this seam set an unmasked summary bit (R97). -/
  advOwed : Bool := false
  sessions : List Session := []
  bounce : Option BounceArea := none
  conn : SpdmConn := {}
  /-- Tickets whose records a recovery action still owes (R568). -/
  recovering : List Nat := []
  /-- A device-wide recovery action touches this Tarn (R568). -/
  recoverAll : Bool := false
  deriving DecidableEq, Repr

/-- STATE of a ledger record (Table 02-10). -/
inductive LState where
  | queued | running | complete | failed | evicted
  deriving DecidableEq, Repr

/-- A completion-ledger record (Table 02-10). -/
structure LedgerRec where
  ticketId : BitVec 32
  /-- Admission serial number of the ticket: the order of R704. -/
  uid : Nat := 0
  commandId : BitVec 16
  qp : Nat
  cls : TClass
  restartable : Bool := false
  overrunSeen : Bool := false
  state : LState := .queued
  status : Status := .ok
  overruns : Nat := 0
  stagesDone : Nat := 0
  figuresTotal : Nat := 0
  figuresDone : Nat := 0
  admitBeat : Nat
  commitBeat : Nat
  extentBase : Nat := 0
  extentLen : Nat := 0
  basinRound : Nat := 0
  basinAccepted : Nat := 0
  deriving DecidableEq, Repr

/-- Figure program of a SUBMIT_GRAPH ticket: the header fields and the argument block (R121, R126). -/
structure Graph where
  base : Nat
  figures : Nat
  stages : Nat
  descOff : Nat
  opsOff : Nat
  totalLen : Nat
  args : Bytes
  first : Nat
  /-- Next figure to come to placement. -/
  next : Nat
  /-- Figures below `next` that were deferred and wait for a slot again (R36). -/
  back : List Nat := []
  /-- Figures committed, each with its extent when it has one (R702). -/
  committed : List (Nat × Option (Nat × Nat)) := []
  /-- The figure committed last was recorded as an overrun (R38). -/
  lastOver : Bool := false
  deriving DecidableEq, Repr

/-- One host read of at most 4 KiB still to issue or outstanding; `dev` is the device address its data is written to as it stands, `chk` the
device range that its data comes to after decryption (R439). -/
structure DmaChunk where
  addr : Nat
  len : Nat
  dev : Option Nat := none
  chk : Option (Nat × Nat) := none
  /-- Device time at which the read went out (R390). -/
  us : Nat := 0
  deriving DecidableEq, Repr

/-- An admitted ticket. -/
structure Ticket where
  /-- Admission serial number, unique to the ticket. -/
  uid : Nat
  tarn : TarnIx
  op : Nat
  ops : List (BitVec 64)
  tag : Bool := false
  ledger : LedgerRec
  /-- Host reads still to issue, oldest first. -/
  need : List DmaChunk := []
  /-- The outstanding host read and the beat its check was stamped with. -/
  dma : Option (DmaChunk × Nat) := none
  /-- Host bytes received in all. -/
  received : Nat := 0
  /-- Data received for device memory and not yet written: host bytes received when each read ended, and the stamp of its check (R440). -/
  hand : List (Nat × Nat) := []
  /-- Data that waits for a stack in thermal hold (R236): the device address, and the bytes. -/
  parked : Option (Nat × Bytes) := none
  /-- Host bytes received. -/
  buf : Bytes := []
  /-- Plaintext taken from them and not yet used, and how many bytes have been taken in all. -/
  plain : Bytes := []
  taken : Nat := 0
  /-- Command-specific progress: which structure is being read, or how far the command has come. -/
  stage : Nat := 0
  /-- Command-specific numbers: entries handled, accepted, refused, a cursor. -/
  cursor : Nat := 0
  accepted : Nat := 0
  refused : Nat := 0
  /-- Outcomes of entries, in buffer order. -/
  outcomes : List (Nat × Status) := []
  graph : Option Graph := none
  bounce : Option BounceArea := none
  tagKey : Option Bytes := none
  /-- Round-authority keys in force when a ROUND_OPEN was admitted (R625). -/
  authKeys : List Bytes := []
  /-- Key in use: slot, material and the beat its check was stamped with (R443). -/
  key : Option (Nat × Bytes × Nat) := none
  /-- The seam that may complete the ticket has its final outcome. -/
  final : Option Comp := none
  /-- Faults that end the ticket in the next seam (R603). -/
  faults : List Status := []
  /-- Progress made since the last seam, to be committed in step 2. -/
  dirty : Bool := false
  deriving DecidableEq, Repr

/-- One logical tile running its stream of a figure. -/
structure TileRun where
  /-- Operation words still to run, each as its eight 64-bit words. -/
  ops : List (List Nat) := []
  scratch : List Host.Cell := []
  acc32 : List (Nat × Nat) := []
  acc16 : List (Nat × Nat) := []
  /-- Remote requests not yet answered (R347). -/
  remote : List (BitVec 32) := []
  /-- The tile has reached a WAIT with GROUP set. -/
  atGroup : Bool := false
  deriving DecidableEq, Repr

/-- A request that changes memory: a write, an atomic request of an element type, or a Reel command in its four words. -/
inductive Req where
  | write (addr : Nat) (bytes : Bytes)
  | atomic (ty addr : Nat) (bytes : Bytes)
  | reel (words : List Nat)
  deriving DecidableEq, Repr

/-- A figure in a tile-group slot. -/
structure FigRun where
  uid : Nat
  tarn : TarnIx
  cls : TClass
  figIndex : Nat
  bound : Nat
  srSeed : Nat
  tiles : List TileRun
  progs : List (Nat × List Nat)
  args : Bytes
  audit : Bool
  /-- Still running when its work window closed (R36). -/
  spilled : Bool := false
  /-- Cycles run in the work window that has closed. -/
  ran : Nat := 0
  /-- Finished in this beat, with its cycle count. -/
  cycles : Option Nat := none
  fault : Option Status := none
  extent : Option (Nat × Nat) := none
  /-- Digest of the extent, for a tagged ticket (R539). -/
  digest : Bytes := []
  /-- Memory accesses not yet ordered by a WAIT (R128): tile, kind (0 read, 1 write, 2 atomic), address, length, and whether
  the tile's own WAIT MEM has not passed since. -/
  accs : List (Nat × Nat × Nat × Nat × Bool) := []
  /-- Requests issued by a tile that have not arrived at their Reel unit (R128, R221). -/
  flying : List (Nat × Req) := []
  /-- Bytes that earlier figures of the Tarn left in the tile group's scratchpads (R699). -/
  left : List (BitVec 8) := []
  /-- Physical tiles that the figure runs on (R154). -/
  phys : List Nat := []
  deriving DecidableEq, Repr

/-- Partition map entry (Table 10-4). -/
structure PEntry where
  state : Nat := 0
  confidential : Bool := false
  audit : Bool := false
  tileGroups : BitVec 16 := 0
  lanes : BitVec 16 := 0
  kaeGroups : BitVec 8 := 0
  links : BitVec 12 := 0
  quota : Nat := 0
  keySlots : Nat := 0
  memUnits : BitVec 256 := 0
  expose : BitVec 32 := 0
  createBeat : Nat := 0
  deriving DecidableEq, Repr

/-- Partition map (Tables 10-3 and 10-4). -/
structure PMap where
  gen : BitVec 32 := 0
  effective : Nat := 0
  entries : List PEntry := List.replicate 8 {}
  deriving DecidableEq, Repr

/-- Status of a resource that no Tarn owns (R426); `scrubbed` waits for step 5 after its scrub ended. -/
inductive RStat where
  | free | scrubbing | scrubbed | testing | retired
  deriving DecidableEq, Repr

/-- A KAE job (chapter 07). -/
structure KaeJob where
  id : Nat
  round : Nat
  /-- 0 VALIDATE, 1 VERIFY, 2 PAIR; on the HKDF units 3 self key, 4 pair seed. -/
  kind : Nat
  owner : Nat
  other : Nat
  secret : Bytes
  deriving DecidableEq, Repr

/-- Code of a round state (Table 06-3); OPENING precedes OPEN while the hold drains (R255). -/
inductive RState where
  | opening | isOpen | closed | unmasking | released | refused | aborted
  deriving DecidableEq, Repr

/-- The fields of a round plan that a round keeps (Table 06-1). -/
structure Plan where
  prg : Nat := 0
  kex : Nat := 0
  w : Nat := 16
  f : Nat := 0
  mirror : Bool := false
  combined : Bool := false
  roundId : Nat := 1
  n : Nat := 2
  l : Nat := 1
  threshold : Nat := 2
  floor : Nat := 0
  dMin : Nat := 1
  dMax : Nat := 1
  quiet : Nat := 0
  u0 : Nat := 0
  units : Nat := 1
  slots : Nat := 1
  stageTimeout : Nat := 1
  context : Bytes := []
  rosterDigest : Bytes := []
  combineDigest : Bytes := []
  planDigest : Bytes := []
  circulant : Bool := true
  /-- Offsets of a circulant graph, or the neighbour lists of an explicit one. -/
  offsets : List Nat := []
  lists : List (List Nat) := []
  deriving DecidableEq, Repr

/-- A staging slot (R261, R263, R265). -/
inductive SlotState where
  | free
  /-- Receiving: bytes received and the beat of the last byte. -/
  | receiving (bytes : Bytes) (lastBeat : Nat)
  /-- Complete and waiting for its check. -/
  | arrived (bytes : Bytes)
  /-- Claimed; its image is being folded. -/
  | folding (contrib : Nat) (bytes : Bytes)
  deriving DecidableEq, Repr

/-- Where a record came from: a ticket's entry, or an INTAKE link. -/
inductive RecSource where
  | ticket (uid entry : Nat)
  | link (n : LinkIx)
  deriving DecidableEq, Repr

/-- A staging slot: its record's source, the lane that holds it (R260), and its place among the Tarn's records that finished arriving
(R262). -/
structure Slot where
  state : SlotState := .free
  src : Option RecSource := none
  lane : LaneIx := 0
  seq : Nat := 0
  deriving DecidableEq, Repr

/-- Accepted shares of one secret (R304, R309). -/
structure ShareSet where
  owner : Nat
  /-- 0 private key, 1 self seed. -/
  kind : Nat
  /-- (holder, x, limb 0, limb 1). -/
  shares : List (Nat × Nat × Nat × Nat) := []
  barred : List Nat := []
  rebuilt : Bool := false
  deriving DecidableEq, Repr

/-- A mask correction of UNMASKING (R316): add or subtract the expansion of a seed at image 0. -/
structure Correction where
  id : Nat
  add : Bool
  seed : Bytes
  owner : Nat
  other : Nat
  deriving DecidableEq, Repr

/-- A member of a combined round (R279). -/
structure Member where
  serial : Bytes
  first : Nat
  count : Nat
  confirmed : Bool := false
  /-- Data received or counted missing. -/
  received : Bool := false
  missing : Bool := false
  deriving DecidableEq, Repr

/-- A Basin round and its record (R278). -/
structure Round where
  plan : Plan
  state : RState := .opening
  openUid : Option Nat := none
  openBeat : Nat := 0
  closeBeat : Nat := 0
  releaseBeat : Nat := 0
  unmaskBeat : Nat := 0
  lastCommit : Nat := 0
  /-- Beat in which a record was last accepted or received (R269). -/
  lastActive : Option Nat := none
  accepted : List Nat := []
  /-- Contributors folded and logged, to be committed in the next step 2 (R263), with where their records came from. -/
  foldLog : List (Nat × Option RecSource) := []
  /-- Staging slots; empty until the images are zeroed at the hold's drained beat (R255). -/
  slots : List Slot := []
  headroomWarned : Bool := false
  mirrorDegraded : Bool := false
  memberMissing : Bool := false
  /-- A ROUND_CLOSE with OP1 bit 0 waits (R270). -/
  closeAsked : Bool := false
  /-- The round moves to ABORTED in the next step 2; TIMEOUT where R318 asks for it. -/
  abortAsked : Option Status := none
  /-- Beat in which the round became REFUSED or ABORTED. -/
  endBeat : Nat := 0
  /-- The round moves to REFUSED with RECOVERY_REFUSED in the next step 2 (R311). -/
  refuseAsked : Bool := false
  fOpOpen : Nat := 0
  floorApplied : Nat := 0
  roster : List Bytes := []
  flagged : List Nat := []
  failedEdges : List (Nat × Nat) := []
  shareSets : List ShareSet := []
  /-- Recovery ledger: entries that are not NONE; false KEY, true SEED (R307). -/
  recovery : List (Nat × Bool) := []
  keysRebuilt : Nat := 0
  seedsRebuilt : Nat := 0
  corrections : List Correction := []
  /-- VALIDATE jobs of entry to UNMASKING not yet answered. -/
  validating : Nat := 0
  /-- Required secrets whose corrections are not all applied: (owner, kind). -/
  required : List (Nat × Nat) := []
  members : List Member := []
  attached : Bool := false
  attachUid : Option Nat := none
  attachBeat : Nat := 0
  /-- Serials of members whose confirmation came before this device's own COMBINE_ATTACH (R280). -/
  confirms : List Bytes := []
  isLeader : Bool := true
  leaderClose : Bool := false
  leaderRelease : Bool := false
  /-- Beat in which this member sent its data, and the link they left on (R281, R376). -/
  dataSentBeat : Option Nat := none
  dataLink : Option LinkIx := none
  /-- At the leader: data of members that came before its close, as member, bitmap and image (R281, R282). -/
  memberData : List (Nat × Bytes × Bytes) := []
  /-- Certificate, when signed. -/
  cert : Bytes := []
  /-- Hold on the region: rule change still pending. -/
  holdOn : Bool := false
  scrubbing : Bool := false
  /-- Corrections are done and release waits for the next seam (R273). -/
  releasing : Bool := false
  deriving DecidableEq, Repr

/-- What a Tarn holds beyond its partition-map entry. -/
structure Tarn where
  opFloor : Nat := 1000
  highestRound : Nat := 0
  progs : List (Nat × List Nat) := []
  /-- Records of completed tickets, newest first, at most 8,192 (R89). -/
  ledger : List LedgerRec := []
  sealedRegions : List (Nat × Nat) := []
  tagKey : Option Bytes := none
  authKeys : List Bytes := []
  throttled : Bool := false
  throttleBeat : Nat := 0
  /-- Two successive overruns of one ticket ask for the throttle (R38): the ticket and its count of overruns. -/
  throttleDue : Option (BitVec 32 × Nat) := none
  /-- An overrun was recorded in the current bar, and in the bar before (R39). -/
  overThisBar : Bool := false
  kae : List KaeJob := []
  nextJob : Nat := 0
  rounds : List Round := []
  /-- Contribution records that have finished arriving (R262). -/
  arrivals : Nat := 0
  grants : List (Fin 64 × TarnIx) := []
  overruns : Nat := 0
  spills : Nat := 0
  lentBar : Nat := 0
  attKey : Nat := 0
  deriving DecidableEq, Repr

/-- State of a Tarn key slot (R470). -/
inductive KState where
  | empty | loaded | revoked
  deriving DecidableEq, Repr

/-- A key slot (R468). -/
structure KeySlot where
  state : KState := .empty
  tarn : Option TarnIx := none
  material : Bytes := []
  usage : Nat := 0
  parentKind : Nat := 0
  parentId : Nat := 0
  parentGen : Nat := 0
  session : BitVec 32 := 0
  recordId : Nat := 0
  kcv : Bytes := []
  label : Bytes := []
  /-- First beat whose slot checks may use the key (R481). -/
  readyFrom : Nat := 0
  deriving DecidableEq, Repr

/-- A replacement journal entry (Table 11-5). -/
structure JEntry where
  jstate : BitVec 2 := 0
  slot : BitVec 9 := 0
  tarn : BitVec 3 := 0
  recordId : BitVec 10 := 0
  oldKcv : BitVec 32 := 0
  newKcv : BitVec 32 := 0
  deriving DecidableEq, Repr

/-- A pending replacement beside its journal entry: the new key in slot 496 + j and its ticket (R490). -/
structure Replace where
  uid : Nat
  key : KeySlot
  old : KeySlot
  commitBeat : Option Nat := none
  deriving DecidableEq, Repr

/-- A parent-table entry (Table 11-3). -/
structure Parent where
  gen : BitVec 32 := 1
  state : BitVec 2 := 0
  owner : BitVec 3 := 0
  kcvSet : Bool := false
  kcvLow : BitVec 32 := 0
  deriving DecidableEq, Repr

/-- Battery-backed key memory (Table 11-2). -/
structure Bbram where
  root : Bytes := List.replicate 32 0
  check : Bytes := List.replicate 16 0
  lcMirror : BitVec 32 := 0
  journal : List JEntry := List.replicate 16 {}
  parents : List Parent := List.replicate 1024 {}
  tamperCount : BitVec 8 := 0
  tamperCause : BitVec 8 := 0
  tamperBeat : BitVec 64 := 0
  deriving DecidableEq, Repr

/-- An anchor slot of the management trust store (R614), with its public key from the boot flash. -/
structure Anchor where
  burnt : Bool := false
  revoked : Bool := false
  digest : Bytes := []
  roles : BitVec 4 := 0
  pub : Bytes := []
  deriving DecidableEq, Repr

/-- Fuses (R495, R499, R614, R644, R658). -/
structure Fuses where
  lc : BitVec 3 := 1
  tamperArm : BitVec 4 := 0
  rollback : Nat := 0
  anchors : List Anchor := List.replicate 32 {}
  fwRevoked : BitVec 4 := 0
  /-- The 4 firmware signing keys in 97-byte form whose digests are fused at manufacture (R640). -/
  fwKeys : List Bytes := List.replicate 4 (List.replicate 97 0)
  /-- Device serial number, 16 bytes (R49, Table 12-2). -/
  serial : Bytes := List.replicate 16 0
  deriving DecidableEq, Repr

/-- A Tally entry (Table 12-4). -/
structure TallyEntry where
  seq : Nat
  beat : Nat
  kind : Nat
  tarn : Nat
  more : Bool
  firmware : Bool
  status : Status
  payload : Bytes
  prev : Bytes
  deriving DecidableEq, Repr

/-- The Tally (R540 to R552). -/
structure Tally where
  /-- Retained entries, newest first. -/
  entries : List TallyEntry := []
  next : Nat := 0
  /-- Oldest retained SEQ. -/
  oldest : Nat := 0
  /-- SEQs acknowledged: all below this. -/
  acked : Nat := 0
  bootNonce : Bytes := []
  /-- SEQ of the last checkpoint. -/
  lastCp : Option Nat := none
  lastCpUs : Nat := 0
  /-- Entries since the previous checkpoint. -/
  sinceCp : Nat := 0
  /-- A checkpoint being signed: its first SEQ (R547). -/
  signing : Option Nat := none
  deriving DecidableEq, Repr

/-- What the bar in progress has admitted and placed (R546). -/
structure BarAcc where
  firstBeat : Nat := 0
  express : Nat := 0
  basin : Nat := 0
  steady : Nat := 0
  house : Nat := 0
  placed : Nat := 0
  spills : Nat := 0
  deferred : Nat := 0
  /-- Placement records, oldest beat first. -/
  records : List Bytes := []
  /-- Tarns lent to, and slots lent, in this bar (R632). -/
  lentMask : BitVec 8 := 0
  lent : Nat := 0
  deriving DecidableEq, Repr

/-- What a rule change does when it drains (R441). -/
structure RuleChange where
  id : Nat
  /-- WHAT of the RULE_CHANGE event: 1 map, 2 exposure, 3 round hold, 4 hold release, 5 link owner, 6 key revocation;
  0 a set that alters no permission, 7 a unit taken for a GCI test (R637), 8 a rack grant (R624). -/
  what : Nat
  e : Nat
  d : Option Nat := none
  changeId : Nat := 0
  phase : Nat := 0
  tarn : Option TarnIx := none
  /-- Resources taken and not yet FREE or RETIRED. -/
  takes : List Resource := []
  uid : Option Nat := none
  /-- Slots revoked, and RESULT0 of the completion. -/
  slots : List Nat := []
  result0 : Nat := 0
  gmp : Option (GmpChannel × Nat) := none
  round : Option Nat := none
  unit : Option UnitId := none
  /-- The revoked slots become EMPTY at the drained beat (R484). -/
  empties : Bool := false
  deriving DecidableEq, Repr

/-- A rule change accepted and waiting for step 5 of the next seam. -/
inductive PendRule where
  | unload (uid : Nat) (t : TarnIx) (slot : Nat)
  | invalidate (uid : Nat) (t : TarnIx) (entry : Nat)
  | hold (t : TarnIx) (round : Nat)
  | release (t : TarnIx) (round : Nat)
  | grant (gmp : Option (GmpChannel × Nat)) (t : TarnIx) (dev : Fin 64) (src : TarnIx) (add : Bool)
  | test (uid : Nat) (t : TarnIx) (u : UnitId)
  deriving DecidableEq, Repr

/-- STATE of a change set (Table 13-8). -/
inductive CState where
  | waiting | between | complete | failed | applied
  deriving DecidableEq, Repr

/-- One phase of a change set (Table 13-9). -/
structure Phase where
  map : Option PMap := none
  table : Option SchedTable := none
  barEnd : Bool := false
  named : BitVec 8 := 0
  given : PEntry := {}
  pstate : Nat := 0
  status : Status := .ok
  e : Nat := 0
  d : Nat := 0
  deriving DecidableEq, Repr

/-- An accepted change set (R589 to R602). -/
structure ChangeSet where
  id : Nat
  mgmt : Bool
  tarn : Option TarnIx := none
  uid : Option Nat := none
  atomicFlag : Bool := false
  forced : Bool := false
  digest : Bytes := []
  atBarEnd : Nat := 0
  phases : List Phase := []
  revokes : List Nat := []
  progs : List (Nat × List Nat) := []
  state : CState := .waiting
  status : Status := .ok
  applied : Nat := 0
  phase1Bars : Nat := 0
  lastFree : Nat := 0
  gmp : Option (GmpChannel × Nat) := none
  deriving DecidableEq, Repr

/-- State of a spare tile (R110, R111, R639). -/
inductive SpareState where
  | idle | scrubbing | testing1 | testing2 | ready | used | failed
  deriving DecidableEq, Repr

/-- State of an HBM channel (R577, R578). -/
inductive ChanState where
  | working | copying | remapped | lost
  deriving DecidableEq, Repr

/-- A CXL.mem access that passed its checks and waits for a stack in thermal hold (R236, R439): its device address and stamp. -/
structure CxlHeld where
  port : Port
  tarn : TarnIx
  addr : Nat
  req : CxlReq
  stamp : Nat
  deriving DecidableEq, Repr

/-- The device's units and their failures (chapter 13). -/
structure Units where
  /-- Physical tile of each logical tile: 33 × quadrant + index. R110 gives the counts and not the mapping; at reset the model takes the
  tiles of a quadrant in order and the last of its 33 as the spare (DESIGN CHOICE, log 81). -/
  tileMap : List Nat := (List.range 128).map fun t => 33 * (t / 32) + t % 32
  tileFailed : BitVec 128 := 0
  /-- Tiles out of service for a test (R637). -/
  tileTesting : BitVec 128 := 0
  spares : List SpareState := List.replicate 4 .idle
  spareFor : List (Option Nat) := List.replicate 4 none
  groupRetired : BitVec 16 := 0
  /-- Overruns and spills by tile group (R575). -/
  groupOver : List Nat := List.replicate 16 0
  chans : List ChanState := List.replicate 256 .working
  /-- Unit slices remapped into the spare area: channel index, unit, and the channel whose spare slice holds it. -/
  remapped : List (Nat × Nat × Nat) := []
  /-- Unit slices of other channels that a retired channel's own spare area held and that are being copied out of it (R577, R578): channel
  index, unit, and the retired channel. -/
  moving : List (Nat × Nat × Nat) := []
  reelRetired : BitVec 256 := 0
  memRetired : BitVec 256 := 0
  laneRetired : BitVec 16 := 0
  laneTesting : BitVec 16 := 0
  kaeFailed : BitVec 64 := 0
  kaeTesting : BitVec 8 := 0
  memTesting : BitVec 256 := 0
  fieldFailed : Bool := false
  coreFailed : BitVec 8 := 0
  linkRetired : BitVec 12 := 0
  /-- Corrected and uncorrectable counts by unit identifier. -/
  counts : List (Nat × Nat × Nat) := []
  advised : List Nat := []
  /-- Failures and retirements waiting for their seam: 0 failed, 1 lost, 2 retired by the operator, 3 retired on error rate. -/
  failing : List (UnitId × Nat) := []
  deriving DecidableEq, Repr

/-- A self-test in progress (R634 to R639). -/
structure Bist where
  unit : UnitId
  code : Nat
  uid : Option Nat := none
  gmp : Option (GmpChannel × Nat) := none
  tarn : Option TarnIx := none
  /-- 0 waiting for E, 1 waiting for D, 2 running, 3 scrubbing after the test. -/
  stage : Nat := 0
  status : Status := .ok
  sig : BitVec 32 := 0
  expected : BitVec 32 := 0
  deriving DecidableEq, Repr

/-- DRAM refresh and throttle level of a stack (Table 05-7): 0 to 4, the last being thermal hold. -/
structure Stack where
  level : Nat := 0
  hold : Bool := false
  /-- Channel and rows of the last targeted refresh (R230). -/
  refreshed : List (Nat × Nat) := []
  deriving DecidableEq, Repr

/-- State of a link (Table 08-7). -/
inductive LinkState where
  | down | training | up | draining
  deriving DecidableEq, Repr

/-- Keys of one direction of an EDGE or INTAKE session (R352, R353). -/
structure DirKey where
  key : Bytes := []
  salt : Bytes := []
  ctr : Nat := 0
  /-- Replacements of the key so far (R353). -/
  epoch : Nat := 0
  deriving DecidableEq, Repr

/-- What the last valid HELLO said (Table 08-6). -/
structure Peer where
  serial : Bytes := []
  linkNo : Nat := 0
  deviceNo : Nat := 0
  mode : Nat := 0
  state : Nat := 0
  domain : Nat := 0
  timing : Nat := 0
  beatInValid : Bool := false
  priority : Nat := 255
  beatUs : Nat := 0
  barBeats : Nat := 0
  beat : Nat := 0
  barPos : Nat := 0
  hops : Nat := 255
  leader : Bytes := []
  seen : Bytes := []
  reach : BitVec 64 := 0
  lanes : Nat := 8
  credits : List Nat := []
  deriving DecidableEq, Repr

/-- A device of the rack that this device knows of, from HELLO flits and route updates: the links to it, whether FABRIC links alone lead
to it, what its HELLO says, and the device numbers it reaches over EDGE links (R364) (DESIGN CHOICE, log 68). -/
structure Node where
  dist : Nat
  fabric : Bool := true
  edge : BitVec 64 := 0
  info : Peer
  deriving DecidableEq, Repr

/-- A route (R364, R365): destination, outgoing link, hops, whether every link of it goes down from the root, and whether one is an
EDGE link. -/
structure Route where
  dest : Nat
  link : LinkIx
  hops : Nat
  down : Bool
  edge : Bool
  deriving DecidableEq, Repr

/-- A message received on a link and not yet acted on: its channel, its bytes, the beat in which its header arrived, and what the check
of R345 said then. -/
structure InMsg where
  vc : Nat
  bytes : Bytes
  stamp : Nat := 0
  verdict : Option Status := none
  deriving DecidableEq, Repr

/-- A partial INTAKE record (R357): the round and contributor of its frames, the bytes received so far, and of these the ones that wait
for a BASIN beat or a staging slot (R242, R265). -/
structure IntakePart where
  round : Nat
  contrib : Nat
  got : Nat := 0
  held : Bytes := []
  /-- The staging slot taken for it. -/
  slot : Option Nat := none
  /-- Beat of the last byte. -/
  last : Nat := 0
  deriving DecidableEq, Repr

/-- A Spillway link (chapter 08). -/
structure Link where
  mode : LinkMode := .off
  state : LinkState := .down
  lanes : Nat := 8
  laneFaults : BitVec 8 := 0
  signal : Bool := false
  fecLock : Bool := false
  trainUs : Nat := 0
  retryUs : Nat := 0
  /-- Matching HELLOs received in successive bars (R361), and the first beat of the bar of the last. -/
  hellos : Nat := 0
  helloBeat : Nat := 0
  /-- Bar ends since the last valid HELLO; on an INTAKE link, since it entered DRAINING. -/
  silentBars : Nat := 0
  /-- Bar ends without FEC lock (R361). -/
  lockBars : Nat := 0
  peer : Option Peer := none
  /-- This device's beat at the last valid HELLO. -/
  heard : Nat := 0
  /-- What the partner's last route update said, and this device's beat then (R364). -/
  topo : List Node := []
  topoBeat : Nat := 0
  cause : Nat := 0
  opDrain : Bool := false
  /-- Beats at which the link went DOWN from UP (R363). -/
  flaps : List Nat := []
  wasUp : Bool := false
  held : Bool := false
  modeMismatch : Bool := false
  loopback : Bool := false
  deviceConflict : Bool := false
  flapping : Bool := false
  partnerOk : Bool := false
  /-- Private half of the ephemeral key sent for the next agreement (R352). -/
  eph : Option Nat := none
  tx : DirKey := {}
  rx : DirKey := {}
  tagFails : Nat := 0
  sendSeq : Nat := 0
  expSeq : Nat := 0
  nakOut : Bool := false
  unackedRx : Nat := 0
  /-- Replay buffer, oldest first: SEQ, flit before tag and CRC, sends. -/
  replay : List (Nat × Bytes × Nat) := []
  credits : List Nat := List.replicate 4 0
  /-- Credits to return with the next flit. -/
  owed : List Nat := List.replicate 4 0
  /-- Messages being received, one per VC. -/
  partials : List InMsg := (List.range 4).map fun v => { vc := v, bytes := [] }
  /-- Whole messages received and not yet acted on. -/
  inbox : List InMsg := []
  /-- DATA flits sent since the last of VC 3 (Table 08-3). -/
  sinceBulk : Nat := 0
  /-- Messages waiting to be sent: VC, class rank and flit bodies left. -/
  txq : List (Nat × Nat × List Bytes) := []
  intakeCtr : Nat := 0
  /-- INTAKE frames that wait for a new session: type, count and data (R353). -/
  waiting : List (Nat × Nat × Bytes) := []
  /-- Ethernet address of the partner, from the last frame accepted (R355). -/
  peerMac : Bytes := List.replicate 6 0xFF#8
  parts : List IntakePart := []
  granted : Nat := 0
  rejected : Nat := 0
  /-- Replays of the buffer since reset (R350). -/
  replays : Nat := 0
  deriving DecidableEq, Repr

/-- An outstanding remote access (R346). -/
structure Remote where
  tag : BitVec 32
  uid : Nat
  tarn : TarnIx
  group : GroupIx
  tile : TileIx
  op : Nat
  link : LinkIx
  spOff : Nat
  len : Nat
  beat : Nat
  deriving DecidableEq, Repr

/-- A firmware bank (R640). -/
structure Bank where
  staged : Bool := false
  svn : Nat := 0
  release : BitVec 32 := 0
  digest : Bytes := []
  /-- Marked to boot at the next reset (R644). -/
  marked : Bool := false
  deriving DecidableEq, Repr

/-- A staging in progress (R641): the half, the image, and who is answered, the board's update agent (none) or a GMP request. -/
structure Staging where
  half : Nat
  image : Bytes
  asker : Option (GmpChannel × Nat) := none
  deriving DecidableEq, Repr

/-- Firmware halves: active and inactive bank of each, and the control firmware's condition. -/
structure Firmware where
  kernel : Bank := {}
  kernelNext : Bank := {}
  ctrl : Bank := {}
  ctrlNext : Bank := {}
  /-- The control firmware is down since this declaration beat (R583). -/
  down : Option Nat := none
  /-- A fault has been detected and is declared at the next seam (R583). -/
  faulty : Bool := false
  /-- A restart may take place at the next seam. -/
  restart : Bool := false
  /-- Control-firmware faults, in µs of device time, newest first (R586). -/
  faults : List Nat := []
  /-- An activation draining admission: bars left (R643). -/
  drain : Option Nat := none
  /-- FW_ACTIVATE responses owed at the restart. -/
  drainGmp : List (GmpChannel × Nat) := []
  /-- DeviceID public key in 97-byte form, as the boot ROM derived it (R519). -/
  devicePub : Bytes := List.replicate 97 0
  /-- Alias private key, which the trusted kernel holds (R519). -/
  aliasKey : Nat := 1
  pldm : Nat := 0
  /-- Images being written to the inactive bank of their half, oldest first (R641, R651). -/
  staging : List Staging := []
  deriving DecidableEq, Repr

/-- The governor (R628 to R633, R657 to R660, R693). -/
structure Governor where
  bounds : Bounds := ⟨950, 60, 12, 95, 0, 0xFF, 0xFF, 0, 0xFFF, 0, 10000, 4, 1000, 1000⟩
  /-- Sets accepted and waiting, oldest first. -/
  pendingBounds : List Bounds := []
  /-- Sets received and not yet accepted in a step 7, each with the request that waits for its answer (R660). -/
  askedBounds : List (GmpChannel × Nat × Bounds) := []
  clk : Nat := 48
  thermal : Bool := false
  power : Bool := false
  /-- Clocks of past beats, newest first, at most 64. -/
  past : List Nat := []
  /-- VDD_CORE target in µV, in force and requested. -/
  target : Nat := 750000
  slow : Bool := false
  /-- Last measurements, for telemetry. -/
  tj : List Int := []
  tDram : List Int := []
  powerMw : Nat := 0
  deriving DecidableEq, Repr

/-- Settings kept in the boot flash (R622, R665). -/
structure Flash where
  net : Option NetBody := none
  x8 : Bool := false
  assign : List Port := List.replicate 8 .a
  mode : TimingMode := .internal
  domain : BitVec 16 := 0
  deviceNo : Fin 64 := 0
  priority : BitVec 8 := 255
  deriving DecidableEq, Repr

/-- Management plane (chapter 14). -/
structure Mgmt where
  /-- TLS sessions: number, anchor slot, roles. -/
  tls : List (Nat × Nat × BitVec 4) := []
  nextTls : Nat := 0
  /-- Unused nonces with the beat of issue, oldest first. -/
  nonces : List (Bytes × Nat) := []
  allow : List Bytes := []
  switches : DebugSwitch := ⟨false, false, false, false, false⟩
  /-- Checkpoint requests waiting for their signature, and those that wait for a signature in progress to end (R547). -/
  cpGmp : List (GmpChannel × Nat) := []
  cpWait : List (GmpChannel × Nat) := []
  /-- Telemetry items 0x01 to 0x10 as held at the end of step 10 of a seam, and that seam's beat (R627). -/
  telem : List Bytes := List.replicate 16 []
  telemBeat : Nat := 0
  deriving DecidableEq, Repr

/-- A PCIe port (R381, R667, R670). -/
structure PortSt where
  perst : Bool := true
  linkUp : Bool := false
  /-- The link runs CXL, not PCIe (R387, R421), and the host has enabled CXL.cache (R387). -/
  cxl : Bool := false
  cache : Bool := false
  /-- Completion timeout encoding and power state of function 0 (R385, R390). -/
  ctoEnc : BitVec 4 := 0
  d3hot : Bool := false
  deriving DecidableEq, Repr

/-- Board pins, power and start-up (chapter 15). -/
structure Board where
  mainPower : Bool := true
  sysRst : Bool := false
  /-- Held in reset until SYS_RST_N is cycled (R669). -/
  brownOut : Bool := false
  /-- The first beat has started (Table 15-4). -/
  running : Bool := false
  faultN : Bool := false
  thermtripN : Bool := true
  /-- The core clocks run (R674, R683). -/
  clocks : Bool := true
  vbatMv : Nat := 3000
  batteryAbsent : Bool := false
  /-- Tamper signals seen since SYS_RST_N went low (R689). -/
  tamperLevel : List TamperCause := []
  portA : PortSt := {}
  portB : PortSt := {}
  x8 : Bool := false
  assign : List Port := List.replicate 8 .a
  /-- Both PERST pins have been low together (R671). -/
  bothLow : Bool := true
  /-- SPDM negotiation of function 0 of each port. -/
  connA : SpdmConn := {}
  connB : SpdmConn := {}
  /-- Width of the BEAT_OUT pulse of the current beat, in ns (R55). -/
  beatOut : Nat := 0
  deriving DecidableEq, Repr

/-- What the device sends. -/
inductive Output where
  /-- A posted write to host memory through a Tarn function: whether relaxed ordering is set (R388), and whether it goes as ItoMWr (R387). -/
  | hostWrite (t : TarnIx) (addr : Nat) (bytes : Bytes) (relaxed cache : Bool)
  /-- A host read request, and whether it goes as RdCurr (R387). -/
  | hostRead (target : DmaTarget) (addr len : Nat) (cache : Bool)
  /-- An MSI-X message. -/
  | msix (t : TarnIx) (addr : Nat) (data : BitVec 32)
  /-- A DOE data object of a function. -/
  | doe (f : Func) (bytes : Bytes)
  /-- Answer to a register read. -/
  | readData (t : TarnIx) (value : Nat)
  /-- A GMP response: channel, request ID, code, status and body. -/
  | gmp (ch : GmpChannel) (req : Nat) (status : Status) (body : Bytes)
  /-- A flit or frame on a link. -/
  | link (n : LinkIx) (bytes : Bytes)
  /-- A CXL.mem response: data with poison, or an error. -/
  | cxl (p : Port) (ok poison : Bool) (bytes : Bytes)
  /-- A PLDM response on the board channel: completion code and body. -/
  | pldm (code : Nat) (body : Bytes)
  /-- Test-port instruction selected. -/
  | testPort (i : TestInstr)
  /-- A CXL snoop answer: no line. -/
  | snoopMiss (p : Port)
  /-- Configuration Request Retry Status. -/
  | retryStatus (f : Func)
  /-- Answer to a configuration read. -/
  | configData (f : Func) (value : Nat)
  /-- An AVSBus voltage target in µV. -/
  | avs (uv : Nat)
  deriving DecidableEq, Repr

/-- The state of the GZ8. -/
structure State where
  /-- Commands waiting, first in, first out. -/
  pending : List Instr
  /-- Everything the device has sent, oldest first. -/
  outbox : List Output
  /-- Beat counter (R20). -/
  beat : Nat
  /-- Bar position (R19). -/
  pos : Nat
  /-- Device time since the first beat, in µs. -/
  timeUs : Nat
  table : SchedTable
  /-- Step 6 of the coming seam has swapped the table: the length in µs of the beat that the seam ends. -/
  swapped : Option Nat
  /-- The table that step 6 of this seam swaps in. -/
  shadow : Option SchedTable
  timing : Timing
  fns : List FnRegs
  tickets : List Ticket
  /-- Next admission serial number. -/
  nextUid : Nat
  /-- Next generation of each ticket-table index that has been used. -/
  gens : List (Nat × Nat)
  /-- Admissions of the coming seam that have already been made (R28). -/
  admitted : Nat
  figs : List (Option FigRun)
  /-- Bytes that figures have left in the scratchpads of each tile group since its scrub (R699). -/
  spLeft : List (List (BitVec 8))
  map : PMap
  tarns : List (Option Tarn)
  tgStat : List RStat
  laneStat : List RStat
  kaeStat : List RStat
  linkStat : List RStat
  memStat : List RStat
  /-- Scrubs started: resource and the beat whose seam started them. -/
  scrubs : List (Resource × Nat)
  /-- Status of the key slots of Tarn t (index t) and of its records in device-private memory (index 8 + t) (Table 10-7). -/
  recStat : List RStat
  /-- Destroyed Tarns with their resources that are not yet FREE or RETIRED (R448). -/
  dying : List (TarnIx × List Resource)
  /-- Resources that a confidential Tarn held and that are not yet FREE or RETIRED (R451, R452). -/
  confScrub : List Resource
  rules : List RuleChange
  pendRules : List PendRule
  nextRule : Nat
  sets : List ChangeSet
  nextSet : Nat
  mem : List Host.Cell
  /-- Poisoned 32-byte words (R218), as half-open ranges of word numbers. -/
  poison : List (Nat × Nat)
  dram : List Stack
  /-- CXL.mem accesses that wait for a thermal hold to end, oldest first (R236). -/
  cxlHeld : List CxlHeld
  patrol : Nat
  /-- Poisoned 32-byte words of the spare area and of device-private memory: channel and channel offset (R218, R219). -/
  hiddenPoison : List (Nat × Nat)
  rebuilds : List (TarnIx × Nat × Nat × Nat)
  links : List Link
  /-- Route table, in force and computed (R364). -/
  routes : List Route
  routesNext : List Route
  remotes : List Remote
  nextTag : Nat
  keys : List KeySlot
  replaces : List (Option Replace)
  bbram : Bbram
  fuses : Fuses
  /-- The root is lost, with cause: 1 TAMPER, 2 BATTERY (R492). -/
  rootState : Nat
  tally : Tally
  bar : BarAcc
  units : Units
  bists : List Bist
  fw : Firmware
  /-- DEV_STATE.FATAL (R587). -/
  fatal : Bool
  gov : Governor
  flash : Flash
  mgmt : Mgmt
  board : Board
  /-- The model's own counter from which free values are drawn. -/
  freeCtr : Nat
  deriving DecidableEq, Repr

/-- The machine right after SYS_RST_N is released, before its first beat (Table 15-4): no Tarn and every resource SCRUBBING
(R449). FIRST_BEAT takes it through its start-up (DESIGN CHOICE, log 4; DESIGN CHOICE, log 64; PRESUMED, log 70). -/
def State.reset : State where
  pending := []
  outbox := []
  beat := 0
  pos := 0
  timeUs := 0
  table := {}
  swapped := none
  shadow := none
  timing := {}
  fns := List.replicate 8 {}
  tickets := []
  nextUid := 0
  gens := []
  admitted := 0
  figs := List.replicate 16 none
  spLeft := List.replicate 16 []
  map := {}
  tarns := List.replicate 8 none
  tgStat := List.replicate 16 .scrubbing
  laneStat := List.replicate 16 .scrubbing
  kaeStat := List.replicate 8 .scrubbing
  linkStat := List.replicate 12 .scrubbing
  memStat := List.replicate 256 .scrubbing
  scrubs := []
  recStat := List.replicate 16 .free
  dying := []
  confScrub := []
  rules := []
  pendRules := []
  nextRule := 0
  sets := []
  nextSet := 1
  mem := []
  poison := []
  dram := List.replicate 8 {}
  cxlHeld := []
  patrol := 0
  hiddenPoison := []
  rebuilds := []
  links := List.replicate 12 {}
  routes := []
  routesNext := []
  remotes := []
  nextTag := 0
  keys := List.replicate 512 {}
  replaces := List.replicate 16 none
  bbram := {}
  fuses := {}
  rootState := 0
  tally := {}
  bar := {}
  units := {}
  bists := []
  fw := {}
  fatal := false
  gov := {}
  flash := {}
  mgmt := {}
  board := {}
  freeCtr := 0

end Sys2Proof.Machine
end

