-- ==== Sys2Proof/Machine/Flags.lean ====
section
/-! DEFINITION. The numeric codes and orders of the device's enumerations: statuses, classes, slot codes, life-cycle, round and
link states, the rank of statuses when several faults end one ticket (R603), and the summary bits of advisories (Table 02-8). -/

namespace Sys2Proof.Machine

/-- Value of a status code (Table 02-12). -/
def statusCode : Status → Nat
  | .ok => 0x00
  | .partialRead => 0x01
  | .ticketQuota => 0x02
  | .badCommand => 0x03
  | .notPermitted => 0x04
  | .keyRevoked => 0x05
  | .keyOrphaned => 0x06
  | .overrun => 0x07
  | .unitFailed => 0x08
  | .dataLost => 0x09
  | .abortedByRecovery => 0x0A
  | .staged => 0x0B
  | .busyChange => 0x0C
  | .rekeyDue => 0x0D
  | .sessionExhausted => 0x0E
  | .belowFloor => 0x0F
  | .recoveryRefused => 0x10
  | .notOnCurve => 0x11
  | .noncanonical => 0x12
  | .zeroSecret => 0x13
  | .invalidScalar => 0x14
  | .invalidShare => 0x15
  | .duplicate => 0x16
  | .late => 0x17
  | .headroom => 0x18
  | .counterExhausted => 0x19
  | .rootLost => 0x1A
  | .debugLocked => 0x1B
  | .roundAborted => 0x1C
  | .timeout => 0x1D

/-- The status with a given code, for statuses that arrive in messages (Table 08-4). -/
def statusOfCode (n : Nat) : Status :=
  match n with
  | 0x00 => .ok
  | 0x01 => .partialRead
  | 0x02 => .ticketQuota
  | 0x03 => .badCommand
  | 0x04 => .notPermitted
  | 0x05 => .keyRevoked
  | 0x06 => .keyOrphaned
  | 0x07 => .overrun
  | 0x08 => .unitFailed
  | 0x09 => .dataLost
  | 0x0A => .abortedByRecovery
  | 0x0B => .staged
  | 0x0C => .busyChange
  | 0x0D => .rekeyDue
  | 0x0E => .sessionExhausted
  | 0x0F => .belowFloor
  | 0x10 => .recoveryRefused
  | 0x11 => .notOnCurve
  | 0x12 => .noncanonical
  | 0x13 => .zeroSecret
  | 0x14 => .invalidScalar
  | 0x15 => .invalidShare
  | 0x16 => .duplicate
  | 0x17 => .late
  | 0x18 => .headroom
  | 0x19 => .counterExhausted
  | 0x1A => .rootLost
  | 0x1B => .debugLocked
  | 0x1C => .roundAborted
  | _ => .timeout

/-- Rank of a status among several faults of one ticket; the lowest wins (R603). -/
def faultRank (st : Status) : Nat :=
  match st with
  | .dataLost => 0
  | .unitFailed => 1
  | .keyRevoked => 2
  | .notPermitted => 3
  | .timeout => 4
  | .overrun => 5
  | .abortedByRecovery => 6
  | st => 7 + statusCode st

/-- The status that ends a ticket with the given faults (R603). -/
def worstFault (l : List Status) : Option Status :=
  l.foldl (fun a st => match a with
    | none => some st
    | some b => if faultRank st < faultRank b then some st else some b) none

/-- Class code of a submission entry (Table 01-2). -/
def classOf (n : Nat) : Option TClass :=
  match n with
  | 1 => some .express
  | 2 => some .steady
  | 3 => some .basin
  | _ => none

/-- Class code (Table 01-2). -/
def classCode : TClass → Nat
  | .express => 1
  | .steady => 2
  | .basin => 3
  | .house => 4

/-- Class order, 0 highest (R24). -/
def classRank : TClass → Nat
  | .express => 0
  | .basin => 1
  | .steady => 2
  | .house => 3

/-- Slot code value (R43). -/
def slotCodeVal : SlotCode → Nat
  | .idle => 0
  | .express => 1
  | .steady => 2
  | .basin => 3
  | .house => 4

/-- Slot code of a value (R43). -/
def slotCodeOf (n : Nat) : Option SlotCode :=
  match n with
  | 0 => some .idle
  | 1 => some .express
  | 2 => some .steady
  | 3 => some .basin
  | 4 => some .house
  | _ => none

/-- Slot code that a class's figures run in (R24). -/
def slotOfClass : TClass → SlotCode
  | .express => .express
  | .basin => .basin
  | .steady => .steady
  | .house => .house

/-- Rank of a slot's code in the class order (R24). R24 ranks no IDLE slot; the model ranks it below HOUSE, so that a displaced figure
takes it first (R36, R57) (DESIGN CHOICE, log 25). -/
def slotRank : SlotCode → Nat
  | .express => 0
  | .basin => 1
  | .steady => 2
  | .house => 3
  | .idle => 4

/-- STATE of a ledger record (Table 02-10). -/
def lstateCode : LState → Nat
  | .queued => 0
  | .running => 1
  | .complete => 2
  | .failed => 3
  | .evicted => 4

/-- Round state code (Table 06-3); an opening round is reported in no status. -/
def rstateCode : RState → Nat
  | .opening => 0
  | .isOpen => 1
  | .closed => 2
  | .unmasking => 3
  | .released => 4
  | .refused => 5
  | .aborted => 6

/-- The round is OPEN, CLOSED or UNMASKING. -/
def rstateLive : RState → Bool
  | .isOpen => true
  | .closed => true
  | .unmasking => true
  | _ => false

/-- Change-set STATE (Table 13-8). -/
def cstateCode : CState → Nat
  | .waiting => 1
  | .between => 2
  | .complete => 3
  | .failed => 4
  | .applied => 5

/-- Life-cycle state from the fuses: the highest burnt (R495). -/
def lifeOf (f : BitVec 3) : LifeCycle :=
  if f.getLsbD 2 then .retired else if f.getLsbD 1 then .deployed else if f.getLsbD 0 then .provisioned else .manufacture

/-- Life-cycle code (Table 12-2). -/
def lifeCode : LifeCycle → Nat
  | .manufacture => 0
  | .provisioned => 1
  | .deployed => 2
  | .retired => 3

/-- Link state code in the Tally and in HELLO (Table 08-6, R544). -/
def linkStateCode : LinkState → Nat
  | .down => 0
  | .training => 1
  | .up => 2
  | .draining => 3

/-- HELLO MODE code (Table 08-6). -/
def linkModeCode : LinkMode → Nat
  | .fabric => 0
  | .edge => 1
  | .intake => 2
  | .off => 3

/-- HELLO TIMING code (Table 08-6). -/
def timingCode : TimingMode → Nat
  | .internal => 0
  | .link => 1
  | .pin => 2

/-- Summary bit that an advisory kind sets (Table 02-8). -/
def advBit (kind : Nat) : Nat :=
  match kind with
  | 1 => 0
  | 2 => 0
  | 3 => 1
  | 4 => 2
  | 5 => 3
  | _ => 4

/-- Unit kinds of Table 13-2. -/
def kTile : BitVec 8 := 0x01
/-- Tile group. -/
def kGroup : BitVec 8 := 0x02
/-- HBM channel. -/
def kChan : BitVec 8 := 0x03
/-- Reel unit. -/
def kReel : BitVec 8 := 0x04
/-- Memory unit. -/
def kMem : BitVec 8 := 0x05
/-- Basin lane. -/
def kLane : BitVec 8 := 0x06
/-- KAE core. -/
def kKae : BitVec 8 := 0x07
/-- Field unit. -/
def kField : BitVec 8 := 0x08
/-- Spillway lane. -/
def kSpwLane : BitVec 8 := 0x09
/-- Spillway link. -/
def kLink : BitVec 8 := 0x0A
/-- Control core. -/
def kCore : BitVec 8 := 0x0B
/-- Control firmware. -/
def kFw : BitVec 8 := 0x0C

/-- The 32-bit unit identifier (R566). -/
def unitNum (u : UnitId) : Nat := u.kind.toNat + 256 * u.index.toNat

/-- A unit identifier from kind and index. -/
def mkUnit (k : BitVec 8) (i : Nat) : UnitId := ⟨k, BitVec.ofNat 24 i⟩

/-- The unit of a 32-bit identifier (R566). -/
def unitOfNum (n : Nat) : UnitId := ⟨BitVec.ofNat 8 n, BitVec.ofNat 24 (n / 256)⟩

/-- Cause code of a tamper signal (Table 11-8). -/
def tamperCode : TamperCause → Nat
  | .meshOpen => 1
  | .meshShort => 2
  | .switch n => 0x10 + n

/-- Link mode as LINK_SET names it. -/
def portNum : Port → Nat
  | .a => 0
  | .b => 1

end Sys2Proof.Machine
end

