-- ==== Sys2Proof/Machine/Ops.lean ====
section
/-! DEFINITION. The named operations over the state that the meanings share: access to a Tarn's registers, its tickets and its
memory, what the device sends, free values, device keys, the Tally, tickets and their completions, interrupts, host reads. -/

namespace Sys2Proof.Machine

/-! Access -/

/-- Registers of a Tarn function. -/
def fnOf (s : State) (t : TarnIx) : FnRegs := s.fns.getD t {}

/-- Change the registers of a Tarn function. -/
def modFn (s : State) (t : TarnIx) (g : FnRegs → FnRegs) : State := { s with fns := s.fns.modify t g }

/-- A queue pair. -/
def qpOf (s : State) (t : TarnIx) (q : QpIx) : Qp := (fnOf s t).qps.getD q {}

/-- Change a queue pair. -/
def modQp (s : State) (t : TarnIx) (q : QpIx) (g : Qp → Qp) : State :=
  modFn s t fun f => { f with qps := f.qps.modify q g }

/-- What a Tarn holds, when it exists. -/
def tarnOf (s : State) (t : TarnIx) : Option Tarn := s.tarns.getD t none

/-- Change what an existing Tarn holds. -/
def modTarn (s : State) (t : TarnIx) (g : Tarn → Tarn) : State := { s with tarns := s.tarns.modify t (Option.map g) }

/-- Active partition-map entry of a Tarn index. -/
def entryOf (s : State) (t : TarnIx) : PEntry := s.map.entries.getD t {}

/-- The Tarn exists (STATE 1). -/
def live (s : State) (t : TarnIx) : Bool := (entryOf s t).state == 1

/-- The Tarn exists and is confidential. -/
def isConf (s : State) (t : TarnIx) : Bool := live s t && (entryOf s t).confidential

/-- The Tarn exists and runs in Audit mode. -/
def isAudit (s : State) (t : TarnIx) : Bool := live s t && (entryOf s t).audit

/-- The live ticket with an admission serial number. -/
def ticketOf (s : State) (uid : Nat) : Option Ticket := s.tickets.find? fun k => k.uid == uid

/-- Change a live ticket. -/
def modTicket (s : State) (uid : Nat) (g : Ticket → Ticket) : State :=
  { s with tickets := s.tickets.map fun k => if k.uid == uid then g k else k }

/-- The tickets of a Tarn now in the ticket table (LIVE). -/
def liveCount (s : State) (t : TarnIx) : Nat := (s.tickets.filter fun k => k.tarn == t).length

/-- Entries consumed and not yet posted (OUTSTANDING). -/
def outstanding (p : Qp) : Nat := p.order.length

/-- ACTIVE of QP_STATE: enabled, or tickets still outstanding. -/
def qpActive (p : Qp) : Bool := p.enable || !p.order.isEmpty

/-- Ring depth D. -/
def qpDepth (p : Qp) : Nat := 2 ^ p.depthLog2.toNat

/-- Distance from one free-running 16-bit index to another (R66). -/
def ringDist (a b : BitVec 16) : Nat := (b - a).toNat

/-- A Tarn's round by ID. -/
def roundOf (s : State) (t : TarnIx) (r : Nat) : Option Round :=
  match tarnOf s t with
  | none => none
  | some n => n.rounds.find? fun x => x.plan.roundId == r

/-- Change a Tarn's round. -/
def modRound (s : State) (t : TarnIx) (r : Nat) (g : Round → Round) : State :=
  modTarn s t fun n => { n with rounds := n.rounds.map fun x => if x.plan.roundId == r then g x else x }

/-- A link. -/
def linkOf (s : State) (n : LinkIx) : Link := s.links.getD n {}

/-- Change a link. -/
def modLink (s : State) (n : LinkIx) (g : Link → Link) : State := { s with links := s.links.modify n g }

/-- The Tarn that owns a link. -/
def linkOwner (s : State) (n : LinkIx) : Option TarnIx :=
  (List.finRange 8).find? fun t => live s t && (entryOf s t).links.getLsbD n

/-- A key slot. -/
def slotOf (s : State) (k : Nat) : KeySlot := s.keys.getD k {}

/-- Change a key slot. -/
def modSlot (s : State) (k : Nat) (g : KeySlot → KeySlot) : State := { s with keys := s.keys.modify k g }

/-- Send something (DESIGN CHOICE, log 62). -/
def emit (s : State) (o : Output) : State := { s with outbox := s.outbox ++ [o] }

/-- The channel of a management request is still open (R612, R646). -/
def chanOpen (s : State) (ch : GmpChannel) : Bool :=
  match ch with
  | .board => true
  | .port n => s.mgmt.tls.any fun x => x.1 == n

/-- Answer a management request (R617); a request whose session has ended gets no response (R646). -/
def gmpReply (s : State) (ch : GmpChannel) (req : Nat) (st : Status) (body : Bytes) : State :=
  if chanOpen s ch then emit s (.gmp ch req st body) else s

/-- Answer a PLDM command (PRESUMED, log 52). -/
def pldmAnswer (s : State) (code : Nat) (body : Bytes) : State := emit s (.pldm code body)

/-- All Tarn indices. -/
abbrev allTarns : List TarnIx := List.finRange 8

/-- BAR_BEATS of the active table. -/
def barBeats (s : State) : Nat := s.table.rows.length

/-- Length in µs of the beat now running (R17): that of the table that held when it began. -/
def beatLen (s : State) : Nat := s.swapped.getD s.table.beatUs

/-- The seam of this beat ends a bar. -/
def barEnds (s : State) : Bool := s.pos + 1 == barBeats s

/-- The row of the active schedule table at a bar position. -/
def rowAt (tb : SchedTable) (pos : Nat) : SchedRow := tb.rows.getD pos {}

/-- The control firmware serves commands. -/
def fwUp (s : State) : Bool := s.fw.down.isNone

/-- The device runs beats and is not FATAL (DESIGN CHOICE, log 61). -/
def running (s : State) : Bool := s.board.running && !s.fatal

/-! Free values and keys -/

/-- Draw `n` bytes from the on-chip entropy source (DESIGN CHOICE, log 10). -/
def drawEntropy (s : State) (n : Nat) : Bytes × State :=
  ((upto n).map (Config.entropy s.freeCtr), { s with freeCtr := s.freeCtr + 1 })

/-- Draw `n` free bytes for a value the spec leaves undefined (DESIGN CHOICE, log 9). -/
def drawFree (s : State) (n : Nat) : Bytes × State :=
  ((upto n).map (Config.freeByte s.freeCtr), { s with freeCtr := s.freeCtr + 1 })

/-- Fused device serial number, 16 bytes. -/
def deviceSerial (s : State) : Bytes := s.fuses.serial

/-- The device identity digest (R520). -/
def deviceIdDigest (s : State) : Bytes := sha384 s.fw.devicePub

/-- Alias private key of the running kernel (R519, R520). -/
def aliasKey (s : State) : Nat := s.fw.aliasKey

/-- Alias public key in 97-byte form. -/
def aliasPub (s : State) : Bytes := sec1 p384 (ecPub p384 (aliasKey s))

/-- The root secret is present. -/
def rootOk (s : State) : Bool := s.rootState == 0

/-- A key derived from the root secret (R466). -/
def rootKey (s : State) (info : Bytes) (len : Nat) : Bytes := hkdf384 (ascii "GZ8-ROOT-1") s.bbram.root info len

/-- Tally signing key (R466). -/
def tallyKey (s : State) : Nat := p384Key (rootKey s (ascii "tally") 56)

/-- Tally public key in 97-byte form; zero while the root is lost. -/
def tallyPub (s : State) : Bytes := if rootOk s then sec1 p384 (ecPub p384 (tallyKey s)) else zeros 97

/-- Attestation key of a Tarn created at a beat (R466). -/
def attestKey (s : State) (t : TarnIx) (createBeat : Nat) : Nat :=
  p384Key (rootKey s (ascii "attest" ++ [BitVec.ofNat 8 t] ++ leBytes 8 createBeat) 56)

/-- Sign a message with ECDSA P-384 over its SHA-384 (DESIGN CHOICE, log 14). -/
def signWith (s : State) (key : Nat) (msg : Bytes) : Bytes × State :=
  (ecdsaSign key (Config.ecdsaNonce s.freeCtr) (sha384 msg), { s with freeCtr := s.freeCtr + 1 })

/-! The Tally -/

/-- Entries the Tally region holds (R549). -/
def tallyCap : Nat := 16777216

/-- The 128 bytes of an entry (Table 12-4). -/
def tallyBytes (e : TallyEntry) : Bytes :=
  leBytes 8 e.seq ++ leBytes 8 e.beat ++ leBytes 2 e.kind ++ leBytes 1 e.tarn
    ++ leBytes 1 (b2n e.more + 4 * b2n e.firmware) ++ leBytes 1 (statusCode e.status) ++ zeros 3 ++ padTo 56 e.payload ++ e.prev

/-- Hash of the last entry; 48 zero bytes before entry 0 (R541). -/
def tallyHead (y : Tally) : Bytes :=
  match y.entries with
  | [] => zeros 48
  | e :: _ => sha384 (tallyBytes e)

/-- Write one entry with the next SEQ. -/
def tallyPush (beat kind tarn : Nat) (more firmware : Bool) (st : Status) (payload : Bytes) (y : Tally) : Tally :=
  { y with
    entries := { seq := y.next, beat, kind, tarn, more, firmware, status := st, payload := padTo 56 payload,
                 prev := tallyHead y } :: y.entries
    next := y.next + 1
    sinceCp := y.sinceCp + 1 }

/-- Drop the oldest entries so that none below `o` is kept. -/
def tallyDrop (o : Nat) (y : Tally) : Tally :=
  { y with oldest := o, entries := y.entries.filter fun e => o ≤ e.seq }

/-- Make room for an event of `n` entries, writing a LOSS event when an unacknowledged entry must go (R549) (DEDUCED, log 66). -/
def tallyRoom (beat n : Nat) (y : Tally) : Tally :=
  let excess := (y.next - y.oldest) + n - tallyCap
  if excess == 0 then y
  else if y.oldest + excess ≤ y.acked then tallyDrop (y.oldest + excess) y
  else tallyPush beat 0x0004 0xFF false false .ok (leBytes 8 y.oldest ++ leBytes 8 (y.oldest + excess))
    (tallyDrop (y.oldest + excess + 1) y)

/-- The entries of an event: pieces of 56 bytes, MORE on all but the last (R542). -/
def tallyPieces (beat kind tarn : Nat) (firmware : Bool) (st : Status) : List Bytes → Tally → Tally
  | [], y => y
  | p :: ps, y => tallyPieces beat kind tarn firmware st ps (tallyPush beat kind tarn (!ps.isEmpty) firmware st p y)

/-- The `n` payload pieces of an event. -/
def tallyCut (n : Nat) (payload : Bytes) : List Bytes :=
  let whole := padTo (56 * n) payload
  (upto n).map fun i => Machine.slice whole (56 * i) 56

/-- Record an event of `n` entries (R540 to R544). -/
def tally (s : State) (kind n tarn : Nat) (firmware : Bool) (st : Status) (payload : Bytes) : State :=
  let y := tallyRoom s.beat n s.tally
  { s with tally := tallyPieces s.beat kind tarn firmware st (tallyCut n payload) y }

/-- The device-wide TARN value of a Tally entry. -/
def anyTarn : Nat := 0xFF

/-- A field of the coming GOVERNOR entry that the spec does not state for its ACTION (DESIGN CHOICE, log 72). -/
def govFree (s : State) (action fld : Nat) : Nat := Config.governorField s.tally.next action fld

/-- GOVERNOR event (R544); SOURCE 0 while the kernel runs step 7 itself (R584). -/
def tallyGovernor (s : State) (tarn action reason object old new : Nat) (st : Status := .ok) : State :=
  tally s 0x0011 1 tarn (fwUp s) st
    (leBytes 1 action ++ leBytes 1 reason ++ zeros 2 ++ leBytes 4 object ++ leBytes 8 old ++ leBytes 8 new)

/-- A GOVERNOR entry of an ACTION whose REASON, OBJECT, OLD and NEW the spec does not state (R38, R39, R231, R632) (DESIGN CHOICE, log 72). -/
def tallyGovernorOpen (s : State) (tarn action : Nat) : State :=
  tallyGovernor s tarn action (govFree s action 0) (govFree s action 1) (govFree s action 2) (govFree s action 3)

/-- The GOVERNOR entry of a unit's retirement: the REASON is given, the rest is not (R632) (DESIGN CHOICE, log 72). -/
def tallyRetire (s : State) (reason : Nat) (st : Status) : State :=
  tallyGovernor s anyTarn 8 reason (govFree s 8 1) (govFree s 8 2) (govFree s 8 3) st

/-- OVERRUN event (DEDUCED, log 73). -/
def tallyOverrun (s : State) (t : TarnIx) (ticketId : BitVec 32) (fig cycles bound action group : Nat) : State :=
  tally s 0x0012 1 t (fwUp s) (if action == 2 then .overrun else .ok)
    (leBytes 4 ticketId.toNat ++ leBytes 4 fig ++ leBytes 8 cycles ++ leBytes 4 bound ++ leBytes 1 action ++ leBytes 1 group)

/-- FAULT event: action 1 detected, 2 retired, 3 spare placed, 4 remapped, 5 data lost (DEDUCED, log 73). -/
def tallyFault (s : State) (tarn : Nat) (u : UnitId) (action addr : Nat) (ticketId : BitVec 32 := 0xFFFFFFFF) : State :=
  tally s 0x0060 1 tarn (fwUp s) (if action ≤ 2 then .unitFailed else if action == 5 then .dataLost else .ok)
    (leBytes 1 u.kind.toNat ++ leBytes 1 action ++ zeros 2 ++ leBytes 4 (unitNum u) ++ leBytes 8 addr ++ leBytes 4 ticketId.toNat)

/-- SESSION event. -/
def tallySession (s : State) (t : Nat) (event sid : Nat) (st : Status := .ok) : State :=
  tally s 0x0051 1 t false st (leBytes 1 event ++ zeros 3 ++ leBytes 4 sid)

/-- LINK event (DEDUCED, log 73). -/
def tallyLink (s : State) (n : LinkIx) (src dst : LinkState) (cause : Nat) : State :=
  tally s 0x0050 1 (match linkOwner s n with | some t => t.val | none => anyTarn) (fwUp s) .ok
    (leBytes 1 n ++ leBytes 1 (linkStateCode src) ++ leBytes 1 (linkStateCode dst) ++ leBytes 1 cause ++ zeros 4
      ++ (match (linkOf s n).peer with | some p => p.serial | none => zeros 16))

/-- KEY event of a slot. -/
def tallyKeyEv (s : State) (t : Nat) (op slot : Nat) (k : KeySlot) (oldKcv : Bytes) (st : Status := .ok) : State :=
  tally s 0x0030 1 t false st
    (leBytes 1 op ++ zeros 1 ++ leBytes 2 slot ++ leBytes 1 k.usage ++ leBytes 1 k.parentKind ++ leBytes 2 k.parentId
      ++ leBytes 2 k.recordId ++ zeros 2 ++ leBytes 4 k.parentGen ++ padTo 8 oldKcv ++ padTo 8 k.kcv ++ padTo 16 k.label)

/-- ROUND_NOTE event (DEDUCED, log 73). -/
def tallyNote (s : State) (t : TarnIx) (round code kind owner holder : Nat) (st : Status) : State :=
  tally s 0x0041 1 t false st
    (leBytes 4 round ++ leBytes 1 code ++ leBytes 1 kind ++ zeros 2 ++ leBytes 4 owner ++ leBytes 4 holder)

/-- RULE_CHANGE event (R441). -/
def tallyRule (s : State) (r : RuleChange) (d : Nat) : State :=
  tally s 0x0020 1 (match r.tarn with | some t => t.val | none => anyTarn) false .ok
    (leBytes 2 r.changeId ++ leBytes 1 r.phase ++ leBytes 1 r.what ++ leBytes 4 s.map.gen.toNat ++ leBytes 8 r.e ++ leBytes 8 d)

/-- CHANGE_SET event: 1 accepted, 2 staged, 3 phase applied, 4 rolled back, 5 refused, 6 forced. -/
def tallySet (s : State) (t : Nat) (id event phase phases : Nat) (digest : Bytes) (st : Status) : State :=
  tally s 0x0023 1 t (fwUp s) st
    (leBytes 2 id ++ leBytes 1 event ++ leBytes 1 phase ++ leBytes 1 phases ++ zeros 3 ++ padTo 48 digest)

/-- DEVICE event. -/
def tallyDevice (s : State) (event cause : Nat) : State :=
  tally s 0x0071 1 anyTarn false .ok
    (leBytes 1 event ++ leBytes 1 cause ++ leBytes 1 s.bbram.tamperCount.toNat ++ leBytes 1 (lifeCode (lifeOf s.fuses.lc))
      ++ zeros 4 ++ leBytes 8 s.beat)

/-- The SEQ of the previous checkpoint as a payload value. -/
def cpSeq (y : Tally) : Nat := match y.lastCp with | some c => c | none => 0xFFFFFFFFFFFFFFFF

/-- Begin a checkpoint (R547): SEQ c and c + 1, signed under the Tally key; none while the root is lost (R548) or another is
being signed. -/
def beginCheckpoint (s : State) : State :=
  if !rootOk s || s.tally.signing.isSome then s
  else
    let s := { s with tally := tallyRoom s.beat 2 s.tally }
    let c := s.tally.next
    let msg := ascii "GZ8-TALLY-CP-1" ++ (deviceIdDigest s) ++ s.tally.bootNonce ++ leBytes 8 c ++ leBytes 8 s.beat
      ++ tallyHead s.tally ++ leBytes 8 (cpSeq s.tally)
    let prev := leBytes 8 (cpSeq s.tally)
    let (sig, s) := signWith s (tallyKey s) msg
    let s := tally s 0x0002 2 anyTarn false .ok (prev ++ sig)
    { s with tally := { s.tally with lastCp := some c, lastCpUs := s.timeUs, sinceCp := 0, signing := some c } }

/-- SEQ of the last readable entry plus one: entries of a checkpoint being signed, and later ones, are not readable (R547) (DEDUCED, log 66). -/
def tallyReadable (y : Tally) : Nat := match y.signing with | some c => c | none => y.next

/-! Ports and requests to the host -/

/-- A port's state. -/
def portSt (s : State) (p : Port) : PortSt :=
  match p with
  | .a => s.board.portA
  | .b => s.board.portB

/-- Change a port. -/
def modPort (s : State) (p : Port) (g : PortSt → PortSt) : State :=
  { s with board := match p with
      | .a => { s.board with portA := g s.board.portA }
      | .b => { s.board with portB := g s.board.portB } }

/-- The port that a Tarn index belongs to (R381). -/
def portOf (s : State) (t : TarnIx) : Port := if s.board.x8 then s.board.assign.getD t .a else .a

/-- A function issues requests: its Bus Master Enable is 1 (R391), and it is in D0 (PRESUMED, log 92). -/
def issues (f : FnRegs) : Bool := f.busMaster && !f.d3hot

/-- Requests of a Tarn to host memory go over CXL.cache (R387). -/
def viaCache (s : State) (t : TarnIx) : Bool :=
  !isConf s t && (portSt s (portOf s t)).cxl && (portSt s (portOf s t)).cache

/-- A write to host memory (R387, R388). -/
def emitWrite (s : State) (t : TarnIx) (addr : Nat) (bs : Bytes) (relaxed : Bool) : State :=
  emit s (.hostWrite t addr bs relaxed (viaCache s t))

/-! Interrupts and host writes -/

/-- Send, or pend, an MSI-X vector (R96). -/
def sendVector (s : State) (t : TarnIx) (v : Nat) : State :=
  let f := fnOf s t
  let m := f.msix.getD v {}
  if issues f && !m.mask then emit s (.msix t (m.addrHi.toNat * 2 ^ 32 + m.addrLo.toNat) m.data)
  else modFn s t fun f => { f with msixPending := f.msixPending ||| BitVec.ofNat 64 (2 ^ v) }

/-- Send the pended vectors that may now be sent (R96). -/
def flushPending (s : State) (t : TarnIx) : State :=
  (upto 64).foldl (fun s v =>
    let f := fnOf s t
    if f.msixPending.getLsbD v && issues f && !(f.msix.getD v {}).mask then
      sendVector (modFn s t fun f => { f with msixPending := f.msixPending &&& ~~~ BitVec.ofNat 64 (2 ^ v) }) t v
    else s) s

/-- The 32 bytes of a completion entry (Table 02-7) in their two ordered writes (R75). -/
def compBytes (commandId : Nat) (st : Status) (flags sqHead : Nat) (ticketId : BitVec 32) (r0 beat : Nat) (r1 : Nat) :
    Bytes × Bytes :=
  (leBytes 2 commandId ++ leBytes 1 (statusCode st) ++ leBytes 1 flags,
   leBytes 2 sqHead ++ zeros 2 ++ leBytes 4 ticketId.toNat ++ leBytes 4 r0 ++ leBytes 8 beat ++ leBytes 8 r1)

/-- PHASE of the entry at a producer index of a ring of depth `d` (R69). -/
def phaseBit (d : Nat) (tail : BitVec 16) : Nat := if tail.toNat / d % 2 == 0 then 1 else 0

/-- Write an entry into a ring: bytes 0x04 to 0x1F, then bytes 0x00 to 0x03 (R75), never with relaxed ordering (R388). -/
def writeEntry (s : State) (t : TarnIx) (base d : Nat) (tail : BitVec 16) (e : Bytes × Bytes) : State :=
  let a := base + 32 * (tail.toNat % d)
  emitWrite (emitWrite s t (a + 4) e.2 false) t a e.1 false

/-- Queue an advisory for step 10 of this seam (R77). -/
def advise (s : State) (t : TarnIx) (a : Advisory) : State :=
  if live s t then modFn s t fun f => { f with advisories := f.advisories ++ [a] } else s

/-- Advisory of a failed unit (kind 0x0005). -/
def adviseUnit (s : State) (t : TarnIx) (u : UnitId) (ticketId : BitVec 32 := 0xFFFFFFFF) : State :=
  advise s t { kind := 5, status := .unitFailed, ticketId, result0 := BitVec.ofNat 32 (unitNum u), result1 := BitVec.ofNat 64 s.beat }

/-- Round event advisory (R277). -/
def adviseRound (s : State) (t : TarnIx) (r : Round) (code : Nat) (st : Status) : State :=
  advise s t { kind := 6, status := st, result0 := BitVec.ofNat 32 r.plan.roundId,
               result1 := BitVec.ofNat 64 (code + 256 * r.accepted.length) }

/-! Tickets -/

/-- The ticket still runs: no outcome and no fault. -/
def ticketRuns (k : Ticket) : Bool := k.final.isNone && k.faults.isEmpty

/-- Set the outcome of a ticket to success, to be committed in step 2 of the coming seam. -/
def finishTicket (s : State) (uid r0 r1 : Nat) : State :=
  modTicket s uid fun k => if !ticketRuns k then k else { k with
    final := some { status := .ok, result0 := BitVec.ofNat 32 r0, result1 := BitVec.ofNat 64 r1 }, dirty := true }

/-- Set the outcome of a ticket to a status with results, without partial progress. -/
def answerTicket (s : State) (uid : Nat) (st : Status) (r0 r1 : Nat) : State :=
  modTicket s uid fun k => if !ticketRuns k then k else { k with
    final := some { status := st, result0 := BitVec.ofNat 32 r0, result1 := BitVec.ofNat 64 r1 }, dirty := true }

/-- End a ticket with a failure, with a partial-progress record, in the coming seam (R567, R569). -/
def failTicket (s : State) (uid : Nat) (st : Status) : State :=
  modTicket s uid fun k => { k with faults := k.faults ++ [st], need := [], dma := none, dirty := true }

/-- First figure of a graph that has not committed. -/
def firstOpen (gr : Graph) : Nat :=
  (((upto (gr.committed.length + 1)).map (gr.first + ·)).find? fun f => !gr.committed.any fun x => x.1 == f).getD gr.figures

/-- Of the figures below `n` that have an extent, the extent of the highest (R702); 0 and 0 when none has. -/
def extentBelow (n : Nat) (l : List (Nat × Option (Nat × Nat))) : Nat × Nat :=
  (l.foldl (fun (a : Option Nat × (Nat × Nat)) x => match x.2 with
    | none => a
    | some e => if x.1 < n && (match a.1 with
        | none => true
        | some i => i < x.1) then (some x.1, e) else a) (none, (0, 0))).2

/-- The running ticket of a command opcode, with its reads done (DESIGN CHOICE, log 3; DESIGN CHOICE, log 60). -/
def servable (s : State) (uid op : Nat) : Option Ticket :=
  match ticketOf s uid with
  | some k => if k.op == op && ticketRuns k && k.need.isEmpty && k.dma.isNone && running s && fwUp s then some k else none
  | none => none

/-- Operand word `i` of a ticket. -/
def opW (k : Ticket) (i : Nat) : Nat := (k.ops.getD i 0).toNat

/-! Device memory -/

/-- First address after the interleaved view (Table 05-2). -/
def viewLen : Nat := 2 ^ 38

/-- First address of the channel-linear view. -/
def linBase : Nat := 0x8000000000

/-- Stack, channel and channel-local offset of an interleaved address (R199). -/
def interleave (pa : Nat) : Nat × Nat × Nat :=
  let g := bits pa 32 8
  let u := bits pa 37 33
  let st := bits g 2 0 ^^^ bits g 10 8 ^^^ bits g 18 16
  let c := bits g 7 3 ^^^ bits g 15 11 ^^^ bits g 24 20
  let k := bits g 11 8 ^^^ bits g 19 16
  let up := bits g 24 12 * 16 + k
  (st, c, u * 2 ^ 25 + up * 2 ^ 8 + pa % 256)

/-- Key of the byte of a channel: its channel-linear address less the base of the view (R200). -/
def chanKey (st c co : Nat) : Nat := st * 2 ^ 35 + c * 2 ^ 30 + co

/-- Key of the byte at a device address in either view (R198); none outside both. -/
def addrKey (a : Nat) : Option Nat :=
  if a < viewLen then
    let (st, c, co) := interleave a
    some (chanKey st c co)
  else if linBase ≤ a && a < linBase + viewLen then some (a - linBase)
  else none

/-- Memory-unit bit 32 × s + u of a key (Table 10-4). -/
def keyUnit (key : Nat) : Nat := 32 * (key / 2 ^ 35) + key / 2 ^ 25 % 32

/-- Channel index 32 × s + c of a key. -/
def keyChan (key : Nat) : Nat := key / 2 ^ 30

/-- A round hold of the Tarn covers the unit (R254). -/
def heldUnit (s : State) (t : TarnIx) (unit : Nat) : Bool :=
  match tarnOf s t with
  | none => false
  | some n => n.rounds.any fun r => r.holdOn && r.plan.u0 ≤ unit % 32 && unit % 32 < r.plan.u0 + r.plan.units

/-- The Tarn may use the memory unit: it owns it, no round holds it (R201, R254) and no test has it out of service (R637). -/
def unitOk (s : State) (t : TarnIx) (unit : Nat) : Bool :=
  live s t && (entryOf s t).memUnits.getLsbD unit && !heldUnit s t unit && !s.units.memTesting.getLsbD unit

/-- A byte passes R201 for a Tarn. -/
def keyOk (s : State) (t : TarnIx) (key : Nat) : Bool := unitOk s t (keyUnit key)

/-- A range of addresses lies within one of the two views. -/
def inViews (a len : Nat) : Bool := a + len ≤ viewLen || (linBase ≤ a && a + len ≤ linBase + viewLen)

/-- The memory units that a range touches. Any run of 512 granules of a band holds an aligned 64 KiB and so touches all eight
stacks (R199). -/
def rangeUnits (a len : Nat) : List Nat :=
  if len == 0 then []
  else if a < viewLen then
    let g0 := a / 256
    let g1 := (a + len - 1) / 256
    if g1 - g0 < 512 then ((upto (g1 - g0 + 1)).map fun i => match addrKey ((g0 + i) * 256) with
      | some k => keyUnit k
      | none => 0).dedup
    else
      let b0 := a / 2 ^ 33
      let b1 := (a + len - 1) / 2 ^ 33
      ((upto (b1 - b0 + 1)).map fun b =>
        let lo := max g0 ((b0 + b) * 2 ^ 25)
        let hi := min g1 ((b0 + b + 1) * 2 ^ 25 - 1)
        if hi - lo < 512 then ((upto (hi - lo + 1)).map fun i => match addrKey ((lo + i) * 256) with
          | some k => keyUnit k
          | none => 0).dedup
        else (upto 8).map fun st => 32 * st + (b0 + b)).flatten
  else
    let k0 := (a - linBase) / 2 ^ 25
    let k1 := (a - linBase + len - 1) / 2 ^ 25
    ((upto (k1 - k0 + 1)).map fun i => keyUnit ((k0 + i) * 2 ^ 25)).dedup

/-- The check of a device-address range of a GCI operand (R202). -/
def rangeCheck (s : State) (t : TarnIx) (a len : Nat) : Option Status :=
  if !inViews a len then some .badCommand
  else if (rangeUnits a len).all (unitOk s t) then none
  else some .notPermitted

/-- What a byte of visible memory reads as when nothing has written it since scrub: zero (R444, R449) (DEDUCED, log 7). -/
def memUnlisted : Byte := 0

/-- Read a byte by key (DEDUCED, log 7). -/
def cellGet : List Host.Cell → Nat → Byte
  | [], _ => memUnlisted
  | (k, v) :: l, key => if k == key then v else if key < k then memUnlisted else cellGet l key

/-- Write a byte by key, keeping the canonical form: rising keys, and no entry equal to what an unlisted key reads as. -/
def cellPut : List Host.Cell → Nat → Byte → List Host.Cell
  | [], key, v => if v == memUnlisted then [] else [(key, v)]
  | (k, w) :: l, key, v =>
    if key < k then (if v == memUnlisted then (k, w) :: l else (key, v) :: (k, w) :: l)
    else if k == key then (if v == memUnlisted then l else (key, v) :: l)
    else (k, w) :: cellPut l key v

/-- The canonical form of the memory. -/
def memWf : List Host.Cell → Bool
  | [] => true
  | [(_, v)] => v != memUnlisted
  | (k, v) :: (k', v') :: l => v != memUnlisted && k < k' && memWf ((k', v') :: l)

/-- Keys of the bytes of a range. -/
def rangeKeys (a len : Nat) : List (Option Nat) := (upto len).map fun i => addrKey (a + i)

/-- Read bytes at a device address; bytes outside both views read as unlisted. -/
def devRead (s : State) (a len : Nat) : Bytes :=
  (rangeKeys a len).map fun k => match k with
    | some k => cellGet s.mem k
    | none => memUnlisted

/-- Words of 32 bytes that a range touches, by key / 32. -/
def rangeWords (a len : Nat) : List Nat := ((rangeKeys a len).filterMap fun k => k.map (· / 32)).dedup

/-- A word is poisoned. -/
def wordBad (l : List (Nat × Nat)) (w : Nat) : Bool := l.any fun r => r.1 ≤ w && w < r.2

/-- Poison one word. -/
def putBad (l : List (Nat × Nat)) (w : Nat) : List (Nat × Nat) := if wordBad l w then l else (w, w + 1) :: l

/-- A range holds a poisoned word (R218). -/
def poisoned (s : State) (a len : Nat) : Bool := !s.poison.isEmpty && (rangeWords a len).any fun w => wordBad s.poison w

/-- Put bytes at the keys of a range. -/
def cellPuts : List Host.Cell → List (Option Nat × Byte) → List Host.Cell
  | m, [] => m
  | m, (some k, v) :: l => cellPuts (cellPut m k v) l
  | m, (none, _) :: l => cellPuts m l

/-- Words wholly covered by a write of a range (R580): both ends are cut to multiples of 32. -/
def coveredWords (a len : Nat) : List Nat :=
  let lo := roundUp a 32
  let hi := (a + len) / 32 * 32
  if hi ≤ lo then [] else (upto ((hi - lo) / 32)).filterMap fun i => (addrKey (lo + 32 * i)).map (· / 32)

/-- Write bytes at a device address; a word wholly written becomes clean (R580). -/
def devWrite (s : State) (a : Nat) (bs : Bytes) : State :=
  { s with
    mem := cellPuts s.mem ((rangeKeys a bs.length).zip bs)
    poison := if s.poison.isEmpty then [] else (coveredWords a bs.length).foldl (fun l w => ivSub w (w + 1) l) s.poison }

/-- Mark the words of a range poisoned (R218). -/
def markPoison (s : State) (a len : Nat) : State :=
  { s with poison := (rangeWords a len).foldl putBad s.poison }

/-- A range touches a memory unit retired under R579. -/
def touchesRetired (s : State) (a len : Nat) : Bool :=
  s.units.memRetired != 0 && (rangeUnits a len).any fun u => s.units.memRetired.getLsbD u

/-- A range touches a stack in thermal hold (R236). -/
def touchesHold (s : State) (a len : Nat) : Bool :=
  s.dram.any (·.hold) && (rangeUnits a len).any fun u => (s.dram.getD (u / 32) {}).hold

/-- Address in the channel-linear view of a channel-local offset. -/
def linAddr (pos co : Nat) : Nat := linBase + pos * 2 ^ 30 + co

/-! Host reads -/

/-- The device range that a host read's data comes to, when it comes to device memory. -/
def chunkRange (c : DmaChunk) : Option (Nat × Nat) := match c.dev with
  | some d => some (d, c.len)
  | none => c.chk

/-- Issue the next host read of a ticket (R389 to R391, R439): refused while Bus Master Enable is 0, and where its device range
fails R201 at issue. `stamp` is the beat of the check (DESIGN CHOICE, log 5). -/
def pumpDma (s : State) (stamp uid : Nat) : State :=
  match ticketOf s uid with
  | none => s
  | some k =>
    match k.dma, k.need with
    | none, c :: rest =>
      if !ticketRuns k then s
      else if !issues (fnOf s k.tarn) then failTicket s uid .notPermitted
      else if (chunkRange c).any fun r => (rangeUnits r.1 r.2).any fun u => !unitOk s k.tarn u then failTicket s uid .notPermitted
      else emit (modTicket s uid fun k => { k with need := rest, dma := some ({ c with us := s.timeUs }, stamp) })
        (.hostRead (.ticket uid) c.addr c.len (viaCache s k.tarn))
    | _, _ => s

/-- Data of a clear transfer are written to device memory, and the ticket's next read goes out (R439, R440). -/
def landChunk (s : State) (stamp uid d : Nat) (bs : Bytes) : State :=
  pumpDma (modTicket (devWrite s d bs) uid fun k => { k with
    dma := none, parked := none, hand := [], received := k.received + bs.length, cursor := k.cursor + bs.length, dirty := true }) stamp uid

/-- Forget the data in hand that has been written: at most `left` host bytes are still in hand. -/
def dropHand (k : Ticket) (left : Nat) : Ticket := { k with hand := k.hand.filter fun x => k.received - left < x.1 }

/-- A host range cut into reads of at most 4 KiB (R439) (DESIGN CHOICE, log 5). -/
def hostChunks (addr len : Nat) (dev : Option Nat := none) : List DmaChunk :=
  (upto (cdiv len 4096)).map fun i =>
    { addr := addr + 4096 * i, len := min 4096 (len - 4096 * i), dev := dev.map (· + 4096 * i) }

/-- Write data to host memory for a ticket's Tarn, with relaxed ordering (R388). -/
def hostPut (s : State) (t : TarnIx) (addr : Nat) (bs : Bytes) : State :=
  if bs.isEmpty then s else emitWrite s t addr bs true

/-- Ask for submission entries of a ring: one read of at most 64 entries, not across the ring's end (R27, R66) (DESIGN CHOICE, log 5). -/
def ringPump (s : State) (t : TarnIx) (q : QpIx) : State :=
  let p := qpOf s t q
  let got := p.fetched.length
  let at_ := p.sqHead + BitVec.ofNat 16 got
  let n := ringDist p.sqHead p.sqTail - got
  let slot := at_.toNat % qpDepth p
  let k := min 64 (min n (qpDepth p - slot))
  if p.enable && !p.error && p.reading == 0 && 0 < k && issues (fnOf s t) && live s t then
    emit (modQp s t q fun p => { p with reading := k, readUs := s.timeUs })
      (.hostRead (.ring t q) (p.sqBase.toNat + 64 * slot) (64 * k) (viaCache s t))
  else s

/-- A fault of a queue pair (R703): ERROR, and CAUSE of the first fault. -/
def qpFault (p : Qp) (cause : Nat) : Qp :=
  { p with error := true, cause := if p.error then p.cause else BitVec.ofNat 4 cause }

end Sys2Proof.Machine
end

