-- ==== Sys2Proof/Machine/Bounce.lean ====
section
/-! DEFINITION. Host transfers: clear for a standard Tarn, in bounce records for a confidential one (R403 to R415), and the
sessions whose keys the records use. -/

namespace Sys2Proof.Machine

/-- Payload bytes of a full record. -/
def recPayload : Nat := 65536

/-- Bytes of a record in host memory: header, ciphertext, tag, padded to 64 (R407). -/
def recBytes (payload : Nat) : Nat := roundUp (48 + payload) 64

/-- Bytes of the records of a transfer of `p` plaintext bytes. -/
def transferBytes (p : Nat) : Nat :=
  p / recPayload * recBytes recPayload + (if p % recPayload == 0 then 0 else recBytes (p % recPayload))

/-- Plaintext capacity of a region (R411). -/
def regionCapacity (len : Nat) : Nat := recPayload * (len / 65600) + (len % 65600 - 48)

/-- The four values of a session (R406): key and IV of a direction. -/
def bounceKey (x : Session) (h2d : Bool) : Bytes × Bytes :=
  let d := if h2d then ascii "h2d" else ascii "d2h"
  (hkdfExpand384 x.exportSecret (ascii "GZ8-BOUNCE-1 " ++ d ++ ascii " key") 32,
   hkdfExpand384 x.exportSecret (ascii "GZ8-BOUNCE-1 " ++ d ++ ascii " iv") 12)

/-- Nonce of a record (R407). -/
def recNonce (iv : Bytes) (seq : Nat) : Bytes := xorBytes iv (beBytes 12 seq)

/-- A session of a function. -/
def sessionOf (s : State) (t : TarnIx) (id : BitVec 32) : Option Session := (fnOf s t).sessions.find? fun x => x.id == id

/-- Change a session. -/
def modSession (s : State) (t : TarnIx) (id : BitVec 32) (g : Session → Session) : State :=
  modFn s t fun f => { f with sessions := f.sessions.map fun x => if x.id == id then g x else x }

/-- The session whose records a ticket uses. -/
def ticketSession (s : State) (k : Ticket) : Option Session := k.bounce.bind fun b => sessionOf s k.tarn b.session

/-- SEQ 0xFFFF_FFFF has been used in a direction (R415). -/
def sessionSpent (x : Session) : Bool := x.exhausted || x.h2dHigh == some 0xFFFFFFFF || x.d2hNext == 2 ^ 32

/-- Highest SEQ used in either direction has reached 2^32 − 2^20 (R414). -/
def rekeyReached (x : Session) : Bool :=
  let lim := 2 ^ 32 - 2 ^ 20
  (match x.h2dHigh with
    | some h => lim ≤ h
    | none => false) || lim < x.d2hNext

/-- Post the REKEY_DUE advisory once (R414; the count in RESULT1 is DEDUCED, log 97). -/
def postRekey (s : State) (t : TarnIx) (id : BitVec 32) : State :=
  match sessionOf s t id with
  | some x =>
    if rekeyReached x && !x.rekeyPosted then
      let h2d := match x.h2dHigh with
        | some h => h + 1
        | none => 0
      advise (modSession s t id fun x => { x with rekeyPosted := true }) t
        { kind := 4, status := .rekeyDue, result0 := id, result1 := BitVec.ofNat 64 (max h2d x.d2hNext) }
    else s
  | none => s

/-- Check and decrypt one host-to-device record (R408): its payload, or the status that ends the ticket; `need` is the plaintext
length that the command states and `off` the sum of the earlier payloads. Which headers do not agree with the command is DEDUCED
(log 97). -/
def openRecord (s : State) (k : Ticket) (operand need off : Nat) (r : Bytes) : Except Status Bytes × State :=
  match ticketSession s k with
  | none => (.error .notPermitted, s)
  | some x =>
    let h := r.take 32
    let seq := field h 8 4
    let n := field h 0x10 4
    let last := bit (byteAt h 3) 0
    let reserved := field h 0 2 != 1 || byteAt h 3 / 2 != 0 || field h 0x0E 2 != 0 || field h 0x14 4 != 0
    let bad := reserved || byteAt h 2 != 0 || field h 4 4 != x.id.toNat || byteAt h 0x0C != k.op || byteAt h 0x0D != operand
      || field h 0x18 8 != off || n == 0 || recPayload < n || (last != (off + n == need)) || need < off + n
      || (!last && n != recPayload)
    if sessionSpent x then (.error .sessionExhausted, s)
    else if bad then (.error .badCommand, s)
    else
      let stale := match x.h2dHigh with
        | some hi => x.h2dSeen.contains seq || seq + 2 ^ 20 < hi
        | none => false
      if stale then (.error .notPermitted, s)
      else
        let kv := bounceKey x true
        match gcmOpen kv.1 (recNonce kv.2 seq) h (slice r 32 n) (slice r (32 + n) 16) with
        | none => (.error .notPermitted, modSession s k.tarn x.id fun x => { x with tagFails := x.tagFails + 1 })
        | some pt =>
          let hi := match x.h2dHigh with
            | some hi => max hi seq
            | none => seq
          (.ok pt, modSession s k.tarn x.id fun x => { x with
            h2dHigh := some hi, h2dSeen := (x.h2dSeen.filter fun q => hi ≤ q + 2 ^ 20) ++ [seq] })

/-- Open the records of a whole transfer; `fuel` bounds the records. -/
def openTransfer (k : Ticket) (operand need : Nat) : Nat → Bytes → Bytes → State → Except Status Bytes × State
  | 0, _, got, s => (.ok got, s)
  | fuel + 1, raw, got, s =>
    if need ≤ got.length then (.ok got, s)
    else
      let n := min recPayload (need - got.length)
      match openRecord s k operand need got.length (raw.take (recBytes n)) with
      | (.ok pt, s) => openTransfer k operand need fuel (raw.drop (recBytes n)) (got ++ pt) s
      | e => e

/-- The host reads that bring `p` plaintext bytes of a ticket from `addr` (R407). -/
def hostReads (s : State) (k : Ticket) (addr p : Nat) (dev : Option Nat := none) : List DmaChunk :=
  if isConf s k.tarn then hostChunks addr (transferBytes p) else hostChunks addr p dev

/-- Plaintext bytes that the first `o` host bytes of a transfer in records carry (R407). -/
def plainAt (o : Nat) : Nat :=
  let r := recBytes recPayload
  o / r * recPayload + min (o % r - 32) recPayload

/-- The host reads of a transfer whose plaintext, `p` bytes of it, comes to device memory at `d`, each with its device range (R439). -/
def hostReadsTo (s : State) (k : Ticket) (addr p d : Nat) : List DmaChunk :=
  (hostReads s k addr p).map fun c =>
    let o := c.addr - addr
    let lo := if isConf s k.tarn then min p (plainAt o) else o
    let hi := if isConf s k.tarn then min p (plainAt (o + c.len)) else o + c.len
    { c with chk := some (d + lo, hi - lo) }

/-- The plaintext of a transfer whose host bytes have all arrived. -/
def plainOf (s : State) (k : Ticket) (operand p : Nat) (raw : Bytes) : Except Status Bytes × State :=
  if isConf s k.tarn then openTransfer k operand p (cdiv p recPayload) raw [] s else (.ok (raw.take p), s)

/-- Records that have arrived whole, opened in order from plaintext offset `off`; `fuel` bounds them. The result is what was
opened, what is left, and the status that ends the ticket where a record fails. -/
def openArrived (k : Ticket) (operand need : Nat) : Nat → Bytes → Nat → Bytes → State → (Bytes × Bytes × Option Status) × State
  | 0, raw, _, got, s => ((got, raw, none), s)
  | fuel + 1, raw, off, got, s =>
    let n := min recPayload (need - off)
    if n == 0 || raw.length < recBytes n then ((got, raw, none), s)
    else match openRecord s k operand need off (raw.take (recBytes n)) with
      | (.ok pt, s) => openArrived k operand need fuel (raw.drop (recBytes n)) (off + n) (got ++ pt) s
      | (.error st, s) => ((got, raw, some st), s)

/-- Move the host bytes of a ticket that have arrived into its plaintext: as they are, or record by record; a failing record
ends the ticket (R408). -/
def takePlain (s : State) (uid operand need : Nat) : State :=
  match ticketOf s uid with
  | none => s
  | some k =>
    if isConf s k.tarn then
      let (r, s) := openArrived k operand need (cdiv need recPayload) k.buf k.taken [] s
      let s := modTicket s uid fun k => { k with plain := k.plain ++ r.1, buf := r.2.1, taken := k.taken + r.1.length }
      match r.2.2 with
      | some st => failTicket s uid st
      | none => s
    else modTicket s uid fun k => { k with plain := k.plain ++ k.buf, taken := k.taken + k.buf.length, buf := [] }

/-- Plaintext bytes that a read command's buffer of `len` bytes holds (R411). -/
def bufCapacity (s : State) (k : Ticket) (len : Nat) : Nat := if isConf s k.tarn then regionCapacity len else len

/-- Write a record: its last write, of 64 bytes, without relaxed ordering (R388) (DESIGN CHOICE, log 92). -/
def emitRecord (s : State) (t : TarnIx) (addr : Nat) (bs : Bytes) : State :=
  let n := bs.length - 64
  let s := if n == 0 then s else emitWrite s t addr (bs.take n) true
  emitWrite s t (addr + n) (bs.drop n) false

/-- Device-to-host records of a transfer (R407, R410); `flags` is added to the header's FLAGS. -/
def sealRecords (k : Ticket) (operand flags : Nat) (x : Session) (addr total : Nat) :
    List (Bytes × Nat) → State → State
  | [], s => s
  | (pt, i) :: rest, s =>
    let seq := x.d2hNext + i
    let off := i * recPayload
    let h := leBytes 2 1 ++ leBytes 1 1 ++ leBytes 1 (flags + b2n (off + pt.length == total)) ++ leBytes 4 x.id.toNat
      ++ leBytes 4 seq ++ leBytes 1 k.op ++ leBytes 1 operand ++ zeros 2 ++ leBytes 4 pt.length ++ zeros 4 ++ leBytes 8 off
    let kv := bounceKey x false
    let ct := gcmSeal kv.1 (recNonce kv.2 seq) h pt
    let s := emitRecord s k.tarn (addr + i * recBytes recPayload) (padTo (recBytes pt.length) (h ++ ct.1 ++ ct.2))
    sealRecords k operand flags x addr total rest s

/-- Write bytes to a host buffer named by an operand: clear, or in records; refused while Bus Master Enable is 0 (R391). Once the
session carries no further record, the records that were left for it are written and the ticket ends (R415). -/
def hostOut (s : State) (k : Ticket) (operand addr : Nat) (bs : Bytes) (flags : Nat := 0) : Except Status Unit × State :=
  if bs.isEmpty then (.ok (), s)
  else if !issues (fnOf s k.tarn) then (.error .notPermitted, s)
  else if isConf s k.tarn then
    match ticketSession s k with
    | none => (.error .notPermitted, s)
    | some x =>
      let pieces := (chunks recPayload bs).zipIdx
      let fit := pieces.take (if sessionSpent x then 0 else 2 ^ 32 - x.d2hNext)
      let s := modSession (sealRecords k operand flags x addr bs.length fit s) k.tarn x.id fun x => { x with d2hNext := x.d2hNext + fit.length }
      (if fit.length == pieces.length then .ok () else .error .sessionExhausted, s)
  else (.ok (), hostPut s k.tarn addr bs)

/-- The opcodes whose tickets move host data, and so need records on a confidential Tarn (R405). -/
def movesHostData (k : Ticket) : Bool :=
  [0x01, 0x02, 0x03, 0x04, 0x05, 0x08, 0x0A, 0x11, 0x20, 0x21, 0x22, 0x25, 0x26, 0x27].contains k.op
    || (k.op == 0x10 && bits (opW k 3) 1 0 != 0)

/-- End the tickets that still need records of a session, and withdraw its result tags (R418, R558). -/
def endSessionTickets (s : State) (t : TarnIx) (id : BitVec 32) (st : Status) : State :=
  { s with tickets := s.tickets.map fun k =>
      if k.tarn == t && (match k.bounce with
          | some b => b.session == id
          | none => false) then
        if ticketRuns k && movesHostData k then { k with faults := k.faults ++ [st], need := [], dma := none, dirty := true }
        else { k with tagKey := none }
      else k }

/-- End a session: its keys are erased with it (R406, R418); the bounce area of the session goes with it. -/
def dropSession (s : State) (t : TarnIx) (id : BitVec 32) (st : Status) : State :=
  let s := endSessionTickets s t id st
  modFn s t fun f => { f with
    sessions := f.sessions.filter fun x => x.id != id
    bounce := match f.bounce with
      | some b => if b.session == id then none else some b
      | none => none }

/-- Stop a ticket's host reads and put its data in hand. -/
def clearBuf (s : State) (uid : Nat) : State := modTicket s uid fun k => { k with buf := [] }

/-- Queue host reads for a ticket and issue the first. -/
def fetchHost (s : State) (uid : Nat) (cs : List DmaChunk) : State :=
  pumpDma (modTicket s uid fun k => { k with need := k.need ++ cs }) s.beat uid

end Sys2Proof.Machine
end

