-- ==== Sys2Proof/Machine/Rules.lean ====
section
/-! DEFINITION. The partition map (R426, R431 to R438), rule changes with their effective and drained beats (R439 to R443), and
scrub (R444 to R449). -/

namespace Sys2Proof.Machine

/-! Resources -/

/-- All resources of Table 10-1 that the map records. -/
def mapResources : List Resource :=
  (List.finRange 16).map .tileGroup ++ (List.finRange 16).map .lane ++ (List.finRange 8).map .kaeGroup
    ++ (List.finRange 12).map .link ++ ((List.finRange 8).map fun st => (List.finRange 32).map fun u => .memUnit st u).flatten

/-- Memory-unit bit of a unit (Table 10-4). -/
def unitBit (st : StackIx) (u : Fin 32) : Nat := 32 * st + u

/-- An entry holds a resource. -/
def ownsRes (e : PEntry) (r : Resource) : Bool :=
  e.state == 1 && match r with
  | .tileGroup g => e.tileGroups.getLsbD g
  | .lane j => e.lanes.getLsbD j
  | .kaeGroup g => e.kaeGroups.getLsbD g
  | .link n => e.links.getLsbD n
  | .memUnit st u => e.memUnits.getLsbD (unitBit st u)
  | .keySlots _ => false
  | .tarnRecords _ => false

/-- The Tarn that owns a resource. -/
def resOwner (s : State) (r : Resource) : Option TarnIx := allTarns.find? fun t => ownsRes (entryOf s t) r

/-- Status of a resource that no Tarn owns. -/
def statOf (s : State) (r : Resource) : RStat :=
  match r with
  | .tileGroup g => s.tgStat.getD g .free
  | .lane j => s.laneStat.getD j .free
  | .kaeGroup g => s.kaeStat.getD g .free
  | .link n => s.linkStat.getD n .free
  | .memUnit st u => s.memStat.getD (unitBit st u) .free
  | .keySlots t => s.recStat.getD t .free
  | .tarnRecords t => s.recStat.getD (8 + t.val) .free

/-- Set the status of a resource. -/
def setStat (s : State) (r : Resource) (x : RStat) : State :=
  match r with
  | .tileGroup g => { s with tgStat := s.tgStat.set g x }
  | .lane j => { s with laneStat := s.laneStat.set j x }
  | .kaeGroup g => { s with kaeStat := s.kaeStat.set g x }
  | .link n => { s with linkStat := s.linkStat.set n x }
  | .memUnit st u => { s with memStat := s.memStat.set (unitBit st u) x }
  | .keySlots t => { s with recStat := s.recStat.set t x }
  | .tarnRecords t => { s with recStat := s.recStat.set (8 + t.val) x }

/-- The resource has been retired (R426, R576, R579). -/
def resRetired (s : State) (r : Resource) : Bool :=
  match r with
  | .tileGroup g => s.units.groupRetired.getLsbD g
  | .lane j => s.units.laneRetired.getLsbD j
  | .kaeGroup g => (upto 8).all fun c => s.units.kaeFailed.getLsbD (8 * g + c)
  | .link n => s.units.linkRetired.getLsbD n
  | .memUnit st u => s.units.memRetired.getLsbD (unitBit st u)
  | .keySlots _ => false
  | .tarnRecords _ => false

/-- A status in which a scrub has come to its end. -/
def resDone (x : RStat) : Bool := x == .free || x == .retired

/-- The unit identifier of a resource (Table 13-2), for those that are one unit. -/
def resUnit (r : Resource) : Option UnitId :=
  match r with
  | .tileGroup g => some (mkUnit kGroup g)
  | .lane j => some (mkUnit kLane j)
  | .memUnit st u => some (mkUnit kMem (unitBit st u))
  | .link n => some (mkUnit kLink n)
  | _ => none

/-! The map's layout -/

/-- An entry from its 128 bytes as submitted (R431). -/
def parseEntry (b : Bytes) : PEntry :=
  if byteAt b 0 != 1 then {}
  else { state := 1
         confidential := bit (byteAt b 1) 0
         audit := bit (byteAt b 1) 1
         tileGroups := BitVec.ofNat 16 (field b 2 2)
         lanes := BitVec.ofNat 16 (field b 4 2)
         kaeGroups := BitVec.ofNat 8 (byteAt b 6)
         links := BitVec.ofNat 12 (field b 8 2)
         quota := field b 0x0A 2
         keySlots := field b 0x0C 2
         memUnits := BitVec.ofNat 256 (field b 0x10 32)
         expose := BitVec.ofNat 32 (field b 0x30 4) }

/-- The reserved fields of a submitted entry are zero; they are ignored where STATE is not LIVE (R431). -/
def entryReservedOk (b : Bytes) : Bool :=
  byteAt b 0 ≤ 2 && (byteAt b 0 != 1
    || (byteAt b 1 / 4 == 0 && byteAt b 7 == 0 && field b 8 2 / 4096 == 0 && field b 0x0E 2 == 0 && field b 0x34 4 == 0
      && allZero (slice b 0x40 0x40)))

/-- The 128 bytes of an entry (Table 10-4). -/
def entryBytes (e : PEntry) : Bytes :=
  leBytes 1 e.state ++ leBytes 1 (b2n e.confidential + 2 * b2n e.audit) ++ leBytes 2 e.tileGroups.toNat
    ++ leBytes 2 e.lanes.toNat ++ leBytes 1 e.kaeGroups.toNat ++ zeros 1 ++ leBytes 2 e.links.toNat ++ leBytes 2 e.quota
    ++ leBytes 2 e.keySlots ++ zeros 2 ++ leBytes 32 e.memUnits.toNat ++ leBytes 4 e.expose.toNat ++ zeros 4
    ++ leBytes 8 e.createBeat ++ zeros 0x40

/-- The 1,088 bytes of the active map. -/
def mapBytes (m : PMap) : Bytes :=
  leBytes 2 1 ++ zeros 2 ++ leBytes 4 m.gen.toNat ++ leBytes 8 m.effective ++ zeros 0x30 ++ (m.entries.map entryBytes).flatten

/-- The entries of a submitted map. -/
def parseMap (b : Bytes) : List PEntry := (upto 8).map fun t => parseEntry (slice b (64 + 128 * t) 128)

/-- The format checks of a submitted map (R432). -/
def mapFormatOk (b : Bytes) : Bool :=
  b.length == 1088 && field b 0 2 == 1 && field b 2 2 == 0 && allZero (slice b 0x10 0x30)
    && (upto 8).all fun t => entryReservedOk (slice b (64 + 128 * t) 128)

/-- The eight memory units of a band belong to an entry. -/
def ownsBand (e : PEntry) (b : Nat) : Bool := (upto 8).all fun st => e.memUnits.getLsbD (32 * st + b)

/-- The rules of R432 on the entries of a target map. -/
def mapOk (cur : List PEntry) (new : List PEntry) : Bool :=
  let liveE := new.filter fun e => e.state == 1
  (mapResources.all fun r => (liveE.filter fun e => ownsRes e r).length ≤ 1)
    && (liveE.all fun e => e.memUnits != 0 && (e.lanes == 0 || e.kaeGroups != 0)
      && ((upto 32).all fun b => !e.expose.getLsbD b || ownsBand e b) && (!e.confidential || e.expose == 0))
    && (liveE.map (·.quota)).sum ≤ 16128 && (liveE.map (·.keySlots)).sum ≤ 480
    && ((cur.zip new).all fun x => !(x.1.state == 1 && x.2.state == 1)
      || (x.1.confidential == x.2.confidential && x.1.audit == x.2.audit))

/-- Two entries differ in a field that a submission sets. -/
def entryDiffers (a b : PEntry) : Bool :=
  let na := { a with state := if a.state == 1 then 1 else 0, createBeat := 0 }
  let nb := { b with state := if b.state == 1 then 1 else 0, createBeat := 0 }
  if na.state == 0 && nb.state == 0 then false else na != nb

/-- Tarns whose entry differs between two maps (R590). -/
def namedTarns (cur new : List PEntry) : List TarnIx :=
  allTarns.filter fun t => entryDiffers (cur.getD t {}) (new.getD t {})

/-- Resources that a map takes from Tarns. -/
def takenRes (cur new : List PEntry) : List Resource :=
  mapResources.filter fun r => allTarns.any fun t => ownsRes (cur.getD t {}) r && !ownsRes (new.getD t {}) r

/-- Resources that a map gives to Tarns that did not hold them. -/
def givenRes (cur new : List PEntry) : List Resource :=
  mapResources.filter fun r => allTarns.any fun t => ownsRes (new.getD t {}) r && !ownsRes (cur.getD t {}) r

/-- A map alters tile-group or Basin-lane ownership (R48). -/
def altersSlots (cur new : List PEntry) : Bool :=
  (cur.zip new).any fun x =>
    let f := fun (e : PEntry) => if e.state == 1 then (e.tileGroups, e.lanes) else (0, 0)
    f x.1 != f x.2

/-- Tarns that a map destroys. -/
def destroyed (cur new : List PEntry) : List TarnIx :=
  allTarns.filter fun t => (cur.getD t {}).state == 1 && (new.getD t {}).state != 1

/-- Tarns that a map creates. -/
def created (cur new : List PEntry) : List TarnIx :=
  allTarns.filter fun t => (cur.getD t {}).state != 1 && (new.getD t {}).state == 1

/-- WHAT of a map change: exposure alone, link ownership alone, or the map. -/
def mapWhat (cur new : List PEntry) : Nat :=
  if (cur.zip new).all (fun x => !entryDiffers x.1 x.2) then 1
  else if (cur.zip new).all fun x => !entryDiffers { x.1 with expose := 0 } { x.2 with expose := 0 } then 2
  else if (cur.zip new).all fun x => !entryDiffers { x.1 with links := 0 } { x.2 with links := 0 } then 5
  else 1

/-! Rule changes -/

/-- Start draining a rule change: it gets its own number. -/
def addRule (s : State) (r : RuleChange) : State := { s with rules := s.rules ++ [{ r with id := s.nextRule }], nextRule := s.nextRule + 1 }

/-- Something stamped at `e` or earlier is outstanding for a rule change (R441, R443). -/
def ruleOutstanding (s : State) (r : RuleChange) : Bool :=
  if r.what == 0 then false
  else if r.what == 6 then s.tickets.any fun k => match k.key with
    | some (slot, _, stamp) => stamp ≤ r.e && r.slots.contains slot && ticketRuns k
    | none => false
  else s.remotes.any (fun m => m.beat ≤ r.e) || s.cxlHeld.any (fun x => x.stamp ≤ r.e)
    || s.links.any (fun l => (l.partials ++ l.inbox).any fun m =>
      m.vc == 1 && !m.bytes.isEmpty && m.verdict.isNone && m.stamp ≤ r.e && byteAt m.bytes 1 == s.timing.deviceNo.val)
    || s.tickets.any fun k => (ticketRuns k && k.hand.any fun x => x.2 ≤ r.e) || match k.dma with
      | some (_, stamp) => stamp ≤ r.e
      | none => false

/-- A partition-map change lies between its effective and its drained beat (R434). -/
def mapDraining (s : State) : Bool := s.rules.any fun r => (r.what == 1 || r.what == 2 || r.what == 5) && r.d.isNone

/-! Scrub -/

/-- Make the words of a memory unit clean: its slice of 32 MiB on each channel of the stack. -/
def cleanUnit (l : List (Nat × Nat)) (st : StackIx) (u : Fin 32) : List (Nat × Nat) :=
  (upto 32).foldl (fun l c =>
    let lo := chanKey st c (u * 2 ^ 25) / 32
    ivSub lo (lo + 2 ^ 20) l) l

/-- Clear what scrub clears (Table 10-7). -/
def scrubContent (s : State) (r : Resource) : State :=
  match r with
  | .memUnit st u =>
    let b := unitBit st u
    { s with mem := s.mem.filter fun c => keyUnit c.1 != b, poison := cleanUnit s.poison st u }
  | .keySlots t => { s with keys := s.keys.map fun k => if k.tarn == some t then {} else k }
  | .link n => modLink s n fun l => if l.mode == .intake then { l with parts := [], tx := {}, rx := {} } else { l with parts := [] }
  | .tarnRecords t => modFn s t fun f => { f with sessions := [], bounce := none }
  | .tileGroup g => { s with spLeft := s.spLeft.set g [] }
  | .lane _ => s
  | .kaeGroup _ => s

/-- HOUSE tickets that are free: 256 in all (R84, Table 02-11). A scrub and a test each hold one (DESIGN CHOICE, log 93). -/
def houseRoom (s : State) : Nat := 256 - (s.scrubs.length + s.bists.length)

/-- Start the scrub of resources that a drained change took (R445), in step 10 of this seam, as far as HOUSE tickets are free (R99). -/
def startScrubs (s : State) (rs : List Resource) : State :=
  let go := (rs.filter fun r => statOf s r == .scrubbing && !(s.scrubs.any fun x => x.1 == r)).take (houseRoom s)
  { s with scrubs := s.scrubs ++ go.map fun r => (r, s.beat), bar := { s.bar with house := s.bar.house + go.length } }

/-- A resource's scrub has finished: its content is gone; it becomes FREE or RETIRED in step 5 (R447). -/
def scrubDone (s : State) (r : Resource) : State :=
  if s.scrubs.any (fun x => x.1 == r) then
    setStat { scrubContent s r with scrubs := s.scrubs.filter fun x => !(x.1 == r) } r .scrubbed
  else s

/-- SCRUB_COMPLETE (R447). -/
def execScrubComplete (r : Resource) (s : State) : Host.Outcome State Fault Refusal :=
  .next (if s.board.running then scrubDone s r else s)

/-- All resources whose status is followed. -/
def trackedResources : List Resource := mapResources ++ allTarns.map .keySlots ++ allTarns.map .tarnRecords

/-- Step 5 for scrubs that have finished: FREE, or RETIRED where retired (R447). -/
def freeScrubbed (s : State) : State :=
  trackedResources.foldl (fun s r =>
    if statOf s r == .scrubbed then setStat s r (if resRetired s r then .retired else .free) else s) s

/-- Forget the resources of destroyed Tarns that have become FREE or RETIRED; an index with none left may be used again
(R448). -/
def settleDying (s : State) : State :=
  let d := s.dying.map fun x => (x.1, x.2.filter fun r => !resDone (statOf s r))
  let gone := (d.filter fun x => x.2.isEmpty).map (·.1)
  let clear := fun (e : PEntry × Nat) => if e.1.state == 2 && (gone.map (·.val)).contains e.2 then {} else e.1
  { s with
    dying := d.filter fun x => !x.2.isEmpty
    confScrub := s.confScrub.filter fun r => !resDone (statOf s r)
    map := { s.map with entries := s.map.entries.zipIdx.map clear } }

/-! The debug lock -/

/-- A confidential Tarn exists, or some resource of a destroyed one is not yet FREE (R451). -/
def confLock (s : State) : Bool :=
  s.map.entries.any fun e => (e.state == 1 || e.state == 2) && e.confidential

/-- DEBUG_DEVICE (Table 12-2). -/
def debugDevice (s : State) : Nat :=
  let d := s.mgmt.switches
  b2n (d.testPort && !confLock s) + 2 * b2n d.ieee1687 + 4 * b2n d.trace + 8 * b2n d.counters

/-- DEBUG_TARN of an index (R523). -/
def debugTarn (s : State) (t : TarnIx) : Nat :=
  if !live s t then 0 else if isConf s t then 0x80 else debugDevice s

/-- DEBUG event: 1 an instrument session ended, 2 the device's debug state changed. -/
def tallyDebug (s : State) (t event : Nat) : State :=
  tally s 0x0072 1 t false .ok (leBytes 1 event ++ leBytes 1 (debugDevice s))

/-- A confidential Tarn is created while an IEEE 1687 session is open: the session ends (R453) (DEDUCED, log 63). -/
def endInstruments (s : State) (t : TarnIx) : State :=
  if isConf s t && s.mgmt.switches.ieee1687 then
    tallyDebug { s with mgmt := { s.mgmt with switches := { s.mgmt.switches with ieee1687 := false } } } t 1
  else s

/-- A resource of a confidential Tarn, or one that is SCRUBBING after one (R452). -/
def lockedRes (s : State) (r : Resource) : Bool :=
  s.confScrub.contains r || match r with
  | .keySlots t => isConf s t
  | .tarnRecords t => isConf s t
  | r => allTarns.any fun t => isConf s t && ownsRes (entryOf s t) r

/-! Applying a map -/

/-- Take a resource from its Tarn (R438). -/
def takeRes (s : State) (r : Resource) : State := setStat s r .scrubbing

/-- What a new Tarn starts with (R436), and its TARN_CREATED event. -/
def createTarn (s : State) (t : TarnIx) (e : PEntry) : State :=
  let key := attestKey s t s.beat
  let s := { s with tarns := s.tarns.set t (some { attKey := key }) }
  let old := fnOf s t
  let s := modFn s t fun _ => { busMaster := old.busMaster, ctoEnc := old.ctoEnc, d3hot := old.d3hot, aer := old.aer, msix := old.msix }
  tally s 0x0024 1 t false .ok
    (leBytes 1 (b2n e.confidential + 2 * b2n e.audit) ++ zeros 7
      ++ (if rootOk s then sha384 (sec1 p384 (ecPub p384 key)) else zeros 48))

/-- What a destroyed Tarn leaves (R384, R425, R437, R511): its function keeps nothing but its PCIe settings; journal entries of its
replacements are IDLE. -/
def removeTarn (s : State) (t : TarnIx) : State :=
  let old := fnOf s t
  let ended := old.sessions
  let s := ended.foldl (fun s x => tallySession s t 2 x.id.toNat) s
  let s := modFn s t fun _ => { busMaster := old.busMaster, ctoEnc := old.ctoEnc, d3hot := old.d3hot, aer := old.aer, msix := old.msix }
  let s := setStat (setStat { s with tarns := s.tarns.set t none } (.keySlots t) .scrubbing) (.tarnRecords t) .scrubbing
  let hits := fun (x : Option Replace) => match x with
    | some r => r.key.tarn == some t
    | none => false
  let idle := fun (e : JEntry × Nat) => if hits (s.replaces.getD e.2 none) then { e.1 with jstate := 0 } else e.1
  { s with
    replaces := s.replaces.map fun x => if hits x then none else x
    bbram := { s.bbram with journal := s.bbram.journal.zipIdx.map idle } }

/-- Apply a map in step 5 of a seam (R435 to R438): a rule change with its effective beat. -/
def applyMap (s : State) (new : List PEntry) (changeId phase : Nat) : State :=
  let cur := s.map.entries
  let takes := takenRes cur new
  let dead := destroyed cur new
  let born := created cur new
  let what := mapWhat cur new
  let deadRes := dead.map fun (t : TarnIx) => (t, (takes.filter fun r => ownsRes (cur.getD t {}) r) ++ [.keySlots t, .tarnRecords t])
  let entries := allTarns.map fun (t : TarnIx) =>
    let n := new.getD t {}
    let o := cur.getD t {}
    if born.contains t then { n with createBeat := s.beat }
    else if dead.contains t then { state := 2, confidential := o.confidential }
    else if n.state == 1 then { n with createBeat := o.createBeat }
    else o
  let s := takes.foldl takeRes s
  let s := dead.foldl removeTarn s
  let s := { s with
    map := { gen := s.map.gen + 1, effective := s.beat, entries }
    dying := s.dying ++ deadRes
    confScrub := s.confScrub ++ (takes.filter fun r => cur.any fun e => e.confidential && ownsRes e r)
      ++ ((deadRes.filter fun x => (cur.getD x.1 {}).confidential).map fun x => [Resource.keySlots x.1, Resource.tarnRecords x.1]).flatten }
  let s := born.foldl (fun s t => endInstruments (createTarn s t (new.getD t {})) t) s
  addRule s { id := 0, what, e := s.beat, changeId, phase,
              takes := takes ++ (dead.map fun (t : TarnIx) => [Resource.keySlots t, Resource.tarnRecords t]).flatten }

end Sys2Proof.Machine
end

