-- ==== Sys2Proof/Machine/Keys.lean ====
section
/-! DEFINITION. Key slots, blobs, parents and replacement (R465 to R491, R505 to R513). -/

namespace Sys2Proof.Machine

/-- Key check value (R476). -/
def kcvOf (usage : Nat) (material : Bytes) : Bytes := (sha384 (ascii "GZ8-KCV-1" ++ leBytes 1 usage ++ material)).take 8

/-- Bytes 0 to 3 of a check value. -/
def kcvLow (kcv : Bytes) : BitVec 32 := BitVec.ofNat 32 (field kcv 0 4)

/-- The storage root (R466). -/
def storageRoot (s : State) : Bytes := rootKey s (ascii "storage") 32

/-- The session wrap key (R467). -/
def wrapKey (x : Session) : Bytes := hkdfExpand384 x.exportSecret (ascii "GZ8-KEYWRAP-1") 32

/-- A parent-table entry. -/
def parentOf (s : State) (p : Nat) : Parent := s.bbram.parents.getD p {}

/-- Change a parent-table entry. -/
def modParent (s : State) (p : Nat) (g : Parent → Parent) : State :=
  { s with bbram := { s.bbram with parents := s.bbram.parents.modify p g } }

/-- A slot from 1 to 480 that the Tarn holds, LOADED or REVOKED (R469, R470). -/
def slotHeld (s : State) (t : TarnIx) (k : Nat) : Bool :=
  1 ≤ k && k ≤ 480 && (slotOf s k).tarn == some t && (slotOf s k).state != .empty

/-- Slots that a Tarn holds. -/
def slotsHeld (s : State) (t : TarnIx) : Nat := (s.keys.filter fun k => k.tarn == some t && k.state != .empty).length

/-- Header fields of a blob (Table 11-4). -/
structure Blob where
  kind : Nat
  usage : Nat
  parentKind : Nat
  owner : Nat
  parentId : Nat
  parentGen : Nat
  recordId : Nat
  kcv : Bytes
  nonce : Bytes
  session : Nat
  label : Bytes
  header : Bytes
  body : Bytes
  tag : Bytes
  deriving DecidableEq, Repr

/-- The fields of a blob's 112 bytes. -/
def blobOf (b : Bytes) : Blob where
  kind := byteAt b 2
  usage := byteAt b 3
  parentKind := byteAt b 4
  owner := byteAt b 5
  parentId := field b 6 2
  parentGen := field b 8 4
  recordId := field b 0x0C 2
  kcv := slice b 0x10 8
  nonce := slice b 0x18 12
  session := field b 0x24 4
  label := slice b 0x28 16
  header := b.take 64
  body := slice b 64 32
  tag := slice b 96 16

/-- Item 1 of R480: the header's own fields (R475 to R479), the ranges of RECORD_ID and PARENT_ID among them (DEDUCED, log 96). -/
def blobFormOk (raw : Bytes) : Bool :=
  let b := blobOf raw
  raw.length == 112 && field raw 0 2 == 1 && b.kind ≤ 1 && 1 ≤ b.usage && b.usage ≤ 4 && b.parentKind ≤ 2 && b.owner < 8
    && field raw 0x0E 2 == 0 && field raw 0x38 8 == 0 && b.recordId ≤ 1023
    && (if b.parentKind == 1 then 1 ≤ b.parentId && b.parentId ≤ 1023 else b.parentId == 0 && b.parentGen == 0)
    && (b.kind == 0 || (allZero b.nonce && b.parentKind == 1))
    && (b.parentKind == 2 || b.session == 0)
    && (b.parentKind != 0 || b.recordId != 0)
    && (b.parentKind != 2 || (b.kind == 0 && b.usage ≤ 2 && b.recordId == 0))

/-- Item 2 of R480, but for the count of slots. -/
def blobAllowed (s : State) (t : TarnIx) (b : Blob) : Bool :=
  let mine := fun (p : Parent) => p.owner.toNat == t.val
  b.owner == t.val
    && (b.parentKind != 1 || ((parentOf s b.parentId).state != 0 && mine (parentOf s b.parentId)))
    && (b.recordId == 0 || ((parentOf s b.recordId).state == 1 && mine (parentOf s b.recordId)))
    && (b.parentKind != 2 || (isConf s t && (match sessionOf s t (BitVec.ofNat 32 b.session) with
      | some x => x.established
      | none => false)))

/-- The slot that holds a parent-table entry's recorded key for a Tarn: a LOADED one before a REVOKED one (R480 item 4);
with KCV_SET 0 any check value does (DEDUCED, log 96). -/
def parentSlot (s : State) (t : TarnIx) (p : Nat) : Option KeySlot :=
  let e := parentOf s p
  let holds := fun (k : KeySlot) => k.tarn == some t && k.recordId == p && (!e.kcvSet || kcvLow k.kcv == e.kcvLow)
  match s.keys.find? fun k => k.state == .loaded && holds k with
  | some k => some k
  | none => s.keys.find? fun k => k.state == .revoked && holds k

/-- The parent key of a blob, or the outcome of items 4 and 5 of R480. -/
def parentKey (s : State) (t : TarnIx) (b : Blob) : Except Status Bytes :=
  match b.parentKind with
  | 0 => .ok (storageRoot s)
  | 1 => match parentSlot s t b.parentId with
    | none => .error .notPermitted
    | some k =>
      if k.usage != (if b.kind == 0 then 3 else 4) then .error .notPermitted
      else if k.state == .revoked then .error .keyRevoked
      else .ok k.material
  | _ => match sessionOf s t (BitVec.ofNat 32 b.session) with
    | some x => .ok (wrapKey x)
    | none => .error .notPermitted

/-- The material of a blob under its parent key, when its tag verifies (R477, R478); a DERIVED blob's body is not
checked (DEDUCED, log 96). -/
def blobMaterial (b : Blob) (pk : Bytes) : Option Bytes :=
  if b.kind == 0 then gcmOpen pk b.nonce b.header b.body b.tag
  else
    let m := hkdf384 [] pk (ascii "GZ8-DERIVE-1" ++ leBytes 1 b.usage ++ leBytes 1 b.owner ++ leBytes 2 b.recordId ++ b.label) 32
    if (hmac384 m b.header).take 16 == b.tag then some m else none

/-- The checks of R480 in order; `replacing` leaves out the count of slots and the recorded check value, which a replacement is
to change (R488). The result is the key as a slot holds it. -/
def checkBlob (s : State) (t : TarnIx) (raw : Bytes) (replacing : Bool) (same : Blob → Bool) : Except Status KeySlot :=
  let b := blobOf raw
  if !blobFormOk raw then .error .badCommand
  else if !blobAllowed s t b || !same b || (!replacing && (entryOf s t).keySlots ≤ slotsHeld s t) then .error .notPermitted
  else if b.parentKind == 1 && ((parentOf s b.parentId).state == 2 || (parentOf s b.parentId).gen.toNat != b.parentGen) then
    .error .keyOrphaned
  else match parentKey s t b with
    | .error st => .error st
    | .ok pk => match blobMaterial b pk with
      | none => .error .notPermitted
      | some m =>
        let e := parentOf s b.recordId
        if kcvOf b.usage m != b.kcv || (!replacing && b.recordId != 0 && e.kcvSet && e.kcvLow != kcvLow b.kcv) then
          .error .notPermitted
        else .ok { state := .loaded, tarn := some t, material := m, usage := b.usage, parentKind := b.parentKind,
                   parentId := b.parentId, parentGen := b.parentGen, session := BitVec.ofNat 32 b.session,
                   recordId := b.recordId, kcv := b.kcv, label := b.label }

/-- Key commands. -/
def isKeyOp (op : Nat) : Bool := 0x08 ≤ op && op ≤ 0x0B

/-- The kernel has not yet handled an earlier key command of the Tarn (R481); stage 1 marks one handled and waiting. -/
def keyTurn (s : State) (k : Ticket) : Bool :=
  !s.tickets.any fun j => j.tarn == k.tarn && isKeyOp j.op && j.uid < k.uid && ticketRuns j && j.stage == 0

/-- A replacement of the slot is still PREPARED (R507). -/
def slotPending (s : State) (slot : Nat) : Bool :=
  (s.bbram.journal.zipIdx.any fun e => e.1.jstate == 1 && e.1.slot.toNat == slot && (s.replaces.getD e.2 none).isSome)

/-- KEY_LOAD (R480, R481, R493): the key takes the lowest EMPTY slot. -/
def serveKeyLoad (s : State) (k : Ticket) : State :=
  if !keyTurn s k then s
  else if !rootOk s then answerTicket s k.uid .rootLost 0 0
  else match plainOf s k 0 112 k.buf with
    | (.error st, s) => failTicket s k.uid st
    | (.ok raw, s) => match checkBlob s k.tarn raw false (fun _ => true) with
      | .error st => answerTicket s k.uid st 0 0
      | .ok key => match (upto 480).find? fun i => (slotOf s (i + 1)).state == .empty with
        | none => answerTicket s k.uid .notPermitted 0 0
        | some i =>
          let key := { key with readyFrom := s.beat + 1 }
          let s := modSlot s (i + 1) fun _ => key
          finishTicket (tallyKeyEv s k.tarn 1 (i + 1) key []) k.uid (i + 1) 0

/-- Run a service of a ticket of an opcode, when it may be served (DESIGN CHOICE, log 60). -/
def serve (s : State) (uid op : Nat) (g : State → Ticket → State) : State :=
  match servable s uid op with
  | some k => g s k
  | none => s

/-- KEY_LOAD. -/
def execKeyLoad (uid : Nat) (s : State) : Host.Outcome State Fault Refusal := .next (serve s uid 0x08 serveKeyLoad)

/-- KEY_UNLOAD (R484): the revocation waits for step 5 of the coming seam. -/
def serveKeyUnload (s : State) (k : Ticket) : State :=
  let slot := opW k 0
  if !keyTurn s k || k.stage != 0 || slotPending s slot then s
  else if !slotHeld s k.tarn slot then answerTicket s k.uid .notPermitted 0 0
  else
    let s := modTicket s k.uid fun k => { k with stage := 1 }
    { s with pendRules := s.pendRules ++ [.unload k.uid k.tarn slot] }

/-- KEY_UNLOAD. -/
def execKeyUnload (uid : Nat) (s : State) : Host.Outcome State Fault Refusal := .next (serve s uid 0x09 serveKeyUnload)

/-- Earlier replacements that still wait for a journal entry (R490). -/
def replaceTurn (s : State) (k : Ticket) : Bool :=
  !s.tickets.any fun j => j.op == 0x0A && j.uid < k.uid && ticketRuns j && j.stage == 0

/-- A replacement of the slot has not completed yet (R506). -/
def replaceRunning (s : State) (k : Ticket) (slot : Nat) : Bool :=
  s.tickets.any fun j => j.op == 0x0A && j.uid != k.uid && j.uid < k.uid && ticketRuns j && opW j 0 == slot && j.tarn == k.tarn

/-- KEY_REPLACE (R488 to R490): the new key goes to the pending slot of an IDLE journal entry, which becomes PREPARED. -/
def serveKeyReplace (s : State) (k : Ticket) : State :=
  let slot := opW k 0
  let old := slotOf s slot
  if !keyTurn s k || k.stage != 0 || !replaceTurn s k || replaceRunning s k slot then s
  else if !rootOk s then answerTicket s k.uid .rootLost 0 0
  else if !slotHeld s k.tarn slot || old.state != .loaded then answerTicket s k.uid .notPermitted 0 0
  else match (upto 16).find? fun j => (s.bbram.journal.getD j {}).jstate == 0 && (s.replaces.getD j none).isNone with
    | none => s
    | some j => match plainOf s k 1 112 k.buf with
      | (.error st, s) => failTicket s k.uid st
      | (.ok raw, s) =>
        let e := parentOf s old.recordId
        let same := fun (b : Blob) => b.usage == old.usage && b.owner == k.tarn.val && b.recordId == old.recordId
          && (old.recordId == 0 || !e.kcvSet || e.kcvLow == kcvLow old.kcv)
        match checkBlob s k.tarn raw true same with
        | .error st => answerTicket s k.uid st 0 0
        | .ok key =>
          let entry : JEntry := { jstate := 1, slot := BitVec.ofNat 9 slot, tarn := BitVec.ofNat 3 k.tarn,
                                  recordId := BitVec.ofNat 10 old.recordId, oldKcv := kcvLow old.kcv, newKcv := kcvLow key.kcv }
          let s := modTicket s k.uid fun k => { k with stage := 1 }
          { s with
            bbram := { s.bbram with journal := s.bbram.journal.set j entry }
            replaces := s.replaces.set j (some { uid := k.uid, key, old }) }

/-- KEY_REPLACE. -/
def execKeyReplace (uid : Nat) (s : State) : Host.Outcome State Fault Refusal := .next (serve s uid 0x0A serveKeyReplace)

/-- Set the state of a journal entry. -/
def setJournal (s : State) (j : Nat) (g : JEntry → JEntry) : State :=
  { s with bbram := { s.bbram with journal := s.bbram.journal.modify j g } }

/-- A KEY_REPLACE whose ticket has ended before its commit is given up as a power failure gives up a PREPARED entry (R512,
Table 11-6; DEDUCED, log 96). -/
def dropReplace (s : State) (j : Nat) : State := setJournal { s with replaces := s.replaces.set j none } j fun _ => {}

/-- Step 4 of R490 for journal entry `j` (R491): the commit, in step 5 of a seam. -/
def commitReplace (s : State) (j : Nat) : State :=
  let e := s.bbram.journal.getD j {}
  match s.replaces.getD j none with
  | none => s
  | some r =>
    if e.jstate != 1 then s
    else if !((ticketOf s r.uid).map ticketRuns).getD false then dropReplace s j
    else
      let p := parentOf s r.key.parentId
      let slot := e.slot.toNat
      let t : Nat := e.tarn.toNat
      if r.key.parentKind == 1 && (p.state == 2 || p.gen.toNat != r.key.parentGen) then
        let s := dropReplace s j
        answerTicket (tallyKeyEv s t 8 slot r.key r.old.kcv .keyOrphaned) r.uid .keyOrphaned 0 0
      else
        let s := setJournal s j fun x => { x with jstate := 2 }
        let s := if r.key.recordId == 0 then s
          else modParent s r.key.recordId fun x => { x with kcvSet := true, kcvLow := e.newKcv }
        let s := modSlot s slot fun _ => { r.key with readyFrom := s.beat + 1 }
        let s := { s with replaces := s.replaces.set j (some { r with commitBeat := some s.beat }) }
        let s := modTicket s r.uid fun k => { k with stage := 2, cursor := s.beat }
        tallyKeyEv s t 3 slot r.key r.old.kcv

/-- KEY_REPLACE_COMMIT (R490): this part of step 5 for one journal entry. -/
def execKeyReplaceCommit (j : Fin 16) (s : State) : Host.Outcome State Fault Refusal :=
  .next (if running s then commitReplace s j else s)

/-- An operation that started with a key by beat `c` still runs on material `m` of a slot. -/
def keyBusy (s : State) (slot : Nat) (m : Bytes) (c : Nat) : Bool :=
  s.tickets.any fun k => ticketRuns k && (match k.key with
    | some (n, mat, stamp) => n == slot && mat == m && stamp ≤ c
    | none => false)

/-- Step 7 of R490 for journal entry `j`: the old key and the pending slot are erased, and the entry becomes IDLE. -/
def journalIdle (s : State) (j : Nat) : State :=
  match s.replaces.getD j none with
  | none => s
  | some r => match r.commitBeat with
    | none => s
    | some c =>
      if c < s.beat && !keyBusy s (s.bbram.journal.getD j {}).slot.toNat r.old.material c then
        dropReplace s j
      else s

/-- KEY_JOURNAL_IDLE (R490). -/
def execKeyJournalIdle (j : Fin 16) (s : State) : Host.Outcome State Fault Refusal :=
  .next (if running s then journalIdle s j else s)

/-- The outcome of PARENT_INVALIDATE's own checks (R486). -/
def parentCheck (s : State) (t : TarnIx) (p : Nat) : Option Status :=
  let e := parentOf s p
  if p == 0 || 1023 < p || e.state == 0 || e.owner.toNat != t.val then some .notPermitted
  else if e.state == 2 then some .counterExhausted
  else none

/-- PARENT_INVALIDATE (R486, R493). -/
def serveParentInvalidate (s : State) (k : Ticket) : State :=
  if !keyTurn s k || k.stage != 0 then s
  else if !rootOk s then answerTicket s k.uid .rootLost 0 0
  else match parentCheck s k.tarn (opW k 0) with
    | some st => answerTicket s k.uid st 0 0
    | none =>
      let s := modTicket s k.uid fun k => { k with stage := 1 }
      { s with pendRules := s.pendRules ++ [.invalidate k.uid k.tarn (opW k 0)] }

/-- PARENT_INVALIDATE. -/
def execParentInvalidate (uid : Nat) (s : State) : Host.Outcome State Fault Refusal :=
  .next (serve s uid 0x0B serveParentInvalidate)

/-- Raise the generation of an entry, or make it SPENT at its end (R474, R486, R487) (DEDUCED, log 43). -/
def raiseGen (e : Parent) : Parent :=
  if e.gen == 0xFFFFFFFF#32 then { e with state := 2 } else { e with gen := e.gen + 1 }

/-- Slots of any Tarn whose key was loaded beneath a parent-table entry, directly or through loaded parents (R486): an entry may have been
another Tarn's before (R474). `fuel` bounds the chain. -/
def beneath (s : State) : Nat → List Nat → List Nat
  | 0, _ => []
  | fuel + 1, entries =>
    let hit := (upto 512).filter fun i =>
      let k := slotOf s i
      k.state != .empty && k.tarn.isSome && k.parentKind == 1 && entries.contains k.parentId
    let next := ((hit.map fun i => (slotOf s i).recordId).filter fun r => r != 0 && !entries.contains r).dedup
    if next.isEmpty then hit else (hit ++ beneath s fuel (next ++ entries)).dedup

/-- Revoke slots at the seam of this beat: a rule change that drains when every operation started with them has finished
(R443, R484). -/
def revokeSlots (s : State) (t : TarnIx) (slots : List Nat) (uid : Option Nat) (changeId result0 : Nat) (empties : Bool) :
    State :=
  let s := slots.foldl (fun s i => tallyKeyEv (modSlot s i fun k => { k with state := .revoked }) ((slotOf s i).tarn.getD t) 2 i (slotOf s i) []) s
  addRule s { id := 0, what := 6, e := s.beat, tarn := some t, uid, slots, result0, changeId, empties }

/-- Apply a pending invalidation in step 5 (R486). -/
def applyInvalidate (s : State) (uid : Nat) (t : TarnIx) (p : Nat) : State :=
  match parentCheck s t p with
  | some st => answerTicket s uid st 0 0
  | none =>
    let s := modParent s p raiseGen
    let e := parentOf s p
    let s := tallyKeyEv s t 5 0 { usage := 0, recordId := p, parentGen := e.gen.toNat } []
    revokeSlots s t ((beneath s 1024 [p]).filter fun i => (slotOf s i).state == .loaded) (some uid) 0
      (if e.state == 2 then 0 else e.gen.toNat) false

/-- Apply a pending unload in step 5 (R484). -/
def applyUnload (s : State) (uid : Nat) (t : TarnIx) (slot : Nat) : State :=
  if slotHeld s t slot then revokeSlots s t [slot] (some uid) 0 0 true else answerTicket s uid .notPermitted 0 0

/-- The key of a slot at the start of an operation (R439, R443, R481, R482, R485): its slot, material and the check's stamp. -/
def keyStart (s : State) (t : TarnIx) (slot usage : Nat) : Except Status (Nat × Bytes × Nat) :=
  let k := slotOf s slot
  if !slotHeld s t slot then .error .notPermitted
  else if k.state == .revoked then .error .keyRevoked
  else if k.usage != usage || s.beat < k.readyFrom then .error .notPermitted
  else .ok (slot, k.material, s.beat)

end Sys2Proof.Machine
end

