-- ==== Sys2Proof/Machine/Report.lean ====
section
/-! DEFINITION. The attestation report (R521 to R524) and the identity chain (R517 to R520). -/

namespace Sys2Proof.Machine

/-- The 1,600 bytes of a report that its signature covers (Table 12-2); `t` is none on function 0. -/
def reportBody (s : State) (t : Option TarnIx) (nonce : Bytes) : Bytes :=
  let flags := b2n s.board.batteryAbsent + 8 * b2n s.timing.holdover
    + (match t with
      | some t => 2 * b2n (isConf s t) + 4 * b2n (isAudit s t)
      | none => 0)
  leBytes 2 1 ++ leBytes 1 (b2n t.isSome) ++ leBytes 1 (match t with
      | some t => t.val
      | none => 0xFF)
    ++ leBytes 1 (lifeCode (lifeOf s.fuses.lc)) ++ leBytes 1 s.rootState ++ leBytes 1 1 ++ leBytes 1 flags
    ++ leBytes 8 s.beat ++ leBytes 8 (s.tally.next - 1) ++ leBytes 1 s.fuses.rollback ++ leBytes 1 s.fuses.tamperArm.toNat
    ++ zeros 2 ++ leBytes 4 64 ++ (deviceSerial s) ++ (deviceIdDigest s) ++ sha384 (aliasPub s) ++ padTo 48 s.fw.kernel.digest
    ++ padTo 48 s.fw.ctrl.digest ++ (if rootOk s then sha384 (tallyPub s) else zeros 48) ++ padTo 32 nonce
    ++ leBytes 4 s.fw.kernel.release.toNat ++ leBytes 4 s.fw.ctrl.release.toNat ++ leBytes 1 (debugDevice s) ++ zeros 7
    ++ (allTarns.map fun t => leBytes 1 (debugTarn s t)).flatten ++ zeros 8
    ++ (allTarns.map fun t => leBytes 4 (match tarnOf s t with
        | some n => if live s t then n.opFloor else 0
        | none => 0)).flatten
    ++ padTo 32 s.tally.bootNonce ++ zeros 0x60 ++ mapBytes s.map

/-- The leaf key of slot 0 of a function's chain (R400, R524). -/
def leafKey (s : State) (t : Option TarnIx) : Nat :=
  match t with
  | none => aliasKey s
  | some t => match tarnOf s t with
    | some n => n.attKey
    | none => 0

/-- A signed report (R521, R522, R524) (DEDUCED, log 95). -/
def report (s : State) (t : Option TarnIx) (nonce : Bytes) : Bytes × State :=
  let body := reportBody s t nonce
  let (sig, s) := signWith s (leafKey s t) body
  (body ++ sig, s)

/-- Upper-case hexadecimal digits of a number, `n` of them, in ASCII. -/
def hexDigits (n x : Nat) : Bytes :=
  (upto n).map fun i =>
    let d := x / 16 ^ (n - 1 - i) % 16
    BitVec.ofNat 8 (if d < 10 then 48 + d else 55 + d)

/-- The device serial number as 32 hexadecimal digits (R518). -/
def serialText (s : State) : Bytes := ((deviceSerial s).map fun b => hexDigits 2 b.toNat).flatten

/-- What the certificate of a level must say (R517, R518, R520): its subject names, its subject key and, for the Alias certificate, the fwid.
Tsungearis publishes levels 1 and 2. -/
def certFacts (s : State) (level : Nat) (t : Option TarnIx) : Bytes :=
  match level, t with
  | 3, _ => serialText s ++ s.fw.devicePub
  | 4, _ => serialText s ++ aliasPub s ++ padTo 48 s.fw.kernel.digest
  | 5, some t => ascii "GZ8 Tarn " ++ hexDigits 1 t ++ serialText s ++ ascii "-" ++ hexDigits 1 t ++ ascii "-"
      ++ hexDigits 16 (entryOf s t).createBeat ++ sec1 p384 (ecPub p384 (leafKey s (some t)))
  | _, _ => []

/-- A certificate of the identity chain, by level (Table 12-1) (DESIGN CHOICE, log 13). -/
def certOf (s : State) (level : Nat) (t : Option TarnIx) : Bytes :=
  let facts := certFacts s level t
  (upto (Config.certLen level facts)).map (Config.certByte level facts)

/-- The certificates of slot 0 of a function, root first (R400, R520). -/
def certChain (s : State) (t : Option TarnIx) : Bytes :=
  let c := ([1, 2, 3, 4].map fun lv => certOf s lv none).flatten
  match t with
  | none => c
  | some t => c ++ certOf s 5 (some t)

end Sys2Proof.Machine
end

