-- ==== Sys2Proof/Machine/Gci.lean ====
section
/-! DEFINITION. GCI commands that read state into host buffers or set up the transport: NOP, LEDGER_READ, TALLY_READ, REPORT_GET
and BOUNCE_SETUP (R79, R87 to R89, R106, R403, R404, R524, R551, R552, R704). -/

namespace Sys2Proof.Machine

/-- NOP (R79). -/
def execNop (uid : Nat) (s : State) : Host.Outcome State Fault Refusal :=
  .next (serve s uid 0x00 fun s k => finishTicket s k.uid 0 0)

/-! The completion ledger -/

/-- The 64 bytes of a ledger record (Table 02-10). -/
def ledgerBytes (r : LedgerRec) : Bytes :=
  leBytes 4 r.ticketId.toNat ++ leBytes 2 r.commandId.toNat ++ leBytes 1 r.qp
    ++ leBytes 1 (classCode r.cls + 16 * b2n r.restartable + 32 * b2n r.overrunSeen) ++ leBytes 1 (lstateCode r.state)
    ++ leBytes 1 (statusCode r.status) ++ leBytes 2 (min 65535 r.overruns) ++ leBytes 2 r.stagesDone ++ zeros 2
    ++ leBytes 4 r.figuresTotal ++ leBytes 4 r.figuresDone ++ leBytes 8 r.admitBeat ++ leBytes 8 r.commitBeat
    ++ leBytes 8 r.extentBase ++ leBytes 8 r.extentLen ++ leBytes 4 r.basinRound ++ leBytes 4 r.basinAccepted

/-- The record of an ID of which the ledger holds none (R89): only TICKET_ID and STATE EVICTED are filled in. -/
def evictedBytes (id : Nat) : Bytes := leBytes 4 id ++ zeros 4 ++ leBytes 1 (lstateCode .evicted) ++ zeros 55

/-- Insertion of a record by COMMIT_BEAT, and within one by admission (R704). -/
def insertByCommit (r : LedgerRec) : List LedgerRec → List LedgerRec
  | [] => [r]
  | x :: l =>
    if r.commitBeat < x.commitBeat || (r.commitBeat == x.commitBeat && r.uid < x.uid) then r :: x :: l else x :: insertByCommit r l

/-- Live records of a Tarn in admission order, and its retained records of completed tickets, oldest first. -/
def liveRecords (s : State) (t : TarnIx) : List LedgerRec := (s.tickets.filter fun k => k.tarn == t).map (·.ledger)

/-- Retained records of completed tickets, oldest first. -/
def doneRecords (s : State) (t : TarnIx) : List LedgerRec :=
  match tarnOf s t with
  | some n => n.ledger.reverse
  | none => []

/-- The records that a selector names, in the order of R704. -/
def selectLedger (s : State) (t : TarnIx) (sel : LedgerSel) : List Bytes :=
  let all := doneRecords s t ++ liveRecords s t
  match sel with
  | .one id => match all.find? fun r => r.ticketId == id with
    | some r => [ledgerBytes r]
    | none => [evictedBytes id.toNat]
  | .live => (liveRecords s t).map ledgerBytes
  | .since b => ((all.filter fun r => b ≤ r.commitBeat).foldl (fun l r => insertByCommit r l) []).map ledgerBytes

/-- Whole units that fit a buffer, in order. -/
def fitUnits (cap unit : Nat) (l : List Bytes) : List Bytes := l.take (cap / unit)

/-- Write the leading whole units of a read command's answer (R106): OK, or PARTIAL where the buffer was too small. -/
def readAnswer (s : State) (k : Ticket) (operand addr len unit : Nat) (l : List Bytes) (r1 : Nat) : State :=
  let out := fitUnits (bufCapacity s k len) unit l
  match hostOut s k operand addr out.flatten with
  | (.error st, s) => failTicket s k.uid st
  | (.ok _, s) => answerTicket s k.uid (if out.length < l.length then .partialRead else .ok) out.length r1

/-- The selector of LEDGER_READ's operands. -/
def ledgerSel (k : Ticket) : LedgerSel :=
  match opW k 0 with
  | 0 => .one (BitVec.ofNat 32 (opW k 1))
  | 1 => .live
  | _ => .since (opW k 1)

/-- LEDGER_READ (R704). -/
def execLedgerRead (uid : Nat) (s : State) : Host.Outcome State Fault Refusal :=
  .next (serve s uid 0x01 fun s k => readAnswer s k 2 (opW k 2) (opW k 3) 64 (selectLedger s k.tarn (ledgerSel k)) 0)

/-! The Tally -/

/-- An entry as a Tarn reads it (R551, R552): whole, or redacted. -/
def tallyFor (t : TarnIx) (e : TallyEntry) : Bytes :=
  if e.tarn == t.val || e.tarn == anyTarn then tallyBytes e
  else leBytes 8 e.seq ++ leBytes 8 e.beat ++ leBytes 2 0xFFFF ++ leBytes 1 e.tarn
    ++ leBytes 1 (b2n e.more + 2 + 4 * b2n e.firmware) ++ leBytes 1 0 ++ zeros 3 ++ sha384 (tallyBytes e) ++ zeros 8 ++ e.prev

/-- Readable entries from a SEQ on, oldest first, at most `count` (R547, R551). -/
def tallyRange (y : Tally) (first count : Nat) : List TallyEntry :=
  ((y.entries.reverse.filter fun e => max first y.oldest ≤ e.seq && e.seq < tallyReadable y)).take count

/-- TALLY_READ (R551, R560, R561). -/
def execTallyRead (uid : Nat) (s : State) : Host.Outcome State Fault Refusal :=
  .next (serve s uid 0x04 fun s k =>
    readAnswer s k 2 (opW k 2) (opW k 3) 128 ((tallyRange s.tally (opW k 0) (opW k 1)).map (tallyFor k.tarn)) (tallyReadable s.tally - 1))

/-! Reports and bounce areas -/

/-- REPORT_GET (R524). -/
def serveReport (s : State) (k : Ticket) : State :=
  match plainOf s k 0 32 k.buf with
  | (.error st, s) => failTicket s k.uid st
  | (.ok nonce, s) =>
    let (rep, s) := report s (some k.tarn) nonce
    match hostOut s k 1 (opW k 1) rep with
    | (.error st, s) => failTicket s k.uid st
    | (.ok _, s) => finishTicket s k.uid rep.length 0

/-- REPORT_GET. -/
def execReportGet (uid : Nat) (s : State) : Host.Outcome State Fault Refusal := .next (serve s uid 0x05 serveReport)

/-- BOUNCE_SETUP (R403, R404): the area takes effect in the seam that completes it. -/
def serveBounceSetup (s : State) (k : Ticket) : State :=
  let id := BitVec.ofNat 32 (opW k 2)
  match sessionOf s k.tarn id with
  | some x =>
    if isConf s k.tarn && x.established && opW k 2 < 2 ^ 32 then finishTicket s k.uid 0 0
    else answerTicket s k.uid .notPermitted 0 0
  | none => answerTicket s k.uid .notPermitted 0 0

/-- BOUNCE_SETUP. -/
def execBounceSetup (uid : Nat) (s : State) : Host.Outcome State Fault Refusal := .next (serve s uid 0x14 serveBounceSetup)

/-- Put the area of a completed BOUNCE_SETUP in effect (R404), with its SESSION event. -/
def commitBounce (s : State) (k : Ticket) : State :=
  let id := BitVec.ofNat 32 (opW k 2)
  tallySession (modFn s k.tarn fun f => { f with bounce := some { base := opW k 0, len := opW k 1, session := id } }) k.tarn 3 id.toNat

end Sys2Proof.Machine
end

