-- ==== Sys2Proof/Machine/LinkOps.lean ====
section
/-! DEFINITION. Flits, messages, virtual channels, keys and routes of the Spillway links (R339 to R353, R364, R365). -/

namespace Sys2Proof.Machine

/-! Flits -/

/-- A flit header (Table 08-2). -/
def flitHeader (kind vc : Nat) (last : Bool) (seq ack credit bodyLen : Nat) : Bytes :=
  leBytes 8 (kind + 16 * vc + 64 * b2n last + 2 ^ 8 * (seq % 4096) + 2 ^ 20 * (ack % 4096) + 2 ^ 32 * credit + 2 ^ 48 * bodyLen)

/-- Body bytes of a flit in a link's mode (R340, R341). -/
def bodyCap (l : Link) : Nat := if l.mode == .edge then 224 else 240

/-- The next key of a direction (R353). -/
def nextKey (key : Bytes) : Bytes := hkdf384 [] key (ascii "next") 32

/-- The keys of a direction ready for counter value `c`: replaced once for each multiple of 2^32 reached (R353). -/
def keyFor (d : DirKey) (c : Nat) : DirKey :=
  { d with key := iter nextKey (c / 2 ^ 32 - d.epoch) d.key, epoch := max d.epoch (c / 2 ^ 32) }

/-- The link carries tags: EDGE flits and INTAKE frames (R338, R341, R355). -/
def linkTagged (l : Link) : Bool := l.mode == .edge || l.mode == .intake

/-- Replace the keys of a link whose counters have come to a multiple of 2^32, with the SESSION event (R353). -/
def replaceKeys (s : State) (n : LinkIx) : State :=
  let l := linkOf s n
  if linkTagged l && (l.tx.epoch < l.tx.ctr / 2 ^ 32 || l.rx.epoch < l.rx.ctr / 2 ^ 32) then
    tallySession (modLink s n fun l => { l with tx := keyFor l.tx l.tx.ctr, rx := keyFor l.rx l.rx.ctr })
      (match linkOwner s n with
        | some t => t.val
        | none => anyTarn) 7 n
  else s

/-- The GMAC nonce: salt, then the transmission counter big-endian (R353). -/
def gmacNonce (d : DirKey) (c : Nat) : Bytes := d.salt ++ beBytes 8 c

/-- The session of a link has come to 2^48 transmissions of one direction (R353): nothing tagged goes until a new agreement (R377). -/
def sessionOver (l : Link) : Bool := linkTagged l && (2 ^ 48 ≤ l.tx.ctr || 2 ^ 48 ≤ l.rx.ctr)

/-- Close a flit: the tag of EDGE mode, then the CRC-64 (R340, R341). -/
def closeFlit (l : Link) (hb : Bytes) : Bytes × Link :=
  if l.mode == .edge then
    let head := padTo 0xE8 hb
    let d := l.tx
    let whole := head ++ gmac d.key (gmacNonce d l.tx.ctr) head
    (whole ++ leBytes 8 (crc64xz whole), { l with tx := { d with ctr := l.tx.ctr + 1 } })
  else
    let whole := padTo 0xF8 hb
    (whole ++ leBytes 8 (crc64xz whole), l)

/-- The CREDIT field: at most 15 credits of each channel are returned with one flit. -/
def creditField (owed : List Nat) : Nat := ((owed.map (min 15)).zipIdx.map fun x => x.1 * 16 ^ x.2).sum

/-- Send a flit: the current ACK and the credits owed go with it (R342, R349). After the end of a session none goes (R353). Before the
keys of an EDGE session are agreed the tag is one under an empty key (DESIGN CHOICE, log 87). -/
def sendFlit (s : State) (n : LinkIx) (kind vc : Nat) (last : Bool) (seq : Nat) (body : Bytes) : State :=
  let s := replaceKeys s n
  let l := linkOf s n
  if sessionOver l then s
  else
    let h := flitHeader kind vc last seq l.expSeq (creditField l.owed) body.length
    let (flit, l) := closeFlit { l with owed := l.owed.map fun c => c - min 15 c, unackedRx := 0 } (h ++ body)
    emit (modLink s n fun _ => l) (.link n flit)

/-- Resend every unacknowledged flit from the oldest, in order (R350). -/
def resendAll (s : State) (n : LinkIx) : State :=
  let l := linkOf s n
  let s := modLink s n fun l => { l with replay := l.replay.map fun x => (x.1, x.2.1, x.2.2 + 1) }
  l.replay.foldl (fun s x =>
    let h := leNat (x.2.1.take 8)
    sendFlit s n 1 (bits h 5 4) (bit h 6) x.1 (x.2.1.drop 8)) s

/-- Position in the queue of the message a channel sends next: the first, or on VC 1 the first of the highest class (R343). -/
def nextOfVc (q : List (Nat × Nat × List Bytes)) (vc : Nat) : Option Nat :=
  ((q.zipIdx.filter fun x => x.1.1 == vc).foldl (fun (a : Option ((Nat × Nat × List Bytes) × Nat)) x => match a with
    | none => some x
    | some y => if vc == 1 && x.1.2.1 < y.1.2.1 then some x else some y) none).map (·.2)

/-- A channel may be used: VC 0, which carries session setup, before the link is UP and has its keys; the others after (R352, R362,
R377, Table 08-3). -/
def vcOpen (l : Link) (vc : Nat) : Bool := vc == 0 || (l.state == .up && !(l.mode == .edge && l.tx.key.isEmpty))

/-- The message to send from next: LINK, RESPONSE, REQUEST, BULK, with one flit in eight for BULK (Table 08-3), where the
channel is open and holds a credit (R342). -/
def nextMessage (l : Link) : Option Nat :=
  let usable := fun vc => if vcOpen l vc && 0 < l.credits.getD vc 0 then nextOfVc l.txq vc else none
  let order := if 7 ≤ l.sinceBulk then [3, 0, 2, 1] else [0, 2, 1, 3]
  order.findSome? usable

/-- Messages may go out: in UP, and session setup on an EDGE link in TRAINING (R352, R362). -/
def maySend (l : Link) : Bool := l.state == .up || (l.state == .training && l.mode == .edge)

/-- Send one DATA flit of the waiting messages, when one may go (R342, R348, R362, R377). -/
def sendOne (s : State) (n : LinkIx) : Option State :=
  let l := linkOf s n
  if !maySend l || 1024 ≤ l.replay.length || sessionOver l then none
  else match nextMessage l with
    | none => none
    | some i =>
      match l.txq.getD i (0, 0, []) with
      | (_, _, []) => some (modLink s n fun l => { l with txq := l.txq.eraseIdx i })
      | (vc, _, b :: rest) =>
        let seq := l.sendSeq
        let kept := flitHeader 1 vc rest.isEmpty seq 0 0 b.length ++ b
        let s := modLink s n fun l => { l with
          txq := (if rest.isEmpty then [] else [(vc, 0, rest)]) ++ l.txq.eraseIdx i
          credits := l.credits.modify vc (· - 1)
          sendSeq := (seq + 1) % 4096
          sinceBulk := if vc == 3 then 0 else l.sinceBulk + 1
          replay := l.replay ++ [(seq, kept, 1)] }
        some (sendFlit s n 1 vc rest.isEmpty seq b)

/-- Send while something may go; `fuel` bounds the flits. -/
def linkPumpAux (n : LinkIx) : Nat → State → State
  | 0, s => s
  | fuel + 1, s => match sendOne s n with
    | none => s
    | some s' => linkPumpAux n fuel s'

/-- Send every flit that credits, the replay buffer and the link's state allow. -/
def linkPump (s : State) (n : LinkIx) : State :=
  linkPumpAux n (((linkOf s n).txq.map fun m => m.2.2.length + 1).sum) s

/-- Put a message in the queue of its channel and send what may go (R343, R344). -/
def sendMessage (s : State) (n : LinkIx) (vc rank : Nat) (msg : Bytes) : State :=
  let cap := bodyCap (linkOf s n)
  linkPump (modLink s n fun l => { l with txq := l.txq ++ [(vc, rank, chunks cap msg)] }) n

/-! Messages -/

/-- A message header (Table 08-4). -/
structure MsgHeader where
  op : Nat
  dest : Nat
  src : Nat
  hops : Nat := 0
  destTarn : Nat
  srcTarn : Nat
  cls : Nat
  ty : Nat := 0
  addr : Nat := 0
  len : Nat := 0
  tag : BitVec 32 := 0
  status : Nat := 0
  deriving DecidableEq, Repr

/-- The 32 bytes of a message header. -/
def msgBytes (h : MsgHeader) : Bytes :=
  leBytes 1 h.op ++ leBytes 1 h.dest ++ leBytes 1 h.src ++ leBytes 1 h.hops ++ leBytes 1 h.destTarn ++ leBytes 1 h.srcTarn
    ++ leBytes 1 h.cls ++ leBytes 1 h.ty ++ leBytes 8 h.addr ++ leBytes 4 h.len ++ leBytes 4 h.tag.toNat ++ leBytes 1 h.status
    ++ zeros 7

/-- The header of a message. -/
def msgOf (b : Bytes) : MsgHeader where
  op := byteAt b 0
  dest := byteAt b 1
  src := byteAt b 2
  hops := byteAt b 3
  destTarn := byteAt b 4 % 8
  srcTarn := byteAt b 5 % 8
  cls := byteAt b 6
  ty := byteAt b 7
  addr := field b 8 8
  len := field b 0x10 4
  tag := BitVec.ofNat 32 (field b 0x14 4)
  status := byteAt b 0x18

/-- A reserved field of a message header is set. -/
def msgReserved (b : Bytes) : Bool :=
  bits (byteAt b 3) 7 5 != 0 || bits (byteAt b 4) 7 3 != 0 || bits (byteAt b 5) 7 3 != 0 || !allZero (slice b 0x19 7)

/-! Messages received -/

/-- The first message of a channel that waits on a link (DESIGN CHOICE, log 56). -/
def firstOf (l : Link) (vc : Nat) : Option InMsg := l.inbox.find? fun m => m.vc == vc

/-- Remove the first message of a channel (DESIGN CHOICE, log 56). -/
def popMessage (s : State) (n : LinkIx) (vc : Nat) : State :=
  modLink s n fun l => match firstOf l vc with
    | some m => { l with inbox := l.inbox.erase m }
    | none => l

/-- The link on which a message that satisfies a condition waits, with the message. -/
def waitingMsg (s : State) (p : InMsg → Bool) : Option (LinkIx × InMsg) :=
  (List.finRange 12).findSome? fun n => ((linkOf s n).inbox.find? p).map fun m => (n, m)

/-! What a device knows of its rack -/

/-- The 0x58 defined bytes of a HELLO body (Table 08-6). -/
def peerBytes (p : Peer) : Bytes :=
  leBytes 2 1 ++ leBytes 1 p.mode ++ leBytes 1 p.state ++ padTo 16 p.serial ++ leBytes 1 p.linkNo ++ leBytes 1 p.deviceNo
    ++ leBytes 2 p.domain ++ leBytes 1 (p.timing + 128 * b2n p.beatInValid) ++ leBytes 1 p.priority ++ leBytes 1 p.beatUs
    ++ leBytes 1 p.barBeats ++ leBytes 8 p.beat ++ leBytes 1 p.barPos ++ leBytes 1 p.hops ++ leBytes 1 p.lanes ++ zeros 1
    ++ padTo 16 p.leader ++ padTo 16 p.seen ++ ((upto 4).map fun v => leBytes 2 (p.credits.getD v 0)).flatten ++ leBytes 8 p.reach.toNat

/-- The fields of a HELLO body (Table 08-6). -/
def helloOf (b : Bytes) : Peer where
  serial := slice b 4 16
  linkNo := byteAt b 0x14
  deviceNo := byteAt b 0x15
  mode := byteAt b 2
  state := byteAt b 3
  domain := field b 0x16 2
  timing := bits (byteAt b 0x18) 1 0
  beatInValid := bit (byteAt b 0x18) 7
  priority := byteAt b 0x19
  beatUs := byteAt b 0x1A
  barBeats := byteAt b 0x1B
  beat := field b 0x1C 8
  barPos := byteAt b 0x24
  hops := byteAt b 0x25
  leader := slice b 0x28 16
  seen := slice b 0x38 16
  reach := BitVec.ofNat 64 (field b 0x50 8)
  lanes := byteAt b 0x26
  credits := (upto 4).map fun v => field b (0x48 + 2 * v) 2

/-- The timing this device runs in: INTERNAL where its values differ from its leader's (R50). -/
def timingNow (s : State) : TimingMode := if s.timing.mismatch then .internal else s.timing.mode

/-- Device numbers that are UP one hop away over links of a kind (Table 08-6). -/
def reachOver (s : State) (k : LinkMode → Bool) : BitVec 64 :=
  BitVec.ofNat 64 (maskOf ((List.finRange 12).filterMap fun n =>
    if (linkOf s n).state == .up && k (linkOf s n).mode then (linkOf s n).peer.map (·.deviceNo) else none))

/-- What this device's HELLO says on a link (Table 08-6). -/
def ownPeer (s : State) (n : LinkIx) : Peer :=
  let l := linkOf s n
  let m := s.timing
  { serial := deviceSerial s, linkNo := n, deviceNo := m.deviceNo, mode := linkModeCode l.mode, state := linkStateCode l.state
    domain := m.domain.toNat, timing := timingCode (timingNow s), beatInValid := m.beatInValid, priority := m.priority.toNat
    beatUs := s.table.beatUs, barBeats := barBeats s, beat := s.beat, barPos := s.pos, hops := m.hops
    leader := padTo 16 m.leader
    seen := match l.peer with
      | some p => p.serial
      | none => zeros 16
    reach := reachOver s fun _ => true, lanes := l.lanes, credits := (upto 4).map Config.initialCredits }

/-- Its counter has moved on with this device's since it was told (R54) (DEDUCED, log 88). -/
def aged (s : State) (told : Nat) (p : Peer) : Peer := { p with beat := p.beat + (s.beat - told) }

/-- What a device knows of its rack: the partners of its links that are UP, and what they passed on (R364) (DESIGN CHOICE, log 68). -/
def knownNodes (s : State) : List Node :=
  let up := (List.finRange 12).filter fun n => (linkOf s n).state == .up && (linkOf s n).peer.isSome
  let direct := up.filterMap fun n =>
    let l := linkOf s n
    l.peer.map fun p => ({ dist := 1, fabric := l.mode == .fabric, info := aged s l.heard p, edge := match l.topo.find? fun x => x.dist == 0 with
      | some x => x.edge
      | none => 0 } : Node)
  let told := (up.map fun n =>
    let l := linkOf s n
    (l.topo.filter fun x => 0 < x.dist && x.info.serial != deviceSerial s).map fun x =>
      ({ x with dist := x.dist + 1, fabric := x.fabric && l.mode == .fabric, info := aged s l.topoBeat x.info } : Node)).flatten
  (direct ++ told).foldl (fun (l : List Node) (x : Node) => match l.find? fun y => y.info.serial == x.info.serial with
    | some y => if x.dist < y.dist then l.map fun z => if z == y then x else z else l
    | none => l ++ [x]) []

/-- Entries of a route update, 104 bytes each: distance, FABRIC flag, EDGE reach and HELLO body (DESIGN CHOICE, log 68). -/
def nodesBytes (l : List Node) : Bytes :=
  (l.map fun x => leBytes 1 x.dist ++ leBytes 1 (b2n x.fabric) ++ zeros 6 ++ leBytes 8 x.edge.toNat ++ peerBytes x.info).flatten

/-- The entries of a route update. -/
def nodesOf (b : Bytes) : List Node :=
  ((chunks 104 b).filter fun e => e.length == 104).map fun e =>
    { dist := byteAt e 0, fabric := byteAt e 1 == 1, edge := BitVec.ofNat 64 (field e 8 8), info := helloOf (e.drop 16) }

/-- A message of VC 0 to a device: kind, DEST, SRC and HOPS as in a message header (Table 08-4) (DESIGN CHOICE, log 55). -/
def linkMsg (s : State) (kind dest : Nat) (body : Bytes) : Bytes :=
  leBytes 1 kind ++ leBytes 1 dest ++ leBytes 1 s.timing.deviceNo ++ leBytes 1 0 ++ body

/-- Send a route update to the partner of a link that is UP, unless one still waits (Table 08-3) (DESIGN CHOICE, log 68): this device and
what it knows of devices up to six links away. -/
def sendTopo (s : State) (n : LinkIx) : State :=
  let l := linkOf s n
  match l.peer with
  | some p =>
    if (l.mode == .fabric || l.mode == .edge) && l.state == .up && !(l.txq.any fun m => m.1 == 0) then
      let me : Node := { dist := 0, info := ownPeer s n, edge := reachOver s (· == .edge) }
      sendMessage s n 0 0 (linkMsg s 5 p.deviceNo (zeros 4 ++ nodesBytes (me :: (knownNodes s).filter fun x => x.dist ≤ 6)))
    else s
  | none => s

/-- The device number of the device with a serial number, as far as it is known. -/
def numberOf (s : State) (serial : Bytes) : Option Nat :=
  ((knownNodes s).find? fun x => x.info.serial == serial).map (·.info.deviceNo)

/-! Routes -/

/-- Two devices of one domain announce a device number (R375); this device and the partners of links not yet UP count too. -/
def numberConflict (s : State) (d : Nat) : Bool :=
  let all := (ownPeer s 0 :: (s.links.filterMap (·.peer)) ++ (knownNodes s).map (·.info)).filter fun p => p.deviceNo == d
  all.any fun p => all.any fun q => p.domain == q.domain && p.serial != q.serial

/-- The graph that routes are computed on: this device's number, and for each device its level and the numbers it reaches over FABRIC
and over EDGE links. -/
structure RackGraph where
  mine : Nat
  level : Nat → Nat
  fabric : Nat → BitVec 64
  edge : Nat → BitVec 64

/-- Distances from a root over FABRIC links, as device and distance (R364). -/
def levelsFrom (reach : Nat → BitVec 64) : Nat → List (Nat × Nat) → List (Nat × Nat)
  | 0, l => l
  | fuel + 1, l =>
    let next := (l.map fun x => ((upto 64).filter fun d => (reach x.1).getLsbD d).map fun d => (d, x.2 + 1)).flatten
    levelsFrom reach fuel (next.foldl (fun l x => if l.any fun y => y.1 == x.1 then l else l ++ [x]) l)

/-- The graph as this device knows it: levels are the hops to the beat leader or, without one, to the lowest device number (R364). -/
def rackGraph (s : State) : RackGraph :=
  let nodes := knownNodes s
  let mine := s.timing.deviceNo.val
  let at_ := fun (d : Nat) => nodes.find? fun x => x.info.deviceNo == d
  let edge := fun (d : Nat) => if d == mine then reachOver s (· == .edge) else match at_ d with
    | some x => x.edge
    | none => 0
  let fabric := fun (d : Nat) => if d == mine then reachOver s (· == .fabric) else match at_ d with
    | some x => x.info.reach &&& ~~~ x.edge
    | none => 0
  let leads := fun (p : Peer) => p.hops == 0
  let hops := fun (d : Nat) => if d == mine then s.timing.hops else match at_ d with
    | some x => x.info.hops
    | none => 255
  let root := (nodes.map (·.info.deviceNo)).foldl min mine
  let byRoot := levelsFrom fabric 8 [(root, 0)]
  let level := if s.timing.hops == 0 || nodes.any fun x => leads x.info then hops
    else fun d => (assocGet d byRoot).getD 255
  { mine, level, fabric, edge }

/-- A link from one device to another goes up toward the root (R364). -/
def goesUp (g : RackGraph) (src dst : Nat) : Bool :=
  g.level dst < g.level src || (g.level dst == g.level src && dst < src)

/-- An end of a path: the device, whether the path has gone down, whether it only went down, and whether it crossed an EDGE link. -/
structure PathEnd where
  dev : Nat
  fell : Bool
  down : Bool
  edge : Bool
  deriving DecidableEq, Repr

/-- Paths one FABRIC link longer (R364, R365): none goes up after it has gone down. -/
def fabricSteps (g : RackGraph) (x : PathEnd) : List PathEnd :=
  ((upto 64).filter fun d => (g.fabric x.dev).getLsbD d && d != g.mine && !(x.fell && goesUp g x.dev d)).map fun d =>
    { x with dev := d, fell := x.fell || !goesUp g x.dev d, down := x.down && !goesUp g x.dev d }

/-- Paths whose last link is an EDGE link, the only one of the path (R365). -/
def edgeSteps (g : RackGraph) (x : PathEnd) : List PathEnd :=
  if x.edge then []
  else ((upto 64).filter fun d => (g.edge x.dev).getLsbD d && d != g.mine && !(x.fell && goesUp g x.dev d)).map fun d =>
    { dev := d, fell := true, down := x.down && !goesUp g x.dev d, edge := true }

/-- Routes that leave over a link: its partner, and what more links lead to, up to four hops (R365). -/
def routesVia (g : RackGraph) (n : LinkIx) : Nat → Nat → List PathEnd → List Route
  | 0, _, _ => []
  | fuel + 1, hops, ends =>
    let here := ends.map fun x => ({ dest := x.dev, link := n, hops, down := x.down, edge := x.edge } : Route)
    let last := if fuel == 0 then [] else (ends.map (edgeSteps g)).flatten.dedup.map fun x =>
      ({ dest := x.dev, link := n, hops := hops + 1, down := x.down, edge := true } : Route)
    here ++ last ++ routesVia g n fuel (hops + 1) ((ends.map (fabricSteps g)).flatten.dedup)

/-- Routes under the up-down rule, to numbers that no two devices announce (R364, R365, R375). -/
def computeRoutes (s : State) : List Route :=
  let g := rackGraph s
  let via := fun (n : LinkIx) =>
    let l := linkOf s n
    match if l.state == .up then l.peer else none with
    | some p =>
      let up := goesUp g g.mine p.deviceNo
      routesVia g n 4 1 [{ dev := p.deviceNo, fell := !up, down := !up, edge := l.mode == .edge }]
    | none => []
  (((List.finRange 12).map via).flatten.dedup).filter fun r => r.dest != g.mine && !numberConflict s r.dest

/-- Of two routes the shorter, and of equal ones the one with the lowest outgoing link (R365). -/
def shorter (a : Option Route) (r : Route) : Option Route :=
  match a with
  | none => some r
  | some b => if r.hops < b.hops || (r.hops == b.hops && r.link < b.link) then some r else some b

/-- The route of a Tarn's message: the fewest hops over links that the Tarn owns and that are UP, ties to the lowest link
(R339, R365). -/
def routeFor (s : State) (t : TarnIx) (dest : Nat) : Option LinkIx :=
  ((s.routes.filter fun r => r.dest == dest && linkOwner s r.link == some t && (linkOf s r.link).state == .up).foldl shorter none).map
    (·.link)

/-- The onward link of a message that came over a link and has crossed `crossed` links (R365, R366): any FABRIC link that is UP, or its
last EDGE hop, within four hops in all; a message that came down goes on down (R364). -/
def forwardLink (s : State) (came : LinkIx) (dest crossed : Nat) (edgeUsed : Bool) : Option LinkIx :=
  let g := rackGraph s
  let fell := match (linkOf s came).peer with
    | some p => !goesUp g p.deviceNo g.mine
    | none => false
  ((s.routes.filter fun r => r.dest == dest && r.link != came && (linkOf s r.link).state == .up && crossed + r.hops ≤ 4
      && (!fell || r.down) && !(edgeUsed && r.edge)
      && ((linkOf s r.link).mode == .fabric || ((linkOf s r.link).mode == .edge && r.hops == 1))).foldl shorter none).map (·.link)

end Sys2Proof.Machine
end

