-- ==== Sys2Proof/Machine/Basin.lean ====
section
/-! DEFINITION. What the Basin commands share: the round plan and its graph (R246, R247), images of a round in memory (R252), mask
expansion (R256, R257), key agreement (R309, R313, R319, R320), contribution-record checks (R261), INTAKE frames (R355 to R359). -/

namespace Sys2Proof.Machine

/-! Plan and graph -/

/-- Insert a number into an ascending list without repeats. -/
def insertNat (x : Nat) : List Nat → List Nat
  | [] => [x]
  | y :: l => if x < y then x :: y :: l else if x == y then y :: l else y :: insertNat x l

/-- Strictly ascending. -/
def ascending : List Nat → Bool
  | x :: y :: l => x < y && ascending (y :: l)
  | _ => true

/-- Neighbours of a contributor, ascending (R247). -/
def neighbours (p : Plan) (i : Nat) : List Nat :=
  if p.circulant then
    p.offsets.foldl (fun l o => insertNat ((i + o) % p.n) (insertNat ((i + p.n - o) % p.n) l)) []
  else p.lists.getD i []

/-- Smallest degree of the graph. -/
def minDegree (p : Plan) : Nat :=
  if p.circulant then (neighbours p 0).length
  else (p.lists.map List.length).foldl min (2 ^ 32)

/-- The words of a graph section. -/
def graphWords (b : Bytes) : List Nat := (chunks 4 b).map leNat

/-- A circulant section keeps R247. -/
def circulantOk (n : Nat) (offs : List Nat) : Bool :=
  ascending offs && (offs.all fun o => 1 ≤ o && o ≤ n / 2) &&
    (let k := 2 * offs.length - (if n % 2 == 0 && offs.contains (n / 2) then 1 else 0)
     1 ≤ k && k ≤ 256)

/-- The neighbour lists of an explicit section. -/
def explicitLists (n : Nat) (w : List Nat) : List (List Nat) :=
  let starts := w.take (n + 1)
  let body := w.drop (n + 1)
  (upto n).map fun i => (body.drop (starts.getD i 0)).take (starts.getD (i + 1) 0 - starts.getD i 0)

/-- An explicit section keeps R247. -/
def explicitOk (n : Nat) (w : List Nat) : Bool :=
  let starts := w.take (n + 1)
  let entries := w.length - (n + 1)
  let ls := explicitLists n w
  n + 1 ≤ w.length && entries ≤ 2 ^ 24 && starts.getD 0 1 == 0 && starts.getD n 0 == entries
    && ((starts.zip (starts.drop 1)).all fun x => x.1 ≤ x.2)
    && (ls.zipIdx.all fun x => ascending x.1 && 1 ≤ x.1.length && x.1.length ≤ 256
      && x.1.all fun j => j < n && j != x.2 && (ls.getD j []).contains x.2)

/-- Ring width of a W_CODE. -/
def widthOf (code : Nat) : Nat := 16 * 2 ^ code

/-- W_CODE of a plan. -/
def wCode (p : Plan) : Nat := if p.w == 16 then 0 else if p.w == 32 then 1 else 2

/-- Bytes of an element. -/
def elemLen (p : Plan) : Nat := p.w / 8

/-- E_c: elements of one channel (R252). -/
def elemsPerChan (p : Plan) : Nat := cdiv p.l 256

/-- I: bytes of one image. -/
def imageLen (p : Plan) : Nat := 64 * cdiv (elemsPerChan p * elemLen p) 64

/-- Images of a round: accumulator, mirror, staging slots. -/
def imageCount (p : Plan) : Nat := 1 + b2n p.mirror + p.slots

/-- R_len: bytes of a contribution record with its padding (R259, R267). -/
def recLen (p : Plan) : Nat := 64 + 64 * cdiv (p.l * elemLen p) 64

/-- Bytes of a roster entry (R250). -/
def rosterEntry (kex : Nat) : Nat := if kex == 0 then 32 else 64

/-- The plan of a round-plan structure that passes item 1 of R248, but for its roster's length. -/
def planOf (b : Bytes) : Option Plan :=
  let w := widthOf (byteAt b 4)
  let fl := byteAt b 7
  let n := field b 0x0C 4
  let glen := field b 0x38 4
  let gw := graphWords (slice b 256 glen)
  let combined := bit fl 1
  let circ := !bit fl 2
  let clip := field b 0x18 8
  let p : Plan :=
    { prg := byteAt b 2, kex := byteAt b 3, w, f := byteAt b 5, mirror := bit fl 0, combined, roundId := field b 8 4, n,
      l := field b 0x10 4, threshold := field b 0x14 4, floor := field b 0x20 4, dMin := field b 0x24 4, dMax := field b 0x28 4,
      quiet := field b 0x2C 4, u0 := field b 0x30 2, units := field b 0x32 2, slots := field b 0x34 2,
      stageTimeout := field b 0x36 2, context := slice b 0x40 32, rosterDigest := slice b 0x60 48,
      combineDigest := slice b 0xA0 48, planDigest := sha384 b, circulant := circ, offsets := if circ then gw else [],
      lists := if circ then [] else explicitLists n gw }
  let head := field b 0 2 == 1 && p.prg ≤ 1 && p.kex ≤ 1 && byteAt b 4 ≤ 2 && p.f < w && byteAt b 6 ≤ 1 && fl / 8 == 0
    && 1 ≤ p.roundId && 2 ≤ n && n ≤ (if combined then 268435456 else 4194304) && 1 ≤ p.l && p.l ≤ 2 ^ 30
    && 1 ≤ clip && clip < 2 ^ (w - 1) && 1 ≤ p.dMin && p.dMin ≤ p.dMax && p.dMax ≤ 2 ^ 24 && p.quiet ≤ 65535
    && p.u0 < 32 && 1 ≤ p.units && p.u0 + p.units ≤ 32 && 1 ≤ p.slots && 1 ≤ p.stageTimeout && glen % 4 == 0
    && allZero (slice b 0x3C 4) && allZero (slice b 0xD0 0x30) && (combined || allZero p.combineDigest)
  if 352 ≤ b.length && b.length == 352 + glen && head && (if circ then circulantOk n gw else explicitOk n gw)
      && 2 ≤ p.threshold && p.threshold ≤ minDegree p && imageCount p * imageLen p ≤ p.units * 2 ^ 25 then some p
  else none

/-- The headroom condition (R245). -/
def headroomOk (b : Bytes) : Bool := field b 0x0C 4 * field b 0x18 8 < 2 ^ (widthOf (byteAt b 4) - 1)

/-! Images -/

/-- Key of the first byte of image `j` at a chain position (R252). -/
def imageKey (p : Plan) (j pos : Nat) : Nat := pos % 256 * 2 ^ 30 + p.u0 * 2 ^ 25 + j * imageLen p

/-- Key of the first byte of element `e` of image `j` (R252): image 1 of a mirrored round lies 32 positions on. -/
def elemKey (p : Plan) (j e : Nat) : Nat :=
  imageKey p j (e / elemsPerChan p + (if p.mirror && j == 1 then 32 else 0)) + e % elemsPerChan p * elemLen p

/-- Image of a staging slot (R252). -/
def slotImage (p : Plan) (i : Nat) : Nat := 1 + b2n p.mirror + i

/-- Element `e` of image `j` in a memory. -/
def imgWord (m : List Host.Cell) (p : Plan) (j e : Nat) : Nat :=
  leNat ((upto (elemLen p)).map fun i => cellGet m (elemKey p j e + i))

/-- Set element `e` of image `j`. -/
def imgPut (p : Plan) (j : Nat) (m : List Host.Cell) (e v : Nat) : List Host.Cell :=
  cellPuts m (((upto (elemLen p)).map fun i => some (elemKey p j e + i)).zip (leBytes (elemLen p) v))

/-- Ring ADD of a vector into image `j` of a memory, or its subtraction (R208, R243); elements beyond the vector stay. -/
def ringInto (p : Plan) (j : Nat) (sub : Bool) (words : List Nat) (m : List Host.Cell) : List Host.Cell :=
  let q := 2 ^ p.w
  (words.take p.l).zipIdx.foldl (fun m x =>
    let old := imgWord m p j x.2
    imgPut p j m x.2 (if sub then (old + q - x.1 % q) % q else (old + x.1) % q)) m

/-- Ring ADD of a vector into the accumulator, or its subtraction, and after it the same into the mirror (R208, R243, R263). Corrections
and members' images reach the mirror too, so that it stays a copy (DESIGN CHOICE, log 86). -/
def imgAdd (s : State) (p : Plan) (sub : Bool) (words : List Nat) : State :=
  let m := ringInto p 0 sub words s.mem
  { s with mem := if p.mirror then ringInto p 1 sub words m else m }

/-- Words of a byte string. -/
def vecWords (p : Plan) (b : Bytes) : List Nat := (chunks (elemLen p) (b.take (p.l * elemLen p))).map leNat

/-- The bytes of a whole image's elements T[0] to T[L − 1]. -/
def imgBytes (s : State) (p : Plan) : Bytes := ((upto p.l).map fun e => leBytes (elemLen p) (imgWord s.mem p 0 e)).flatten

/-- The vector staged in a slot's image (R252). -/
def stagedWords (s : State) (p : Plan) (i : Nat) : List Nat := (upto p.l).map (imgWord s.mem p (slotImage p i))

/-- Place the vector of a whole record in the image of its staging slot (R252, R261). -/
def stageVector (s : State) (p : Plan) (i : Nat) (b : Bytes) : State :=
  { s with mem := ((vecWords p (b.drop 64)).take p.l).zipIdx.foldl (fun m x => imgPut p (slotImage p i) m x.2 x.1) s.mem }

/-- Copy one image from the channel of one chain position to that of another; words that are poisoned at the source stay so (R272, R218). -/
def copyImage (s : State) (len dst src : Nat) : State :=
  { s with
    mem := cellPuts s.mem ((upto len).map fun i => (some (dst + i), cellGet s.mem (src + i)))
    poison := (upto (len / 32)).foldl (fun l w =>
      if wordBad s.poison (src / 32 + w) then putBad l (dst / 32 + w) else ivSub (dst / 32 + w) (dst / 32 + w + 1) l) s.poison }

/-- Zero images `from_` to `upTo - 1` of a round on every channel. -/
def zeroImages (s : State) (p : Plan) (from_ upTo : Nat) : State :=
  let lo := p.u0 * 2 ^ 25 + from_ * imageLen p
  let hi := p.u0 * 2 ^ 25 + upTo * imageLen p
  let inside := fun (co : Nat) => lo ≤ co && co < hi
  { s with
    mem := s.mem.filter fun c => !inside (c.1 % 2 ^ 30)
    poison := if s.poison.isEmpty then [] else
      (upto 256).foldl (fun l p => ivSub ((p * 2 ^ 30 + lo) / 32) ((p * 2 ^ 30 + hi) / 32) l) s.poison }

/-! Masks -/

/-- Bytes of PRG(k) (R257). -/
def prgBytes (prg : Nat) (key : Bytes) (len : Nat) : Bytes :=
  let ks := aesKeys key
  (if prg == 0 then ((upto (cdiv len 16)).map fun n => aesBlockK ks (beBytes 16 n)).flatten
   else ((upto (cdiv len 64)).map fun n => chachaBlock key n (zeros 12)).flatten).take len

/-- Words of PRG(k), one per element. -/
def prgWords (p : Plan) (key : Bytes) : List Nat := vecWords p (prgBytes p.prg key (p.l * elemLen p))

/-- Salt of the Basin derivations. -/
def basinSalt : Bytes := ascii "GZ8-BASIN-1"

/-- Pair seed of an edge i < j (R256). -/
def pairSeed (p : Plan) (z : Bytes) (i j : Nat) : Bytes :=
  hkdf256 basinSalt z (ascii "pair" ++ p.context ++ leBytes 4 p.roundId ++ leBytes 4 (min i j) ++ leBytes 4 (max i j)) 32

/-- Self key of a contributor (R256). -/
def selfKey (p : Plan) (b : Bytes) (i : Nat) : Bytes :=
  hkdf256 basinSalt b (ascii "self" ++ p.context ++ leBytes 4 p.roundId ++ leBytes 4 i) 32

/-! Key agreement -/

/-- Check of a P-256 roster point (Table 07-3, rows 2 to 4). -/
def p256Point (e : Bytes) : Status :=
  let x := beNat (e.take 32)
  let y := beNat (slice e 32 32)
  if p256.p ≤ x || p256.p ≤ y then .noncanonical
  else if allZero e then .notOnCurve
  else if onCurve p256 x y then .ok else .notOnCurve

/-- The shared secret of a private key and a roster entry, or its status (Tables 07-2 and 07-3). -/
def pairSecret (kex : Nat) (priv entry : Bytes) : Except Status Bytes :=
  if kex == 0 then
    let z := x25519 priv entry
    if allZero z then .error .zeroSecret else .ok z
  else
    let d := beNat priv
    if d == 0 || p256.n ≤ d then .error .invalidScalar
    else match p256Point entry with
      | .ok => match ecdh p256 d (beNat (entry.take 32), beNat (slice entry 32 32)) with
        | some z => .ok z
        | none => .error .notOnCurve
      | st => .error st

/-- VALIDATE of a roster entry (R313). -/
def validateEntry (kex : Nat) (entry : Bytes) : Status :=
  if kex == 0 then (if allZero (x25519 (leBytes 32 (2 ^ 254)) entry) then .zeroSecret else .ok)
  else p256Point entry

/-- VERIFY of a rebuilt private key against its roster entry (R309). -/
def verifyKey (kex : Nat) (priv entry : Bytes) : Status :=
  if kex == 0 then
    (if x25519 priv (leBytes 32 9) == leBytes 32 (leNat entry % 2 ^ 255 % p25519) then .ok else .invalidShare)
  else
    let d := beNat priv
    if d == 0 || p256.n ≤ d then .invalidScalar
    else if ecPub p256 d == some (beNat (entry.take 32), beNat (slice entry 32 32)) then .ok else .invalidShare

/-! Lanes -/

/-- Lanes of a Tarn in service. -/
def lanesOf (s : State) (t : TarnIx) : List LaneIx :=
  if live s t then (List.finRange 16).filter fun j =>
    (entryOf s t).lanes.getLsbD j && !s.units.laneRetired.getLsbD j && !s.units.laneTesting.getLsbD j
  else []

/-- Lanes that work for a Tarn in this beat: its own whose slots are coded BASIN (R242). While the Tarn is throttled only half of them
work, at least one (R38): the lowest (DESIGN CHOICE, log 26). -/
def basinLanes (s : State) (t : TarnIx) : List LaneIx :=
  let l : List LaneIx := (lanesOf s t).filter fun j : LaneIx => (rowAt s.table s.pos).lane.getD j.val .idle == .basin
  let slow := match tarnOf s t with
    | some n => n.throttled
    | none => false
  if slow then l.take (max 1 (l.length / 2)) else l

/-- A Basin lane works for the Tarn in this beat (R242). -/
def basinNow (s : State) (t : TarnIx) : Bool := !(basinLanes s t).isEmpty

/-- An image lies in a stack in thermal hold, so accesses to images wait (R236): every image has a part in every stack (R252). -/
def imagesHeld (s : State) : Bool := s.dram.any (·.hold)

/-- Staging slots of a Tarn that hold a record, with their rounds. -/
def usedSlots (s : State) (t : TarnIx) : List Slot :=
  match tarnOf s t with
  | none => []
  | some n => (n.rounds.map fun r => r.slots.filter fun x => x.state != .free).flatten

/-- INTAKE links of a Tarn with the partial records on them. -/
def partsOf (s : State) (t : TarnIx) : List (LinkIx × IntakePart) :=
  ((List.finRange 12).map fun n => if linkOwner s n == some t then (linkOf s n).parts.map fun q => (n, q) else []).flatten

/-- Partial INTAKE records of a Tarn that have no staging slot (R265). -/
def unseated (s : State) (t : TarnIx) : Nat := ((partsOf s t).filter fun x => x.2.slot.isNone).length

/-- Records in flight of a Tarn (R260, Table 02-11). -/
def inFlight (s : State) (t : TarnIx) : Nat := (usedSlots s t).length + unseated s t

/-- Lanes working in this beat that hold fewer than 4,096 records (R242, R260). -/
def roomyLanes (s : State) (t : TarnIx) : List LaneIx :=
  (basinLanes s t).filter fun j => ((usedSlots s t).filter fun x => x.lane == j).length < 4096

/-- A free staging slot of a round and the lane that takes the record (R260, R265, Table 02-11) (DESIGN CHOICE, log 22). -/
def freeSlot (s : State) (t : TarnIx) (r : Round) : Option (Nat × LaneIx) :=
  if imagesHeld s then none
  else match findIx (fun (x : Slot) => x.state == .free) r.slots with
    | none => none
    | some i =>
      let l := roomyLanes s t
      (l[Config.laneChoice r.plan.roundId i % l.length]?).map fun j => (i, j)

/-- Change a staging slot. -/
def modSlotOf (s : State) (t : TarnIx) (rid i : Nat) (x : Slot) : State :=
  modRound s t rid fun r => { r with slots := r.slots.set i x }

/-- The round had a record received or accepted in this beat (R269). -/
def touchRound (s : State) (t : TarnIx) (rid : Nat) : State := modRound s t rid fun r => { r with lastActive := some s.beat }

/-- Free the staging slot `i` that held `x`: a partial INTAKE record in it is no more (R357), and one still being received counts for the
quiet window (R269). -/
def clearSlot (s : State) (t : TarnIx) (rid i : Nat) (x : Slot) : State :=
  let s := match x.src with
    | some (.link n) => modLink s n fun l => { l with parts := l.parts.filter fun q => !(q.round == rid && q.slot == some i) }
    | _ => s
  let s := match x.state with
    | .receiving _ _ => touchRound s t rid
    | _ => s
  modSlotOf s t rid i {}

/-- Bytes reach a staging slot (R261). With the last of them the vector stands in the slot's image, and the record takes its place in the
order of finishing (R262). -/
def fillSlot (s : State) (t : TarnIx) (rid i : Nat) (b : Bytes) : State :=
  match roundOf s t rid, tarnOf s t with
  | some r, some n =>
    let x := r.slots.getD i {}
    let whole := (match x.state with
      | .receiving have_ _ => have_
      | _ => []) ++ b
    let s := touchRound s t rid
    if whole.length < recLen r.plan then modSlotOf s t rid i { x with state := .receiving whole s.beat }
    else
      let s := modTarn (stageVector s r.plan i whole) t fun n => { n with arrivals := n.arrivals + 1 }
      modSlotOf s t rid i { x with state := .arrived whole, seq := n.arrivals }
  | _, _ => s

/-- Contributor of a record of which some bytes have come: the one its INTAKE frames name, or its header's. -/
def partContrib (s : State) (rid i : Nat) (x : Slot) (b : Bytes) : Nat :=
  match x.src with
  | some (.link n) => match (linkOf s n).parts.find? fun q => q.round == rid && q.slot == some i with
    | some q => q.contrib
    | none => field b 8 4
  | _ => field b 8 4

/-- Insert by the first component, ascending. -/
def insertSeq {α : Type} (x : Nat × α) : List (Nat × α) → List (Nat × α)
  | [] => [x]
  | y :: l => if x.1 < y.1 then x :: y :: l else y :: insertSeq x l

/-- Records of a Tarn that have finished arriving and name round `y`, oldest first (R262): round and slot that hold each. -/
def arrivedFor (n : Tarn) (y : Nat) : List (Nat × Nat) :=
  let all := (n.rounds.map fun r => r.slots.zipIdx.filterMap fun x => match x.1.state with
    | .arrived b => if field b 4 4 == y then some (x.1.seq, r.plan.roundId, x.2) else none
    | _ => none).flatten
  (all.foldr insertSeq []).map (·.2)

/-! Contribution records -/

/-- Item 1 of R261 against a plan. -/
def recFormOk (p : Plan) (b : Bytes) : Bool :=
  field b 0 2 == 1 && byteAt b 2 == wCode p && byteAt b 3 == 0 && field b 0x0C 4 == p.l && field b 0x10 8 == p.l * elemLen p
    && allZero (slice b 0x1C 0x24) && crc32c (slice b 64 (p.l * elemLen p)) == field b 0x18 4

/-- The contributor is claimed or accepted. -/
def claimed (r : Round) (c : Nat) : Bool :=
  r.accepted.contains c || (r.foldLog.any fun x => x.1 == c) || r.slots.any fun x => match x.state with
    | .folding i _ => i == c
    | _ => false

/-- This device's own entry of a combined round. -/
def myMember (s : State) (r : Round) : Option Member := r.members.find? fun m => m.serial == (deviceSerial s)

/-- Item 5 of R261. -/
def indexOk (s : State) (r : Round) (c : Nat) : Bool :=
  c < r.plan.n && (!r.plan.combined || (r.attached && match myMember s r with
    | some m => m.first ≤ c && c < m.first + m.count
    | none => false))

/-- The checks of R261 in order, for a record that arrived under plan `p`. -/
def recVerdict (s : State) (t : TarnIx) (p : Plan) (b : Bytes) : Status :=
  if !recFormOk p b then .badCommand
  else match roundOf s t (field b 4 4) with
    | none => .notPermitted
    | some r =>
      if r.state == .opening then .notPermitted
      else if !recFormOk r.plan b then .badCommand
      else if r.state == .aborted then .roundAborted
      else if r.state != .isOpen then .late
      else if !indexOk s r (field b 8 4) then .notPermitted
      else if claimed r (field b 8 4) then .duplicate
      else .ok

/-! INTAKE frames -/

/-- An INTAKE frame (R355): addresses, EtherType 0x88B5, intake header, data, tag and FCS; no 802.1Q tag (DESIGN CHOICE, log 87). -/
def intakeFrame (l : Link) (n : LinkIx) (ty count : Nat) (data : Bytes) : Bytes :=
  let h := leBytes 1 1 ++ leBytes 1 ty ++ zeros 2 ++ leBytes 8 l.tx.ctr ++ zeros 16 ++ leBytes 2 data.length ++ leBytes 2 count
  let b := l.peerMac ++ (upto 6).map (Config.macByte n) ++ beBytes 2 0x88B5 ++ h ++ data ++ gmac l.tx.key (gmacNonce l.tx l.tx.ctr) (h ++ data)
  b ++ leBytes 4 (crc32 b)

/-- Send an INTAKE frame (R355); after the end of the session it waits for the next one (R353). -/
def sendIntake (s : State) (n : LinkIx) (ty count : Nat) (data : Bytes) : State :=
  let s := replaceKeys s n
  let l := linkOf s n
  if sessionOver l then modLink s n fun l => { l with waiting := l.waiting ++ [(ty, count, data)] }
  else emit (modLink s n fun l => { l with tx := { l.tx with ctr := l.tx.ctr + 1 } }) (.link n (intakeFrame l n ty count data))

/-- INTAKE links of a Tarn that are UP. -/
def intakeLinks (s : State) (t : TarnIx) : List LinkIx :=
  (List.finRange 12).filter fun n => (linkOf s n).mode == .intake && (linkOf s n).state == .up && linkOwner s n == some t

/-- Grant the records that free staging slots allow to the Tarn's lowest INTAKE link (R265, R358). -/
def grantCredits (s : State) (t : TarnIx) : State :=
  match tarnOf s t, intakeLinks s t with
  | some n, l :: ls =>
    let free := (n.rounds.map fun r => if r.state == .isOpen then (r.slots.filter fun x => x.state == .free).length else 0).sum
    let room := min free (4096 * (lanesOf s t).length - inFlight s t)
    let out := ((l :: ls).map fun k => (linkOf s k).granted).sum + unseated s t
    if out < room then sendIntake (modLink s l fun k => { k with granted := k.granted + (room - out) }) l 3 (room - out) [] else s
  | _, _ => s

/-- One OUTCOME frame entry (R359). -/
def sendOutcome (s : State) (n : LinkIx) (rid c : Nat) (st : Status) : State :=
  sendIntake s n 2 1 (leBytes 4 rid ++ leBytes 4 c ++ leBytes 1 (statusCode st) ++ zeros 3)

end Sys2Proof.Machine
end

