-- ==== Sys2Proof/Machine/Num.lean ====
section
/-! DEFINITION. The number formats of the GZ8 and its exact arithmetic (R115 to R119, R132 to R137, R142 to R145, R151). A
value is held exactly; a unit rounds where its rule says so. -/

namespace Sys2Proof.Machine

/-- A value of a number format, exact: the magnitude of a finite value is `m * 2 ^ e`, with a sign of its own for zero. NaNs
are all alike (R117). -/
inductive Fl where
  | nan
  | inf (neg : Bool)
  | fin (neg : Bool) (m : Nat) (e : Int)
  deriving DecidableEq, Repr

/-- The element formats of Table 03-2. -/
inductive Fmt where
  | fp32
  | bf16
  | fp16
  | e4m3
  | e5m2
  | e2m1
  deriving DecidableEq, Repr

/-- Exponent bits of a format (Table 03-2). -/
def fmtEb : Fmt → Nat
  | .fp32 => 8
  | .bf16 => 8
  | .fp16 => 5
  | .e4m3 => 4
  | .e5m2 => 5
  | .e2m1 => 2

/-- Fraction bits of a format (Table 03-2). -/
def fmtFb : Fmt → Nat
  | .fp32 => 23
  | .bf16 => 7
  | .fp16 => 10
  | .e4m3 => 3
  | .e5m2 => 2
  | .e2m1 => 1

/-- Exponent bias of a format (Table 03-2). -/
def fmtBias : Fmt → Nat
  | .fp32 => 127
  | .bf16 => 127
  | .fp16 => 15
  | .e4m3 => 7
  | .e5m2 => 15
  | .e2m1 => 1

/-- Width of an element in bits. -/
def fmtBits (f : Fmt) : Nat := 1 + fmtEb f + fmtFb f

/-- The format has infinities (Table 03-3). -/
def fmtHasInf : Fmt → Bool
  | .e4m3 => false
  | .e2m1 => false
  | _ => true

/-- Largest finite magnitude as mantissa and exponent (Table 03-2). -/
def fmtMax : Fmt → Nat × Int
  | .e4m3 => (14, 5)
  | .e2m1 => (3, 1)
  | f => (2 ^ (fmtFb f + 1) - 1, (2 ^ fmtEb f - 2 : Int) - fmtBias f - fmtFb f)

/-- Exponent of the smallest subnormal. -/
def fmtQmin (f : Fmt) : Int := 1 - (fmtBias f : Int) - fmtFb f

/-- The code with the given sign, exponent field and fraction. -/
def fmtCode (f : Fmt) (neg : Bool) (e m : Nat) : Nat := b2n neg * 2 ^ (fmtEb f + fmtFb f) + e * 2 ^ fmtFb f + m

/-- Canonical NaN of a format (Table 03-3); E2M1 has none and reads 0. -/
def fmtNaN : Fmt → Nat
  | .fp32 => 0x7FC00000
  | .bf16 => 0x7FC0
  | .fp16 => 0x7E00
  | .e5m2 => 0x7E
  | .e4m3 => 0x7F
  | .e2m1 => 0

/-- Value of a code (R115, R116). -/
def flOf (f : Fmt) (code : Nat) : Fl :=
  let fb := fmtFb f
  let eb := fmtEb f
  let neg := bit code (eb + fb)
  let e := bits code (eb + fb - 1) fb
  let m := code % 2 ^ fb
  let top := e == 2 ^ eb - 1
  if top && fmtHasInf f then (if m == 0 then .inf neg else .nan)
  else if top && f == .e4m3 && m == 7 then .nan
  else if e == 0 then .fin neg m (fmtQmin f)
  else .fin neg (2 ^ fb + m) (e - fmtBias f - fb : Int)

/-- `m * 2 ^ e` less than `m' * 2 ^ e'`. -/
def magLt (m : Nat) (e : Int) (m' : Nat) (e' : Int) : Bool :=
  if e ≤ e' then m < m' * 2 ^ (e' - e).toNat else m * 2 ^ (e - e').toNat < m'

/-- Rounding modes of Table 03-6, the stochastic one with its random value (R144). -/
inductive Rnd where
  | rne
  | rtz
  | sr (r : Nat)
  deriving DecidableEq, Repr

/-- The multiple of `2 ^ q` that a magnitude rounds to (R142, R144), as a count of `2 ^ q`. -/
def roundMag (rnd : Rnd) (m : Nat) (e q : Int) : Nat :=
  if q ≤ e then m * 2 ^ (e - q).toNat
  else
    let sh := (q - e).toNat
    let n := m >>> sh
    let d := m % 2 ^ sh
    match rnd with
    | .rtz => n
    | .rne => if 2 ^ sh < 2 * d || (2 * d == 2 ^ sh && n % 2 == 1) then n + 1 else n
    | .sr r => if 65536 ≤ (d * 65536) >>> sh + r then n + 1 else n

/-- Exponent of the spacing of a format at a non-zero magnitude (R142). -/
def spacingAt (f : Fmt) (m : Nat) (e : Int) : Int := max ((m.log2 : Int) + e - fmtFb f) (fmtQmin f)

/-- The code of a magnitude `n * 2 ^ q` that the format holds exactly. -/
def exactCode (f : Fmt) (neg : Bool) (n : Nat) (q : Int) : Nat :=
  if n == 0 then fmtCode f neg 0 0
  else
    let s := spacingAt f n q
    let m := if s ≤ q then n * 2 ^ (q - s).toNat else n >>> (s - q).toNat
    if m < 2 ^ fmtFb f then fmtCode f neg 0 m
    else fmtCode f neg ((s + fmtFb f + fmtBias f).toNat) (m - 2 ^ fmtFb f)

/-- Code of the infinity of a format, or of the largest magnitude where it has none or `sat` is set (Table 03-7). -/
def infCode (f : Fmt) (sat neg : Bool) : Nat :=
  if sat || f == .e2m1 then exactCode f neg (fmtMax f).1 (fmtMax f).2
  else if fmtHasInf f then fmtCode f neg (2 ^ fmtEb f - 1) 0
  else fmtNaN f

/-- Conversion of a value to a format, rounding once (R142 to R144, Table 03-7). -/
def convert (f : Fmt) (rnd : Rnd) (sat : Bool) : Fl → Nat
  | .nan => fmtNaN f
  | .inf neg => infCode f sat neg
  | .fin neg m e =>
    if m == 0 then fmtCode f neg 0 0
    else
      let q := spacingAt f m e
      let n := roundMag rnd m e q
      let mx := fmtMax f
      if magLt mx.1 mx.2 n q then infCode f (sat || rnd == .rtz) neg else exactCode f neg n q

/-- Rounding to nearest even in FP32 or in another format, as a value again. -/
def roundFl (f : Fmt) (v : Fl) : Fl := flOf f (convert f .rne false v)

/-- FP32 code of a value, rounded to nearest even. -/
def fp32Code (v : Fl) : Nat := convert .fp32 .rne false v

/-- Sign of a value; NaN has none. -/
def flNeg : Fl → Bool
  | .nan => false
  | .inf n => n
  | .fin n _ _ => n

/-- The value is a zero. -/
def flIsZero : Fl → Bool
  | .fin _ m _ => m == 0
  | _ => false

/-- The value is NaN. -/
def flIsNaN : Fl → Bool
  | .nan => true
  | _ => false

/-- The value is infinite. -/
def flIsInf : Fl → Bool
  | .inf _ => true
  | _ => false

/-- The value with its sign turned. -/
def flMinus : Fl → Fl
  | .nan => .nan
  | .inf n => .inf !n
  | .fin n m e => .fin (!n) m e

/-- Magnitude. -/
def flAbs : Fl → Fl
  | .nan => .nan
  | .inf _ => .inf false
  | .fin _ m e => .fin false m e

/-- Signed mantissa. -/
def sMant (n : Bool) (m : Nat) : Int := if n then -(m : Int) else m

/-- Exact sum of two signed dyadic numbers. -/
def dyAdd (a : Int × Int) (b : Int × Int) : Int × Int :=
  if a.2 ≤ b.2 then (a.1 + b.1 * 2 ^ (b.2 - a.2).toNat, a.2) else (a.1 * 2 ^ (a.2 - b.2).toNat + b.1, b.2)

/-- The value of a signed dyadic number, a zero taking sign `zneg`. -/
def flOfDy (zneg : Bool) (d : Int × Int) : Fl :=
  if d.1 == 0 then .fin zneg 0 0 else .fin (d.1 < 0) d.1.natAbs d.2

/-- Exact product (IEEE 754 rules for zeros and infinities). -/
def flMul : Fl → Fl → Fl
  | .nan, _ => .nan
  | _, .nan => .nan
  | .inf a, .inf b => .inf (a != b)
  | .inf a, .fin b m _ => if m == 0 then .nan else .inf (a != b)
  | .fin a m _, .inf b => if m == 0 then .nan else .inf (a != b)
  | .fin a m e, .fin b m' e' => .fin (a != b) (m * m') (e + e')

/-- Exact sum, rounding to nearest even giving an exact zero its sign (IEEE 754). -/
def flAdd : Fl → Fl → Fl
  | .nan, _ => .nan
  | _, .nan => .nan
  | .inf a, .inf b => if a == b then .inf a else .nan
  | .inf a, .fin _ _ _ => .inf a
  | .fin _ _ _, .inf b => .inf b
  | .fin a m e, .fin b m' e' =>
    flOfDy (a && b && m == 0 && m' == 0) (dyAdd (sMant a m, e) (sMant b m', e'))

/-- FP32 addition, one rounding. -/
def addF (a b : Fl) : Fl := roundFl .fp32 (flAdd a b)

/-- FP32 subtraction, one rounding. -/
def subF (a b : Fl) : Fl := roundFl .fp32 (flAdd a (flMinus b))

/-- FP32 multiplication, one rounding. -/
def mulF (a b : Fl) : Fl := roundFl .fp32 (flMul a b)

/-- FP32 fused multiply-add, one rounding (R151). -/
def fmaF (a b c : Fl) : Fl := roundFl .fp32 (flAdd (flMul a b) c)

/-- `a < b` in IEEE 754: false with a NaN, and zeros are equal. -/
def flLt : Fl → Fl → Bool
  | .nan, _ => false
  | _, .nan => false
  | .inf a, .inf b => a && !b
  | .inf a, .fin _ _ _ => a
  | .fin _ _ _, .inf b => !b
  | .fin a m e, .fin b m' e' => (dyAdd (sMant a m, e) (-(sMant b m'), e')).1 < 0

/-- `a = b` in IEEE 754. -/
def flEq (a b : Fl) : Bool := !flIsNaN a && !flIsNaN b && !flLt a b && !flLt b a

/-- Sum of the products of one group, and whether every product is a negative zero (R133, R134). -/
def groupSum (ps : List Fl) : Fl :=
  if ps.any flIsNaN then .nan
  else
    let pos := ps.any fun p => p == .inf false
    let neg := ps.any fun p => p == .inf true
    if pos && neg then .nan
    else if pos then .inf false
    else if neg then .inf true
    else
      let allNegZero := ps.all fun p => flIsZero p && flNeg p
      flOfDy allNegZero (ps.foldl (fun a p => match p with
        | .fin n m e => if m == 0 then a else dyAdd a (sMant n m, e)
        | _ => a) (0, 0))

/-- Accumulator update of Table 03-5 in the accumulator format. A sum that is an exact zero keeps the sign −0 only when the
accumulator and every product are −0. -/
def accUpdate (f : Fmt) (acc s : Fl) : Fl := roundFl f (flAdd acc s)

/-- Value of an MXFP4 element under its scale byte (R119). -/
def mxValue (scale code : Nat) : Fl :=
  if scale == 255 then .nan else match flOf .e2m1 code with
    | .fin n m e => .fin n m (e + scale - 127)
    | v => v

/-- The larger magnitude of two finite values. -/
def magMax (a b : Fl) : Fl := if flLt a b then b else a

/-- One MXFP4 output block (R145): the scale byte and the element codes. `rnds` gives the rounding of each element. -/
def mxBlock (rnds : List Rnd) (sat : Bool) (vs : List Fl) : Nat × List Nat :=
  let big : Fl → Fl := fun v => match v with
    | .inf n => if sat then .fin n (2 ^ 24 - 1) 104 else v
    | _ => v
  let vs := vs.map big
  if vs.any (fun v => flIsNaN v || flIsInf v) then (0xFF, vs.map fun _ => 0)
  else
    match vs.foldl (fun a v => magMax a (flAbs v)) (.fin false 0 0) with
    | .fin _ m e =>
      if m == 0 then (0, vs.map fun _ => 0)
      else
        let s : Int := max (-127) (min 127 ((m.log2 : Int) + e - 2))
        ((s + 127).toNat, List.zipWith (fun r v => match v with
          | .fin n m e => convert .e2m1 r false (.fin n m (e - s))
          | v => convert .e2m1 r false v) rnds vs)
    | _ => (0xFF, vs.map fun _ => 0)

end Sys2Proof.Machine
end

