-- ==== Sys2Proof/Machine/Funcs.lean ====
section
/-! DEFINITION. The function pipe, its generated tables, the micro-program steps and the row-statistics unit (chapter 04,
R161 to R195). Tables are computed from their generating rule (R164) in fixed point of `fxP` bits, beyond the 128 bits that
the rule says suffice. -/

namespace Sys2Proof.Machine

/-- Fraction bits of the fixed-point numbers from which tables are generated. -/
def fxP : Nat := 260

/-- Fixed-point one. -/
def fxOne : Int := 2 ^ fxP

/-- A rational in fixed point. -/
def fxRat (a : Int) (b : Nat) : Int := a * fxOne / (b : Int)

/-- Fixed-point product. -/
def fxMul (a b : Int) : Int := a * b / fxOne

/-- Fixed-point quotient. -/
def fxDiv (a b : Int) : Int := a * fxOne / b

/-- Integer square root by Newton's iteration from above, `fuel` steps. -/
def isqrtAux (n : Nat) : Nat → Nat → Nat
  | 0, x => x
  | fuel + 1, x => let y := (x + n / x) / 2; if y < x then isqrtAux n fuel y else x

/-- Integer square root. -/
def isqrt (n : Nat) : Nat := if n == 0 then 0 else isqrtAux n (n.log2 + 2) (2 ^ (n.log2 / 2 + 1))

/-- Fixed-point square root of a non-negative number. -/
def fxSqrt (a : Int) : Int := isqrt (a.toNat * 2 ^ fxP)

/-- The series of e^x, `n` more terms, the current one `term` being number `k`. -/
def fxExpAux (x : Int) : Nat → Nat → Int → Int → Int
  | 0, _, _, acc => acc
  | n + 1, k, term, acc =>
    let t := fxMul term x / (k : Int)
    fxExpAux x n (k + 1) t (acc + t)

/-- e^x for 0 ≤ x ≤ 2. -/
def fxExp (x : Int) : Int := fxExpAux x 90 1 fxOne fxOne

/-- The series of artanh y, `n` more terms, `pw` being y to the power `k`. -/
def fxAtanhAux (y2 : Int) : Nat → Nat → Int → Int → Int
  | 0, _, _, acc => acc
  | n + 1, k, pw, acc =>
    let p := fxMul pw y2
    fxAtanhAux y2 n (k + 2) p (acc + p / ((k + 2 : Nat) : Int))

/-- ln m for 1 ≤ m ≤ 2, as 2 artanh((m - 1)/(m + 1)). -/
def fxLn (m : Int) : Int :=
  let y := fxDiv (m - fxOne) (m + fxOne)
  2 * fxAtanhAux (fxMul y y) 90 1 y y

/-- ln 2. -/
def fxLn2 : Int := fxLn (2 * fxOne)

/-- The functions from which tables are generated (Table 04-2), in fixed point; the Reel unit's tables use the last ones
(Table 05-4). -/
inductive TabFn where
  | exp2
  | log2Ratio
  | log2
  | rcp
  | rsqrt
  | tanhRatio
  deriving DecidableEq, Repr

/-- Value of a table's function at a fixed-point argument. -/
def tabEval : TabFn → Int → Int
  | .exp2, x => fxExp (fxMul x fxLn2)
  | .log2Ratio, t => fxDiv (fxDiv (fxLn (fxOne + t)) fxLn2) t
  | .log2, m => fxDiv (fxLn m) fxLn2
  | .rcp, m => fxDiv fxOne m
  | .rsqrt, r => fxDiv fxOne (fxSqrt r)
  | .tanhRatio, u => let e := fxExp (2 * u); fxDiv (fxDiv (e - fxOne) (e + fxOne)) u

/-- cos((2k+1)π/(2d+2)) for the degrees in use (1, 2 and 3), in fixed point. -/
def chebCos (d k : Nat) : Int :=
  let r2 := fxSqrt (2 * fxOne)
  let r3 := fxSqrt (3 * fxOne)
  match d, k with
  | 1, 0 => r2 / 2
  | 1, _ => -(r2 / 2)
  | 2, 0 => r3 / 2
  | 2, 1 => 0
  | 2, _ => -(r3 / 2)
  | _, 0 => fxSqrt (2 * fxOne + r2) / 2
  | _, 1 => fxSqrt (2 * fxOne - r2) / 2
  | _, 2 => -(fxSqrt (2 * fxOne - r2) / 2)
  | _, _ => -(fxSqrt (2 * fxOne + r2) / 2)

/-- The interpolation nodes t_k of a segment of width `h` (R164). -/
def tabNodes (d : Nat) (h : Int) : List Int := (upto (d + 1)).map fun k => fxMul (h / 2) (fxOne - chebCos d k)

/-- One column of divided differences: neighbours of `ys` over the nodes `j` apart. -/
def divDiffs (ts : List Int) (j : Nat) (ys : List Int) : List Int :=
  (upto (ys.length - 1)).map fun i => fxDiv (ys.getD (i + 1) 0 - ys.getD i 0) (ts.getD (i + j) 0 - ts.getD i 0)

/-- Newton coefficients of the interpolating polynomial. -/
def newtonAux (ts : List Int) : Nat → Nat → List Int → List Int
  | 0, _, _ => []
  | n + 1, j, ys => ys.getD 0 0 :: newtonAux ts n (j + 1) (divDiffs ts j ys)

/-- Product of a polynomial (ascending) with (t - r), plus a constant. -/
def polyShift (r c : Int) (p : List Int) : List Int :=
  let up := 0 :: p
  let dn := p.map fun a => fxMul a r
  (upto up.length).map fun i => up.getD i 0 - dn.getD i 0 + (if i == 0 then c else 0)

/-- Monomial coefficients from Newton coefficients and nodes, both ascending. -/
def newtonToMono : List (Int × Int) → List Int
  | [] => []
  | [(c, _)] => [c]
  | (c, t) :: rest => polyShift t c (newtonToMono rest)

/-- The coefficients a_0 … a_d of segment `i` of a table on [a/q, b/q) with `s` segments, as FP32 (R164). `off` is added to the
argument of the function at t = 0 beyond the segment start. -/
def tabCoeffs (g : TabFn) (a b : Int) (s d i : Nat) : List Fl :=
  let h := (b - a) / (s : Int)
  let c := a + (i : Int) * h
  let ts := tabNodes d h
  let ys := ts.map fun t => tabEval g (c + t)
  (newtonToMono ((newtonAux ts (d + 1) 1 ys).zip ts)).map fun v =>
    roundFl .fp32 (flOfDy false (v, -(fxP : Int)))

/-- Horner's rule of R165 over coefficients a_0 … a_d. -/
def horner (cs : List Fl) (t : Fl) : Fl :=
  match cs.reverse with
  | [] => .fin false 0 0
  | c :: rest => rest.foldl (fun p a => fmaF p t a) c

/-- FP32 value of a code. -/
def f32 (code : Nat) : Fl := flOf .fp32 code

/-- Positive zero. -/
def fZero : Fl := .fin false 0 0

/-- One. -/
def fOne : Fl := .fin false 1 0

/-- Signed dyadic number of a finite value. -/
def flDy : Fl → Int × Int
  | .fin n m e => (sMant n m, e)
  | _ => (0, 0)

/-- floor of a dyadic number times 2^k. -/
def dyFloor (d : Int × Int) (k : Nat) : Int :=
  let e := d.2 + k
  if 0 ≤ e then d.1 * 2 ^ e.toNat else d.1 / 2 ^ (-e).toNat

/-- Scaling by a power of two, exact. -/
def flScale (v : Fl) (k : Int) : Fl :=
  match v with
  | .fin n m e => .fin n m (e + k)
  | v => v

/-- Unbiased exponent of a finite non-zero value. -/
def flExp : Fl → Int
  | .fin _ m e => (m.log2 : Int) + e
  | _ => 0

/-- EXP2 (R167, R171). -/
def fnExp2 (x : Fl) : Fl :=
  match x with
  | .nan => .nan
  | .inf n => if n then fZero else .inf false
  | .fin _ m _ =>
    if m == 0 then fOne
    else
      let d := flDy x
      if 0 ≤ (dyAdd d (-128, 0)).1 then .inf false
      else if (dyAdd d (150, 0)).1 < 0 then fZero
      else
        let n := dyFloor d 0
        let i := (dyFloor d 6 - 64 * n).toNat
        let t := roundFl .fp32 (flOfDy false (dyAdd d (-(64 * n + i), -6)))
        let p := horner (tabCoeffs .exp2 0 fxOne 64 3 i) t
        roundFl .fp32 (flScale p n)

/-- LOG2 (R167, R171). -/
def fnLog2 (x : Fl) : Fl :=
  match x with
  | .nan => .nan
  | .inf n => if n then .nan else .inf false
  | .fin neg m _ =>
    if m == 0 then .inf true
    else if neg then .nan
    else
      let e := flExp x
      let d := dyAdd (flDy (flScale x (-e))) (-1, 0)
      let i := (dyFloor d 6).toNat
      let t := flOfDy false (dyAdd d (-(i : Int), -6))
      let y :=
        if i == 0 then mulF t (horner (tabCoeffs .log2Ratio 0 (fxOne / 64) 1 3 0) t)
        else horner (tabCoeffs .log2 fxOne (2 * fxOne) 64 3 i) t
      addF (flOfDy false (e, 0)) y

/-- RCP (R167, R171). -/
def fnRcp (x : Fl) : Fl :=
  match x with
  | .nan => .nan
  | .inf n => .fin n 0 0
  | .fin neg m _ =>
    if m == 0 then .inf neg
    else
      let e := flExp x
      let d := dyAdd (flDy (flScale (flAbs x) (-e))) (-1, 0)
      let i := (dyFloor d 6).toNat
      let t := flOfDy false (dyAdd d (-(i : Int), -6))
      let p := horner (tabCoeffs .rcp fxOne (2 * fxOne) 64 3 i) t
      roundFl .fp32 (flScale (if neg then flMinus p else p) (-e))

/-- RSQRT (R167, R171). -/
def fnRsqrt (x : Fl) : Fl :=
  match x with
  | .nan => .nan
  | .inf n => if n then .nan else fZero
  | .fin neg m _ =>
    if m == 0 then .inf neg
    else if neg then .nan
    else
      let e := flExp x
      let e' := if e % 2 == 0 then e else e - 1
      let r := flDy (flScale x (-e'))
      let lo := e % 2 == 0
      let base : Int × Int := if lo then (-1, 0) else (-2, 0)
      let k := if lo then 5 else 4
      let d := dyAdd r base
      let i := (dyFloor d k).toNat
      let t := flOfDy false (dyAdd d (-(i : Int), -(k : Int)))
      let cs := if lo then tabCoeffs .rsqrt fxOne (2 * fxOne) 32 3 i
                else tabCoeffs .rsqrt (2 * fxOne) (4 * fxOne) 32 3 i
      roundFl .fp32 (flScale (horner cs t) (-(e' / 2)))

/-- The constant C_GA: the RNE of 0.044715. -/
def constGA : Fl := roundFl .fp32 (.fin false (44715 * 2 ^ 100 / 1000000) (-100))

/-- EXP (Table 04-3). -/
def fnExp (x : Fl) : Fl := fnExp2 (mulF x (f32 0x3FB8AA3B))

/-- LN (Table 04-3). -/
def fnLn (x : Fl) : Fl := mulF (fnLog2 x) (f32 0x3F317218)

/-- LOGISTIC (Table 04-3). -/
def fnLogistic (v : Fl) : Fl := fnRcp (addF fOne (fnExp2 (mulF v (f32 0xBFB8AA3B))))

/-- The value with sign `n`. -/
def withSign (n : Bool) (v : Fl) : Fl := if n then flMinus v else v

/-- TANH (Table 04-3, Table 04-5). -/
def fnTanh (v : Fl) : Fl :=
  match v with
  | .nan => .nan
  | .inf n => withSign n fOne
  | .fin neg _ _ =>
    let a := flAbs v
    if flLt a (.fin false 1 (-12)) then v
    else if flLt a fOne then
      let d := flDy a
      let i := (dyFloor d 6).toNat
      let t := flOfDy false (dyAdd d (-(i : Int), -6))
      withSign neg (mulF a (horner (tabCoeffs .tanhRatio 0 fxOne 64 3 i) t))
    else
      let r := fnRcp (addF (fnExp2 (mulF a (f32 0x4038AA3B))) fOne)
      withSign neg (fmaF (.fin true 2 0) r fOne)

/-- GELU, tanh form (Table 04-3, Table 04-5). -/
def fnGelu (v : Fl) : Fl :=
  match v with
  | .inf true => .fin true 0 0
  | v =>
    let w := mulF (mulF v v) v
    let u := fmaF constGA w v
    let z := mulF u (f32 0x3FCC422A)
    mulF v (fnLogistic z)

/-- SILU (Table 04-3, Table 04-5). -/
def fnSilu (v : Fl) : Fl :=
  match v with
  | .inf true => .fin true 0 0
  | v => mulF v (fnLogistic v)

/-- MIN of Table 04-7. -/
def minF (a b : Fl) : Fl :=
  if flIsNaN a || flIsNaN b then .nan
  else if flIsZero a && flIsZero b then (if flNeg a then a else b)
  else if flLt b a then b else a

/-- MAX of Table 04-7. -/
def maxF (a b : Fl) : Fl :=
  if flIsNaN a || flIsNaN b then .nan
  else if flIsZero a && flIsZero b then (if flNeg a then b else a)
  else if flLt a b then b else a

/-- FLOOR of Table 04-7. -/
def floorF (a : Fl) : Fl :=
  match a with
  | .fin neg m _ => if m == 0 then a else flOfDy neg (dyFloor (flDy a) 0, 0)
  | v => v

/-- The output-path activations (R140, R163). -/
def actFn (act : Nat) (lo hi v : Fl) : Fl :=
  match act with
  | 1 => if flIsNaN v then .nan else if flLt fZero v then v else fZero
  | 2 => minF (maxF v lo) hi
  | 3 => fnGelu v
  | 4 => fnSilu v
  | 5 => fnTanh v
  | 6 => fnLogistic v
  | _ => v

/-- The arithmetic of a vector step (Table 04-7, 0x02 to 0x0B); `d` is the destination's old value. -/
def vecStep (op : Nat) (a b c d : Fl) : Fl :=
  match op with
  | 0x02 => addF a b
  | 0x03 => subF a b
  | 0x04 => mulF a b
  | 0x05 => fmaF a b c
  | 0x06 => minF a b
  | 0x07 => maxF a b
  | 0x08 => flAbs a
  | 0x09 => flMinus a
  | 0x0A => floorF a
  | 0x0B => if flLt a b then c else d
  | _ => d

/-- A micro-program opcode is assigned (Table 04-7). -/
def microOpOk (op : Nat) : Bool := (1 ≤ op && op ≤ 0x0B) || (0x10 ≤ op && op ≤ 0x13)

/-- Register fields that an opcode uses: A, B, C (R173). -/
def microUses (op : Nat) : Bool × Bool × Bool :=
  match op with
  | 0x01 => (false, false, false)
  | 0x05 => (true, true, true)
  | 0x0B => (true, true, true)
  | 0x08 => (true, false, false)
  | 0x09 => (true, false, false)
  | 0x0A => (true, false, false)
  | 0x10 => (true, false, false)
  | 0x11 => (true, false, false)
  | 0x12 => (true, false, false)
  | 0x13 => (true, false, false)
  | _ => (true, true, false)

/-- A step word obeys R173 and R174. -/
def microStepOk (w : Nat) : Bool :=
  let op := bits w 5 0
  let u := microUses op
  let bimm := bit w 18
  microOpOk op && bits w 31 19 == 0
    && (u.1 || bits w 11 9 == 0)
    && ((u.2.1 && !bimm) || bits w 14 12 == 0)
    && (u.2.2 || bits w 17 15 == 0)
    && (u.2.1 || !bimm)
    && (op == 1 || bimm || bits w 63 32 == 0)

/-- One step on the eight registers of a lane (R172, R173). -/
def microStep (v : List Fl) (w : Nat) : List Fl :=
  let op := bits w 5 0
  let di := bits w 8 6
  let a := v.getD (bits w 11 9) fZero
  let imm := f32 (bits w 63 32)
  let b := if bit w 18 then imm else v.getD (bits w 14 12) fZero
  let c := v.getD (bits w 17 15) fZero
  let d := v.getD di fZero
  v.set di (match op with
    | 0x01 => imm
    | 0x10 => fnExp2 a
    | 0x11 => fnLog2 a
    | 0x12 => fnRcp a
    | 0x13 => fnRsqrt a
    | _ => vecStep op a b c d)

/-- A micro-program on two inputs (R172). -/
def runMicro (steps : List Nat) (x y : Fl) : Fl :=
  (steps.foldl microStep [x, y, fZero, fZero, fZero, fZero, fZero, fZero]).getD 0 fZero

/-- A pipe function by number; `progs` are the Tarn's micro-programs (Table 04-1). -/
def pipeFn (progs : List (Nat × List Nat)) (fn : Nat) (x y : Fl) : Fl :=
  match fn with
  | 0 => fnExp2 x
  | 1 => fnLog2 x
  | 2 => fnRcp x
  | 3 => fnRsqrt x
  | 4 => fnExp x
  | 5 => fnLn x
  | 6 => fnTanh x
  | 7 => fnLogistic x
  | 8 => fnGelu x
  | 9 => fnSilu x
  | n => runMicro ((assocGet n progs).getD []) x y

/-- The FP32 value nearest to a positive rational (R182). -/
def ratFl (a b : Nat) : Fl :=
  let q := a * 2 ^ 120 / b
  roundFl .fp32 (.fin false (2 * q + b2n (a * 2 ^ 120 % b != 0)) (-121))

/-- Groups of 16 of a row. -/
def rowGroups : Nat → List Fl → List (List Fl)
  | 0, _ => []
  | fuel + 1, vs => if vs.isEmpty then [] else vs.take 16 :: rowGroups fuel (vs.drop 16)

/-- One row of the row-statistics unit: S, Q, MEAN and VAR (R181, R182, R191 to R194). -/
def rowStat (pivot : Bool) (xs : List Fl) : List Fl :=
  let x0 := xs.getD 0 fZero
  let shift := pivot && !(flIsNaN x0 || flIsInf x0)
  let ys := if shift then xs.map fun x => subF x x0 else xs
  let gs := rowGroups ys.length ys
  let s := gs.foldl (fun a g => accUpdate .fp32 a (groupSum g)) fZero
  let q := gs.foldl (fun a g => accUpdate .fp32 a (groupSum (g.map fun y => flMul y y))) fZero
  let rn := ratFl 1 xs.length
  let mu := mulF s rn
  let var := maxF (subF (mulF q rn) (mulF mu mu)) fZero
  let mean := if shift then addF mu x0 else mu
  if xs.any flIsNaN then [.nan, .nan, .nan, .nan]
  else if xs.length == 1 && !flIsInf x0 then
    -- one finite element (R194): its own value and square, or those of y = +0
    if pivot then [fZero, fZero, addF fZero x0, fZero] else [x0, mulF x0 x0, x0, fZero]
  else [s, q, mean, var]

end Sys2Proof.Machine
end

