-- ==== Sys2Proof/Machine/Tile.lean ====
section
/-! DEFINITION. What a compute tile does inside itself: the scratchpad, the checks of operation words before placement (R120 to
R131, R140, R141, R152, R160, R161, R206, R223), and the operations that stay in the tile: MATMUL, the output path, PIPE, VECTOR,
CONVERT and ROWSTAT (R132 to R151, R180 to R182, R701). -/

namespace Sys2Proof.Machine

/-- Scratchpad bytes of a tile (Table 03-1). -/
def spSize : Nat := 3 * 2 ^ 20

/-! The scratchpad -/

/-- The byte last written at an offset, none before the figure has written it. -/
def scrGet : List Host.Cell → Nat → Option Byte
  | [], _ => none
  | (k, v) :: l, key => if k == key then some v else if key < k then none else scrGet l key

/-- Write a scratchpad byte. -/
def scrPut : List Host.Cell → Nat → Byte → List Host.Cell
  | [], key, v => [(key, v)]
  | (k, w) :: l, key, v =>
    if key < k then (key, v) :: (k, w) :: l
    else if k == key then (key, v) :: l
    else (k, w) :: scrPut l key v

/-- Write a run of scratchpad bytes. -/
def scrPuts : List Host.Cell → Nat → Bytes → List Host.Cell
  | m, _, [] => m
  | m, o, b :: bs => scrPuts (scrPut m o b) (o + 1) bs

/-- A scratchpad as a figure's tile reads it, with the bytes that earlier figures of the Tarn left on the tile group (R699). -/
structure Scr where
  cells : List Host.Cell
  left : List (BitVec 8)
  uid : Nat
  fig : Nat
  tile : Nat

/-- A byte that the figure has not written: zero, or one of the bytes left by earlier figures (R699) (DESIGN CHOICE, log 8). -/
def leftByte (z : Scr) (o : Nat) : Byte := (0 :: z.left).getD (Config.freeScratch z.uid z.fig z.tile o % (z.left.length + 1)) 0

/-- Read a byte (R699). -/
def scrByte (z : Scr) (o : Nat) : Byte := (scrGet z.cells o).getD (leftByte z o)

/-- Read a run of bytes. -/
def scrBytes (z : Scr) (o n : Nat) : Bytes := (upto n).map fun i => scrByte z (o + i)

/-- Write a run of bytes. -/
def scrWrite (z : Scr) (o : Nat) (bs : Bytes) : Scr := { z with cells := scrPuts z.cells o bs }

/-- Element format of an OUT_FMT code (Table 03-6); MXFP4 elements are E2M1. -/
def fmtOf (c : Nat) : Fmt :=
  match c with
  | 0 => .fp32
  | 1 => .bf16
  | 2 => .fp16
  | 3 => .e4m3
  | 4 => .e5m2
  | _ => .e2m1

/-- Bytes of `n` elements of a format code. -/
def elemBytes (c n : Nat) : Nat := if c == 5 then (n + 1) / 2 else n * (fmtBits (fmtOf c) / 8)

/-- Value of element `i` of an array at `o` in format code `c`, with `sc` the offset of its scale bytes (MXFP4, R119). -/
def elemAt (z : Scr) (c o sc i : Nat) : Fl :=
  if c == 5 then
    let b := (scrByte z (o + i / 2)).toNat
    mxValue (scrByte z (sc + i / 32)).toNat (if i % 2 == 0 then b % 16 else b / 16)
  else
    let w := fmtBits (fmtOf c) / 8
    flOf (fmtOf c) (leNat (scrBytes z (o + i * w) w))

/-- FP32 element `i` of an array. -/
def f32At (z : Scr) (o i : Nat) : Fl := elemAt z 0 o 0 i

/-! Fields and checks of operation words (R125, R129) -/

/-- The fields of a word: `(hi, lo)` pairs; every other bit is reserved. -/
def onlyBits (v : Nat) (fs : List (Nat × Nat)) : Bool :=
  let mask := fs.foldl (fun m f => m ||| (2 ^ (f.1 + 1) - 2 ^ f.2)) 0
  v ||| mask == mask

/-- Word `i` of an operation. -/
def ow (w : List Nat) (i : Nat) : Nat := w.getD i 0

/-- Operation code. -/
def opCode (w : List Nat) : Nat := bits (ow w 0) 7 0

/-- The words from `i` on are zero. -/
def zeroFrom (w : List Nat) (i : Nat) : Bool := (w.drop i).all (· == 0)

/-- The address that a device-address field names (R126). -/
def resolveAddr (args : Bytes) (v : Nat) : Option Nat :=
  if !bit v 63 then some v
  else
    let k := bits v 11 0
    if bits v 15 12 == 0 && bits v 62 48 == 0 && k < args.length / 8 then some (field args (8 * k) 8 + bits v 47 16) else none

/-- A scratchpad range lies within the scratchpad; an empty range names no byte that is read or written, and is not checked
(R129). -/
def spOk (o n : Nat) : Bool := n == 0 || o + n ≤ spSize

/-- Output-tensor coordinates `o` to `o + n - 1` stay within 32 bits. Table 03-8 gives the limit and no outcome; the model refuses the figure
under R120 (DESIGN CHOICE, log 82). -/
def coordsOk (o n : Nat) : Bool := o + n ≤ 2 ^ 32

/-- The bytes of `rows` rows of `n` bytes at a stride; an empty array has none. -/
def rowsSpan (rows n stride : Nat) : Nat := if rows == 0 || n == 0 then 0 else (rows - 1) * stride + n

/-- The intervals cover `[lo, hi)`. -/
def ivCovers (lo hi : Nat) (l : List (Nat × Nat)) : Bool :=
  (l.foldl (fun rest iv => ivSub iv.1 iv.2 rest) (if lo < hi then [(lo, hi)] else [])).isEmpty

/-- Bytes of the accumulator store of a region: offset, count and width in bytes. -/
def accBytes (acc16 : Bool) (off n : Nat) : Nat × Nat := if acc16 then (2 * off, 2 * (off + n)) else (4 * off, 4 * (off + n))

/-- Accumulators of a width in a tile (Table 03-8). -/
def accCount (acc16 : Bool) : Nat := if acc16 then 262144 else 131072

/-- An accumulator range lies within the accumulator store; an empty one names no accumulator (R129) (DEDUCED, log 82). -/
def accOk (acc16 : Bool) (off n : Nat) : Bool := n == 0 || off + n ≤ accCount acc16

/-- Group size of an operand pair and accumulator, when Table 03-4 lists it. -/
def groupSize (a b : Nat) (acc16 : Bool) : Option Nat :=
  let h := fun c => c == 1 || c == 2
  let e := fun c => c == 3 || c == 4
  if h a && h b then (if acc16 then none else some 4)
  else if e a && e b then some 8
  else if a == 5 && b == 5 then some 16
  else if a == 0 && b == 0 then (if acc16 then none else some 1)
  else none

/-- What the checks of a stream carry from one operation to the next: covered bytes of the accumulator store by width. -/
structure ChkSt where
  c32 : List (Nat × Nat) := []
  c16 : List (Nat × Nat) := []

/-- What the checks of a figure may look at. -/
structure ChkCx where
  args : Bytes
  audit : Bool
  progs : List Nat

/-- MATMUL (R114, R127, R130, R131, R160). -/
def chkMatmul (w : List Nat) (c : ChkSt) : Option ChkSt :=
  let w0 := ow w 0
  let a := bits w0 18 16
  let b := bits w0 21 19
  let acc16 := bit w0 22
  let mode := bits w0 24 23
  let pre := bits w0 26 25
  let m := bits (ow w 5) 15 0
  let n := bits (ow w 5) 31 16
  let k := bits (ow w 5) 63 32
  let off := bits (ow w 4) 17 0
  let aOff := bits (ow w 1) 21 0
  let aStr := bits (ow w 1) 53 32
  let bOff := bits (ow w 2) 21 0
  let bStr := bits (ow w 2) 53 32
  let pOff := bits (ow w 6) 21 0
  let pStr := bits (ow w 6) 53 32
  let preW := if pre == 0 then 4 else 2
  let iv := accBytes acc16 off (m * n)
  let cov := if acc16 then c.c16 else c.c32
  let ok := onlyBits w0 [(7, 0), (27, 16)] && onlyBits (ow w 1) [(21, 0), (53, 32)] && onlyBits (ow w 2) [(21, 0), (53, 32)]
    && onlyBits (ow w 3) [(21, 0), (53, 32)] && onlyBits (ow w 4) [(17, 0)] && onlyBits (ow w 6) [(21, 0), (53, 32)]
    && zeroFrom w 7 && (groupSize a b acc16).isSome && mode != 3 && pre != 3 && (a != 5 || k % 32 == 0)
    && (m == 0 || n == 0 || (spOk aOff (rowsSpan m (elemBytes a k) aStr) && spOk bOff (rowsSpan n (elemBytes b k) bStr)
      && (a != 5 || (spOk (bits (ow w 3) 21 0) (m * cdiv k 32) && spOk (bits (ow w 3) 53 32) (n * cdiv k 32)))))
    && accOk acc16 off (m * n)
    && (mode != 1 || spOk pOff (rowsSpan (if bit w0 27 then min m 1 else m) (n * preW) pStr))
    && (mode != 2 || ivCovers iv.1 iv.2 cov)
  if !ok then none
  else if acc16 then some { c16 := iv :: c.c16, c32 := ivSub iv.1 iv.2 c.c32 }
  else some { c32 := iv :: c.c32, c16 := ivSub iv.1 iv.2 c.c16 }

/-- The output-path control word (Table 03-6, R141, R152); `lo` and `hi` are the clamp bounds' codes. -/
def chkControl (ctl lo hi n : Nat) (audit : Bool) : Bool :=
  let fmt := bits ctl 2 0
  let act := bits ctl 11 8
  let rank := bit ctl 12
  let k := bits ctl 20 14
  let atom := bit ctl 32
  onlyBits ctl [(20, 0), (32, 24)] && fmt ≤ 5 && bits ctl 4 3 ≤ 2 && act ≤ 6
    && (if rank then 1 ≤ k && k ≤ 64 else k == 0)
    && (act != 2 || (!flIsNaN (f32 lo) && !flIsNaN (f32 hi) && !flLt (f32 hi) (f32 lo)))
    && (fmt != 5 || n % 32 == 0) && !(rank && fmt == 5) && !(rank && atom) && !(atom && fmt == 5) && !(atom && audit)

/-- OUTPUT (R114, R125, R139 to R141). -/
def chkOutput (cx : ChkCx) (w : List Nat) (c : ChkSt) : Option ChkSt :=
  let w0 := ow w 0
  let sp := bit w0 16
  let acc16 := bit w0 17
  let ctl := ow w 1
  let fmt := bits ctl 2 0
  let rank := bit ctl 12
  let k := bits ctl 20 14
  let atom := bit ctl 32
  let m := bits (ow w 4) 47 32
  let n := bits (ow w 4) 63 48
  let off := bits (ow w 4) 17 0
  let stride := bits (ow w 5) 31 0
  let rowB := elemBytes fmt (if rank then k else n)
  let aux := rank || fmt == 5
  let auxB := if rank then m * 4 * k else m * (n / 32)
  let iv := accBytes acc16 off (m * n)
  let ew := fmtBits (fmtOf fmt) / 8
  let dst := if sp then some (ow w 2) else resolveAddr cx.args (ow w 2)
  let auxA := if sp then some (ow w 3) else resolveAddr cx.args (ow w 3)
  let ok := onlyBits w0 [(7, 0), (17, 16), (63, 32)] && onlyBits (ow w 4) [(17, 0), (63, 32)]
    && onlyBits (ow w 6) [(21, 0), (53, 32)]
    && chkControl ctl (bits (ow w 7) 31 0) (bits (ow w 7) 63 32) n cx.audit
    && !(atom && sp) && dst.isSome && auxA.isSome && (aux || ow w 3 == 0)
    && (!atom || ((dst.getD 0) % ew == 0 && stride % ew == 0))
    && (!sp || (spOk (ow w 2) (rowsSpan m rowB stride) && (!aux || spOk (ow w 3) auxB)))
    && (m == 0 || ((!bit ctl 6 || spOk (bits (ow w 6) 21 0) (4 * n)) && (!bit ctl 7 || spOk (bits (ow w 6) 53 32) (4 * n))))
    && (m == 0 || n == 0 || (coordsOk (bits w0 63 32) m && coordsOk (bits (ow w 5) 63 32) n))
    && accOk acc16 off (m * n) && ivCovers iv.1 iv.2 (if acc16 then c.c16 else c.c32)
  if ok then some c else none

/-- Element width of an atomic TYPE (Table 05-6, R125), when assigned. -/
def atomWidth (ty : Nat) : Option Nat :=
  match ty with
  | 0 => some 4
  | 1 => some 2
  | 2 => some 2
  | 3 => some 1
  | 4 => some 1
  | 8 => some 2
  | 9 => some 4
  | 10 => some 8
  | _ => none

/-- An atomic TYPE is floating. -/
def atomFloat (ty : Nat) : Bool := ty < 8

/-- Validity of a Reel command in its four words (R206, R214, Table 05-3). -/
def reelOk (c : List Nat) : Bool :=
  let w0 := ow c 0
  let op := bits w0 7 0
  let ty := bits w0 11 8
  let negb := bit w0 12
  let act := bits w0 15 13
  let m1 := bits w0 23 16
  let a := bits (ow c 1) 29 0
  let b := bits (ow c 1) 61 32
  let d := bits (ow c 2) 29 0
  let len := bits (ow c 2) 57 32
  let s0 := bits (ow c 3) 31 0
  let s1 := bits (ow c 3) 63 32
  let fl := ty ≤ 2
  let ring := 8 ≤ ty && ty ≤ 10
  let usesB := op == 1 || op == 2 || op == 3
  let apart := fun x => d == x || !rangesOverlap d len x len
  onlyBits w0 [(23, 0), (39, 32)] && onlyBits (ow c 1) [(29, 0), (61, 32)] && onlyBits (ow c 2) [(29, 0), (57, 32)]
    && 1 ≤ op && op ≤ 5 && (fl || (ring && (op == 1 || op == 5)))
    && a % 64 == 0 && b % 64 == 0 && d % 64 == 0 && len % 64 == 0 && 64 ≤ len && len ≤ 2 ^ 25
    && a + len ≤ 2 ^ 30 && d + len ≤ 2 ^ 30 && (!usesB || b + len ≤ 2 ^ 30)
    && apart a && (!usesB || apart b) && (usesB || b == 0)
    && (!negb || (op == 1 && ring)) && (op == 4 || act == 0) && act ≤ 3 && (op == 5 || m1 == 0) && (op != 5 || 1 ≤ m1)
    && (op == 3 || (op == 4 && act == 1) || s0 == 0) && ((op == 4 && act == 1) || s1 == 0)
    && !(op == 4 && act == 1 && (flIsNaN (f32 s0) || flIsNaN (f32 s1) || flLt (f32 s1) (f32 s0)))

/-- Offsets that a vector step reads: A, B, C (Table 03-11). -/
def vecReads (st : Nat) : Bool × Bool × Bool :=
  if st == 5 || st == 0x0B then (true, true, true) else if 8 ≤ st && st ≤ 0x0A then (true, false, false) else (true, true, false)

/-- One operation word against the figure-program section; none when it falls under R120. -/
def chkOp (cx : ChkCx) (w : List Nat) (c : ChkSt) : Option ChkSt :=
  let w0 := ow w 0
  let keep := fun (b : Bool) => if b then some c else none
  match opCode w with
  | 0x00 => keep (onlyBits w0 [(7, 0)] && zeroFrom w 1)
  | 0x01 => keep (chkCopy w)
  | 0x02 => keep (chkCopy w)
  | 0x03 => chkMatmul w c
  | 0x04 => chkOutput cx w c
  | 0x05 =>
    let fn := bits w0 21 16
    let n := 4 * bits (ow w 2) 63 32
    keep (onlyBits w0 [(7, 0), (22, 16)] && onlyBits (ow w 1) [(21, 0), (53, 32)] && onlyBits (ow w 2) [(21, 0), (63, 32)]
      && zeroFrom w 3 && (fn ≤ 9 || cx.progs.contains fn) && (10 ≤ fn || !bit w0 22)
      && spOk (bits (ow w 1) 21 0) n && (!bit w0 22 || spOk (bits (ow w 1) 53 32) n) && spOk (bits (ow w 2) 21 0) n)
  | 0x06 =>
    let st := bits w0 21 16
    let n := 4 * bits (ow w 3) 63 32
    let r := vecReads st
    keep (onlyBits w0 [(7, 0), (22, 16)] && onlyBits (ow w 1) [(21, 0), (53, 32)] && onlyBits (ow w 2) [(21, 0), (53, 32)]
      && zeroFrom w 4 && 2 ≤ st && st ≤ 0x0B && spOk (bits (ow w 1) 21 0) n
      && (!r.2.1 || bit w0 22 || spOk (bits (ow w 1) 53 32) n) && (!r.2.2 || spOk (bits (ow w 2) 21 0) n)
      && spOk (bits (ow w 2) 53 32) n)
  | 0x07 =>
    let fi := bits w0 18 16
    let fo := bits w0 21 19
    let rows := bits (ow w 2) 31 0
    let rl := bits (ow w 2) 63 32
    let mx := fi == 5 || fo == 5
    keep (onlyBits w0 [(7, 0), (24, 16), (39, 32)] && onlyBits (ow w 1) [(21, 0), (53, 32)] && onlyBits (ow w 4) [(21, 0)]
      && zeroFrom w 5 && fi ≤ 5 && fo ≤ 5 && (fi == 0) != (fo == 0) && bits w0 23 22 ≤ 2 && (!mx || rl % 32 == 0)
      && (rows == 0 || rl == 0 || fo == 0 || (coordsOk (bits (ow w 3) 31 0) rows && coordsOk (bits (ow w 3) 63 32) rl))
      && spOk (bits (ow w 1) 21 0) (rows * elemBytes fi rl) && spOk (bits (ow w 1) 53 32) (rows * elemBytes fo rl)
      && (!mx || spOk (bits (ow w 4) 21 0) (rows * (rl / 32))))
  | 0x08 =>
    let ty := bits w0 19 16
    let n := bits (ow w 2) 63 32
    let ew := (atomWidth ty).getD 1
    let dst := resolveAddr cx.args (ow w 1)
    keep (onlyBits w0 [(7, 0), (19, 16)] && onlyBits (ow w 2) [(21, 0), (63, 32)] && zeroFrom w 3
      && (atomWidth ty).isSome && !(cx.audit && atomFloat ty) && n != 0 && n % ew == 0 && dst.isSome && (dst.getD 0) % ew == 0
      && spOk (bits (ow w 2) 21 0) n)
  | 0x09 =>
    let ctl := ow w 1
    let fmt := bits ctl 2 0
    let n := bits ctl 23 4 + 1
    let rows := bits (ow w 3) 31 0
    keep (onlyBits w0 [(7, 0)] && onlyBits ctl [(23, 0)] && fmt ≤ 4 && onlyBits (ow w 2) [(21, 0), (53, 32)]
      && onlyBits (ow w 3) [(31, 0)] && zeroFrom w 4 && spOk (bits (ow w 2) 21 0) (rows * elemBytes fmt n)
      && spOk (bits (ow w 2) 53 32) (16 * rows))
  | 0x0A => keep (onlyBits w0 [(7, 0)] && zeroFrom w 5 && reelOk (w.drop 1))
  | 0x0B =>
    let kind := bits w0 29 27
    let ty := bits w0 35 32
    let len := bits (ow w 2) 63 32
    let okLen := if kind == 2 then (match atomWidth ty with
        | some ew => 1 ≤ len && len ≤ 64 && len % ew == 0
        | none => false)
      else 64 ≤ len && len ≤ 65536 && len % 64 == 0 && ty == 0
    keep (onlyBits w0 [(7, 0), (29, 16), (35, 32)] && onlyBits (ow w 2) [(21, 0), (63, 32)] && zeroFrom w 3
      && 1 ≤ kind && kind ≤ 3 && okLen && !(kind == 2 && cx.audit && atomFloat ty) && (resolveAddr cx.args (ow w 1)).isSome && spOk (bits (ow w 2) 21 0) len)
  | 0x0C => keep (onlyBits w0 [(7, 0), (17, 16)] && zeroFrom w 1 && bits w0 17 16 != 0)
  | _ => none
where
  /-- LOAD and STORE. -/
  chkCopy (w : List Nat) : Bool :=
    let rb := bits (ow w 2) 63 32
    let rows := bits (ow w 3) 31 0
    onlyBits (ow w 0) [(7, 0)] && onlyBits (ow w 2) [(21, 0), (63, 32)] && onlyBits (ow w 3) [(31, 0)]
      && onlyBits (ow w 5) [(21, 0)] && zeroFrom w 6 && 1 ≤ rb && rb ≤ 2 ^ 22 && 1 ≤ rows
      && (resolveAddr cx.args (ow w 1)).isSome && spOk (bits (ow w 2) 21 0) (rowsSpan rows rb (bits (ow w 5) 21 0))

/-- A non-empty stream: every word passes, END stands last and only there (R125, R129). -/
def chkStream (cx : ChkCx) : List (List Nat) → ChkSt → Bool
  | [], _ => true
  | [w], c => opCode w == 0 && (chkOp cx w c).isSome
  | w :: ws, c => match chkOp cx w c with
    | some c' => opCode w != 0 && chkStream cx ws c'
    | none => false

/-- WAIT operations with GROUP set in a stream. -/
def groupWaits (ws : List (List Nat)) : Nat := (ws.filter fun w => opCode w == 0x0C && bit (ow w 0) 17).length

/-- The streams of a figure (R129). -/
def chkStreams (cx : ChkCx) (ss : List (List (List Nat))) : Bool :=
  let ne := ss.filter fun x => !x.isEmpty
  ne.all (fun x => chkStream cx x {}) && (match ne with
    | [] => true
    | x :: xs => xs.all fun y => groupWaits y == groupWaits x)

/-! The matrix unit and the output path -/

/-- Accumulator format of a width. -/
def accFmt (acc16 : Bool) : Fmt := if acc16 then .fp16 else .fp32

/-- An accumulator's value; one not written reads +0 (R114 rules such reads out before placement). -/
def accGet (l : List (Nat × Nat)) (i : Nat) (acc16 : Bool) : Fl := flOf (accFmt acc16) ((assocGet i l).getD 0)

/-- The products of group `j` of one output element (R132). -/
def groupProducts (z : Scr) (fa fb g aRow aSc bRow bSc k j : Nat) : List Fl :=
  (upto (min g (k - j * g))).map fun i => flMul (elemAt z fa aRow aSc (j * g + i)) (elemAt z fb bRow bSc (j * g + i))

/-- One output element: the start value and the groups in ascending order (R132). -/
def dotAcc (z : Scr) (fa fb g : Nat) (acc16 : Bool) (aRow aSc bRow bSc k : Nat) (start : Fl) : Fl :=
  (upto (cdiv k g)).foldl (fun acc j => accUpdate (accFmt acc16) acc (groupSum (groupProducts z fa fb g aRow aSc bRow bSc k j)))
    start

/-- MATMUL (R127, R130 to R137). -/
def runMatmul (z : Scr) (w : List Nat) (r : TileRun) : TileRun :=
  let w0 := ow w 0
  let fa := bits w0 18 16
  let fb := bits w0 21 19
  let acc16 := bit w0 22
  let mode := bits w0 24 23
  let pre := bits w0 26 25
  let m := bits (ow w 5) 15 0
  let n := bits (ow w 5) 31 16
  let k := bits (ow w 5) 63 32
  let g := (groupSize fa fb acc16).getD 1
  let old := if acc16 then r.acc16 else r.acc32
  let new := ((upto m).map fun i => (upto n).map fun j =>
    let ix := bits (ow w 4) 17 0 + i * n + j
    let start : Fl := match mode with
      | 0 => fZero
      | 1 => roundFl (accFmt acc16) (elemAt z pre (bits (ow w 6) 21 0 + (if bit w0 27 then 0 else i) * bits (ow w 6) 53 32) 0 j)
      | _ => accGet old ix acc16
    (ix, convert (accFmt acc16) .rne false
      (dotAcc z fa fb g acc16 (bits (ow w 1) 21 0 + i * bits (ow w 1) 53 32) (bits (ow w 3) 21 0 + i * cdiv k 32)
        (bits (ow w 2) 21 0 + j * bits (ow w 2) 53 32) (bits (ow w 3) 53 32 + j * cdiv k 32) k start))).flatten
  let put := new.foldl (fun l x => assocPut x.1 x.2 l) old
  if acc16 then { r with acc16 := put } else { r with acc32 := put }

/-- Rounding of one element: mode, figure seed and index, site and coordinates (R142 to R147). -/
def rndOf (mode seed fig site row col : Nat) : Rnd :=
  match mode with
  | 0 => .rne
  | 1 => .rtz
  | _ => .sr (srRandom seed fig site row col)

/-- Steps 1 to 4 of the output path on one accumulator (R138). -/
def outValue (z : Scr) (w : List Nat) (v : Fl) (col : Nat) : Fl :=
  let ctl := ow w 1
  let v := if bit ctl 6 then mulF v (f32At z (bits (ow w 6) 21 0) col) else v
  let v := if bit ctl 7 then addF v (f32At z (bits (ow w 6) 53 32) col) else v
  actFn (bits ctl 11 8) (f32 (bits (ow w 7) 31 0)) (f32 (bits (ow w 7) 63 32)) v

/-- `a` ranks before `b` in rank mode, each with its column (R148). -/
def ranksBefore (smallest : Bool) (a b : Fl × Nat) : Bool :=
  match flIsNaN a.1, flIsNaN b.1 with
  | true, true => a.2 < b.2
  | true, false => true
  | false, true => false
  | false, false =>
    if flEq a.1 b.1 then a.2 < b.2 else if smallest then flLt a.1 b.1 else flLt b.1 a.1

/-- Insertion into a ranked list. -/
def rankInsert (smallest : Bool) (x : Fl × Nat) : List (Fl × Nat) → List (Fl × Nat)
  | [] => [x]
  | y :: l => if ranksBefore smallest x y then x :: y :: l else y :: rankInsert smallest x l

/-- The row of FP32 values that leaves step 4. -/
def outRow (z : Scr) (w : List Nat) (r : TileRun) (i : Nat) : List Fl :=
  let acc16 := bit (ow w 0) 17
  let n := bits (ow w 4) 63 48
  (upto n).map fun j => outValue z w (accGet (if acc16 then r.acc16 else r.acc32) (bits (ow w 4) 17 0 + i * n + j) acc16) j

/-- Bytes of a row converted to a format code: the value array's row and the AUX row (R142 to R145); `vs` are the elements with
their output-tensor columns. FP32 output ignores RND and SAT (R143). -/
def convRow (fmt mode : Nat) (sat : Bool) (seed fig site row : Nat) (vs : List (Fl × Nat)) : Bytes × Bytes :=
  let rnds := vs.map fun v => rndOf mode seed fig site row v.2
  if fmt == 5 then
    let blocks := (upto (vs.length / 32)).map fun b =>
      mxBlock ((rnds.drop (32 * b)).take 32) sat (((vs.drop (32 * b)).take 32).map (·.1))
    ((blocks.map fun b => (upto 16).map fun i => BitVec.ofNat 8 (b.2.getD (2 * i) 0 + 16 * b.2.getD (2 * i + 1) 0)).flatten,
     blocks.map fun b => BitVec.ofNat 8 b.1)
  else if fmt == 0 then ((vs.map fun v => leBytes 4 (convert .fp32 .rne false v.1)).flatten, [])
  else
    ((List.zipWith (fun v rn => leBytes (fmtBits (fmtOf fmt) / 8) (convert (fmtOf fmt) rn sat v.1)) vs rnds).flatten, [])

/-- One row of an OUTPUT: value bytes and AUX bytes (R138, R148 to R150). -/
def outRowBytes (z : Scr) (w : List Nat) (r : TileRun) (seed fig i : Nat) : Bytes × Bytes :=
  let ctl := ow w 1
  let fmt := bits ctl 2 0
  let row := (bits (ow w 0) 63 32 + i) % 2 ^ 32
  let col0 := bits (ow w 5) 63 32
  let vs := (outRow z w r i).zipIdx.map fun v => (v.1, (col0 + v.2) % 2 ^ 32)
  let conv := convRow fmt (bits ctl 4 3) (bit ctl 5) seed fig (bits ctl 31 24) row
  if bit ctl 12 then
    let k := bits ctl 20 14
    let top := (vs.foldl (fun l v => rankInsert (bit ctl 13) v l) []).take k
    let pad := k - top.length
    ((conv top).1 ++ zeros (pad * (fmtBits (fmtOf fmt) / 8)),
     (top.map fun v => leBytes 4 v.2).flatten ++ (List.replicate pad (leBytes 4 0xFFFFFFFF)).flatten)
  else conv vs

/-! Function pipe, vector unit, conversions, row statistics -/

/-- A destination range overlaps an input range other than by coinciding with it at the same element width (R701). -/
def badOverlap (d dn a an : Nat) (sameWidth : Bool) : Bool :=
  rangesOverlap d dn a an && !(d == a && dn == an && sameWidth)

/-- Free bytes for the destination of an operation whose overlap leaves its values undefined (R701) (DESIGN CHOICE, log 9). -/
def overlapBytes (z : Scr) (o n : Nat) : Bytes := (upto n).map fun i => Config.freeByte (z.uid + z.fig + z.tile) (o + i)

/-- PIPE (R161, R701). -/
def runPipe (z : Scr) (progs : List (Nat × List Nat)) (w : List Nat) : Scr :=
  let two := bit (ow w 0) 22
  let a := bits (ow w 1) 21 0
  let b := bits (ow w 1) 53 32
  let d := bits (ow w 2) 21 0
  let n := bits (ow w 2) 63 32
  if badOverlap d (4 * n) a (4 * n) true || (two && badOverlap d (4 * n) b (4 * n) true) then
    scrWrite z d (overlapBytes z d (4 * n))
  else
    scrWrite z d ((upto n).map fun e => leBytes 4 (fp32Code (pipeFn progs (bits (ow w 0) 21 16) (f32At z a e)
      (if two then f32At z b e else fZero)))).flatten

/-- VECTOR (R151, R701). SELLT leaves element `e` of D as it stands, bit for bit, where a < b is false (Table 03-11). -/
def runVector (z : Scr) (w : List Nat) : Scr :=
  let st := bits (ow w 0) 21 16
  let imm := bit (ow w 0) 22
  let a := bits (ow w 1) 21 0
  let b := bits (ow w 1) 53 32
  let c := bits (ow w 2) 21 0
  let d := bits (ow w 2) 53 32
  let n := bits (ow w 3) 63 32
  let r := vecReads st
  let bad := fun x => badOverlap d (4 * n) x (4 * n) true
  if bad a || (r.2.1 && !imm && bad b) || (r.2.2 && bad c) then scrWrite z d (overlapBytes z d (4 * n))
  else
    scrWrite z d ((upto n).map fun e =>
      let x := f32At z a e
      let y := if imm then f32 (bits (ow w 3) 31 0) else f32At z b e
      if st == 0x0B && !flLt x y then scrBytes z (d + 4 * e) 4
      else leBytes 4 (fp32Code (vecStep st x y (f32At z c e) (f32At z d e)))).flatten

/-- CONVERT (Table 03-11, R142 to R147, R701). -/
def runConvert (z : Scr) (seed fig : Nat) (w : List Nat) : Scr :=
  let w0 := ow w 0
  let fi := bits w0 18 16
  let fo := bits w0 21 19
  let src := bits (ow w 1) 21 0
  let dst := bits (ow w 1) 53 32
  let rows := bits (ow w 2) 31 0
  let rl := bits (ow w 2) 63 32
  let sc := bits (ow w 4) 21 0
  let inB := rows * elemBytes fi rl
  let outB := rows * elemBytes fo rl
  let clash := badOverlap dst outB src inB false || (fi == 5 && badOverlap dst outB sc (rows * (rl / 32)) false)
    || (fo == 5 && (badOverlap sc (rows * (rl / 32)) src inB false || rangesOverlap sc (rows * (rl / 32)) dst outB))
  if clash then
    let z := scrWrite z dst (overlapBytes z dst outB)
    if fo == 5 then scrWrite z sc (overlapBytes z sc (rows * (rl / 32))) else z
  else if fo == 0 then
    scrWrite z dst ((upto rows).map fun i => ((upto rl).map fun j =>
      leBytes 4 (fp32Code (elemAt z fi (src + i * elemBytes fi rl) (sc + i * (rl / 32)) j))).flatten).flatten
  else
    let out := (upto rows).map fun i =>
      convRow fo (bits w0 23 22) (bit w0 24) seed fig (bits w0 39 32) ((bits (ow w 3) 31 0 + i) % 2 ^ 32)
        ((upto rl).map fun j => (f32At z (src + i * 4 * rl) j, (bits (ow w 3) 63 32 + j) % 2 ^ 32))
    let z' := scrWrite z dst (out.map (·.1)).flatten
    if fo == 5 then scrWrite z' sc (out.map (·.2)).flatten else z'

/-- ROWSTAT (R180 to R182). The spec gives no rule for records that overlap the rows they are computed from: their bytes are free
. -/
def runRowstat (z : Scr) (w : List Nat) : Scr :=
  let ctl := ow w 1
  let fmt := bits ctl 2 0
  let n := bits ctl 23 4 + 1
  let src := bits (ow w 2) 21 0
  let dst := bits (ow w 2) 53 32
  let rows := bits (ow w 3) 31 0
  if rangesOverlap dst (16 * rows) src (rows * elemBytes fmt n) then scrWrite z dst (overlapBytes z dst (16 * rows))
  else scrWrite z dst ((upto (bits (ow w 3) 31 0)).map fun i =>
    ((rowStat (bit ctl 3) ((upto n).map fun k => elemAt z fmt (src + i * elemBytes fmt n) 0 k)).map fun v =>
      leBytes 4 (fp32Code v)).flatten).flatten

/-! Atomic updates and Reel arithmetic -/

/-- One element of an atomic update: old and added codes to the new code (R220, R237). -/
def atomUpdate (ty old y : Nat) : Nat :=
  match ty with
  | 8 => (old + y) % 2 ^ 16
  | 9 => (old + y) % 2 ^ 32
  | 10 => (old + y) % 2 ^ 64
  | _ =>
    let f := fmtOf ty
    convert f .rne false (accUpdate .fp32 (flOf f old) (flOf f y))

/-- Atomic update of a run of elements of `ew` bytes. -/
def atomBytes (ty ew : Nat) (old y : Bytes) : Bytes :=
  (List.zipWith (fun a b => leBytes ew (atomUpdate ty (leNat a) (leNat b))) (chunks ew old) (chunks ew y)).flatten.take old.length

/-- Table TANH-R coefficients (R211): tanh on [0, 9), 72 segments of degree 3. -/
def reelTanhCoeffs (i : Nat) : List Fl :=
  let h := 9 * fxOne / 72
  let c := (i : Int) * h
  let ts := tabNodes 3 h
  let ys := ts.map fun t =>
    let e := fxExpBig (2 * (c + t))
    fxDiv (e - fxOne) (e + fxOne)
  (newtonToMono ((newtonAux ts 4 1 ys).zip ts)).map fun v => roundFl .fp32 (flOfDy false (v, -(fxP : Int)))
where
  /-- e^x for 0 ≤ x ≤ 18, by repeated squaring of e^(x/16). -/
  fxExpBig (x : Int) : Int := iter (fun y => fxMul y y) 4 (fxExp (x / 16))

/-- Reel tanh (R210). -/
def reelTanh (v : Fl) : Fl :=
  match v with
  | .nan => .nan
  | .inf n => withSign n fOne
  | .fin neg _ _ =>
    let a := flAbs v
    if flLt a (.fin false 1 (-12)) then v
    else if flLt a (.fin false 9 0) then
      let d := flDy a
      let i := (dyFloor d 3).toNat
      withSign neg (horner (reelTanhCoeffs i) (flOfDy false (dyAdd d (-(i : Int), -3))))
    else withSign neg fOne

/-- Reel activations (R210). -/
def reelAct (act : Nat) (lo hi v : Fl) : Fl :=
  match act with
  | 0 => actFn 1 lo hi v
  | 1 => actFn 2 lo hi v
  | 2 => reelTanh v
  | _ => fmaF (.fin false 1 (-1)) (reelTanh (mulF v (.fin false 1 (-1)))) (.fin false 1 (-1))

/-- One element of a Reel command other than CHAIN_SUM (R207, R208, Table 05-4). -/
def reelElem (op ty act : Nat) (negb : Bool) (s0 s1 a b : Nat) : Nat :=
  if ty ≥ 8 then
    let m := 2 ^ (8 * (atomWidth ty).getD 1)
    if negb then (a + m - b) % m else (a + b) % m
  else
    let f := fmtOf ty
    let x := flOf f a
    let y := flOf f b
    convert f .rne false (match op with
      | 1 => addF x y
      | 2 => mulF x y
      | 3 => fmaF x (f32 s0) y
      | _ => roundFl .fp32 (reelAct act (f32 s0) (f32 s1) x))

/-- CHAIN_SUM of one element over the positions in order (R213). -/
def chainElem (ty : Nat) (xs : List Nat) : Nat :=
  if ty ≥ 8 then xs.foldl (· + ·) 0 % 2 ^ (8 * (atomWidth ty).getD 1)
  else match xs with
    | [] => 0
    | x :: rest => convert (fmtOf ty) .rne false (rest.foldl (fun p y => addF p (flOf (fmtOf ty) y)) (flOf (fmtOf ty) x))

end Sys2Proof.Machine
end

