-- ==== Sys2Proof/Machine/Figure.lean ====
section
/-! DEFINITION. Running a figure: its memory, atomic, Reel and remote accesses (R128, R203 to R223, R233 to R237, R345 to R347),
its waits, and its end; and the commands FIGURE_FINISH, MEMORY_REQUEST, ATOMIC_REQUEST and REEL_COMMAND. -/

namespace Sys2Proof.Machine

/-- The figure in a tile-group slot. -/
def figOf (s : State) (g : Nat) : Option FigRun := s.figs.getD g none

/-- Change the figure in a slot. -/
def modFig (s : State) (g : Nat) (h : FigRun → FigRun) : State := { s with figs := s.figs.modify g (Option.map h) }

/-- Change one tile of the figure in a slot. -/
def modTile (s : State) (g ti : Nat) (h : TileRun → TileRun) : State :=
  modFig s g fun f => { f with tiles := f.tiles.modify ti h }

/-- A fault of a running figure: it stops, and its ticket ends in the next seam (R567). -/
def figFault (s : State) (g : Nat) (st : Status) : State :=
  match figOf s g with
  | none => s
  | some f => failTicket (modFig s g fun f => { f with fault := some (f.fault.getD st) }) f.uid st

/-! Accesses and their order (R128) -/

/-- Interleaved address of a key (R200). -/
def keyToInterleaved (key : Nat) : Nat :=
  let st := key / 2 ^ 35
  let c := key / 2 ^ 30 % 32
  let co := key % 2 ^ 30
  let u := co / 2 ^ 25
  let up := co / 2 ^ 8 % 2 ^ 17
  let gh := up / 16
  let g1 := gh * 2 ^ 12
  let g2 := g1 + (up % 16 ^^^ bits g1 19 16) * 2 ^ 8
  let g3 := g2 + (st ^^^ bits g2 10 8 ^^^ bits g2 18 16) + (c ^^^ bits g2 15 11 ^^^ bits g2 24 20) * 8
  u * 2 ^ 33 + g3 * 2 ^ 8 + co % 256

/-- A range of addresses holds the byte of a key, in either view. -/
def rangeHasKey (a len key : Nat) : Bool :=
  (a ≤ keyToInterleaved key && keyToInterleaved key < a + len) || (a ≤ linBase + key && linBase + key < a + len)

/-- Kinds of access: a read, a write, an atomic request on ring elements, one on floating elements. -/
abbrev accRead : Nat := 0
/-- A write. -/
abbrev accWrite : Nat := 1
/-- A ring atomic. -/
abbrev accRing : Nat := 2
/-- A floating atomic. -/
abbrev accFloat : Nat := 3

/-- Rows of an array: addresses and lengths. -/
def rowRanges (a rows n stride : Nat) : List (Nat × Nat) :=
  if n == 0 then [] else (upto rows).map fun i => (a + i * stride, n)

/-- Rows of the value array of an OUTPUT and of its AUX array: start, rows, bytes of a row, stride. -/
def outShape (args : Bytes) (w : List Nat) : (Nat × Nat × Nat × Nat) × (Nat × Nat × Nat × Nat) :=
  let ctl := ow w 1
  let fmt := bits ctl 2 0
  let rank := bit ctl 12
  let k := bits ctl 20 14
  let m := bits (ow w 4) 47 32
  let n := bits (ow w 4) 63 48
  let sp := bit (ow w 0) 16
  let ad := fun v => if sp then v else (resolveAddr args v).getD 0
  let auxRow := if rank then 4 * k else if fmt == 5 then n / 32 else 0
  ((ad (ow w 2), m, elemBytes fmt (if rank then k else n), bits (ow w 5) 31 0), (ad (ow w 3), m, auxRow, auxRow))

/-- Chain positions of a Reel command (R213). -/
def reelPositions (c : List Nat) : List Nat :=
  let p := bits (ow c 0) 39 32
  if bits (ow c 0) 7 0 == 5 then (upto (bits (ow c 0) 23 16 + 1)).map fun i => (p + i) % 256 else [p]

/-- Operand ranges that a Reel command reads, and its destination. -/
def reelRanges (c : List Nat) : List (Nat × Nat) × (Nat × Nat) :=
  let op := bits (ow c 0) 7 0
  let a := bits (ow c 1) 29 0
  let b := bits (ow c 1) 61 32
  let d := bits (ow c 2) 29 0
  let len := bits (ow c 2) 57 32
  let ps := reelPositions c
  ((ps.map fun p => (linAddr p a, len)) ++ (if op ≤ 3 then ps.map fun p => (linAddr p b, len) else []),
   (linAddr (ps.getLastD 0) d, len))

/-- The accesses to visible memory of one operation: kind, address, length. -/
def opAccesses (args : Bytes) (w : List Nat) : List (Nat × Nat × Nat) :=
  let tagged := fun (k : Nat) (l : List (Nat × Nat)) => l.map fun r => (k, r.1, r.2)
  match opCode w with
  | 0x01 => tagged accRead (rowRanges ((resolveAddr args (ow w 1)).getD 0) (bits (ow w 3) 31 0) (bits (ow w 2) 63 32) (ow w 4))
  | 0x02 => tagged accWrite (rowRanges ((resolveAddr args (ow w 1)).getD 0) (bits (ow w 3) 31 0) (bits (ow w 2) 63 32) (ow w 4))
  | 0x04 =>
    if bit (ow w 0) 16 then []
    else
      let sh := outShape args w
      tagged (if bit (ow w 1) 32 then accFloat else accWrite) (rowRanges sh.1.1 sh.1.2.1 sh.1.2.2.1 sh.1.2.2.2)
        ++ tagged accWrite (rowRanges sh.2.1 sh.2.2.1 sh.2.2.2.1 sh.2.2.2.2)
  | 0x08 => tagged (if atomFloat (bits (ow w 0) 19 16) then accFloat else accRing)
      [((resolveAddr args (ow w 1)).getD 0, bits (ow w 2) 63 32)]
  | 0x0A =>
    let r := reelRanges (w.drop 1)
    tagged accRead r.1 ++ tagged accWrite [r.2]
  | _ => []

/-- The accesses of a stream up to, and not across, a WAIT that `stop` accepts. -/
def accessesUntil (args : Bytes) (stop : List Nat → Bool) : List (List Nat) → List (Nat × Nat × Nat)
  | [] => []
  | w :: ws => if stop w then [] else opAccesses args w ++ accessesUntil args stop ws

/-- Any WAIT. -/
def isWait (w : List Nat) : Bool := opCode w == 0x0C

/-- A WAIT with GROUP set. -/
def isGroupWait (w : List Nat) : Bool := opCode w == 0x0C && bit (ow w 0) 17

/-- The result of an access of tile `ti` to a byte is undefined (R128): another tile touches the byte, done or still to come, without a
group WAIT between, and one of the two is a write. Atomic requests of different tiles are ordered by their arrival (R222). -/
def otherClash (f : FigRun) (ti kind key : Nat) : Bool :=
  let bad := fun k => if kind == accRead then k != accRead else if kind == accWrite then true else k ≤ accWrite
  f.accs.any (fun x => x.1 != ti && bad x.2.1 && rangeHasKey x.2.2.1 x.2.2.2.1 key)
    || f.tiles.zipIdx.any (fun r => r.2 != ti && (accessesUntil f.args isGroupWait r.1.ops).any fun x =>
      bad x.1 && rangeHasKey x.2.1 x.2.2 key)

/-- Operations of a tile after the one at its head. -/
def laterOps (f : FigRun) (ti : Nat) : List (List Nat) := ((f.tiles.getD ti {}).ops).drop 1

/-- A read of tile `ti` that a later request of the tile may overtake, no WAIT standing between (R128). -/
def overtaken (f : FigRun) (ti key : Nat) : Bool :=
  (accessesUntil f.args isWait (laterOps f ti)).any fun x => x.1 != accRead && rangeHasKey x.2.1 x.2.2 key

/-- Bytes of an access with those whose value is undefined made free (DESIGN CHOICE, log 9). -/
def settle (s : State) (bad : Nat → Bool) (a : Nat) (bs : Bytes) : Bytes × State :=
  let bad := ((rangeKeys a bs.length).map fun k => match k with
    | some key => bad key
    | none => false)
  if bad.any id then
    let (free, s) := drawFree s bs.length
    (List.zipWith (fun x b => if b then x.2 else x.1) (bs.zip free) bad, s)
  else (bs, s)

/-- Note an access as done and not yet ordered by a WAIT. -/
def noteAccess (s : State) (g ti kind a len : Nat) : State :=
  modFig s g fun f => { f with accs := f.accs ++ [(ti, kind, a, len, true)] }

/-- The check of a request of a running figure at issue (R203, R579). -/
def accessCheck (s : State) (t : TarnIx) (a len : Nat) : Option Status :=
  if !inViews a len then some .notPermitted
  else if !(rangeUnits a len).all (unitOk s t) then some .notPermitted
  else if touchesRetired s a len then some .dataLost
  else none

/-- Some Reel unit of the stack works (R233). -/
def stackReels (s : State) (st : Nat) : Bool := (upto 32).any fun c => !s.units.reelRetired.getLsbD (32 * st + c)

/-- An atomic update of memory under R220 and R221, after its checks: a poisoned target stays poisoned (R218). -/
def atomicApply (s : State) (ty a : Nat) (y : Bytes) : Option Status × State :=
  let ew := (atomWidth ty).getD 1
  if (rangeUnits a y.length).any fun u => !stackReels s (u / 32) then (some .unitFailed, s)
  else if poisoned s a y.length then
    let bad := (rangeWords a y.length).filter fun w => wordBad s.poison w
    let s' := devWrite s a (atomBytes ty ew (devRead s a y.length) y)
    (some .dataLost, { s' with poison := bad.foldl putBad s'.poison })
  else (none, devWrite s a (atomBytes ty ew (devRead s a y.length) y))

/-- Requests in order until one ends the ticket. -/
def untilFault {α : Type} (f : State → α → Option Status × State) : List α → State → Option Status × State
  | [], s => (none, s)
  | x :: xs, s => match f s x with
    | (none, s') => untilFault f xs s'
    | r => r

/-- A Reel command arrives (R206 to R214, R218, R233): the whole destination is computed. -/
def reelApply (s : State) (f : FigRun) (ti : Nat) (c : List Nat) : Option Status × State :=
  let r := reelRanges c
  if (reelPositions c).any fun p => !stackReels s (p / 32) then (some .unitFailed, s)
  else
    let w0 := ow c 0
    let op := bits w0 7 0
    let ty := bits w0 11 8
    let ew := (atomWidth ty).getD 1
    let len := r.2.2
    let (srcs, s) := r.1.foldl (fun (acc : List Bytes × State) x =>
      let (bs, s) := settle acc.2 (otherClash f ti accRead) x.1 (devRead acc.2 x.1 x.2)
      (acc.1 ++ [bs], s)) ([], s)
    let elems := srcs.map fun b => (chunks ew b).map leNat
    let out := if op == 5 then (upto (len / ew)).map fun e => chainElem ty (elems.map fun l => l.getD e 0)
      else (upto (len / ew)).map fun e =>
        reelElem op ty (bits w0 15 13) (bit w0 12) (bits (ow c 3) 31 0) (bits (ow c 3) 63 32)
          ((elems.getD 0 []).getD e 0) ((elems.getD 1 []).getD e 0)
    let badWords := (upto (len / 32)).filter fun i => r.1.any fun x => poisoned s (x.1 + 32 * i) 32
    let (bs, s) := settle s (otherClash f ti accWrite) r.2.1 (out.map (leBytes ew)).flatten
    let s := devWrite s r.2.1 bs
    let s := badWords.foldl (fun s i => markPoison s (r.2.1 + 32 * i) 32) s
    (if badWords.isEmpty then none else some .dataLost, s)

/-! Requests on their way to the Reel units (R128, R221) -/

/-- The accesses of a request: kind, address, length. -/
def reqAccesses (q : Req) : List (Nat × Nat × Nat) :=
  match q with
  | .write a bs => [(accWrite, a, bs.length)]
  | .atomic ty a y => [(if atomFloat ty then accFloat else accRing, a, y.length)]
  | .reel c => ((reelRanges c).1.map fun r => (accRead, r.1, r.2)) ++ [(accWrite, (reelRanges c).2.1, (reelRanges c).2.2)]

/-- A request waits for a stack in thermal hold (R236). -/
def reqHeld (s : State) (q : Req) : Bool :=
  s.dram.any (·.hold) && (reqAccesses q).any fun x => touchesHold s x.2.1 x.2.2

/-- A request arrives at its Reel unit and takes effect whole (R221); bytes that another tile's accesses leave undefined are free. -/
def arrive (s : State) (g ti : Nat) (q : Req) : Option Status × State :=
  match figOf s g with
  | none => (none, s)
  | some f => match q with
    | .write a bs =>
      let (bs, s) := settle s (otherClash f ti accWrite) a bs
      (none, devWrite s a bs)
    | .atomic ty a y => (match atomicApply s ty a y with
      | (some st, s) => (some st, s)
      | (none, s) =>
        let (bs, s) := settle s (otherClash f ti (if atomFloat ty then accFloat else accRing)) a (devRead s a y.length)
        (none, devWrite s a bs))
    | .reel c => reelApply s f ti c

/-- Two ranges of addresses share a byte, in either view. -/
def sharesByte (a la b lb : Nat) : Bool := (rangeKeys a la).any fun k => match k with
  | some key => rangeHasKey b lb key
  | none => false

/-- An access of tile `ti` has no defined order to another of the figure, so that its request may arrive late: to one of the same tile,
done or to come, with no WAIT between, where one of the two is no read and they are not two ring atomics (R128); or, for floating
atomic requests, to those of another tile (R222). -/
def unordered (f : FigRun) (ti : Nat) (x : Nat × Nat × Nat) : Bool :=
  let (kind, a, len) := x
  let own := fun (k b lb : Nat) => !(kind == accRead && k == accRead) && !(kind == accRing && k == accRing) && sharesByte a len b lb
  let other := fun (k b lb : Nat) => kind == accFloat && k == accFloat && sharesByte a len b lb
  f.accs.any (fun y => if y.1 == ti then y.2.2.2.2 && own y.2.1 y.2.2.1 y.2.2.2.1 else other y.2.1 y.2.2.1 y.2.2.2.1)
    || (accessesUntil f.args isWait (laterOps f ti)).any (fun y => own y.1 y.2.1 y.2.2)
    || 1 < ((opAccesses f.args (((f.tiles.getD ti {}).ops).headD [])).filter fun y => own y.1 y.2.1 y.2.2).length
    || f.tiles.zipIdx.any (fun r => r.2 != ti && (accessesUntil f.args isGroupWait r.1.ops).any fun y => other y.1 y.2.1 y.2.2)

/-- Draw a number for the arrival of requests (DESIGN CHOICE, log 80). -/
def drawArrival (s : State) : Nat × State := (Config.arrival s.freeCtr, { s with freeCtr := s.freeCtr + 1 })

/-- One of the requests under way from the tiles that `own` names arrives (DESIGN CHOICE, log 80). -/
def landOne (g : Nat) (own : Nat → Bool) (force : Bool) (s : State) : State :=
  match figOf s g with
  | none => s
  | some f =>
    let can := f.flying.filter fun x => own x.1 && (force || !reqHeld s x.2)
    match can[(drawArrival s).1 % can.length]? with
    | none => s
    | some x =>
      match arrive (modFig (drawArrival s).2 g fun f => { f with flying := f.flying.erase x }) g x.1 x.2 with
      | (none, s) => s
      | (some st, s) => figFault s g st

/-- The number of a figure's requests under way. -/
def flyingCount (s : State) (g : Nat) : Nat := match figOf s g with
  | some f => f.flying.length
  | none => 0

/-- Every request of the named tiles arrives, but for those that a thermal hold keeps waiting. -/
def landAll (s : State) (g : Nat) (own : Nat → Bool) (force : Bool := false) : State := iter (landOne g own force) (flyingCount s g) s

/-- Some of the requests under way arrive (DESIGN CHOICE, log 80). -/
def landSome (s : State) (g : Nat) : State :=
  if flyingCount s g == 0 then s
  else iter (landOne g (fun _ => true) false) ((drawArrival s).1 % (flyingCount s g + 1)) (drawArrival s).2

/-- Nothing of the named tiles is under way, and no fault has stopped the figure. -/
def landed (s : State) (g : Nat) (own : Nat → Bool) : Bool := match figOf s g with
  | some f => f.fault.isNone && !f.flying.any fun x => own x.1
  | none => false

/-- Outstanding requests of a tile, at most (Table 02-11, R99). -/
def outstandingLimit : Nat := 256

/-- A tile's requests under way. -/
def tileFlying (s : State) (g ti : Nat) : Nat := match figOf s g with
  | some f => (f.flying.filter fun x => x.1 == ti).length
  | none => 0

/-- Issue a request of a tile (R203, R221): it is checked, and arrives at once or, where its order is undefined, perhaps late (R128). -/
def issue (s : State) (g ti : Nat) (q : Req) (f : FigRun) : Option Status × State :=
  match (reqAccesses q).findSome? fun x => accessCheck s f.tarn x.2.1 x.2.2 with
  | some st => (some st, s)
  | none =>
    let note := fun (s : State) => (reqAccesses q).foldl (fun s x => noteAccess s g ti x.1 x.2.1 x.2.2) s
    let now := fun (s : State) => match arrive s g ti q with
      | (none, s) => (none, note s)
      | e => e
    let f := (figOf s g).getD f
    if (reqAccesses q).any (unordered f ti) then
      let (late, s) := drawArrival (landSome s g)
      if late % 2 == 1 && tileFlying s g ti < outstandingLimit then (none, note (modFig s g fun f => { f with flying := f.flying ++ [(ti, q)] })) else now s
    else now s

/-- A read of a tile: the bytes, or the status that ends the ticket (R203, R218). -/
def tileRead (s : State) (g ti a len : Nat) (f : FigRun) : Except Status Bytes × State :=
  match accessCheck s f.tarn a len with
  | some st => (.error st, s)
  | none =>
    let s := landSome s g
    if poisoned s a len then (.error .dataLost, s)
    else
      let f := (figOf s g).getD f
      let (bs, s) := settle s (fun key => otherClash f ti accRead key || overtaken f ti key) a (devRead s a len)
      (.ok bs, noteAccess s g ti accRead a len)

/-- The scratchpad of a tile of a figure (DESIGN CHOICE, log 8). -/
def scrOf (f : FigRun) (ti : Nat) (r : TileRun) : Scr := ⟨r.scratch, f.left, f.uid, f.figIndex, ti⟩

/-- An operation touches a stack in thermal hold and waits (R236) (DEDUCED, log 28). -/
def opHeld (s : State) (args : Bytes) (w : List Nat) : Bool :=
  s.dram.any (·.hold) && (opAccesses args w).any fun x => touchesHold s x.2.1 x.2.2

/-- Device number of this device. -/
def myDevice (s : State) : Nat := s.timing.deviceNo.val

/-- Issue a remote access (R339, R365, R428). -/
def remoteIssue (s : State) (g : GroupIx) (ti : TileIx) (w : List Nat) (f : FigRun) (r : TileRun) : Option Status × State :=
  let dest := bits (ow w 0) 23 16
  let kind := bits (ow w 0) 29 27
  let len := bits (ow w 2) 63 32
  let spOff := bits (ow w 2) 21 0
  match if isConf s f.tarn then none else routeFor s f.tarn dest with
  | none => (some .notPermitted, s)
  | some n =>
    let tag := BitVec.ofNat 32 s.nextTag
    let h : MsgHeader := {
      op := kind, dest, src := myDevice s, destTarn := bits (ow w 0) 26 24, srcTarn := f.tarn, cls := classCode f.cls
      ty := bits (ow w 0) 35 32, addr := (resolveAddr f.args (ow w 1)).getD 0, len, tag }
    let data := if kind == 3 then [] else scrBytes (scrOf f ti r) spOff len
    let s := { s with
      nextTag := s.nextTag + 1
      remotes := s.remotes ++ [{ tag, uid := f.uid, tarn := f.tarn, group := g, tile := ti, op := kind, link := n, spOff, len,
                                 beat := s.beat }] }
    let s := modTile s g ti fun r => { r with remote := r.remote ++ [tag] }
    (none, sendMessage s n 1 (classRank f.cls) (msgBytes h ++ data))

/-- Write the rows of an OUTPUT to device memory, or as atomic requests (R138, R140) (DEDUCED, log 71). -/
def outputRows (s : State) (g ti : Nat) (w : List Nat) (f : FigRun) (r : TileRun) : Option Status × State :=
  let z := scrOf f ti r
  let sh := outShape f.args w
  let fmt := bits (ow w 1) 2 0
  untilFault (fun s i =>
    let row := outRowBytes z w r f.srSeed f.figIndex i
    let a := sh.1.1 + i * sh.1.2.2.2
    let res := if bit (ow w 1) 32
      then untilFault (fun s (x : Nat × Bytes) => issue s g ti (.atomic fmt (a + 64 * x.1) x.2) f)
        ((chunks 64 row.1).zipIdx.map fun x => (x.2, x.1)) s
      else if row.1.isEmpty then (none, s) else issue s g ti (.write a row.1) f
    match res with
    | (none, s) => if row.2.isEmpty then (none, s) else issue s g ti (.write (sh.2.1 + i * sh.2.2.2.1) row.2) f
    | e => e) (upto sh.1.2.1) s

/-- Scratchpad ranges of an OUTPUT with DST_SP: the value rows, the AUX rows, and the SCALE and BIAS vectors that are enabled. -/
def outputRanges (f : FigRun) (w : List Nat) : List (Nat × Nat) :=
  let sh := outShape f.args w
  let n := 4 * bits (ow w 4) 63 48
  let ctl := ow w 1
  [(sh.1.1, rowsSpan sh.1.2.1 sh.1.2.2.1 sh.1.2.2.2), (sh.2.1, sh.2.2.1 * sh.2.2.2.2),
   (bits (ow w 6) 21 0, if bit ctl 6 then n else 0), (bits (ow w 6) 53 32, if bit ctl 7 then n else 0)]

/-- The value or AUX rows overlap each other or an enabled vector; the spec gives no rule for it. -/
def outputClash (f : FigRun) (w : List Nat) : Bool :=
  match outputRanges f w with
  | v :: x :: vecs =>
    let hit := fun (p q : Nat × Nat) => rangesOverlap p.1 p.2 q.1 q.2
    hit v x || vecs.any fun y => hit v y || hit x y
  | _ => false

/-- OUTPUT to the scratchpad: all rows are formed, then written in ascending order. Where the ranges clash the
bytes written are free (DESIGN CHOICE, log 9; DEDUCED, log 71). -/
def outputScratch (f : FigRun) (ti : Nat) (w : List Nat) (r : TileRun) : TileRun :=
  let z := scrOf f ti r
  let sh := outShape f.args w
  let free := outputClash f w
  let rows := (upto sh.1.2.1).map fun i => (i, outRowBytes z w r f.srSeed f.figIndex i)
  let put := fun (z : Scr) (o : Nat) (bs : Bytes) => scrWrite z o (if free then overlapBytes z o bs.length else bs)
  { r with scratch := (rows.foldl (fun z x =>
      put (put z (sh.1.1 + x.1 * sh.1.2.2.2) x.2.1) (sh.2.1 + x.1 * sh.2.2.2.1) x.2.2) z).cells }

/-- End of an operation: its result, or the fault of the figure. -/
def opDone (g ti : Nat) (x : Option Status × State) : State × Bool :=
  match x with
  | (none, s) => (modTile s g ti fun r => { r with ops := r.ops.drop 1 }, true)
  | (some st, s) => (figFault s g st, false)

/-- A group WAIT ends when every tile with words left has reached it and no remote access is unanswered (R128). -/
def groupReady (f : FigRun) : Bool := f.tiles.all fun r => r.ops.isEmpty || (r.atGroup && r.remote.isEmpty)

/-- An operation waits for the data of a remote READ that its tile issued before it: later operations see what the READ writes to the
scratchpad (R128). Another READ goes on where their ranges are apart, and a tile with 256 unanswered requests issues none (Table 02-11)
(DEDUCED, log 57). -/
def awaitsRead (s : State) (r : TileRun) (w : List Nat) : Bool :=
  let reads := s.remotes.filter fun m => m.op == 3 && r.remote.contains m.tag
  match opCode w with
  | 0x0C => false
  | 0x0B => outstandingLimit ≤ r.remote.length || reads.any fun m => bits (ow w 0) 29 27 != 3 || rangesOverlap m.spOff m.len (bits (ow w 2) 21 0) (bits (ow w 2) 63 32)
  | _ => !reads.isEmpty

/-- One operation of a tile; the Bool says that the tile went on (DESIGN CHOICE, log 57). -/
def tileStep (s : State) (g : GroupIx) (ti : TileIx) : State × Bool :=
  match figOf s g with
  | none => (s, false)
  | some f =>
    let r := f.tiles.getD ti {}
    match r.ops with
    | [] => (s, false)
    | w :: _ =>
      if f.fault.isSome || f.cycles.isSome || opHeld s f.args w || awaitsRead s r w then (s, false)
      else
        let put := fun (r' : TileRun) => opDone g ti (none, modTile s g ti fun _ => r')
        let z := scrOf f ti r
        let inTile := fun (z' : Scr) => put { r with scratch := z'.cells }
        match opCode w with
        | 0x01 =>
          let sp := bits (ow w 2) 21 0
          let str := bits (ow w 5) 21 0
          opDone g ti (untilFault (fun s (x : (Nat × Nat) × Nat) => match tileRead s g ti x.1.1 x.1.2 f with
            | (.error st, s) => (some st, s)
            | (.ok bs, s) => (none, modTile s g ti fun r =>
                { r with scratch := (scrWrite (scrOf f ti r) (sp + x.2 * str) bs).cells }))
            (rowRanges ((resolveAddr f.args (ow w 1)).getD 0) (bits (ow w 3) 31 0) (bits (ow w 2) 63 32) (ow w 4)).zipIdx s)
        | 0x02 =>
          let sp := bits (ow w 2) 21 0
          let str := bits (ow w 5) 21 0
          opDone g ti (untilFault (fun s (x : (Nat × Nat) × Nat) =>
            issue s g ti (.write x.1.1 (scrBytes z (sp + x.2 * str) x.1.2)) f)
            (rowRanges ((resolveAddr f.args (ow w 1)).getD 0) (bits (ow w 3) 31 0) (bits (ow w 2) 63 32) (ow w 4)).zipIdx s)
        | 0x03 => put (runMatmul z w r)
        | 0x04 => if bit (ow w 0) 16 then put (outputScratch f ti w r) else opDone g ti (outputRows s g ti w f r)
        | 0x05 => inTile (runPipe z f.progs w)
        | 0x06 => inTile (runVector z w)
        | 0x07 => inTile (runConvert z f.srSeed f.figIndex w)
        | 0x08 =>
          let a := (resolveAddr f.args (ow w 1)).getD 0
          opDone g ti (untilFault (fun s (x : Bytes × Nat) => issue s g ti (.atomic (bits (ow w 0) 19 16) (a + 64 * x.2) x.1) f)
            (chunks 64 (scrBytes z (bits (ow w 2) 21 0) (bits (ow w 2) 63 32))).zipIdx s)
        | 0x09 => inTile (runRowstat z w)
        | 0x0A => opDone g ti (issue s g ti (.reel (w.drop 1)) f)
        | 0x0B => opDone g ti (remoteIssue s g ti w f r)
        | 0x0C =>
          if bit (ow w 0) 17 then
            let f' := { f with tiles := f.tiles.modify ti fun r => { r with atGroup := true } }
            let s := { s with figs := s.figs.set g (some f') }
            if groupReady f' then
              let s := landAll s g fun _ => true
              if landed s g fun _ => true then
                (modFig s g fun f => { f with
                  accs := []
                  tiles := f.tiles.map fun r => if r.atGroup then { r with ops := r.ops.drop 1, atGroup := false } else r }, true)
              else (s, false)
            else (s, false)
          else if r.remote.isEmpty then
            let s := landAll s g (· == ti.val)
            if landed s g (· == ti.val) then
              opDone g ti (none, modFig s g fun f => { f with
                accs := f.accs.map fun x => if x.1 == ti.val then (x.1, x.2.1, x.2.2.1, x.2.2.2.1, false) else x })
            else (s, false)
          else (s, false)
        | _ => put r

/-- Run a tile while it goes on; `fuel` bounds the operations. -/
def tileRunOn (g : GroupIx) (ti : TileIx) : Nat → State → State
  | 0, s => s
  | fuel + 1, s => match tileStep s g ti with
    | (s, true) => tileRunOn g ti fuel s
    | (s, false) => s

/-- Words left in the longest stream of a figure. -/
def wordsLeft (f : FigRun) : Nat := (f.tiles.map fun r => r.ops.length).foldl max 0

/-- Run every tile of a figure as far as it goes: once, and again after each group WAIT (DESIGN CHOICE, log 57). -/
def figRunOn (s : State) (g : GroupIx) : State :=
  match figOf s g with
  | none => s
  | some f =>
    let waits := (f.tiles.map fun r => groupWaits r.ops).foldl max 0
    iter (fun s => (List.finRange 8).foldl (fun s ti => tileRunOn g ti (wordsLeft f + 1) s) s) (2 * waits + 1) s

/-- Every stream has executed END and no remote access is unanswered (R128, R347). -/
def figEnded (f : FigRun) : Bool := f.fault.isNone && f.tiles.all fun r => r.ops.isEmpty && r.remote.isEmpty

/-- The extent of an output operation (R702). -/
def outExtent (args : Bytes) (w : List Nat) : Option (Nat × Nat) :=
  match opCode w with
  | 0x02 => some ((resolveAddr args (ow w 1)).getD 0, (bits (ow w 3) 31 0 - 1) * ow w 4 + bits (ow w 2) 63 32)
  | 0x04 =>
    if bit (ow w 0) 16 then none
    else
      let sh := (outShape args w).1
      some (sh.1, rowsSpan sh.2.1 sh.2.2.1 sh.2.2.2)
  | _ => none

/-- The extent of a figure: the last output operation of the highest-numbered tile whose stream holds one (R702). -/
def figExtent (args : Bytes) (streams : List (List (List Nat))) : Option (Nat × Nat) :=
  streams.foldl (fun acc x => match (x.filterMap (outExtent args)).getLast? with
    | some e => some e
    | none => acc) none

/-- The figures of a ticket that have finished in this beat: index and extent. -/
def finishedOf (s : State) (uid : Nat) : List (Nat × Option (Nat × Nat)) :=
  s.figs.filterMap fun x => match x with
    | some f => if f.uid == uid && f.cycles.isSome && f.fault.isNone then some (f.figIndex, f.extent) else none
    | none => none

/-- Compute the extent digest when a tagged ticket's last figure has finished (R537, R539). -/
def digestIfLast (s : State) (uid : Nat) : State :=
  match ticketOf s uid with
  | none => s
  | some k => match k.graph with
    | none => s
    | some gr =>
      if k.tag && gr.committed.length + (finishedOf s uid).length + gr.first == gr.figures then
        let e := extentBelow gr.figures (gr.committed ++ finishedOf s uid)
        modTicket s uid fun k => { k with buf := sha384 (devRead s e.1 e.2) }
      else s

/-- Mark the figure of a slot finished with its cycle count, when it has come to its end and every request it issued has been applied
(R128, R216). -/
def figEnd (s : State) (g : GroupIx) (cycles : Nat) : State :=
  match figOf s g with
  | none => s
  | some f =>
    if figEnded f && f.cycles.isNone then
      let s := landAll s g fun _ => true
      if landed s g fun _ => true then digestIfLast (modFig s g fun f => { f with cycles := some cycles }) f.uid else s
    else s

/-- A figure leaves its slot: what it issued arrives, and the bytes of its scratchpads stay behind (R221, R699). -/
def leaveSlot (s : State) (g : Nat) : State :=
  let s := landAll s g (fun _ => true) true
  match figOf s g with
  | none => s
  | some f => { s with
      figs := s.figs.set g none
      spLeft := s.spLeft.modify g fun l => ((f.tiles.map fun r => r.scratch.map (·.2)).flatten ++ l).dedup }

/-- The device runs the work window of a beat. -/
def figuresRun (s : State) : Bool := s.board.running && !s.fatal

/-- FIGURE_FINISH (R128): the rest of the figure's operations run, and it finishes when nothing of it is left (DESIGN CHOICE, log 57). -/
def execFigureFinish (g : GroupIx) (cycles : Nat) (s : State) : Host.Outcome State Fault Refusal :=
  .next (if figuresRun s then figEnd (figRunOn s g) g cycles else s)

/-- Run a tile up to and with its next operation of a kind; `fuel` bounds the operations. -/
def tileUpTo (g : GroupIx) (ti : TileIx) (isKind : List Nat → Bool) : Nat → State → State
  | 0, s => s
  | fuel + 1, s =>
    match figOf s g with
    | none => s
    | some f => match (f.tiles.getD ti {}).ops with
      | [] => s
      | w :: _ => match tileStep s g ti with
        | (s, true) => if isKind w then s else tileUpTo g ti isKind fuel s
        | (s, false) => s

/-- Run the figure's tile up to its next operation of a kind, if it has one before it ends (DESIGN CHOICE, log 57). -/
def nextOfKind (s : State) (g : GroupIx) (ti : TileIx) (isKind : List Nat → Bool) : State :=
  match figOf s g with
  | none => s
  | some f =>
    if figuresRun s && (f.tiles.getD ti {}).ops.any isKind then tileUpTo g ti isKind (wordsLeft f) s else s

/-- MEMORY_REQUEST (R203): the tile's next LOAD, STORE, or OUTPUT to memory is checked and performed. -/
def execMemoryRequest (g : GroupIx) (tile : TileIx) (s : State) : Host.Outcome State Fault Refusal :=
  .next (nextOfKind s g tile fun w => opCode w == 1 || opCode w == 2
    || (opCode w == 4 && !bit (ow w 0) 16 && !bit (ow w 1) 32))

/-- REEL_COMMAND (R206): the tile's next REEL operation runs. -/
def execReelCommand (g : GroupIx) (tile : TileIx) (s : State) : Host.Outcome State Fault Refusal :=
  .next (nextOfKind s g tile fun w => opCode w == 0x0A)

/-- ATOMIC_REQUEST (R221): the tile's next ATOMIC, or OUTPUT with ATOMIC_ADD, is applied. -/
def execAtomicRequest (g : GroupIx) (tile : TileIx) (s : State) : Host.Outcome State Fault Refusal :=
  .next (nextOfKind s g tile fun w => opCode w == 8 || (opCode w == 4 && !bit (ow w 0) 16 && bit (ow w 1) 32))

end Sys2Proof.Machine
end

