-- ==== Sys2Proof/Machine/Copy.lean ====
section
/-! DEFINITION. COPY, MODEL_LOAD and sealed packages (R528 to R535, R482, R483), MICROPROG_LOAD (R175 to R178). -/

namespace Sys2Proof.Machine

/-! Sealed packages -/

/-- Header fields of a package (Table 12-3). -/
structure Pkg where
  log2 : Nat
  nonce : Bytes
  plainLen : Nat
  kcv : Bytes
  modelId : Bytes
  salt : Bytes
  header : Bytes
  deriving DecidableEq, Repr

/-- The fields of a package header. -/
def pkgOf (h : Bytes) : Pkg where
  log2 := byteAt h 2
  nonce := slice h 4 4
  plainLen := field h 8 8
  kcv := slice h 0x10 8
  modelId := slice h 0x18 32
  salt := slice h 0x38 32
  header := h.take 128

/-- Format, reserved fields and ranges of a package header (R528, R530 item 1). -/
def pkgFormOk (h : Bytes) : Bool :=
  let p := pkgOf h
  h.length ≥ 128 && field h 0 2 == 1 && byteAt h 3 == 0 && allZero (slice h 0x58 0x28) && 16 ≤ p.log2 && p.log2 ≤ 24
    && p.plainLen % 256 == 0 && 256 ≤ p.plainLen

/-- Length of a package (R528). -/
def pkgLen (p : Pkg) : Nat := 128 + p.plainLen + 16 * cdiv p.plainLen (2 ^ p.log2)

/-- Chunk key (R529). -/
def chunkKey (p : Pkg) (k : Bytes) : Bytes := if allZero p.salt then k else hkdf384 p.salt k (ascii "GZ8-SEAL-1") 32

/-- Nonce and additional data of chunk `i` (R529). -/
def chunkNonce (p : Pkg) (i : Nat) : Bytes := p.nonce ++ beBytes 8 i

/-- Additional authenticated data of a chunk. -/
def chunkAad (p : Pkg) (i : Nat) : Bytes := p.header ++ leBytes 1 (b2n (i + 1 == cdiv p.plainLen (2 ^ p.log2)))

/-- Plaintext length of chunk `i`. -/
def chunkLen (p : Pkg) (i : Nat) : Nat := min (2 ^ p.log2) (p.plainLen - i * 2 ^ p.log2)

/-- Open chunks from number `i` on as far as the bytes hold whole ones: plaintext, bytes left, next number, and whether a tag
failed; `fuel` bounds the chunks. -/
def openChunks (p : Pkg) (key : Bytes) : Nat → Nat → Bytes → Bytes → Bytes × Bytes × Nat × Bool
  | 0, i, raw, got => (got, raw, i, false)
  | fuel + 1, i, raw, got =>
    let n := chunkLen p i
    if n == 0 || raw.length < n + 16 then (got, raw, i, false)
    else match gcmOpen key (chunkNonce p i) (chunkAad p i) (raw.take n) (slice raw n 16) with
      | none => (got, raw, i, true)
      | some pt => openChunks p key fuel (i + 1) (raw.drop (n + 16)) (got ++ pt)

/-- The package of a plaintext under key material (R534). -/
def sealPackage (material salt plain : Bytes) : Bytes :=
  let h := leBytes 2 1 ++ leBytes 1 20 ++ zeros 1 ++ zeros 4 ++ leBytes 8 plain.length ++ kcvOf 2 material ++ zeros 32 ++ salt
    ++ zeros 0x28
  let p := pkgOf h
  let key := chunkKey p material
  h ++ ((chunks (2 ^ 20) plain).zipIdx.map fun c =>
    let r := gcmSeal key (chunkNonce p c.2) (chunkAad p c.2) c.1
    r.1 ++ r.2).flatten

/-! COPY -/

/-- Source is host, destination is host, key slot, decrypt inline (Table 02-9). -/
def copyFlags (k : Ticket) : Bool × Bool × Nat × Bool :=
  let o := opW k 3
  (bit o 0, bit o 1, bits o 10 2, bit o 11)

/-- Length of the package that an encrypting COPY writes (R528, R534). -/
def sealedLen (n : Nat) : Nat := 128 + n + 16 * cdiv n (2 ^ 20)

/-- Least length of a package of a plaintext: with the largest chunk of R528. -/
def sealedMin (n : Nat) : Nat := 128 + n + 16 * cdiv n (2 ^ 24)

/-- The device range that a COPY writes as a whole. -/
def copyDest (k : Ticket) : Nat × Nat :=
  let (_, _, slot, dec) := copyFlags k
  (opW k 1, if slot == 0 || dec then opW k 2 else sealedLen (opW k 2))

/-- A COPY that decrypts or encrypts writes its output as a whole, so each of its host reads is checked for the whole destination (R439)
(DEDUCED, log 83). -/
def copyWhole (k : Ticket) (c : DmaChunk) : DmaChunk :=
  let (_, dstH, _, _) := copyFlags k
  { c with chk := if dstH then none else some (copyDest k) }

/-- Write to a COPY's device destination. Data from the host were checked when their reads were issued (R439, R440); a copy within device
memory is checked here. -/
def copyToDevice (s : State) (k : Ticket) (off : Nat) (bs : Bytes) : Except Status State :=
  let (srcH, _, _, _) := copyFlags k
  let a := opW k 1 + off
  match if srcH then (if !inViews a bs.length then some .notPermitted else if touchesRetired s a bs.length then some .dataLost else none)
    else accessCheck s k.tarn a bs.length with
  | some st => .error st
  | none => .ok (devWrite s a bs)

/-- Write the whole output of a COPY and finish it. -/
def copyFinish (s : State) (k : Ticket) (bs : Bytes) : State :=
  let (_, dstH, _, _) := copyFlags k
  if dstH then
    match hostOut s k 1 (opW k 1) bs with
    | (.error st, s) => failTicket s k.uid st
    | (.ok _, s) => finishTicket (modTicket s k.uid fun k => { k with cursor := bs.length }) k.uid bs.length 0
  else match copyToDevice s k 0 bs with
    | .error st => failTicket s k.uid st
    | .ok s => finishTicket (modTicket s k.uid fun k => { k with cursor := bs.length }) k.uid bs.length 0

/-- The device source of a COPY: its bytes, or the status that ends the ticket. -/
def copySource (s : State) (k : Ticket) (n : Nat) : Except Status Bytes :=
  match accessCheck s k.tarn (opW k 0) n with
  | some st => .error st
  | none => if poisoned s (opW k 0) n then .error .dataLost else .ok (devRead s (opW k 0) n)

/-- Checks of a package header for a decrypting COPY (R535). -/
def copyHeader (k : Ticket) (h material : Bytes) : Option Status :=
  if !pkgFormOk h || (pkgOf h).plainLen != opW k 2 then some .badCommand
  else if (pkgOf h).kcv != kcvOf 2 material then some .notPermitted
  else none

/-- Decrypt a whole package of a COPY: the plaintext of the chunks that verified is written; a failed tag ends the ticket. -/
def copyDecrypt (s : State) (k : Ticket) (pkg material : Bytes) : State :=
  match copyHeader k pkg material with
  | some st => failTicket s k.uid st
  | none =>
    let p := pkgOf pkg
    if pkg.length != pkgLen p then failTicket s k.uid .badCommand
    else
      let r := openChunks p (chunkKey p material) (cdiv p.plainLen (2 ^ p.log2)) 0 (pkg.drop 128) []
      if r.2.2.2 then
        let (_, dstH, _, _) := copyFlags k
        let s := if dstH then s else match copyToDevice s k 0 r.1 with
          | .error _ => s
          | .ok s => modTicket s k.uid fun k => { k with cursor := r.1.length }
        failTicket s k.uid .notPermitted
      else copyFinish s k r.1

/-- The end of the bounce records that have arrived: the next read to issue, or the plaintext length of the whole transfer
(R407); `fuel` bounds the records. -/
def recordScan (raw : Bytes) (addr : Nat) : Nat → Nat → Nat → Option DmaChunk × Option Nat
  | 0, _, _ => (none, none)
  | fuel + 1, off, sum =>
    if raw.length < off + 32 then (some { addr := addr + off, len := 32 }, none)
    else
      let n := field raw (off + 0x10) 4
      if n == 0 || recPayload < n then (none, some sum)
      else if raw.length < off + recBytes n then (some { addr := addr + raw.length, len := min 4096 (off + recBytes n - raw.length) }, none)
      else if bit (byteAt raw (off + 3)) 0 then (none, some (sum + n))
      else recordScan raw addr fuel (off + recBytes n) (sum + n)

/-- A COPY with its key, if it has one, in hand. -/
def copyRun (s : State) (k : Ticket) (material : Option Bytes) : State :=
  let (srcH, dstH, _, dec) := copyFlags k
  let n := opW k 2
  match material, dec with
  | some m, true =>
    if !srcH then
      match copySource s k 128 with
      | .error st => failTicket s k.uid st
      | .ok h => match copyHeader k h m with
        | some st => failTicket s k.uid st
        | none => match copySource s k (pkgLen (pkgOf h)) with
          | .error st => failTicket s k.uid st
          | .ok pkg => copyDecrypt s k pkg m
    else if isConf s k.tarn then
      match recordScan k.buf (opW k 0) (k.buf.length + 2) 0 0 with
      | (some c, _) => fetchHost s k.uid [copyWhole k c]
      | (none, some total) => match openTransfer k 0 total (cdiv total recPayload) k.buf [] s with
        | (.error st, s) => failTicket s k.uid st
        | (.ok pkg, s) => copyDecrypt s k pkg m
      | (none, none) => s
    else if k.stage == 0 then
      match copyHeader k k.buf m with
      | some st => failTicket s k.uid st
      | none => fetchHost (modTicket s k.uid fun k => { k with stage := 1 }) k.uid
          ((hostChunks (opW k 0 + 128) (pkgLen (pkgOf k.buf) - 128)).map (copyWhole k))
    else copyDecrypt s k k.buf m
  | m?, _ =>
    if !srcH then
      match copySource s k n with
      | .error st => failTicket s k.uid st
      | .ok bs => match m? with
        | none => copyFinish s k bs
        | some m =>
          let (salt, s) := drawEntropy s 32
          copyFinish s k (sealPackage m salt bs)
    else if m?.isNone && !dstH && !isConf s k.tarn then finishTicket s k.uid n 0
    else
      let s := takePlain s k.uid 0 n
      match ticketOf s k.uid with
      | none => s
      | some k' =>
        if !ticketRuns k' then s
        else if m?.isNone && !dstH then
          match copyToDevice s k' k'.cursor k'.plain with
          | .error st => failTicket s k.uid st
          | .ok s =>
            let s := modTicket s k.uid fun k => dropHand { k with cursor := k.cursor + k'.plain.length, plain := [], dirty := true } k.buf.length
            if k'.taken == n then finishTicket s k.uid n 0 else s
        else if k'.taken == n then match m? with
          | none => copyFinish s k' k'.plain
          | some m =>
            let (salt, s) := drawEntropy s 32
            copyFinish s k' (sealPackage m salt k'.plain)
        else s

/-- A ticket of an opcode that runs, its reads perhaps still under way (DESIGN CHOICE, log 60). -/
def serveRunning (s : State) (uid op : Nat) (g : State → Ticket → State) : State :=
  match ticketOf s uid with
  | some k => if k.op == op && ticketRuns k && running s && fwUp s then g s k else s
  | none => s

/-- Start the use of a key slot by an operation, then go on (R439, R443). -/
def withKey (s : State) (k : Ticket) (slot usage : Nat) (g : State → Ticket → Bytes → State) : State :=
  match k.key with
  | some (_, m, _) => g s k m
  | none => match keyStart s k.tarn slot usage with
    | .error st => failTicket s k.uid st
    | .ok key => g (modTicket s k.uid fun k => { k with key := some key }) { k with key := some key } key.2.1

/-- All reads of a ticket are done. -/
def readsDone (k : Ticket) : Bool := k.need.isEmpty && k.dma.isNone

/-- A COPY touches a stack in thermal hold and waits (R236). -/
def copyHeld (s : State) (k : Ticket) : Bool :=
  let (srcH, dstH, _, dec) := copyFlags k
  (!srcH && touchesHold s (opW k 0) (if dec then sealedMin (opW k 2) else opW k 2))
    || (!dstH && touchesHold s (copyDest k).1 (copyDest k).2)

/-- COPY (R534, R535): a service step of the transfer. -/
def serveCopy (s : State) (k : Ticket) : State :=
  let (srcH, dstH, slot, dec) := copyFlags k
  let streams := slot == 0 && srcH && !dstH && isConf s k.tarn
  if opW k 2 == 0 then finishTicket s k.uid 0 0
  else if copyHeld s k || k.parked.isSome then s
  else if slot == 0 then (if readsDone k || streams then copyRun s k none else s)
  else withKey s k slot (if dec then 2 else 1) fun s k m => if readsDone k then copyRun s k (some m) else s

/-- COPY. -/
def execCopy (uid : Nat) (s : State) : Host.Outcome State Fault Refusal := .next (serveRunning s uid 0x10 serveCopy)

/-! MODEL_LOAD -/

/-- Plaintext bytes of a package that its first `o` bytes carry (R528). -/
def pkgPlainAt (p : Pkg) (o : Nat) : Nat :=
  let c := 2 ^ p.log2
  (o - 128) / (c + 16) * c + min ((o - 128) % (c + 16)) c

/-- The reads of a MODEL_LOAD that follow its header, each with the device range that its data comes to (R439). -/
def modelReads (s : State) (k : Ticket) (p : Pkg) : List DmaChunk :=
  k.need.map fun c =>
    let at_ := fun (o : Nat) => min p.plainLen (pkgPlainAt p (if isConf s k.tarn then plainAt o else o))
    let o := c.addr - opW k 0
    { c with chk := some (opW k 2 + at_ o, at_ (o + c.len) - at_ o) }

/-- Write verified chunks of a model and count them (R531); their reads were checked at issue (R439, R440). -/
def modelChunks (s : State) (k : Ticket) (m : Bytes) (h : Bytes) (body : Bytes) : State :=
  let p := pkgOf h
  let r := openChunks p (chunkKey p m) (cdiv p.plainLen (2 ^ p.log2) + 1) k.accepted body []
  let a := opW k 2 + k.cursor
  if touchesHold s a r.1.length then s
  else if touchesRetired s a r.1.length then failTicket s k.uid .dataLost
  else
    let left := k.buf.length + (if isConf s k.tarn then transferBytes r.2.1.length else r.2.1.length)
    let s := if r.1.isEmpty then s else devWrite s (opW k 2 + k.cursor) r.1
    let s := modTicket s k.uid fun k => dropHand { k with
      cursor := k.cursor + r.1.length, accepted := r.2.2.1, plain := h ++ r.2.1, dirty := true } left
    if r.2.2.2 then failTicket s k.uid .notPermitted
    else if k.cursor + r.1.length == p.plainLen then
      let s := tally s 0x0032 2 k.tarn false .ok
        (leBytes 2 (opW k 3) ++ zeros 6 ++ leBytes 8 (opW k 2) ++ leBytes 8 p.plainLen ++ p.modelId ++ sha384 h)
      finishTicket s k.uid p.plainLen 0
    else s

/-- MODEL_LOAD (R530, R531): a service step; the header first, then the chunks that have arrived. -/
def serveModelLoad (s : State) (k : Ticket) : State :=
  withKey s k (opW k 3) 2 fun s k m =>
    let s := takePlain s k.uid 0 (opW k 1)
    match ticketOf s k.uid with
    | none => s
    | some k =>
      if !ticketRuns k || k.plain.length < 128 then s
      else
        let h := k.plain.take 128
        let p := pkgOf h
        if k.stage == 0 then
          if !pkgFormOk h || opW k 1 != pkgLen p then failTicket s k.uid .badCommand
          else if p.kcv != kcvOf 2 m then failTicket s k.uid .notPermitted
          else match rangeCheck s k.tarn (opW k 2) p.plainLen with
            | some _ => failTicket s k.uid .notPermitted
            | none => modelChunks (modTicket s k.uid fun k => { k with
                stage := 1, need := modelReads s k p, hand := [(k.received, s.beat)], ledger := { k.ledger with figuresTotal := cdiv p.plainLen (2 ^ p.log2) } }) { k with stage := 1 } m h (k.plain.drop 128)
        else modelChunks s k m h (k.plain.drop 128)

/-- MODEL_LOAD. -/
def execModelLoad (uid : Nat) (s : State) : Host.Outcome State Fault Refusal := .next (serveRunning s uid 0x11 serveModelLoad)

/-! MICROPROG_LOAD -/

/-- The step words of a program's bytes. -/
def microSteps (b : Bytes) : List Nat := (chunks 8 b).map leNat

/-- MICROPROG_LOAD (R176): every step is checked; the load commits in step 2 of the coming seam. -/
def serveMicroprog (s : State) (k : Ticket) : State :=
  match accessCheck s k.tarn (opW k 0) (opW k 1) with
  | some st => failTicket s k.uid st
  | none =>
    if touchesHold s (opW k 0) (opW k 1) then s
    else if poisoned s (opW k 0) (opW k 1) then failTicket s k.uid .dataLost
    else
      let b := devRead s (opW k 0) (opW k 1)
      if (microSteps b).all microStepOk then modTicket s k.uid fun k => { k with stage := 1, plain := b, dirty := true }
      else answerTicket s k.uid .badCommand 0 0

/-- MICROPROG_LOAD. -/
def execMicroprogLoad (uid : Nat) (s : State) : Host.Outcome State Fault Refusal :=
  .next (serve s uid 0x12 fun s k => if k.stage == 0 then serveMicroprog s k else s)

/-- Steps that a Tarn's programs hold, but for one number (R176). -/
def stepsBut (n : Tarn) (fn : Nat) : Nat := ((n.progs.filter fun p => p.1 != fn).map fun p => p.2.length).sum

/-- Put a program in effect, with its MICROPROG event (R177, R178). -/
def installProg (s : State) (t : TarnIx) (fn : Nat) (b : Bytes) : State :=
  let s := modTarn s t fun n => { n with progs := assocPut fn (microSteps b) n.progs }
  tally s 0x0031 1 t (fwUp s) .ok (leBytes 1 fn ++ zeros 1 ++ leBytes 2 (microSteps b).length ++ zeros 4 ++ sha384 b)

/-- Commit a load in step 2 (R176): refused where it passes the step budget of R175. -/
def commitMicroprog (s : State) (k : Ticket) : State :=
  match tarnOf s k.tarn with
  | none => s
  | some n =>
    let steps := (microSteps k.plain).length
    if 4096 < stepsBut n (opW k 2) + steps then answerTicket s k.uid .notPermitted 0 0
    else finishTicket (installProg s k.tarn (opW k 2) k.plain) k.uid steps 0

end Sys2Proof.Machine
end

