-- ==== Sys2Proof/Machine/Operands.lean ====
section
/-! DEFINITION. Operand forms of GCI entries: the submission entry (R73), the opcodes with their classes and operand words
(Table 02-9), the admission checks of R83, and the ticket that an admitted entry creates (R83 to R87). -/

namespace Sys2Proof.Machine

/-- A submission entry (Table 02-6). -/
structure Entry where
  op : Nat
  cls : Nat
  fence : Bool
  tag : Bool
  irqNow : Bool
  commandId : BitVec 16
  reserved : Bool
  ops : List (BitVec 64)
  deriving DecidableEq, Repr

/-- The fields of an entry's 64 bytes. -/
def entryFields (b : Bytes) : Entry where
  op := byteAt b 0
  cls := byteAt b 1 % 16
  fence := bit (byteAt b 1) 4
  tag := bit (byteAt b 1) 5
  irqNow := bit (byteAt b 1) 6
  commandId := BitVec.ofNat 16 (field b 2 2)
  reserved := bit (byteAt b 1) 7 || field b 4 4 != 0
  ops := (upto 7).map fun i => BitVec.ofNat 64 (field b (8 + 8 * i) 8)

/-- Operand word `i` of an entry. -/
def eW (e : Entry) (i : Nat) : Nat := (e.ops.getD i 0).toNat

/-- The classes that an opcode allows and the operand words that Table 02-9 lists for it. -/
def opForm (op : Nat) : Option (List Nat × Nat) :=
  match op with
  | 0x00 => some ([2], 0)
  | 0x01 => some ([2], 4)
  | 0x02 => some ([2], 5)
  | 0x03 => some ([2], 3)
  | 0x04 => some ([2], 4)
  | 0x05 => some ([2], 3)
  | 0x06 => some ([2], 2)
  | 0x08 => some ([2], 2)
  | 0x09 => some ([2], 1)
  | 0x0A => some ([2], 3)
  | 0x0B => some ([2], 1)
  | 0x10 => some ([1, 2], 4)
  | 0x11 => some ([2], 4)
  | 0x12 => some ([2], 3)
  | 0x13 => some ([1, 2], 5)
  | 0x14 => some ([2], 3)
  | 0x20 => some ([3], 4)
  | 0x21 => some ([3], 4)
  | 0x22 => some ([3], 4)
  | 0x23 => some ([3], 2)
  | 0x24 => some ([3], 1)
  | 0x25 => some ([2], 3)
  | 0x26 => some ([2], 3)
  | 0x27 => some ([3], 3)
  | _ => none

/-- The class and opcode may come by the queue class (R80). -/
def classFits (expressQp : Bool) (e : Entry) : Bool :=
  if expressQp then e.cls == 1 && (e.op == 0x10 || e.op == 0x13) else e.cls != 1

/-- COPY: source is host, destination is host, key slot, decrypt (Table 02-9). -/
def eCopy (e : Entry) : Bool × Bool × Nat × Bool := (bit (eW e 3) 0, bit (eW e 3) 1, bits (eW e 3) 10 2, bit (eW e 3) 11)

/-- Bytes that a COPY reads at its source and writes at its destination, as far as they are known at admission. -/
def copyLens (e : Entry) : Nat × Nat :=
  let (_, _, slot, dec) := eCopy e
  let n := eW e 2
  if slot == 0 || n == 0 then (n, n) else if dec then (sealedMin n, n) else (n, sealedLen n)

/-- Host bytes that carry `p` plaintext bytes to the device. -/
def hostLen (conf : Bool) (p : Nat) : Nat := if conf then transferBytes p else p

/-- Host data ranges that an entry names (R405, R411); a range of no bytes names none. -/
def hostRanges (conf : Bool) (e : Entry) : List (Nat × Nat) :=
  let w := eW e
  let all := match e.op with
    | 0x01 => [(w 2, w 3)]
    | 0x02 => [(w 0, hostLen conf (w 1)), (w 3, w 4)]
    | 0x03 => [(w 1, w 2)]
    | 0x04 => [(w 2, w 3)]
    | 0x05 => [(w 0, hostLen conf 32), (w 1, w 2)]
    | 0x08 => [(w 0, hostLen conf (w 1))]
    | 0x0A => [(w 1, hostLen conf (w 2))]
    | 0x10 =>
      let (srcH, dstH, _, dec) := eCopy e
      let n := copyLens e
      (if srcH then [(w 0, if dec && conf then min n.1 32 else hostLen conf n.1)] else [])
        ++ (if dstH then [(w 1, hostLen conf n.2)] else [])
    | 0x11 => [(w 0, hostLen conf (w 1))]
    | 0x20 => [(w 0, hostLen conf (w 1)), (w 2, hostLen conf (w 3))]
    | 0x21 => [(w 1, w 3)]
    | 0x22 => [(w 1, w 3)]
    | 0x25 => [(w 1, w 2)]
    | 0x26 => [(w 1, w 2)]
    | 0x27 => [(w 1, hostLen conf (w 2))]
    | _ => []
  all.filter fun r => r.2 != 0

/-- Device ranges that an entry names, but for SUBMIT_GRAPH (R202). -/
def devRanges (e : Entry) : List (Nat × Nat) :=
  match e.op with
  | 0x10 =>
    let (srcH, dstH, _, _) := eCopy e
    let n := copyLens e
    (if srcH then [] else [(eW e 0, n.1)]) ++ (if dstH then [] else [(eW e 1, n.2)])
  | 0x12 => [(eW e 0, eW e 1)]
  | _ => []

/-- A slot operand that must name a slot is out of range (R469). -/
def slotRangeBad (slot : Nat) : Bool := slot == 0 || 511 < slot

/-- Kind of unit, working time in µs, and whether GCI may run it, of a test code (Table 14-5). -/
def testForm (code : Nat) : Option (BitVec 8 × Nat × Bool) :=
  match code with
  | 1 => some (kTile, 1500, true)
  | 2 => some (kTile, 2000, true)
  | 3 => some (kLane, 300, true)
  | 4 => some (kKae, 500, true)
  | 5 => some (kMem, 3000, true)
  | 6 => some (kChan, 60000, false)
  | 7 => some (kLink, 20000, false)
  | _ => none

/-- Units of a kind (Table 13-2). -/
def unitCount (k : BitVec 8) : Nat :=
  match k.toNat with
  | 0x01 => 128
  | 0x02 => 16
  | 0x03 => 256
  | 0x04 => 256
  | 0x05 => 256
  | 0x06 => 16
  | 0x07 => 64
  | 0x08 => 1
  | 0x09 => 96
  | 0x0A => 12
  | 0x0B => 8
  | 0x0C => 1
  | _ => 0

/-- A unit that exists (R566). -/
def unitExists (u : UnitId) : Bool := u.index.toNat < unitCount u.kind

/-- A test code and the unit it may run on (R634). -/
def testOk (u : UnitId) (code : Nat) : Bool :=
  match testForm code with
  | some f => u.kind == f.1 && unitExists u
  | none => false

/-- Working tiles of a group: neither failed nor under test (R112, R637). -/
def workingTiles (s : State) (g : Nat) : Nat :=
  ((upto 8).filter fun i => !s.units.tileFailed.getLsbD (8 * g + i) && !s.units.tileTesting.getLsbD (8 * g + i)).length

/-- The resource that a test takes out of service. -/
def testRes (u : UnitId) : Option Resource :=
  let i := u.index.toNat
  if u.kind == kTile then some (.tileGroup (Fin.ofNat 16 (i / 8)))
  else if u.kind == kLane then some (.lane (Fin.ofNat 16 i))
  else if u.kind == kKae then some (.kaeGroup (Fin.ofNat 8 (i / 8)))
  else if u.kind == kMem then some (.memUnit (Fin.ofNat 8 (i / 32)) (Fin.ofNat 32 i))
  else if u.kind == kLink then some (.link (Fin.ofNat 12 i))
  else none

/-- The Tarn has a round that is OPEN, CLOSED or UNMASKING. -/
def roundsLive (s : State) (t : TarnIx) : Bool :=
  match tarnOf s t with
  | some n => n.rounds.any fun r => rstateLive r.state
  | none => false

/-- A GCI test that R636 refuses. -/
def testRefused (s : State) (t : TarnIx) (u : UnitId) (code : Nat) : Bool :=
  match testForm code, testRes u with
  | some f, some r =>
    !f.2.2 || !ownsRes (entryOf s t) r
      || (if u.kind == kTile then workingTiles s (u.index.toNat / 8) < 8 else roundsLive s t)
  | _, _ => true

/-- The record of a round exists (R278). -/
def roundKnown (s : State) (t : TarnIx) (rid : Nat) : Option Round :=
  match roundOf s t rid with
  | some r => if r.state == .opening then none else some r
  | none => none

/-- Item 1 of R83 for one opcode: operands out of range. CONTRIB_SUBMIT, whose order R267 gives, and the header of SUBMIT_GRAPH
stand apart. -/
def operandBad (s : State) (t : TarnIx) (e : Entry) : Bool :=
  let w := eW e
  let conf := isConf s t
  (hostRanges conf e).any (fun r => 2 ^ 64 < r.1 + r.2) || (devRanges e).any (fun r => r.2 != 0 && !inViews r.1 r.2)
    || match e.op with
      | 0x01 => 2 < w 0 || w 3 % 64 != 0 || (w 0 == 0 && 2 ^ 32 ≤ w 1)
      | 0x02 => 1 < w 2
      | 0x03 => 0xFFFF < w 0
      | 0x05 => (if conf then regionCapacity (w 2) else w 2) < 1696
      | 0x06 => 2 ^ 32 ≤ w 0 || !testOk (unitOfNum (w 0)) (w 1)
      | 0x08 => w 1 != 112
      | 0x09 => slotRangeBad (w 0)
      | 0x0A => slotRangeBad (w 0) || w 2 != 112
      | 0x10 => w 2 % 256 != 0 || 2 ^ 12 ≤ w 3 || ((eCopy e).2.2.2 && (eCopy e).2.2.1 == 0)
      | 0x11 => w 3 == 0 || 511 < w 3 || w 1 < 400
      | 0x12 => w 1 % 8 != 0 || w 1 < 8 || 2048 < w 1 || w 2 < 16 || 47 < w 2
      | 0x13 => 2 ^ 48 ≤ w 1 || 2 ^ 33 ≤ w 4 || w 3 % 8 != 0 || 32768 < w 3 || !inViews (w 0) 64 || (w 3 != 0 && !inViews (w 2) (w 3))
      | 0x14 => w 0 % 4096 != 0 || w 1 % 4096 != 0 || w 1 < 2 ^ 20 || 2 ^ 36 < w 1 || 2 ^ 32 ≤ w 2
      | 0x20 => w 1 < 352 || 2 ^ 32 + 352 ≤ w 1 || 2 ^ 40 ≤ w 3
      | 0x22 => 2 ^ 32 ≤ w 0 || w 3 < 96 * w 2
      | 0x23 => 2 ^ 32 ≤ w 0 || 1 < w 1
      | 0x24 => 2 ^ 32 ≤ w 0
      | 0x25 => 2 ^ 32 ≤ w 0
      | 0x26 => 2 ^ 32 ≤ w 0
      | 0x27 => 2 ^ 32 ≤ w 0
      | _ => false

/-- A host data range lies within the bounce area in effect (R405). -/
def inBounce (s : State) (t : TarnIx) (r : Nat × Nat) : Bool :=
  match (fnOf s t).bounce with
  | some b => b.base ≤ r.1 && r.1 + r.2 ≤ b.base + b.len
  | none => false

/-- A data operation may name the slot with its usage (R469, R482). -/
def slotFits (s : State) (t : TarnIx) (slot usage : Nat) : Bool := slotHeld s t slot && (slotOf s slot).usage == usage

/-- An earlier key command of the Tarn may still load the slot it names (R481), so the check of R469 waits for its turn. -/
def slotMayCome (s : State) (t : TarnIx) : Bool := s.tickets.any fun k => k.tarn == t && k.op == 0x08 && ticketRuns k

/-- Two device ranges share a byte, whichever view each is in (R200). -/
def devOverlap (a la b lb : Nat) : Bool :=
  if (a < viewLen) == (b < viewLen) then rangesOverlap a la b lb
  else (rangeKeys a la).any fun k => match k with
    | some key => rangeHasKey b lb key
    | none => false

/-- Device bytes that overlap a sealed region of the Tarn (R533). -/
def overlapsSealed (s : State) (t : TarnIx) (a len : Nat) : Bool :=
  match tarnOf s t with
  | some n => n.sealedRegions.any fun r => devOverlap a len r.1 r.2
  | none => false

/-- MODEL_LOAD tickets of the Tarn that live, and its sealed regions (R532). -/
def sealedCount (s : State) (t : TarnIx) : Nat :=
  (match tarnOf s t with
    | some n => n.sealedRegions.length
    | none => 0) + (s.tickets.filter fun k => k.tarn == t && k.op == 0x11).length

/-- The Tarn holds an EXPRESS slot in some beat of the bar (R34). -/
def holdsExpress (s : State) (t : TarnIx) : Bool :=
  s.table.rows.any fun r => (upto 16).any fun g => (entryOf s t).tileGroups.getLsbD g && r.tg.getD g .idle == .express

/-- The tag key that a ticket admitted now has (R536). -/
def tagKeyOf (s : State) (t : TarnIx) : Option Bytes :=
  if isConf s t then
    match (fnOf s t).bounce with
    | some b => (sessionOf s t b.session).map fun x => hkdfExpand384 x.exportSecret (ascii "GZ8-TAG-1 key") 32
    | none => none
  else (tarnOf s t).bind (·.tagKey)

/-- Item 2 of R83 for one opcode: outside the Tarn's resources or rights. -/
def rightsRefuse (s : State) (t : TarnIx) (e : Entry) : Bool :=
  let w := eW e
  let conf := isConf s t
  (e.cls == 1 && !holdsExpress s t)
    || (conf && (hostRanges conf e).any fun r => !inBounce s t r)
    || (devRanges e).any (fun r => !(rangeUnits r.1 r.2).all (unitOk s t))
    || match e.op with
      | 0x06 => testRefused s t (unitOfNum (w 0)) (w 1)
      | 0x09 => 480 < w 0 || (!slotHeld s t (w 0) && !slotMayCome s t)
      | 0x0A => 480 < w 0 || (!slotHeld s t (w 0) && !slotMayCome s t)
      | 0x10 =>
        let (srcH, dstH, slot, dec) := eCopy e
        (slot != 0 && !slotFits s t slot (if dec then 2 else 1))
          || (conf && !srcH && dstH && (slot == 0 || dec) && overlapsSealed s t (w 0) (copyLens e).1)
      | 0x11 => !slotFits s t (w 3) 2 || (conf && 64 ≤ sealedCount s t)
      | 0x14 => !conf || !(match sessionOf s t (BitVec.ofNat 32 (w 2)) with
          | some x => x.established
          | none => false)
      | 0x22 => (roundKnown s t (w 0)).isNone
      | 0x23 => (roundKnown s t (w 0)).isNone
      | 0x24 => (roundKnown s t (w 0)).isNone
      | 0x25 => (roundKnown s t (w 0)).isNone
      | 0x26 => (roundKnown s t (w 0)).isNone
      | 0x27 => (roundKnown s t (w 0)).isNone
      | _ => false

/-- CONTRIB_SUBMIT's own checks (R267, R412): the round is looked up first. -/
def contribCheck (s : State) (t : TarnIx) (e : Entry) : Option Status :=
  match (if 2 ^ 32 ≤ eW e 0 then none else roundKnown s t (eW e 0)) with
  | none => some .notPermitted
  | some r =>
    let bytes := eW e 2 * recLen r.plan
    if eW e 2 == 0 || eW e 3 < bytes then some .badCommand
    else if isConf s t && (regionCapacity (eW e 3) < bytes
        || eW e 3 < roundUp (transferBytes bytes) 64 + recBytes (eW e 2)) then some .badCommand
    else none

/-- SHARES_SUBMIT of a confidential Tarn: the region holds the entries and the OUTCOMES record (R303, R412). -/
def sharesShort (s : State) (t : TarnIx) (e : Entry) : Bool :=
  isConf s t && eW e 3 < roundUp (transferBytes (96 * eW e 2)) 64 + recBytes (eW e 2)

/-- The figure-program header of R121 in 64 bytes. -/
structure ProgHeader where
  figures : Nat
  stages : Nat
  descOff : Nat
  opsOff : Nat
  totalLen : Nat
  ok : Bool
  audit : Bool
  deriving DecidableEq, Repr

/-- Read a figure-program header (Table 03-9). -/
def progHeader (b : Bytes) : ProgHeader where
  figures := field b 4 4
  stages := field b 8 2
  descOff := field b 0x10 8
  opsOff := field b 0x18 8
  totalLen := field b 0x20 8
  ok := field b 0 2 == 1 && byteAt b 2 ≤ 1 && byteAt b 3 / 2 == 0 && field b 0x0A 6 == 0 && allZero (slice b 0x28 0x18)
  audit := bit (byteAt b 3) 0

/-- A header that R122 accepts for the operands of SUBMIT_GRAPH. -/
def progHeaderOk (s : State) (t : TarnIx) (e : Entry) (h : ProgHeader) : Bool :=
  h.ok && h.figures == bits (eW e 1) 31 0 && h.stages == bits (eW e 1) 47 32 && h.stages != 0 && h.stages ≤ h.figures
    && 64 ≤ h.totalLen && h.descOff % 64 == 0 && h.opsOff % 64 == 0 && 64 ≤ h.descOff && 64 ≤ h.opsOff
    && h.descOff + 128 * h.figures ≤ h.totalLen && h.opsOff ≤ h.totalLen && bits (eW e 4) 31 0 < h.figures
    && (h.audit || !isAudit s t)

/-- SUBMIT_GRAPH's reads and ranges (R122, R126, R202, R536): the header is read only where its bytes pass R201. -/
def graphCheck (s : State) (t : TarnIx) (e : Entry) : Option Status :=
  let a := eW e 0
  if (rangeCheck s t a 64).isSome then some .notPermitted
  else
    let h := progHeader (devRead s a 64)
    if !progHeaderOk s t e h || !inViews a h.totalLen then some .badCommand
    else if (e.cls == 1 && !holdsExpress s t) || (rangeCheck s t a h.totalLen).isSome
        || (eW e 3 != 0 && (rangeCheck s t (eW e 2) (eW e 3)).isSome) || (e.tag && (tagKeyOf s t).isNone) then some .notPermitted
    else none

/-- What SUBMIT_GRAPH's own operands settle of its rights, before its header is read (R83, R202, R536). -/
def graphRights (s : State) (t : TarnIx) (e : Entry) : Option Status :=
  if (rangeCheck s t (eW e 0) 64).isSome || (e.cls == 1 && !holdsExpress s t)
      || (eW e 3 != 0 && (rangeCheck s t (eW e 2) (eW e 3)).isSome) || (e.tag && (tagKeyOf s t).isNone) then some .notPermitted
  else none

/-- The checks of R83 items 1 and 2 on a consumed entry. The header of a SUBMIT_GRAPH that is `held` as a FENCE entry is read at its
admission and not here (R86, R122) (DEDUCED, log 23). -/
def entryCheck (s : State) (t : TarnIx) (expressQp : Bool) (e : Entry) (held : Bool := false) : Option Status :=
  match opForm e.op with
  | none => some .badCommand
  | some (classes, words) =>
    if e.reserved || !classes.contains e.cls || !classFits expressQp e || (e.ops.drop words).any (· != 0) then some .badCommand
    else if e.op == 0x21 then
      match contribCheck s t e with
      | some st => some st
      | none => if rightsRefuse s t e then some .notPermitted else none
    else if operandBad s t e || (e.op == 0x22 && sharesShort s t e) then some .badCommand
    else if e.op == 0x13 then (if held then graphRights s t e else graphCheck s t e)
    else if rightsRefuse s t e then some .notPermitted
    else none

/-! Tickets -/

/-- Host entries of the ticket table (R84). -/
def hostTickets : Nat := 16128

/-- The ticket-table index of a new ticket: a free one (R85) (DESIGN CHOICE, log 6). -/
def freeIndex (s : State) : Nat :=
  let used := s.tickets.map fun k => k.ledger.ticketId.toNat % 16384
  let start := Config.pickIndex s.nextUid
  (((upto (s.tickets.length + 1)).map fun i => (start + i) % 16384).find? fun i => !used.contains i).getD 0

/-- Take a ticket ID: the next generation of the index (R85). -/
def takeId (s : State) (ix : Nat) : BitVec 32 × State :=
  let gen := (assocGet ix s.gens).getD 0
  let next := if gen == 0x3FFFE then 0 else gen + 1
  (BitVec.ofNat 32 (gen * 16384 + ix), { s with gens := assocPut ix next s.gens })

/-- Opcodes whose ledger record names a round (Table 02-10). -/
def namesRound (op : Nat) : Bool := (0x21 ≤ op && op ≤ 0x24) || op == 0x27

/-- Ledger figures of an entry known at admission (Table 13-4). -/
def figuresTotalOf (e : Entry) : Nat :=
  match e.op with
  | 0x10 => cdiv (eW e 2) (2 ^ 20)
  | 0x13 => bits (eW e 1) 31 0
  | 0x21 => eW e 2
  | 0x22 => eW e 2
  | _ => 0

/-- The ledger record of a new ticket (R87). -/
def newLedger (s : State) (q : QpIx) (e : Entry) (id : BitVec 32) : LedgerRec where
  ticketId := id
  uid := s.nextUid
  commandId := e.commandId
  qp := q
  cls := (classOf e.cls).getD .steady
  restartable := e.op == 0x13 && bit (eW e 4) 32
  figuresTotal := figuresTotalOf e
  figuresDone := if e.op == 0x13 then bits (eW e 4) 31 0 else 0
  admitBeat := s.beat
  commitBeat := s.beat
  basinRound := if namesRound e.op then eW e 0 else 0

/-- Stage of a figure from its descriptor (Table 03-10). -/
def descStage (s : State) (base descOff n : Nat) : Nat := leNat (devRead s (base + descOff + 128 * n) 2)

/-- The program of a SUBMIT_GRAPH ticket (R90, R121, R126). -/
def newGraph (s : State) (e : Entry) : Graph :=
  let a := eW e 0
  let h := progHeader (devRead s a 64)
  let first := bits (eW e 4) 31 0
  { base := a, figures := h.figures, stages := h.stages, descOff := h.descOff, opsOff := h.opsOff, totalLen := h.totalLen
    args := devRead s (eW e 2) (eW e 3), first, next := first }

/-- The host reads that a command starts with; those of CONTRIB_SUBMIT wait for staging slots (R265). -/
def firstReads (s : State) (k : Ticket) (e : Entry) : List DmaChunk :=
  let w := eW e
  match e.op with
  | 0x02 => hostReads s k (w 0) (w 1)
  | 0x05 => hostReads s k (w 0) 32
  | 0x08 => hostReads s k (w 0) 112
  | 0x0A => hostReads s k (w 1) 112
  | 0x10 =>
    let (srcH, dstH, slot, dec) := eCopy e
    if !srcH || w 2 == 0 then []
    else if slot == 0 then
      if dstH then hostReads s k (w 0) (w 2)
      else if isConf s k.tarn then hostReadsTo s k (w 0) (w 2) (w 1)
      else hostReads s k (w 0) (w 2) (some (w 1))
    else if !dec then (hostReads s k (w 0) (w 2)).map (copyWhole k)
    else if isConf s k.tarn then (hostChunks (w 0) 32).map (copyWhole k)
    else (hostChunks (w 0) 128).map (copyWhole k)
  | 0x11 => hostReads s k (w 0) (w 1)
  | 0x20 => hostReads s k (w 0) (w 1)
  | 0x21 => hostReads s k (w 1) (w 2 * k.stage)
  | 0x27 => hostReads s k (w 1) (w 2)
  | _ => []

/-- The memory that SUBMIT_GRAPH reads at admission cannot be read (R218, R579). -/
def graphLost (s : State) (e : Entry) : Bool :=
  let lost := fun (a n : Nat) => n != 0 && (poisoned s a n || touchesRetired s a n)
  e.op == 0x13 && (lost (eW e 0) 64 || lost (eW e 2) (eW e 3))

/-- The Tarn's ticket quota: what the operator has set, and 2,048 while the index has no Tarn (R12, R84, Table 02-2). -/
def quotaOf (s : State) (t : TarnIx) : Nat := if live s t then (entryOf s t).quota else 2048

/-- Create the ticket of an entry that passed its checks: its ledger record is readable at once, and its first host read goes
out, stamped with the coming beat (R83, R87, R439). The figure descriptors are not read (R122, R124), so the record's STAGES_DONE is 0
until a step 2 rewrites it (DEDUCED, log 79). -/
def createTicket (s : State) (t : TarnIx) (q : QpIx) (e : Entry) : Nat × State :=
  let uid := s.nextUid
  let (id, s) := takeId s (freeIndex s)
  let k : Ticket := {
    uid, tarn := t, op := e.op, ops := e.ops, tag := e.tag && e.op == 0x13, ledger := newLedger s q e id
    bounce := (fnOf s t).bounce, tagKey := if e.tag && e.op == 0x13 then tagKeyOf s t else none
    graph := if e.op == 0x13 then some (newGraph s e) else none
    authKeys := match tarnOf s t with
      | some n => if e.op == 0x20 then n.authKeys else []
      | none => []
    faults := if graphLost s e then [.dataLost] else []
    stage := if e.op == 0x21 then (match roundOf s t (eW e 0) with
      | some r => recLen r.plan
      | none => 0) else 0 }
  let k := { k with need := firstReads s k e }
  let s := { s with nextUid := uid + 1, tickets := s.tickets ++ [k] }
  (uid, if e.op == 0x21 then s else pumpDma s (s.beat + 1) uid)

end Sys2Proof.Machine
end

