-- ==== Sys2Proof/Machine/Posting.lean ====
section
/-! DEFINITION. Steps 2 and 3 of the seam for tickets: ledger commits, completions in ring order, result tags, interrupts, and the
release of ticket-table entries (R26, R85, R88 to R95, R102, R536 to R538, R569, R570, R603). -/

namespace Sys2Proof.Machine

/-- A status with which a ticket does not fail. -/
def endsWell (st : Status) : Bool := st == .ok || st == .partialRead || st == .staged

/-- The record's outcome is committed. -/
def settled (k : Ticket) : Bool := k.ledger.state == .complete || k.ledger.state == .failed

/-- STAGES_DONE of a graph (Table 02-10): the stage of the first figure that has not committed. -/
def stagesOf (s : State) (gr : Graph) : Nat :=
  if gr.figures ≤ firstOpen gr then gr.stages else descStage s gr.base gr.descOff (firstOpen gr)

/-- Progress fields of a ticket's record, per command (R570, R702). -/
def progressOf (s : State) (k : Ticket) : LedgerRec :=
  let l := k.ledger
  let well := match k.final with
    | some c => endsWell c.status
    | none => false
  match k.op with
  | 0x10 =>
    let counted := if well then l.figuresTotal else k.cursor / 2 ^ 20
    let bytes := if well then k.cursor else counted * 2 ^ 20
    { l with figuresDone := counted, extentBase := if bytes == 0 then 0 else opW k 1, extentLen := bytes }
  | 0x11 => { l with figuresDone := k.accepted, extentBase := if k.cursor == 0 then 0 else opW k 2, extentLen := k.cursor }
  | 0x13 => match k.graph with
    | some gr => { l with stagesDone := stagesOf s gr }
    | none => l
  | 0x21 => { l with figuresDone := k.outcomes.length, basinAccepted := k.accepted }
  | 0x22 => { l with figuresDone := k.outcomes.length }
  | _ => l

/-- A range becomes a sealed region of a confidential Tarn; regions it overlaps cease to be sealed (R532). -/
def sealRegion (s : State) (t : TarnIx) (a len : Nat) : State :=
  if isConf s t then
    modTarn s t fun n => { n with sealedRegions := (n.sealedRegions.filter fun r => !devOverlap a len r.1 r.2) ++ [(a, len)] }
  else s

/-- What a command does at the commit of its success: a micro-program load takes effect, a bounce area is set, a model's
destination is sealed, a replacement completes once its commit beat has passed (R176, R404, R490, R532). -/
def beforeCommit (s : State) (k : Ticket) : State :=
  if !k.faults.isEmpty then s
  else match k.final with
    | none =>
      if k.op == 0x12 && k.stage == 1 then commitMicroprog s k
      else if k.op == 0x0A && k.stage == 2 && k.cursor < s.beat then finishTicket s k.uid (opW k 0) k.cursor
      else s
    | some c =>
      if c.status != .ok then s
      else if k.op == 0x14 then commitBounce s k
      else if k.op == 0x11 then sealRegion s k.tarn (opW k 2) k.cursor
      else s

/-- RESULT0 of a completion: what the command gives, and FIGURES_DONE where the ticket failed (R90), but for a self-test, whose signature
R635 gives with every status. -/
def result0Of (k : Ticket) (c : Comp) (done : Nat) : BitVec 32 :=
  if endsWell c.status || k.op == 0x06 then c.result0 else BitVec.ofNat 32 done

/-- Commit the record of a ticket in step 2 (R87, R88, R569): its outcome where it has one, else its progress. -/
def commitRecord (beat : Nat) (l : LedgerRec) (k : Ticket) : Ticket :=
  let l := { l with commitBeat := beat }
  match worstFault k.faults with
  | some st => { k with
      dirty := false, need := [], dma := none
      final := some { status := st, progress := true, overrunSeen := l.overrunSeen, result0 := BitVec.ofNat 32 l.figuresDone }
      ledger := { l with state := .failed, status := st } }
  | none => match k.final with
    | some c => { k with
        dirty := false
        final := some { c with progress := !endsWell c.status, overrunSeen := l.overrunSeen, result0 := result0Of k c l.figuresDone }
        ledger := { l with state := if endsWell c.status then .complete else .failed, status := c.status } }
    | none => { k with dirty := false, ledger := { l with state := .running } }

/-- Step 2 for one ticket. -/
def commitTicket (s : State) (uid : Nat) : State :=
  match ticketOf s uid with
  | none => s
  | some k =>
    if settled k then s
    else
      let s := beforeCommit s k
      match ticketOf s uid with
      | none => s
      | some k =>
        if k.dirty || k.final.isSome || !k.faults.isEmpty then modTicket s uid (commitRecord s.beat (progressOf s k)) else s

/-- Step 2 for every ticket, in admission order. -/
def commitTickets (s : State) : State := (s.tickets.map (·.uid)).foldl commitTicket s

/-! Posting -/

/-- Result tag of a ticket (R537). -/
def resultTag (k : Ticket) (key : Bytes) (beat : Nat) : Bytes :=
  let l := k.ledger
  (hmac384 key (ascii "GZ8-TAG-1" ++ leBytes 1 k.tarn ++ leBytes 4 l.ticketId.toNat ++ leBytes 2 l.commandId.toNat
    ++ leBytes 4 l.figuresDone ++ leBytes 8 l.admitBeat ++ leBytes 8 beat ++ leBytes 8 l.extentBase ++ leBytes 8 l.extentLen
    ++ k.buf)).take 8

/-- The completion of a ticket whose outcome is committed, posted in the seam of `beat` (R74, R76, R538). -/
def compOf (k : Ticket) (beat : Nat) : Comp :=
  let c := (k.final.getD { status := .abortedByRecovery })
  let c := { c with ticketId := k.ledger.ticketId }
  match k.tag && c.status == .ok, k.tagKey with
  | true, some key => { c with tagValid := true, result1 := BitVec.ofNat 64 (leNat (resultTag k key beat)) }
  | _, _ => c

/-- FLAGS of a completion entry (Table 02-7). -/
def compFlags (p : Qp) (c : Comp) : Nat :=
  phaseBit (qpDepth p) p.cqTail + 4 * b2n c.progress + 8 * b2n c.tagValid + 16 * b2n c.overrunSeen

/-- Release the ticket-table entry of a ticket; the ledger keeps its record (R85, R89). -/
def releaseTicket (s : State) (uid : Nat) : State :=
  match ticketOf s uid with
  | none => s
  | some k =>
    let s := modTarn s k.tarn fun n => { n with ledger := (k.ledger :: n.ledger).take 8192 }
    let s := modFn s k.tarn fun f => { f with recovering := f.recovering.filter (· != uid) }
    { s with tickets := s.tickets.filter fun x => x.uid != uid }

/-- Post one completion: written, or withheld where it cannot be (R75, R95, R102, R391). -/
def postComp (s : State) (t : TarnIx) (q : QpIx) (x : PostItem) (c : Comp) (fails : Bool) : State :=
  let p := qpOf s t q
  let s := modQp s t q fun p => { p with order := p.order.drop 1 }
  if p.withhold then s
  else if fails || !issues (fnOf s t) then modQp s t q fun p => { qpFault p 3 with withhold := true }
  else
    let e := compBytes x.commandId.toNat c.status (compFlags p c) p.sqHead.toNat c.ticketId c.result0.toNat s.beat c.result1.toNat
    let s := writeEntry s t p.cqBase.toNat (qpDepth p) p.cqTail e
    modQp s t q fun p => { p with
      cqTail := p.cqTail + 1
      counted := if p.irqEn then p.counted ++ [{ beat := s.beat, irqNow := x.irqNow }] else p.counted }

/-- The completion of the oldest entry of a queue pair, if it may be posted. -/
def headComp (s : State) (x : PostItem) : Option Comp :=
  match x.comp, x.uid with
  | some c, _ => some c
  | none, some uid => match ticketOf s uid with
    | some k => if settled k then some (compOf k s.beat) else none
    | none => some { status := .abortedByRecovery, progress := true }
  | none, none => none

/-- Post the completions of a queue pair in ring order (R91), as long as the oldest entry passes `may`; `fuel` bounds them. -/
def postQp (may : PostItem → Bool) (t : TarnIx) (q : QpIx) (fails : Bool) : Nat → State → State
  | 0, s => s
  | fuel + 1, s => match (qpOf s t q).order with
    | [] => s
    | x :: _ => match if may x then headComp s x else none with
      | none => s
      | some c =>
        let s := postComp s t q x c fails
        postQp may t q fails fuel (match x.uid with
          | some uid => releaseTicket s uid
          | none => s)

/-- Post the completions of a Tarn. -/
def postTarn (s : State) (cqFail : List (TarnIx × QpIx)) (t : TarnIx) (may : PostItem → Bool := fun _ => true) : State :=
  (List.finRange 64).foldl (fun s q => postQp may t q (cqFail.contains (t, q)) (qpOf s t q).order.length s) s

/-- A ticket is in no ring order: an FLR has reset its queue pair (R392). -/
def orphan (s : State) (k : Ticket) : Bool := !((fnOf s k.tarn).qps.any fun p => p.order.any fun x => x.uid == some k.uid)

/-- Step 3 (R26): post, and release the tickets that end without a completion. -/
def postAll (s : State) (cqFail : List (TarnIx × QpIx)) : State :=
  let s := allTarns.foldl (fun s t => postTarn s cqFail t) s
  ((s.tickets.filter fun k => settled k && orphan s k).map (·.uid)).foldl releaseTicket s

/-! Interrupts -/

/-- A queue pair owes an interrupt (R95). -/
def owesIrq (beat : Nat) (p : Qp) : Bool :=
  p.irqEn && !p.counted.isEmpty && (max 1 p.coalCount.toNat ≤ p.counted.length
    || p.counted.any fun c => c.irqNow || c.beat + p.coalBeats.toNat ≤ beat)

/-- Interrupts of a function: one message per vector, in vector order (R95). -/
def raiseIrqs (s : State) (t : TarnIx) : State :=
  let owed := (List.finRange 64).filter fun q => owesIrq s.beat (qpOf s t q)
  let vectors := (upto 64).filter fun v => owed.any fun q => (qpOf s t q).vector.toNat == v
  let s := vectors.foldl (fun s v => sendVector s t v) s
  owed.foldl (fun s q => modQp s t q fun p => { p with counted := [] }) s

/-- Interrupts of all functions, after the completions have been written (R96). -/
def raiseAll (s : State) : State := allTarns.foldl raiseIrqs s

end Sys2Proof.Machine
end

