-- ==== Sys2Proof/Machine/Rounds.lean ====
section
/-! DEFINITION. Basin rounds: opening, records, close, release, refusal, abort, status and certificates (R245 to R295). -/

namespace Sys2Proof.Machine

/-! Messages among the members of a combined round -/

/-- The link and the device number that lead a message of the Tarn to the device with a serial number (R339, R365). -/
def linkTo (s : State) (t : TarnIx) (serial : Bytes) : Option (LinkIx × Nat) :=
  match numberOf s serial with
  | some d => (routeFor s t d).map fun n => (n, d)
  | none => none

/-- Body of a notice of a combined round (DESIGN CHOICE, log 55). -/
def noteBody (s : State) (t : TarnIx) (r : Round) : Bytes :=
  leBytes 1 t ++ zeros 3 ++ leBytes 4 r.plan.roundId ++ deviceSerial s ++ r.plan.planDigest ++ r.plan.combineDigest

/-- Send a confirmation (1), close (2), release (3) or abort (4) of a combined round on VC 0 to the other members, over as many links as
lead there (R280, R281, R295) (DESIGN CHOICE, log 55). -/
def combineNote (s : State) (t : TarnIx) (r : Round) (kind : Nat) : State :=
  if !r.plan.combined then s
  else (r.members.filter fun m => m.serial != deviceSerial s).foldl (fun s m => match linkTo s t m.serial with
    | some (n, d) => sendMessage s n 0 0 (linkMsg s kind d (noteBody s t r))
    | none => s) s

/-- A notice of a kind with a round ID and digests waits on a link, from the device `serial` where that is given (DESIGN CHOICE, log 56). -/
def noteWaiting (s : State) (kind rid : Nat) (plan comb : Bytes) (serial : Option Bytes) : Option (LinkIx × InMsg) :=
  waitingMsg s fun m => m.vc == 0 && byteAt m.bytes 0 == kind && byteAt m.bytes 1 == s.timing.deviceNo.val && field m.bytes 8 4 == rid
    && slice m.bytes 28 48 == plan && slice m.bytes 76 48 == comb && (match serial with
      | some x => slice m.bytes 12 16 == x
      | none => true)

/-- Take a message from a link's inbox: it is acted on once (R351). -/
def takeMsg (s : State) (x : LinkIx × InMsg) : State := modLink s x.1 fun l => { l with inbox := l.inbox.erase x.2 }

/-- The bitmap of contributors `first` to `first + n - 1`: bit i in bit i mod 8 of byte i / 8 (R276). -/
def bitmapOf (l : List Nat) (first n : Nat) : Bytes :=
  (upto (cdiv n 8)).map fun b => BitVec.ofNat 8 (((upto 8).filter fun j => 8 * b + j < n && l.contains (first + 8 * b + j)).map
    fun j => 2 ^ j).sum

/-- Contributors whose bits are set. -/
def bitsOf (b : Bytes) (first n : Nat) : List Nat := ((upto n).filter fun i => bit (byteAt b (i / 8)) (i % 8)).map (first + ·)

/-! Moves -/

/-- A round counts as open until its hold is lifted (R248, R284). -/
def roundHeld (r : Round) : Bool := r.state == .opening || rstateLive r.state || r.scrubbing || r.holdOn

/-- Write the ROUND event of a move (R268). -/
def tallyMove (s : State) (t : TarnIx) (r : Round) (dst : RState) (st : Status) (certDigest : Bytes) : State :=
  tally s 0x0040 2 t false st
    (leBytes 4 r.plan.roundId ++ leBytes 1 (rstateCode r.state) ++ leBytes 1 (rstateCode dst) ++ zeros 2 ++ r.plan.planDigest
      ++ leBytes 4 r.accepted.length ++ leBytes 4 r.floorApplied ++ certDigest)

/-- Move a round, with its Tally entry. -/
def moveRound (s : State) (t : TarnIx) (rid : Nat) (dst : RState) (st : Status) (certDigest : Bytes := zeros 48) : State :=
  match roundOf s t rid with
  | none => s
  | some r => modRound (tallyMove s t r dst st certDigest) t rid fun r => { r with state := dst }

/-- Post the advisory of a round event (R277). -/
def roundEvent (s : State) (t : TarnIx) (rid code : Nat) (st : Status) : State :=
  match roundOf s t rid with
  | some r => adviseRound s t r code st
  | none => s

/-- Running Basin tickets that name a round. -/
def roundTickets (s : State) (t : TarnIx) (rid op : Nat) : List Ticket :=
  s.tickets.filter fun k => k.tarn == t && k.op == op && ticketRuns k && opW k 0 == rid

/-- Put a round that reached its end behind the others, and drop the oldest ended rounds beyond 1,024 (R278). -/
def retireRound (s : State) (t : TarnIx) (rid : Nat) : State :=
  modTarn s t fun n =>
    let l := (n.rounds.filter fun r => r.plan.roundId != rid) ++ n.rounds.filter fun r => r.plan.roundId == rid
    let ended := l.filter fun r => !rstateLive r.state && r.state != .opening
    let old := (ended.take (ended.length - 1024)).map fun r => r.plan.roundId
    { n with rounds := l.filter fun r => !old.contains r.plan.roundId || roundHeld r }

/-! Outcomes of records and shares -/

/-- Write the OUTCOMES record of a confidential Tarn's ticket (R412): one status byte per entry in buffer order. -/
def writeOutcomes (s : State) (k : Ticket) (unit : Nat) : Except Status Unit × State :=
  let n := opW k 2
  let sts := (upto n).map fun m => BitVec.ofNat 8 (match assocGet m k.outcomes with
    | some st => statusCode st
    | none => 0)
  hostOut s k 1 (opW k 1 + roundUp (transferBytes (n * unit)) 64) sts 2

/-- An entry of a CONTRIB_SUBMIT or SHARES_SUBMIT ticket has its outcome: the STATUS byte is written on a standard Tarn, and the
ticket completes with the last one (R266, R306, R412). `unit` is the bytes of an entry. -/
def entryOutcome (s : State) (uid m unit : Nat) (st : Status) : State :=
  match ticketOf s uid with
  | none => s
  | some k =>
    if !ticketRuns k then s
    else
      let (e, s) := if isConf s k.tarn then (.ok (), s)
        else hostOut s k 1 (opW k 1 + m * unit + 3) [BitVec.ofNat 8 (statusCode st)]
      let ok := st == .ok
      let k' := { k with outcomes := k.outcomes ++ [(m, st)], accepted := k.accepted + b2n ok, refused := k.refused + b2n (!ok),
                         dirty := true }
      let s := modTicket s uid fun _ => k'
      match e with
      | .error er => failTicket s uid er
      | .ok _ =>
        if k'.outcomes.length < opW k 2 then s
        else
          let (e, s) := if isConf s k.tarn then writeOutcomes s k' unit else (.ok (), s)
          match e with
          | .error er => failTicket s uid er
          | .ok _ => answerTicket s uid .ok k'.accepted k'.refused

/-- The outcome of a record goes back the way the record came (R266, R359). -/
def recOutcome (s : State) (src : Option RecSource) (unit rid c : Nat) (st : Status) : State :=
  match src with
  | some (.ticket uid m) => entryOutcome s uid m unit st
  | some (.link n) => if (linkOf s n).state == .up then sendOutcome s n rid c st else s
  | none => s

/-! Opening -/

/-- The plan is signed by one of the round-authority keys (R246, R248 item 2). -/
def planSigned (keys : List Bytes) (b : Bytes) : Bool :=
  keys.any fun key => (sha384 key).take 16 == slice b 0x90 16
    && ecdsaVerify key (sha384 (b.take (b.length - 96))) (b.drop (b.length - 96))

/-- Item 6 of R248. -/
def regionOk (s : State) (t : TarnIx) (n : Tarn) (p : Plan) (rosterLen : Nat) : Bool :=
  let units := (upto p.units).map (p.u0 + ·)
  let all := s.tarns.filterMap id
  let held := (all.map fun n => (n.rounds.filter roundHeld).length).sum
  let staged := (all.map fun n => (n.rounds.map fun r => if roundHeld r then (r.roster.map List.length).sum else 0).sum).sum
  (entryOf s t).lanes != 0 && (units.all fun u => (upto 8).all fun st => (entryOf s t).memUnits.getLsbD (32 * st + u))
    && (n.rounds.all fun r => !roundHeld r || r.plan.u0 + r.plan.units ≤ p.u0 || p.u0 + p.units ≤ r.plan.u0)
    && held < 64 && staged + rosterLen ≤ 2 ^ 33

/-- The checks of R248 with the plan and the roster read, and the opening of the round. -/
def openChecked (s : State) (k : Ticket) (raw : Bytes) (p : Plan) (roster : Bytes) : State :=
  match tarnOf s k.tarn with
  | none => s
  | some n =>
    let refuse := fun (st : Status) => answerTicket s k.uid st 0 0
    if !planSigned k.authKeys raw then refuse .notPermitted
    else if n.highestRound == 0xFFFFFFFF then refuse .counterExhausted
    else if p.roundId ≤ n.highestRound then refuse .notPermitted
    else if opW k 3 != 0 && sha384 roster != p.rosterDigest then refuse .notPermitted
    else if !regionOk s k.tarn n p roster.length then refuse .notPermitted
    else if !headroomOk raw && byteAt raw 6 == 0 then refuse .headroom
    else
      let r : Round := { plan := p, openUid := some k.uid, headroomWarned := !headroomOk raw, fOpOpen := n.opFloor,
                         roster := chunks (rosterEntry p.kex) roster, isLeader := !p.combined || opW k 3 != 0 }
      let s := modTarn s k.tarn fun n => { n with rounds := n.rounds ++ [r], highestRound := p.roundId }
      let s := modTicket s k.uid fun k => { k with stage := 2, ledger := { k.ledger with basinRound := p.roundId } }
      { s with pendRules := s.pendRules ++ [.hold k.tarn p.roundId] }

/-- ROUND_OPEN (R248): the plan is read and checked, then the roster. -/
def serveRoundOpen (s : State) (k : Ticket) : State :=
  if k.stage == 0 then
    match plainOf s k 0 (opW k 1) k.buf with
    | (.error st, s) => failTicket s k.uid st
    | (.ok raw, s) => match planOf raw with
      | none => answerTicket s k.uid .badCommand 0 0
      | some p =>
        let whole := p.n * rosterEntry p.kex
        if opW k 3 != whole && !(p.combined && opW k 3 == 0) then answerTicket s k.uid .badCommand 0 0
        else if opW k 3 == 0 then openChecked s k raw p []
        else
          let s := modTicket s k.uid fun k => { k with stage := 1, plain := raw, buf := [] }
          fetchHost s k.uid (hostReads s k (opW k 2) (opW k 3))
  else if k.stage == 1 then
    match planOf k.plain, plainOf s k 2 (opW k 3) k.buf with
    | some p, (.ok roster, s) => openChecked s k k.plain p roster
    | _, (.error st, s) => failTicket s k.uid st
    | none, _ => s
  else s

/-- ROUND_OPEN. -/
def execRoundOpen (uid : Nat) (s : State) : Host.Outcome State Fault Refusal := .next (serve s uid 0x20 serveRoundOpen)

/-- A hold's drained beat (R255): accumulator and mirror are zeroed and every staging slot is free. -/
def zeroRound (s : State) (t : TarnIx) (rid : Nat) : State :=
  match roundOf s t rid with
  | none => s
  | some r =>
    if r.state == .opening && r.slots.isEmpty then
      modRound (zeroImages s r.plan 0 (1 + b2n r.plan.mirror)) t rid fun r => { r with slots := List.replicate r.plan.slots {} }
    else s

/-- Step 2 after the hold's drained beat (R255): the round becomes OPEN. -/
def becomeOpen (s : State) (t : TarnIx) (rid : Nat) : State :=
  match roundOf s t rid with
  | none => s
  | some r =>
    if r.state == .opening && !r.slots.isEmpty then
      let s := moveRound s t rid .isOpen .ok
      let s := modRound s t rid fun r => { r with openBeat := s.beat }
      let s := if r.headroomWarned then roundEvent s t rid 1 .headroom else s
      match r.openUid with
      | some uid => finishTicket s uid rid 0
      | none => s
    else s

/-- ROUND_OPENED (R255). -/
def execRoundOpened (t : TarnIx) (round : BitVec 32) (s : State) : Host.Outcome State Fault Refusal :=
  .next (if running s then becomeOpen s t round.toNat else s)

/-! Records -/

/-- One step of moving a CONTRIB_SUBMIT ticket's plaintext into staging slots (R261, R265, R267); none when nothing can move. A
record's bytes wait while its lane has no BASIN slot (R242), or its stack is in thermal hold (R236). A record of a round that is not
OPEN takes no slot and is refused once it is whole. -/
def contribStep (s : State) (uid : Nat) : Option State :=
  match ticketOf s uid with
  | none => none
  | some k =>
    let unit := k.stage
    let rid := opW k 0
    let used := k.taken - k.plain.length
    let m := used / unit
    let off := used % unit
    let n := min (unit - off) k.plain.length
    let b := k.plain.take n
    if unit == 0 || n == 0 || opW k 2 ≤ m || !ticketRuns k then none
    else match roundOf s k.tarn rid with
      | none => none
      | some r =>
        let drop := fun (s : State) (n : Nat) => modTicket s uid fun k => { k with plain := k.plain.drop n }
        let src := some (RecSource.ticket uid m)
        if off != 0 then
          match r.slots.zipIdx.find? fun x => x.1.src == src && x.1.state != .free with
          | some x => if (basinLanes s k.tarn).contains x.1.lane && !imagesHeld s then some (fillSlot (drop s n) k.tarn rid x.2 b) else none
          | none => some (drop s n)
        else if r.state == .isOpen then
          match freeSlot s k.tarn r with
          | some (i, lane) => some (fillSlot (modSlotOf (drop s n) k.tarn rid i { src, lane, state := .receiving [] s.beat }) k.tarn rid i b)
          | none => none
        else if n == unit then some (entryOutcome (drop s n) uid m unit (recVerdict s k.tarn r.plan b))
        else none

/-- Move while something can move; `fuel` bounds the steps. -/
def contribSteps (uid : Nat) : Nat → State → State
  | 0, s => s
  | fuel + 1, s => match contribStep s uid with
    | none => s
    | some s' => contribSteps uid fuel s'

/-- Intake of a CONTRIB_SUBMIT ticket: what has arrived goes to staging slots, and the next host read goes out unless a record
waits for a slot or for its lane (R260, R265). Only in a BASIN slot of a lane of the Tarn (R242). -/
def serveContrib (s : State) (k : Ticket) : State :=
  if !basinNow s k.tarn then s
  else
    let s := takePlain s k.uid 1 (opW k 2 * k.stage)
    match ticketOf s k.uid with
    | none => s
    | some k =>
      let s := contribSteps k.uid (2 * (k.plain.length / max 1 k.stage) + 4) s
      match ticketOf s k.uid with
      | none => s
      | some k' =>
        let waits := !k'.plain.isEmpty && ((k'.taken - k'.plain.length) % max 1 k'.stage != 0
          || (match roundOf s k'.tarn (opW k' 0) with
            | some r => r.state == .isOpen
            | none => false))
        if waits then s else pumpDma s s.beat k.uid

/-- CONTRIB_SUBMIT (R267). -/
def execContribSubmit (uid : Nat) (s : State) : Host.Outcome State Fault Refusal :=
  .next (serveRunning s uid 0x21 serveContrib)

/-- Check and claim the record in a staging slot (R261, R262). A record that names another round of the Tarn than the one its source
named is checked against that round, and moves to a staging slot of it (DEDUCED, log 86). -/
def arriveSlot (s : State) (t : TarnIx) (rid i : Nat) : State :=
  match roundOf s t rid with
  | none => s
  | some r =>
    let x := r.slots.getD i {}
    match x.state with
    | .arrived b =>
      let y := field b 4 4
      let c := field b 8 4
      match recVerdict s t r.plan b with
      | .ok =>
        if y == rid then modSlotOf s t rid i { x with state := .folding c b }
        else match roundOf s t y with
          | none => s
          | some ry => match freeSlot s t ry with
            | none => s
            | some (j, _) => modSlotOf (stageVector (clearSlot s t rid i x) ry.plan j b) t y j { x with state := .folding c b }
      | st => recOutcome (clearSlot s t rid i x) x.src (recLen r.plan) y c st
    | _ => s

/-- The lane of a staging slot works in this beat (R242). -/
def slotActive (s : State) (t : TarnIx) (rid i : Nat) : Bool :=
  match roundOf s t rid with
  | some r => (basinLanes s t).contains (r.slots.getD i {}).lane
  | none => false

/-- The record in a staging slot is the oldest that waits at the acceptance point of the round it names (R262). -/
def firstArrived (s : State) (t : TarnIx) (rid i : Nat) : Bool :=
  match roundOf s t rid, tarnOf s t with
  | some r, some n => match (r.slots.getD i {}).state with
    | .arrived b => (arrivedFor n (field b 4 4)).head? == some (rid, i)
    | _ => false
  | _, _ => false

/-- RECORD_ARRIVAL (R261, R262). -/
def execRecordArrival (t : TarnIx) (round : BitVec 32) (slot : Nat) (s : State) : Host.Outcome State Fault Refusal :=
  .next (if running s && fwUp s && slotActive s t round.toNat slot && firstArrived s t round.toNat slot then arriveSlot s t round.toNat slot else s)

/-- Fold a claimed record's image into the accumulator and after it into the mirror, log it and free its slot (R263). -/
def foldSlot (s : State) (t : TarnIx) (rid i : Nat) : State :=
  match roundOf s t rid with
  | none => s
  | some r =>
    let x := r.slots.getD i {}
    match x.state with
    | .folding c _ =>
      if rstateLive r.state then
        let s := imgAdd s r.plan false (stagedWords s r.plan i)
        modRound s t rid fun r => { r with slots := r.slots.set i {}, foldLog := r.foldLog ++ [(c, x.src)] }
      else s
    | _ => s

/-- FOLD_COMPLETE (R263): in a beat in which the slot's lane works (R242), and not while a stack is in thermal hold (R236). -/
def execFoldComplete (t : TarnIx) (round : BitVec 32) (slot : Nat) (s : State) : Host.Outcome State Fault Refusal :=
  .next (if running s && slotActive s t round.toNat slot && !imagesHeld s then foldSlot s t round.toNat slot else s)

/-- Commit the fold log in step 2 (R263): bits, the tickets' counts, and OK outcomes. -/
def commitFolds (s : State) (t : TarnIx) (rid : Nat) : State :=
  match roundOf s t rid with
  | none => s
  | some r =>
    if r.foldLog.isEmpty then s
    else
      let s := modRound s t rid fun r => { r with
        accepted := r.foldLog.foldl (fun l x => insertNat x.1 l) r.accepted, foldLog := [], lastCommit := s.beat,
        lastActive := some s.beat }
      r.foldLog.foldl (fun s x => recOutcome s x.2 (recLen r.plan) rid x.1 .ok) s

/-- A record that has received no byte for STAGE_TIMEOUT beats is discarded (R265). -/
def stageExpire (s : State) (t : TarnIx) (rid i : Nat) : State :=
  match roundOf s t rid with
  | none => s
  | some r =>
    let x := r.slots.getD i {}
    match x.state with
    | .receiving b last =>
      if last + r.plan.stageTimeout ≤ s.beat then
        recOutcome (clearSlot s t rid i x) x.src (recLen r.plan) rid (partContrib s rid i x b) .timeout
      else s
    | _ => s

/-- STAGE_TIMEOUT (R265). -/
def execStageTimeout (t : TarnIx) (round : BitVec 32) (slot : Nat) (s : State) : Host.Outcome State Fault Refusal :=
  .next (if running s then stageExpire s t round.toNat slot else s)

/-! INTAKE records -/

/-- Bytes of the record that a partial record is part of: the plan's, or those its own header states. -/
def partTotal (s : State) (t : TarnIx) (q : IntakePart) : Nat :=
  match roundOf s t q.round with
  | some r => recLen r.plan
  | none => if q.held.length < 64 then 64 else 64 + roundUp (field q.held 0x10 8) 64

/-- What a whole record that has no staging slot is answered with (R261): its own fields are checked where no round of the Tarn gives a
plan to check them against. -/
def looseVerdict (s : State) (t : TarnIx) (q : IntakePart) : Status :=
  let b := q.held
  match roundOf s t q.round with
  | some r => recVerdict s t r.plan b
  | none => if field b 0 2 != 1 || 2 < byteAt b 2 || byteAt b 3 != 0 || !allZero (slice b 0x1C 0x24)
        || crc32c (slice b 64 (field b 0x10 8)) != field b 0x18 4 then .badCommand
    else .notPermitted

/-- Change a partial record of a link. -/
def setPart (s : State) (n : LinkIx) (q q' : IntakePart) : State :=
  modLink s n fun l => { l with parts := l.parts.map fun x => if x == q then q' else x }

/-- Remove a partial record of a link. -/
def dropPart (s : State) (n : LinkIx) (q : IntakePart) : State := modLink s n fun l => { l with parts := l.parts.erase q }

/-- Bytes held for a record that has its staging slot go there (R242, R261). -/
def streamPart (s : State) (n : LinkIx) (t : TarnIx) (q : IntakePart) (i : Nat) : State :=
  if q.held.isEmpty || imagesHeld s || !slotActive s t q.round i then s
  else
    let whole := partTotal s t q ≤ q.got
    let s := fillSlot s t q.round i q.held
    if whole then dropPart s n q else setPart s n q { q with held := [] }

/-- Move a partial record on, in a beat in which a lane of the Tarn works (R242): it takes a staging slot of its OPEN round when one is
free, and its bytes go there; a whole record of a round that is not OPEN is answered. One whose header names another round that would
take it waits for a slot of that round. -/
def pumpPart (s : State) (t : TarnIx) (x : LinkIx × IntakePart) : State :=
  let (n, q) := x
  if !basinNow s t then s
  else match q.slot with
    | some i => streamPart s n t q i
    | none =>
      let opened : Bool := match roundOf s t q.round with
        | some r => r.state == .isOpen
        | none => false
      if opened then
        match (roundOf s t q.round).bind (freeSlot s t) with
        | some (i, lane) =>
          let q' := { q with slot := some i }
          streamPart (setPart (modSlotOf s t q.round i { src := some (.link n), lane, state := .receiving [] q.last }) n q q') n t q' i
        | none => s
      else if partTotal s t q ≤ q.got then
        match looseVerdict s t q with
        | .ok => setPart s n q { q with round := field q.held 4 4 }
        | st => sendOutcome (dropPart s n q) n q.round q.contrib st
      else s

/-- Partial records that wait for a staging slot and have received no byte for STAGE_TIMEOUT beats are discarded (R265). -/
def expirePart (s : State) (t : TarnIx) (x : LinkIx × IntakePart) : State :=
  match roundOf s t x.2.round with
  | some r => if x.2.slot.isNone && x.2.got < recLen r.plan && x.2.last + r.plan.stageTimeout ≤ s.beat then
      sendOutcome (dropPart (touchRound s t x.2.round) x.1 x.2) x.1 x.2.round x.2.contrib .timeout
    else s
  | none => s

/-- The partial INTAKE records of a Tarn move on. -/
def pumpIntake (s : State) (t : TarnIx) : State :=
  let s := (partsOf s t).foldl (fun s x => expirePart s t x) s
  (partsOf s t).foldl (fun s x => pumpPart s t x) s

/-- Records that waited for a staging slot go on (R265). -/
def resumeIntake (s : State) (t : TarnIx) : State :=
  let uids := (s.tickets.filter fun k => k.tarn == t && k.op == 0x21 && ticketRuns k).map (·.uid)
  grantCredits (uids.foldl (fun s u => match ticketOf s u with
    | some k => serveContrib s k
    | none => s) (pumpIntake s t)) t

/-- RECORD_INTAKE_RESUME (R265). -/
def execRecordIntakeResume (t : TarnIx) (s : State) : Host.Outcome State Fault Refusal :=
  .next (if running s && fwUp s then resumeIntake s t else s)

/-! Close -/

/-- Q as the governor applies it (R632). -/
def quietOf (s : State) (t : TarnIx) (r : Round) : Nat :=
  if r.plan.quiet == 0 || !s.gov.bounds.adaptMask.getLsbD t then 0 else max r.plan.quiet s.gov.bounds.qMin

/-- A record of the round is being received, in a staging slot or on an INTAKE link (R269). -/
def receivingNow (s : State) (t : TarnIx) (r : Round) : Bool :=
  (r.slots.any fun x => match x.state with
    | .receiving _ _ => true
    | _ => false)
    || (partsOf s t).any fun x => x.2.round == r.plan.roundId

/-- The quiet window of R269 has passed at the end of beat `b`. -/
def quietPassed (s : State) (t : TarnIx) (r : Round) (b : Nat) : Bool :=
  let q := quietOf s t r
  0 < q && !receivingNow s t r && (match r.lastActive with
    | some a => a + q ≤ b
    | none => true)

/-- The round closes at the seam of this beat (R269, R270, R281). -/
def closeDue (s : State) (t : TarnIx) (r : Round) : Bool :=
  let b := s.beat
  r.state == .isOpen && r.abortAsked.isNone && (r.openBeat + r.plan.dMax ≤ b
    || (if r.isLeader then r.openBeat + r.plan.dMin ≤ b && (r.accepted.length == r.plan.n || r.closeAsked || quietPassed s t r b)
        else r.leaderClose))

/-- The close comes from the quiet window alone. -/
def quietClose (s : State) (t : TarnIx) (r : Round) : Bool :=
  r.isLeader && s.beat < r.openBeat + r.plan.dMax && r.accepted.length != r.plan.n && !r.closeAsked && quietPassed s t r s.beat

/-- Contributors claimed at a close (R271). -/
def claimCount (r : Round) : Nat :=
  r.accepted.length + r.foldLog.length + (r.slots.filter fun x => match x.state with
    | .folding _ _ => true
    | _ => false).length

/-- INTAKE records of a round that wait for a staging slot end with an outcome. -/
def dropParts (s : State) (t : TarnIx) (rid : Nat) (st : Status) : State :=
  ((partsOf s t).filter fun x => x.2.round == rid && x.2.slot.isNone).foldl (fun s x =>
    recOutcome (modLink s x.1 fun l => { l with parts := l.parts.erase x.2 }) (some (.link x.1)) 0 rid x.2.contrib st) s

/-- Discard the records still being received at a close, with LATE (R271). -/
def discardReceiving (s : State) (t : TarnIx) (rid : Nat) (r : Round) (st : Status) : State :=
  dropParts (r.slots.zipIdx.foldl (fun s x => match x.1.state with
    | .receiving b _ => recOutcome (clearSlot s t rid x.2 x.1) x.1.src (recLen r.plan) rid (partContrib s rid x.2 x.1 b) st
    | _ => s) s) t rid st

/-- Records that have finished arriving and name a round are checked, oldest first (R262); `all` takes in those whose lane does not work
in this beat. -/
def arriveAll (s : State) (t : TarnIx) (y : Nat) (all : Bool) : State :=
  match tarnOf s t with
  | none => s
  | some n => (arrivedFor n y).foldl (fun s x => if all || slotActive s t x.1 x.2 then arriveSlot s t x.1 x.2 else s) s

/-- Close an OPEN round at the seam of this beat (R269 to R271): records that finished arriving in this beat are checked first, in their
order and whichever round's slot holds them (R262, R286). A record that finished earlier and whose lane has not checked it is answered
after the move, as LATE (DEDUCED, log 86). -/
def closeRound (s : State) (t : TarnIx) (rid : Nat) : State :=
  match roundOf s t rid with
  | none => s
  | some r0 =>
    if r0.state != .isOpen then s
    else
      let quiet := quietClose s t r0
      let s := arriveAll s t rid false
      match roundOf s t rid with
      | none => s
      | some r =>
        let s := moveRound s t rid .closed .ok
        let s := modRound s t rid fun r => { r with closeBeat := s.beat }
        let s := arriveAll (discardReceiving s t rid r .late) t rid true
        let s := roundEvent s t rid 2 .ok
        let s := if quiet then tallyGovernorOpen s t 6 else s
        let s := (roundTickets s t rid 0x23).foldl (fun s k => finishTicket s k.uid (claimCount r) s.beat) s
        if r.isLeader then combineNote s t r 2 else s

/-- CLOSE (R269). -/
def execClose (t : TarnIx) (round : BitVec 32) (s : State) : Host.Outcome State Fault Refusal :=
  .next (if running s && fwUp s then match roundOf s t round.toNat with
    | some r => if closeDue s t r then closeRound s t round.toNat else s
    | none => s
  else s)

/-- ROUND_CLOSE (R270, R292, R294). R294 gives an ABORTED combined round on a member two statuses; that of the member, NOT_PERMITTED, comes
first (DESIGN CHOICE, log 89). -/
def serveRoundClose (s : State) (k : Ticket) : State :=
  let rid := opW k 0
  match roundOf s k.tarn rid with
  | none => s
  | some r =>
    if !r.isLeader then answerTicket s k.uid .notPermitted 0 0
    else match r.state with
      | .aborted => answerTicket s k.uid .roundAborted 0 r.endBeat
      | .isOpen =>
        let s := modTicket s k.uid fun k => { k with stage := 1 }
        if bit (opW k 1) 0 then modRound s k.tarn rid fun r => { r with closeAsked := true } else s
      | .opening => s
      | .closed => finishTicket s k.uid (claimCount r) r.closeBeat
      | .unmasking => finishTicket s k.uid r.accepted.length r.closeBeat
      | .released => finishTicket s k.uid r.accepted.length r.closeBeat
      | .refused => finishTicket s k.uid r.accepted.length r.closeBeat

/-- ROUND_CLOSE. -/
def execRoundClose (uid : Nat) (s : State) : Host.Outcome State Fault Refusal :=
  .next (serve s uid 0x23 fun s k => if k.stage == 0 then serveRoundClose s k else s)

/-! End of a round -/

/-- FLAGS of a certificate and of the round status (Table 06-6). -/
def roundFlags (r : Round) (refused : Bool) : Nat :=
  b2n r.headroomWarned + 2 * b2n r.plan.mirror + 4 * b2n r.mirrorDegraded + 8 * b2n r.plan.combined + 16 * b2n r.memberMissing
    + 32 * b2n refused

/-- Bytes 0x000 to 0x1CF of a certificate (Table 06-6). -/
def certBody (s : State) (t : TarnIx) (r : Round) (seq beat : Nat) (refused : Bool) (sumDigest : Bytes) : Bytes :=
  let p := r.plan
  let sv := r.accepted.length
  leBytes 2 1 ++ leBytes 1 (wCode p) ++ leBytes 1 (roundFlags r refused) ++ leBytes 4 p.roundId ++ leBytes 1 t ++ leBytes 1 p.f
    ++ leBytes 1 p.prg ++ leBytes 1 p.kex ++ zeros 4 ++ leBytes 4 p.l ++ leBytes 4 p.n ++ leBytes 4 sv ++ leBytes 4 (p.n - sv)
    ++ leBytes 4 r.keysRebuilt ++ leBytes 4 r.seedsRebuilt ++ leBytes 8 r.openBeat ++ leBytes 8 r.closeBeat ++ leBytes 8 beat
    ++ leBytes 8 seq ++ leBytes 4 r.floorApplied ++ zeros 4 ++ p.planDigest ++ p.rosterDigest ++ sha384 (bitmapOf r.accepted 0 p.n)
    ++ sumDigest ++ (deviceIdDigest s) ++ p.combineDigest ++ zeros 0x60

/-- Sign a round's certificate and move the round (R273, R274, R283): the certificate carries the SEQ of the move's own entry. -/
def certify (s : State) (t : TarnIx) (rid : Nat) (dst : RState) (st : Status) (sumDigest : Bytes) : State :=
  match roundOf s t rid, tarnOf s t with
  | some r, some n =>
    let seq := (tallyRoom s.beat 2 s.tally).next
    let body := certBody s t r seq s.beat (dst == .refused) sumDigest
    let (sig, s) := signWith s n.attKey body
    let s := modRound s t rid fun r => { r with cert := body ++ sig }
    moveRound s t rid dst st (sha384 (body ++ sig))
  | _, _ => s

/-- Erase the secrets, jobs and corrections of a round (R312, R329). -/
def eraseSecrets (s : State) (t : TarnIx) (rid : Nat) : State :=
  let s := modTarn s t fun n => { n with kae := n.kae.filter fun j => j.round != rid }
  let s := modRound s t rid fun r => { r with shareSets := [], corrections := [], required := [], validating := 0 }
  { s with rebuilds := s.rebuilds.filter fun x => !(x.1 == t && x.2.1 == rid) }

/-- Tickets that wait on a round that ends refused or aborted (R274, R329, R275). Share entries not yet checked receive ROUND_ABORTED
with an aborted round; a SHARES_SUBMIT for a refused round goes on, and its entries are checked against that state (R305) (DEDUCED,
log 76). -/
def endRoundTickets (s : State) (t : TarnIx) (rid : Nat) (st : Status) : State :=
  let waiting := s.tickets.filter fun k => k.tarn == t && ticketRuns k && opW k 0 == rid && [0x21, 0x22, 0x23, 0x24, 0x27].contains k.op
    && !(k.op == 0x22 && st != .roundAborted)
  waiting.foldl (fun s k =>
    if k.op == 0x24 && st == .roundAborted then finishTicket s k.uid 0 s.beat
    else if k.op == 0x23 then answerTicket s k.uid .roundAborted 0 s.beat
    else if k.op == 0x22 then
      let left := (upto (opW k 2)).filter fun m => (assocGet m k.outcomes).isNone
      let out := Status.roundAborted
      let s := if isConf s t then (writeOutcomes s { k with outcomes := k.outcomes ++ left.map fun m => (m, out) } 96).2
        else left.foldl (fun s m => (hostOut s k 1 (opW k 1 + m * 96 + 3) [BitVec.ofNat 8 (statusCode out)]).2) s
      answerTicket s k.uid .roundAborted k.accepted (k.refused + left.length)
    else answerTicket s k.uid .roundAborted k.accepted k.refused) s

/-- Free the staging slots of a round that ends; the records in them get the outcome `st`. -/
def dropSlots (s : State) (t : TarnIx) (rid : Nat) (st : Status) : State :=
  match roundOf s t rid with
  | none => s
  | some r => dropParts (r.slots.zipIdx.foldl (fun s x =>
      let done := fun (b : Bytes) =>
        recOutcome (clearSlot s t rid x.2 x.1) x.1.src (recLen r.plan) rid (partContrib s rid x.2 x.1 b) st
      match x.1.state with
      | .free => s
      | .receiving b _ => done b
      | .arrived b => done b
      | .folding _ b => done b) s) t rid st

/-- A round ends REFUSED (R274, R302, R311). -/
def refuseRound (s : State) (t : TarnIx) (rid : Nat) (st : Status) : State :=
  let s := certify (dropSlots s t rid .late) t rid .refused st (zeros 48)
  let s := modRound s t rid fun r => { r with endBeat := s.beat, scrubbing := true, refuseAsked := false }
  let s := eraseSecrets s t rid
  let s := endRoundTickets s t rid .notPermitted
  retireRound (roundEvent s t rid 4 st) t rid

/-- A round ends ABORTED (R274, R275, R318): at the leader the members are told (R295). -/
def abortRound (s : State) (t : TarnIx) (rid : Nat) (st : Status) : State :=
  match roundOf s t rid with
  | none => s
  | some r =>
    if !rstateLive r.state then s
    else
      let s := dropSlots s t rid .roundAborted
      let s := moveRound s t rid .aborted .roundAborted
      let s := if st == .timeout then tallyNote s t rid 0x14 0 0xFFFFFFFF 0xFFFFFFFF .timeout else s
      let s := modRound s t rid fun r => { r with endBeat := s.beat, scrubbing := true, abortAsked := none, foldLog := [] }
      let s := eraseSecrets s t rid
      let s := endRoundTickets s t rid .roundAborted
      let s := roundEvent s t rid 5 .roundAborted
      let s := if r.isLeader then combineNote s t r 4 else s
      retireRound s t rid

/-- Release a round whose corrections are done (R273): the mirror and staging images are scrubbed, the certificate is signed and
the hold is lifted in step 5 of this seam. -/
def releaseRound (s : State) (t : TarnIx) (rid : Nat) : State :=
  match roundOf s t rid with
  | none => s
  | some r =>
    if r.state == .unmasking && r.releasing then
      let s := zeroImages (dropSlots s t rid .late) r.plan 1 (imageCount r.plan)
      let s := modRound s t rid fun r => { r with releaseBeat := s.beat, releasing := false }
      let s := certify s t rid .released .ok (sha384 (imgBytes s r.plan))
      let s := combineNote (roundEvent s t rid 3 .ok) t r 3
      let s := { s with pendRules := s.pendRules ++ [.release t rid] }
      retireRound s t rid
    else s

/-- ROUND_RELEASE (R273). -/
def execRoundRelease (t : TarnIx) (round : BitVec 32) (s : State) : Host.Outcome State Fault Refusal :=
  .next (if running s then releaseRound s t round.toNat else s)

/-- The images of a refused or aborted round have been scrubbed (R274): the hold is lifted in the next step 5. -/
def regionScrubbed (s : State) (t : TarnIx) (rid : Nat) : State :=
  match roundOf s t rid with
  | none => s
  | some r =>
    if r.scrubbing && (r.state == .refused || r.state == .aborted) then
      let s := zeroImages s r.plan 0 (imageCount r.plan)
      let s := modRound s t rid fun r => { r with scrubbing := false, slots := [] }
      { s with pendRules := s.pendRules ++ [.release t rid] }
    else s

/-- ROUND_REGION_SCRUBBED (R274). -/
def execRoundRegionScrubbed (t : TarnIx) (round : BitVec 32) (s : State) : Host.Outcome State Fault Refusal :=
  .next (if running s then regionScrubbed s t round.toNat else s)

/-- ROUND_ABORT (R275, R287, R295): the abort waits for step 2 of the coming seam. -/
def serveRoundAbort (s : State) (k : Ticket) : State :=
  let rid := opW k 0
  match roundOf s k.tarn rid with
  | none => s
  | some r =>
    if r.state == .aborted then finishTicket s k.uid 0 r.endBeat
    else if rstateLive r.state then
      modRound (modTicket s k.uid fun k => { k with stage := 1 }) k.tarn rid fun r => { r with abortAsked := some .roundAborted }
    else answerTicket s k.uid .notPermitted 0 0

/-- ROUND_ABORT. -/
def execRoundAbort (uid : Nat) (s : State) : Host.Outcome State Fault Refusal :=
  .next (serve s uid 0x24 fun s k => if k.stage == 0 then serveRoundAbort s k else s)

/-- The UNMASKING window has ended (R318). -/
def unmaskExpired (s : State) (r : Round) : Bool := r.state == .unmasking && r.unmaskBeat + r.plan.dMax ≤ s.beat

/-- UNMASK_TIMEOUT (R318). -/
def execUnmaskTimeout (t : TarnIx) (round : BitVec 32) (s : State) : Host.Outcome State Fault Refusal :=
  .next (if running s then match roundOf s t round.toNat with
    | some r => if unmaskExpired s r then abortRound s t round.toNat .timeout else s
    | none => s
  else s)

/-! Status and certificate -/

/-- The 64 bytes of a round status header (Table 06-4). -/
def roundHeader (r : Round) : Bytes :=
  leBytes 4 r.plan.roundId ++ leBytes 1 (rstateCode r.state) ++ leBytes 1 (roundFlags r (r.state == .refused))
    ++ leBytes 2 (r.members.filter (·.confirmed)).length ++ leBytes 4 r.plan.n ++ leBytes 4 r.accepted.length
    ++ leBytes 4 (claimCount r - r.accepted.length) ++ leBytes 4 (r.slots.filter fun x => x.state == .free).length
    ++ leBytes 8 r.openBeat ++ leBytes 8 (if r.state == .isOpen then 0 else r.closeBeat) ++ leBytes 8 r.lastCommit ++ zeros 16

/-- ROUND_STATUS (R276): the header and the bitmap in 64-byte blocks. -/
def serveRoundStatus (s : State) (k : Ticket) : State :=
  match roundOf s k.tarn (opW k 0) with
  | none => s
  | some r =>
    let bm := bitmapOf r.accepted 0 r.plan.n
    let blocks := roundHeader r :: chunks 64 (padTo (roundUp bm.length 64) bm)
    let out := fitUnits (bufCapacity s k (opW k 2)) 64 blocks
    match hostOut s k 1 (opW k 1) out.flatten with
    | (.error st, s) => failTicket s k.uid st
    | (.ok _, s) => answerTicket s k.uid (if out.length < blocks.length then .partialRead else .ok) (64 * out.length) 0

/-- ROUND_STATUS. -/
def execRoundStatus (uid : Nat) (s : State) : Host.Outcome State Fault Refusal := .next (serve s uid 0x25 serveRoundStatus)

/-- CERT_READ (R283, R106). -/
def serveCertRead (s : State) (k : Ticket) : State :=
  match roundOf s k.tarn (opW k 0) with
  | none => s
  | some r =>
    if r.state != .released && r.state != .refused then answerTicket s k.uid .notPermitted 0 0
    else
      let out := fitUnits (bufCapacity s k (opW k 2)) 560 [r.cert]
      match hostOut s k 1 (opW k 1) out.flatten with
      | (.error st, s) => failTicket s k.uid st
      | (.ok _, s) => answerTicket s k.uid (if out.isEmpty then .partialRead else .ok) (560 * out.length) 0

/-- CERT_READ. -/
def execCertRead (uid : Nat) (s : State) : Host.Outcome State Fault Refusal := .next (serve s uid 0x26 serveCertRead)

end Sys2Proof.Machine
end

