-- ==== Sys2Proof/Machine/ChangeSets.lean ====
section
/-! DEFINITION. Schedule tables (R41 to R48), change sets with their phases (R589 to R602), and the drained beat of rule changes
(R441 to R447). -/

namespace Sys2Proof.Machine

/-! Schedule tables -/

/-- Slot codes of 16 slots in a 64-bit field. -/
def codesOf (v : Nat) : List (Option SlotCode) := (upto 16).map fun i => slotCodeOf (bits v (4 * i + 3) (4 * i))

/-- A row of a submitted table (Table 01-6), with the format checks of R43 and R44. -/
def rowOf (b : Bytes) : Option SchedRow :=
  let tg := codesOf (field b 0 8)
  let lane := codesOf (field b 8 8)
  if tg.all (·.isSome) && lane.all (fun c => c == some .idle || c == some .basin || c == some .house) && field b 18 14 == 0 then
    some { tg := tg.filterMap id, lane := lane.filterMap id, tgLend := BitVec.ofNat 16 (field b 16 2) }
  else none

/-- A submitted schedule table (Tables 01-5 and 01-6), with its format checks (R41, R44). -/
def tableOf (b : Bytes) : Option SchedTable :=
  let n := byteAt b 2
  let rows := (upto n).map fun i => rowOf (slice b (64 + 32 * i) 32)
  if field b 0 2 == 1 && 4 ≤ n && n ≤ 64 && b.length == 64 + 32 * n && 10 ≤ byteAt b 3 && byteAt b 3 ≤ 250 && 1 ≤ byteAt b 8
      && byteAt b 8 ≤ 60 && allZero (slice b 9 55) && rows.all (·.isSome) then
    some { tableId := BitVec.ofNat 32 (field b 4 4), beatUs := byteAt b 3, clkFloor := byteAt b 8, rows := rows.filterMap id }
  else none

/-- Express width of an entry under a table: the smallest number of EXPRESS slots in a beat. -/
def expressWidth (tb : SchedTable) (e : PEntry) : Nat :=
  let n := fun (r : SchedRow) => ((upto 16).filter fun g => e.state == 1 && e.tileGroups.getLsbD g && r.tg.getD g .idle == .express).length
  match tb.rows with
  | [] => 0
  | r :: rs => rs.foldl (fun m r => min m (n r)) (n r)

/-- The checks of R44 and R629 that look at the map: slots of unowned units, and the express widths of Tarns not named. -/
def tableOk (s : State) (entries : List PEntry) (named : List TarnIx) (tb : SchedTable) : Bool :=
  let owned := fun (f : PEntry → Nat → Bool) (i : Nat) => entries.any fun e => e.state == 1 && f e i
  let free := fun (c : SlotCode) => c == .idle || c == .house
  tb.clkFloor ≤ s.gov.bounds.clkMax
    && (tb.rows.all fun r => (upto 16).all fun i =>
      (owned (fun e i => e.tileGroups.getLsbD i) i || free (r.tg.getD i .idle))
        && (owned (fun e i => e.lanes.getLsbD i) i || free (r.lane.getD i .idle)))
    && (allTarns.all fun t => named.contains t || expressWidth s.table (entryOf s t) ≤ expressWidth tb (entries.getD t {}))

/-- A table with the given tile groups and lanes coded HOUSE (R593). -/
def houseSlots (tb : SchedTable) (tgs : BitVec 16) (lanes : BitVec 16) : SchedTable :=
  let put := fun (m : BitVec 16) (l : List SlotCode) => l.zipIdx.map fun x => if m.getLsbD x.2 then SlotCode.house else x.1
  { tb with rows := tb.rows.map fun r => { r with tg := put tgs r.tg, lane := put lanes r.lane } }

/-- Swap in a table in step 6 (R45): bar position 0 is the beat that follows. -/
def swapTable (s : State) (tb : SchedTable) : State :=
  tally { s with table := tb } 0x0021 1 anyTarn (fwUp s) .ok
    (leBytes 4 tb.tableId.toNat ++ leBytes 1 tb.beatUs ++ leBytes 1 tb.rows.length ++ leBytes 1 tb.clkFloor ++ zeros 1
      ++ leBytes 8 (s.beat + 1))

/-- The seam of this beat ends a bar, whether or not its step 6 has been taken already. -/
def barEnd (s : State) : Bool := s.swapped.isSome || barEnds s

/-- Step 6 (R26, R45, R56): in a bar-ending seam only. In an alignment domain the bar is the one that each member's own change set names,
the leader's among them (DEDUCED, log 91). -/
def stepSchedule (s : State) : State :=
  match s.shadow with
  | some tb => if barEnd s then { swapTable { s with shadow := none } tb with swapped := some (beatLen s) } else s
  | none => s

/-- SCHEDULE_SWAP (R45). -/
def execScheduleSwap (s : State) : Host.Outcome State Fault Refusal := .next (if running s && fwUp s then stepSchedule s else s)

/-! Items of a change set -/

/-- An item of a change set (Table 13-7). -/
inductive Item where
  | map (body : Bytes)
  | schedule (body : Bytes)
  | keyRevoke (slots : List Nat)
  | microprog (fn len addr : Nat)
  deriving DecidableEq, Repr

/-- An item of a kind from its body; none for a breach of Table 13-7. -/
def itemOf (kind : Nat) (body : Bytes) : Option Item :=
  match kind with
  | 0x01 => if body.length == 1088 then some (.map body) else none
  | 0x02 => if body.length == 64 + 32 * byteAt body 2 then some (.schedule body) else none
  | 0x10 =>
    let n := field body 0 2
    if 4 ≤ body.length && body.length == 4 + 2 * n && field body 2 2 == 0 then
      some (.keyRevoke ((upto n).map fun i => field body (4 + 2 * i) 2))
    else none
  | 0x11 =>
    if body.length == 16 && field body 1 3 == 0 then some (.microprog (byteAt body 0) (field body 4 4) (field body 8 8)) else none
  | _ => none

/-- The items of a set's body (R590): `n` items, each padded with zeros to 16 bytes, and nothing after them. -/
def itemsOf : Nat → Bytes → Option (List Item)
  | 0, b => if b.isEmpty then some [] else none
  | n + 1, b =>
    let len := field b 4 4
    let whole := 16 + roundUp len 16
    if b.length < whole || field b 1 3 != 0 || field b 8 8 != 0 || !allZero (slice b (16 + len) (whole - 16 - len)) then none
    else match itemOf (byteAt b 0) (slice b 16 len), itemsOf n (b.drop whole) with
      | some i, some l => some (i :: l)
      | _, _ => none

/-- The item belongs to the management plane. -/
def isMgmtItem : Item → Bool
  | .map _ => true
  | .schedule _ => true
  | .keyRevoke _ => false
  | .microprog _ _ _ => false

/-- A MAP item. -/
def isMapItem : Item → Bool
  | .map _ => true
  | .schedule _ => false
  | .keyRevoke _ => false
  | .microprog _ _ _ => false

/-- A parsed set (Table 13-6). -/
structure SetBody where
  isAtomic : Bool
  atBarEnd : Nat
  expectGen : Nat
  items : List Item
  deriving DecidableEq, Repr

/-- Read a set of `len` bytes; none for a breach of Tables 13-6 and 13-7. -/
def setOf (b : Bytes) (len : Nat) : Option SetBody :=
  let n := byteAt b 3
  if b.length != len || len < 64 || field b 0 2 != 1 || 1 < byteAt b 2 || n == 0 || 8 < n || field b 4 4 != len
      || !allZero (slice b 0x14 0x2C) then none
  else match itemsOf n (b.drop 64) with
    | none => none
    | some items =>
      let maps := (items.filter isMapItem).length
      let scheds := (items.filter fun i => isMgmtItem i && !isMapItem i).length
      if 1 < maps || 1 < scheds || (items.any isMgmtItem && items.any fun i => !isMgmtItem i) then none
      else some { isAtomic := bit (byteAt b 2) 0, atBarEnd := field b 8 8, expectGen := field b 0x10 4, items }

/-- A set holds a MAP item, and so needs a signature over GMP (Table 14-2). -/
def setHasMap (b : Bytes) : Bool :=
  match setOf b b.length with
  | some x => x.items.any isMapItem
  | none => false

/-! Maps and phases -/

/-- A resource is FREE. -/
def resFree (s : State) (r : Resource) : Bool := (resOwner s r).isNone && statOf s r == .free

/-- An index may be used for a new Tarn (R448). -/
def indexUsable (s : State) (t : TarnIx) : Bool := (entryOf s t).state == 0

/-- The resources of an entry. -/
def entryRes (e : PEntry) : List Resource := mapResources.filter fun r => ownsRes e r

/-- Keep only the listed resources of an entry. -/
def keepRes (e : PEntry) (keep : Resource → Bool) : PEntry :=
  let on := fun (w : Nat) (n : Nat) (f : Nat → Resource) => maskOf ((setBits n w).filter fun i => keep (f i))
  { e with
    tileGroups := BitVec.ofNat 16 (on e.tileGroups.toNat 16 fun i => .tileGroup (Fin.ofNat 16 i))
    lanes := BitVec.ofNat 16 (on e.lanes.toNat 16 fun i => .lane (Fin.ofNat 16 i))
    kaeGroups := BitVec.ofNat 8 (on e.kaeGroups.toNat 8 fun i => .kaeGroup (Fin.ofNat 8 i))
    links := BitVec.ofNat 12 (on e.links.toNat 12 fun i => .link (Fin.ofNat 12 i))
    memUnits := BitVec.ofNat 256 (on e.memUnits.toNat 256 fun i => .memUnit (Fin.ofNat 8 (i / 32)) (Fin.ofNat 32 i)) }

/-- The phase-1 map of a target (R593). -/
def phase1Map (s : State) (new : List PEntry) : List PEntry :=
  allTarns.map fun (t : TarnIx) =>
    let o := entryOf s t
    let n := new.getD t {}
    if o.state == 1 && n.state == 1 then
      let e := keepRes n fun r => ownsRes o r || resFree s r
      { e with expose := BitVec.ofNat 32 (maskOf ((setBits 32 n.expose.toNat).filter fun b => ownsBand e b)), createBeat := o.createBeat }
    else if o.state == 1 then {}
    else if n.state == 1 && indexUsable s t && (entryRes n).all (resFree s) then n
    else o

/-- The resources that a map gives, as an entry's masks (Table 13-9). -/
def givenMasks (cur new : List PEntry) : PEntry :=
  let or := fun (f : PEntry → Nat) => (allTarns.map fun (t : TarnIx) =>
    let o := cur.getD t {}
    let n := new.getD t {}
    let old := if o.state == 1 then f o else 0
    let now := if n.state == 1 then f n else 0
    now - (now &&& old)).foldl (· ||| ·) 0
  { tileGroups := BitVec.ofNat 16 (or fun e => e.tileGroups.toNat), lanes := BitVec.ofNat 16 (or fun e => e.lanes.toNat)
    kaeGroups := BitVec.ofNat 8 (or fun e => e.kaeGroups.toNat), links := BitVec.ofNat 12 (or fun e => e.links.toNat)
    memUnits := BitVec.ofNat 256 (or fun e => e.memUnits.toNat) }

/-- A mask of Tarns. -/
def tarnMask (l : List TarnIx) : BitVec 8 := BitVec.ofNat 8 (maskOf (l.map (·.val)))

/-- A link that a Tarn uses for INTAKE. -/
def isIntake (s : State) (r : Resource) : Bool :=
  match r with
  | .link n => (linkOf s n).mode == .intake
  | _ => false

/-- A resource whose removal breaks a round (R597). -/
def breaksRound (s : State) (p : Plan) (r : Resource) : Bool :=
  match r with
  | .lane _ => true
  | .kaeGroup _ => true
  | .memUnit _ u => p.u0 ≤ u.val && u.val < p.u0 + p.units
  | r => isIntake s r

/-- The open work that a map breaks (R597): Tarn, rounds, and whether a confidential session goes. -/
def brokenWork (s : State) (new : List PEntry) : List (TarnIx × List Nat × Bool) :=
  let cur := s.map.entries
  (allTarns.map fun (t : TarnIx) =>
    let lost := mapResources.filter fun r => ownsRes (cur.getD t {}) r && !ownsRes (new.getD t {}) r
    let rounds := match tarnOf s t with
      | some n => (n.rounds.filter fun r => rstateLive r.state && lost.any (breaksRound s r.plan)).map fun r => r.plan.roundId
      | none => []
    let session := isConf s t && (new.getD t {}).state != 1 && (fnOf s t).sessions.any (·.established)
    (t, rounds, session)).filter fun x => !x.2.1.isEmpty || x.2.2

/-! Acceptance -/

/-- Sets accepted and not complete. -/
def openSets (s : State) : Nat :=
  (s.sets.filter fun c => c.state == .waiting || c.state == .between || c.state == .applied).length

/-- The slots that a set's KEY_REVOKE items name. -/
def setSlots (items : List Item) : List Nat :=
  (items.map fun i => match i with
    | .keyRevoke l => l
    | _ => []).flatten

/-- The micro-program items of a set: number, length, address. -/
def setProgs (items : List Item) : List (Nat × Nat × Nat) :=
  items.filterMap fun i => match i with
    | .microprog fn len addr => some (fn, len, addr)
    | _ => none

/-- Steps that a Tarn would hold with the programs of a set in effect (R592). -/
def stepsWith (n : Tarn) (progs : List (Nat × List Nat)) : Nat :=
  ((progs.foldl (fun l p => assocPut p.1 p.2 l) n.progs).map fun p => p.2.length).sum

/-- Bytes of a program's steps. -/
def progBytes (steps : List Nat) : Bytes := (steps.map (leBytes 8)).flatten

/-- The programs that a host set's items name, read for a Tarn; a range that fails a check of R202 ends the reading. -/
def readProgs (s : State) (t : TarnIx) : List (Nat × Nat × Nat) → Except Status (List (Nat × List Nat))
  | [] => .ok []
  | (fn, len, addr) :: l => match readProgs s t l with
    | .error st => .error st
    | .ok rest =>
      if len % 8 != 0 || len < 8 || 2048 < len || fn < 16 || 47 < fn || !inViews addr len then .error .badCommand
      else if (rangeCheck s t addr len).isSome then .error .notPermitted
      else
        let b := devRead s addr len
        if (microSteps b).all microStepOk then .ok ((fn, microSteps b) :: rest) else .error .badCommand

/-- A KEY_REVOKE or MICROPROG item fails a check of item 1 of R591 that asks nothing of a Tarn. -/
def hostItemsBad (x : SetBody) : Bool :=
  (setSlots x.items).any slotRangeBad
    || (setProgs x.items).any fun p => p.2.1 % 8 != 0 || p.2.1 < 8 || 2048 < p.2.1 || p.1 < 16 || 47 < p.1 || !inViews p.2.2 p.2.1

/-- A host set fails item 1 of R591. -/
def hostSetBad (s : State) (t : TarnIx) (x : SetBody) : Bool :=
  hostItemsBad x || (setProgs x.items).any fun p =>
    (rangeCheck s t p.2.2 p.2.1).isNone && !(microSteps (devRead s p.2.2 p.2.1)).all microStepOk

/-- Record an accepted set under the next ID (R591 item 4); the 256 most recent are kept. -/
def acceptSet (s : State) (c : ChangeSet) : State :=
  let id := s.nextSet
  let t := match c.tarn with
    | some t => t.val
    | none => anyTarn
  let n := c.phases.length
  let s := { s with sets := (s.sets ++ [{ c with id }]).drop (s.sets.length + 1 - 256), nextSet := id % 0xFFFF + 1 }
  let s := tallySet s t id 1 0 n c.digest .ok
  if n == 2 then tallySet s t id 2 0 n c.digest .staged else s

/-- Record a refused set (R591 item 4). -/
def refuseSet (s : State) (t : Nat) (digest : Bytes) (st : Status) : State := tallySet s t 0 5 0 0 digest st

/-- A map's retired resources are not given (R433). -/
def givesRetired (s : State) (new : List PEntry) : Bool := (givenRes s.map.entries new).any fun r => statOf s r == .retired || resRetired s r

/-- Phases of a management set (R593). -/
def phasesOf (s : State) (target : Option (List PEntry)) (table : Option SchedTable) : List Phase :=
  let cur := s.map.entries
  let mapOf := fun (l : List PEntry) => ({ s.map with entries := l } : PMap)
  let swaps := fun (was tb : Option SchedTable) => tb.isSome && tb != was
  match target with
  | none => [{ table, barEnd := swaps (some s.table) table }]
  | some new =>
    let p1 := phase1Map s new
    let differs := fun (a b : List PEntry) => (a.zip b).any fun x => entryDiffers x.1 x.2
    let one := fun (from_ to_ : List PEntry) (was tb : Option SchedTable) =>
      ({ map := some (mapOf to_), table := tb, barEnd := altersSlots from_ to_ || swaps was tb, named := tarnMask (namedTarns from_ to_),
         given := givenMasks from_ to_ } : Phase)
    if differs p1 new then
      let late := givenMasks p1 new
      let t1 := table.map fun tb => houseSlots tb late.tileGroups late.lanes
      [one cur p1 (some s.table) t1, one p1 new t1 table]
    else [one cur new (some s.table) table]

/-- AT_BAR_END names the last beat of a bar that has not ended (Table 13-6) (DEDUCED, log 75). -/
def barEndOk (s : State) (b : Nat) : Bool :=
  b == 0 || (s.beat ≤ b && (b - s.beat + s.pos + 1) % barBeats s == 0)

/-- The body of a set's MAP item. -/
def setMapBody (x : SetBody) : Option Bytes := x.items.findSome? fun i => match i with
  | .map b => some b
  | _ => none

/-- The body of a set's SCHEDULE item. -/
def setTableBody (x : SetBody) : Option Bytes := x.items.findSome? fun i => match i with
  | .schedule b => some b
  | _ => none

/-- The target map and table of a set. -/
def setTargets (x : SetBody) : Option (List PEntry) × Option SchedTable :=
  ((setMapBody x).map parseMap, (setTableBody x).bind tableOf)

/-- A set's management items fail item 1 of R591. -/
def mgmtItemsBad (s : State) (x : SetBody) : Bool :=
  let cur := s.map.entries
  let (target, table) := setTargets x
  let new := target.getD cur
  let named := namedTarns cur new
  let tabB := setTableBody x
  let mapBad := match setMapBody x with
    | some b => !mapFormatOk b || !mapOk cur new || (altersSlots cur new && tabB.isNone)
    | none => false
  let tabBad := match tabB, table with
    | some _, some tb => !tableOk s new named tb
    | some _, none => true
    | none, _ => false
  let p1Bad := match phasesOf s target table with
    | [a, _] => (match a.map, a.table with
      | some m, some tb => !mapOk cur m.entries || !tableOk s m.entries named tb
      | some m, none => !mapOk cur m.entries
      | none, _ => false)
    | _ => false
  mapBad || tabBad || p1Bad

/-- Check and accept a host set (R591, R592): the status, and the state after. AT_BAR_END is checked and kept for it too (DEDUCED, log 75). -/
def submitHost (s : State) (t : TarnIx) (uid : Nat) (raw : Bytes) (len : Nat) : Status × State :=
  let digest := sha384 raw
  let no := fun (st : Status) => (st, refuseSet s t digest st)
  match setOf raw len with
  | none => no .badCommand
  | some x =>
    if hostSetBad s t x || mgmtItemsBad s x || !barEndOk s x.atBarEnd then no .badCommand
    else if x.items.any isMgmtItem then no .notPermitted
    else match readProgs s t (setProgs x.items), tarnOf s t with
      | .ok progs, some n =>
        if (setSlots x.items).any (fun i => !slotHeld s t i) || 4096 < stepsWith n progs
            || (x.expectGen != 0 && x.expectGen != s.map.gen.toNat) || 4 ≤ openSets s then no .notPermitted
        else
          (.ok, acceptSet s { id := 0, mgmt := false, tarn := some t, uid := some uid, atomicFlag := x.isAtomic, digest, atBarEnd := x.atBarEnd,
                              revokes := (setSlots x.items).dedup, progs, phases := [{ named := tarnMask [t] }] })
      | _, _ => no .notPermitted

/-- Check and accept a management set (R591, R593). -/
def submitMgmt (s : State) (raw : Bytes) (force : Bool) (gmp : Option (GmpChannel × Nat)) : Status × State :=
  let digest := sha384 raw
  let no := fun (st : Status) => (st, refuseSet s anyTarn digest st)
  let cur := s.map.entries
  match setOf raw raw.length with
  | none => no .badCommand
  | some x =>
    let (target, table) := setTargets x
    let new := target.getD cur
    let phases := phasesOf s target table
    if mgmtItemsBad s x || hostItemsBad x || !barEndOk s x.atBarEnd then no .badCommand
    else if x.items.any (fun i => !isMgmtItem i) || (x.expectGen != 0 && x.expectGen != s.map.gen.toNat)
        || (target.isSome && givesRetired s new) || (x.isAtomic && phases.length == 2) || 4 ≤ openSets s then no .notPermitted
    else if !rootOk s && !(created cur new).isEmpty then no .rootLost
    else if target.isSome && !(brokenWork s new).isEmpty && !force then no .busyChange
    else
      (.ok, acceptSet s { id := 0, mgmt := true, atomicFlag := x.isAtomic, forced := force, digest, atBarEnd := x.atBarEnd, phases, gmp })

/-! Status -/

/-- The phase of a set that is to apply next. -/
def nextPhase (c : ChangeSet) : Option Phase := c.phases[c.applied]?

/-- Resources that the coming phase gives are all FREE, and the indices in which it creates Tarns may be used (R594). -/
def phaseReady (s : State) (ph : Phase) : Bool :=
  match ph.map with
  | none => true
  | some m => (givenRes s.map.entries m.entries).all (resFree s) && (created s.map.entries m.entries).all (indexUsable s)

/-- A phase needs a bar-ending seam (R45, R48) (DEDUCED, log 75). -/
def needsBarEnd (s : State) (ph : Phase) : Bool :=
  (match ph.map with
    | some m => altersSlots s.map.entries m.entries
    | none => false)
  || (match ph.table with
    | some tb => tb != s.table
    | none => false)

/-- The first bar-ending beat at or after `b`. -/
def barEndFrom (s : State) (b : Nat) : Nat :=
  let n := barBeats s
  b + (n - 1 - (s.pos + (b - s.beat)) % n)

/-- The planned effective beat of a set's next phase; 0 while it cannot be told: an earlier set has phases to apply, a change still
drains, or a resource is not FREE (DEDUCED, log 75). -/
def plannedBeat (s : State) (c : ChangeSet) (ph : Phase) : Nat :=
  let first := (s.sets.find? fun x => x.state == .waiting || x.state == .between).any fun x => x.id == c.id
  let ofSet := s.rules.filter fun r => r.changeId != 0
  if !first || mapDraining s || ofSet.any (·.d.isNone) || (c.state == .between && !phaseReady s ph) then 0
  else
    let b := max (if ofSet.any (fun r => r.d == some s.beat) then s.beat + 1 else s.beat) c.atBarEnd
    if needsBarEnd s ph then barEndFrom s b else b

/-- Table 13-8. -/
def setHeader (c : ChangeSet) : Bytes :=
  let last := c.phases.getD (c.applied - 1) {}
  leBytes 2 c.id ++ leBytes 1 (cstateCode c.state) ++ leBytes 1 c.phases.length ++ leBytes 1 c.applied ++ leBytes 1 (statusCode c.status)
    ++ leBytes 1 (b2n c.atomicFlag + 2 * b2n c.forced + 4 * b2n c.mgmt) ++ zeros 1 ++ leBytes 8 (if c.applied == 0 then 0 else last.e)
    ++ leBytes 8 (if c.applied == 0 then 0 else last.d) ++ leBytes 8 c.lastFree ++ zeros 0x20

/-- Table 13-9. -/
def phaseBytes (s : State) (c : ChangeSet) (n : Nat) (ph : Phase) : Bytes :=
  let e := if ph.pstate == 0 && n == c.applied && (c.state == .waiting || c.state == .between) then plannedBeat s c ph else ph.e
  leBytes 1 (n + 1) ++ leBytes 1 ph.pstate ++ leBytes 1 (statusCode ph.status) ++ leBytes 1 (b2n ph.barEnd)
    ++ leBytes 2 ph.given.tileGroups.toNat ++ leBytes 2 ph.given.lanes.toNat ++ leBytes 1 ph.given.kaeGroups.toNat
    ++ leBytes 1 ph.named.toNat ++ leBytes 2 ph.given.links.toNat ++ zeros 4 ++ leBytes 8 e ++ leBytes 8 ph.d
    ++ leBytes 32 ph.given.memUnits.toNat

/-- Status header and phase list of a set (R602). -/
def setUnits (s : State) (c : ChangeSet) : List Bytes := setHeader c :: c.phases.zipIdx.map fun x => phaseBytes s c x.2 x.1

/-- A set by its ID, the most recent of that ID. -/
def setById (s : State) (id : Nat) : Option ChangeSet := s.sets.reverse.find? fun c => c.id == id

/-- Change a set. -/
def modSet (s : State) (id : Nat) (g : ChangeSet → ChangeSet) : State :=
  { s with sets := s.sets.map fun c => if c.id == id then g c else c }

/-- A set names a Tarn in one of its phases. -/
def setNames (c : ChangeSet) (t : TarnIx) : Bool := c.phases.any fun p => p.named.getLsbD t

/-- CHANGE_STATUS (R602). -/
def serveChangeStatus (s : State) (k : Ticket) : State :=
  match setById s (opW k 0) with
  | none => answerTicket s k.uid .notPermitted 0 0
  | some c =>
    if !setNames c k.tarn then answerTicket s k.uid .notPermitted 0 0
    else
      let units := setUnits s c
      let out := fitUnits (bufCapacity s k (opW k 2)) 64 units
      let e := if c.applied == 0 then 0 else (c.phases.getD (c.applied - 1) {}).e
      match hostOut s k 1 (opW k 1) out.flatten with
      | (.error st, s) => failTicket s k.uid st
      | (.ok _, s) => answerTicket s k.uid (if out.length < units.length then .partialRead else .ok) c.applied e

/-- CHANGE_STATUS. -/
def execChangeStatus (uid : Nat) (s : State) : Host.Outcome State Fault Refusal := .next (serve s uid 0x03 serveChangeStatus)

/-- CHANGE_SUBMIT of a host set (R82, R591, R592): an accepted set completes at its drained beat. -/
def serveChangeSubmit (s : State) (k : Ticket) : State :=
  if k.stage != 0 then s
  else match plainOf s k 0 (opW k 1) k.buf with
    | (.error st, s) => failTicket s k.uid st
    | (.ok raw, s) => match submitHost s k.tarn k.uid raw (opW k 1) with
      | (.ok, s) => modTicket s k.uid fun k => { k with stage := 1, dirty := true }
      | (st, s) => answerTicket s k.uid st 0 0

/-- CHANGE_SUBMIT. -/
def execChangeSubmit (uid : Nat) (s : State) : Host.Outcome State Fault Refusal := .next (serve s uid 0x02 serveChangeSubmit)

/-! Application -/

/-- The set whose turn it is: the oldest that has a phase to apply, unless an earlier change still drains (R434, R594). -/
def turnSet (s : State) : Option ChangeSet :=
  if mapDraining s || s.rules.any (fun r => r.changeId != 0 && (r.d.isNone || r.d == some s.beat)) then none
  else s.sets.find? fun c => c.state == .waiting || c.state == .between

/-- The phase that is due at the seam of beat `b`, given whether that seam ends a bar and whether another seam's step 6 runs. -/
def dueAt (s : State) (b : Nat) (atEnd : Bool) : Option (ChangeSet × Phase) :=
  match turnSet s with
  | none => none
  | some c => match nextPhase c with
    | none => none
    | some ph =>
      let swaps := match ph.table with
        | some tb => tb != s.table
        | none => false
      if c.atBarEnd ≤ b && (!needsBarEnd s ph || atEnd) && (fwUp s || !swaps)
          && (c.applied == 0 || (fwUp s && !s.fw.restart && phaseReady s ph)) then some (c, ph) else none

/-- The outcome of validating a phase at its seam (R592, R599, R600). -/
def phaseCheck (s : State) (c : ChangeSet) (ph : Phase) : Option Status :=
  if !c.mgmt then
    match c.tarn.bind (tarnOf s) with
    | some n => if 4096 < stepsWith n c.progs then some .notPermitted else none
    | none => some .notPermitted
  else
    let new := match ph.map with
      | some m => m.entries
      | none => s.map.entries
    let named := allTarns.filter (setNames c)
    let tabBad := match ph.table with
      | some tb => !tableOk s new named tb
      | none => false
    if ph.map.isSome && givesRetired s new then some .unitFailed
    else if ph.map.isSome && !mapOk s.map.entries new then some .badCommand
    else if ph.map.isSome && !phaseReady s ph then some .notPermitted
    else if tabBad then some .badCommand
    else if ph.map.isSome && !(brokenWork s new).isEmpty && !c.forced then some .busyChange
    else none

/-- The Tarn field of a set's Tally events. -/
def setTarn (c : ChangeSet) : Nat :=
  match c.tarn with
  | some t => t.val
  | none => anyTarn

/-- A phase fails (R601): the state before it stands, and the set ends. -/
def failPhase (s : State) (c : ChangeSet) (st : Status) : State :=
  let n := c.applied
  let s := modSet s c.id fun c => { c with
    state := .failed, status := st, phases := c.phases.modify n fun p => { p with pstate := 2, status := st } }
  let s := tallySet s (setTarn c) c.id 4 (n + 1) c.phases.length c.digest st
  match c.uid with
  | some uid => answerTicket s uid st 0 0
  | none => s

/-- The Tarns that a phase destroys. -/
def phaseDestroys (s : State) (ph : Phase) : List TarnIx :=
  match ph.map with
  | some m => destroyed s.map.entries m.entries
  | none => []

/-- Forced aborts of a phase, in step 2 (R598). -/
def forceAborts (s : State) (ph : Phase) : State :=
  match ph.map with
  | none => s
  | some m => (brokenWork s m.entries).foldl (fun s x => x.2.1.foldl (fun s rid => abortRound s x.1 rid .roundAborted) s) s

/-- End the live tickets of a Tarn, commit them and drop its figures (R437). -/
def endTarn (s : State) (t : TarnIx) : State :=
  let s := { s with
    tickets := s.tickets.map fun k => if k.tarn == t && !settled k then { k with faults := k.faults ++ [.abortedByRecovery] } else k }
  commitTickets ((upto 16).foldl (fun s g => match figOf s g with
    | some r => if r.tarn == t then leaveSlot s g else s
    | none => s) s)

/-- A phase breaks open work (R597). -/
def phaseBreaks (s : State) (ph : Phase) : Bool :=
  match ph.map with
  | some m => !(brokenWork s m.entries).isEmpty
  | none => false

/-- Apply a phase that passed its checks, in step 5 (R435, R592, R596, R598) (DEDUCED, log 30). -/
def applyPhase (s : State) (c : ChangeSet) (ph : Phase) (breaks : Bool) : State :=
  let n := c.applied + 1
  let total := c.phases.length
  let s := match ph.map with
    | some m => applyMap s m.entries c.id n
    | none => s
  let s := match c.tarn with
    | some t =>
      let s := (c.progs.foldl (fun l p => assocPut p.1 p.2 l) []).foldl (fun s p => installProg s t p.1 (progBytes p.2)) s
      if c.revokes.isEmpty then addRule s { id := 0, what := 0, e := s.beat, tarn := some t, uid := c.uid, changeId := c.id, phase := n, result0 := c.id }
      else revokeSlots s t c.revokes c.uid c.id c.id true
    | none => if ph.map.isSome then s else addRule s { id := 0, what := 0, e := s.beat, changeId := c.id, phase := n }
  let s := match ph.table with
    | some tb => if tb == s.table then s else { s with shadow := some tb }
    | none => s
  let s := modSet s c.id fun c => { c with
    applied := n, state := if n == total then .applied else .between, phase1Bars := 0
    phases := c.phases.modify (n - 1) fun p => { p with pstate := 1, e := s.beat } }
  let st := if n == total then Status.ok else .staged
  let s := if total == 2 then
      let s := tallySet s (setTarn c) c.id 3 n total c.digest st
      (allTarns.filter (setNames c)).foldl (fun s t => advise s t
        { kind := 3, status := st, result0 := BitVec.ofNat 32 (c.id + n * 65536), result1 := BitVec.ofNat 64 s.beat }) s
    else s
  if breaks && c.forced then tallySet s (setTarn c) c.id 6 n total c.digest .ok else s

/-- Validate and apply a due phase on its own, outside the seam's other steps: destroyed Tarns' tickets end and are posted
first. -/
def takePhase (s : State) (c : ChangeSet) (ph : Phase) : State :=
  match phaseCheck s c ph with
  | some st => failPhase s c st
  | none =>
    let breaks := phaseBreaks s ph
    let s := forceAborts s ph
    let s := (phaseDestroys s ph).foldl (fun s t => postTarn (endTarn s t) [] t) s
    applyPhase s c ph breaks

/-- Take the phase that is due at the seam of this beat, when it is of the kind asked for. -/
def takeDue (s : State) (kind : ChangeSet → Phase → Bool) : State :=
  match dueAt s s.beat (barEnd s) with
  | some (c, ph) => if kind c ph then takePhase s c ph else s
  | none => s

/-- MAP_CHANGE_APPLY (R435): a pending partition-map change. -/
def execMapChangeApply (s : State) : Host.Outcome State Fault Refusal :=
  .next (if running s then takeDue s fun c ph => c.mgmt && ph.map.isSome else s)

/-- PHASE_APPLY (R594): the next phase of a management set (DEDUCED, log 30). -/
def execPhaseApply (s : State) : Host.Outcome State Fault Refusal := .next (if running s then takeDue s fun c _ => c.mgmt else s)

/-- HOST_SET_APPLY (R592). -/
def execHostSetApply (s : State) : Host.Outcome State Fault Refusal := .next (if running s then takeDue s fun c _ => !c.mgmt else s)

/-- Phase 2 has not been applied within 256 bars of phase 1 (R600). -/
def phaseExpired (c : ChangeSet) : Bool := c.state == .between && 256 ≤ c.phase1Bars

/-- Fail the sets whose phase 2 is too late. -/
def expirePhases (s : State) : State := (s.sets.filter phaseExpired).foldl (fun s c => failPhase s c .timeout) s

/-- PHASE_TIMEOUT (R600). -/
def execPhaseTimeout (s : State) : Host.Outcome State Fault Refusal := .next (if running s then expirePhases s else s)

/-! Drained beats -/

/-- The phase list of a host set goes to its buffer, and the ticket completes with E (R81, R82). -/
def completeHostSet (s : State) (uid id e : Nat) : State :=
  match ticketOf s uid, setById s id with
  | some k, some c =>
    if !ticketRuns k then s
    else match hostOut s k 3 (opW k 3) (fitUnits (bufCapacity s k (opW k 4)) 64 (setUnits s c)).flatten with
      | (.error st, s) => failTicket s uid st
      | (.ok _, s) => finishTicket s uid id e
  | _, _ => s

/-- A set whose phases are all applied and drained, with every resource it took FREE or RETIRED, is complete (Table 13-8). -/
def settleSets (s : State) : State :=
  { s with sets := s.sets.map fun c =>
      if c.state == .applied && !s.rules.any (fun r => r.changeId == c.id) && c.phases.all (fun p => p.d != 0) then { c with state := .complete }
      else c }

/-- What completes at the drained beat of a rule change (R81, R255, R441, R484, R624, R637). -/
def drainEffect (s : State) (r : RuleChange) : State :=
  let s := modSet s r.changeId fun c => { c with phases := c.phases.modify (r.phase - 1) fun p => { p with d := s.beat } }
  match r.what with
  | 3 => match r.tarn, r.round with
    | some t, some rid => zeroRound s t rid
    | _, _ => s
  | 7 => { s with bists := s.bists.map fun b => if some b.unit == r.unit && b.stage == 1 then { b with stage := 2 } else b }
  | 8 => match r.gmp with
    | some (ch, req) => gmpReply s ch req .ok (leBytes 8 r.e ++ leBytes 8 s.beat)
    | none => s
  | _ =>
    let s := if r.empties then r.slots.foldl (fun s i => modSlot s i fun _ => {}) s else s
    match r.uid with
    | none => s
    | some uid => if r.changeId != 0 then completeHostSet s uid r.changeId r.e else finishTicket s uid r.result0 r.e

/-- Step 4 for one rule change: its drained beat (R441). -/
def drainRule (s : State) (id : Nat) : State :=
  match s.rules.find? fun r => r.id == id with
  | none => s
  | some r =>
    if r.d.isSome || s.beat ≤ r.e || ruleOutstanding s r then s
    else
      let s := { s with rules := s.rules.map fun x => if x.id == id then { x with d := some s.beat } else x }
      let s := if 1 ≤ r.what && r.what ≤ 6 then tallyRule s r s.beat else s
      let s := drainEffect s { r with d := some s.beat }
      match r.uid with
      | some uid => commitTicket s uid
      | none => s

/-- Step 4: all rule changes, in order (R26, R441). -/
def drainRules (s : State) : State := (s.rules.map (·.id)).foldl drainRule s

/-- RULE_CHANGE_DRAINED (R441). -/
def execRuleChangeDrained (s : State) : Host.Outcome State Fault Refusal := .next (if running s then drainRules s else s)

/-- Forget drained changes; the last of what a change took being FREE or RETIRED, the SCRUB entry is written (R447). -/
def closeRule (s : State) (r : RuleChange) : State :=
  match r.d with
  | none => s
  | some d =>
    if d == s.beat && !r.takes.isEmpty then s
    else if r.takes.all fun x => resDone (statOf s x) then
      let s := { s with rules := s.rules.filter fun x => x.id != r.id }
      if r.takes.isEmpty then s
      else
        let s := modSet s r.changeId fun c => { c with lastFree := s.beat }
        tally s 0x0022 1 anyTarn false .ok (leBytes 2 r.changeId ++ zeros 6 ++ leBytes 8 r.e ++ leBytes 8 d ++ leBytes 8 s.beat)
    else s

/-- Step 5 for drained changes and the sets they belong to. -/
def closeRules (s : State) : State := settleSets (s.rules.foldl closeRule s)

end Sys2Proof.Machine
end

