-- ==== Sys2Proof/Machine/Recovery.lean ====
section
/-! DEFINITION. Dropout recovery and the key-agreement engine (R296 to R334), and the combine of a round over several devices
(R279 to R282, R293, R295). -/

namespace Sys2Proof.Machine

/-! Required secrets -/

/-- q = 2^130 − 5 (R296). -/
def shareQ : Nat := 2 ^ 130 - 5

/-- A dropped contributor has a surviving neighbour. -/
def hasSurvivor (r : Round) (i : Nat) : Bool := (neighbours r.plan i).any fun j => r.accepted.contains j

/-- The secret of a kind is required of a contributor (Required secrets): 0 private key, 1 self seed. -/
def isRequired (r : Round) (owner kind : Nat) : Bool :=
  if kind == 1 then r.accepted.contains owner
  else !r.accepted.contains owner && hasSurvivor r owner && !r.flagged.contains owner

/-- Dropped contributors of a round. -/
def droppedOf (r : Round) : List Nat := (upto r.plan.n).filter fun i => !r.accepted.contains i

/-- The required secrets once VALIDATE has ended (R313). -/
def requireSecrets (s : State) (t : TarnIx) (rid : Nat) : State :=
  modRound s t rid fun r => { r with
    required := (r.accepted.map fun i => (i, 1)) ++ ((droppedOf r).filter fun i => isRequired r i 0).map fun i => (i, 0) }

/-! KAE jobs -/

/-- Queue a job (R322). -/
def addJob (s : State) (t : TarnIx) (rid kind owner other : Nat) (secret : Bytes) : State :=
  modTarn s t fun n => { n with
    kae := n.kae ++ [{ id := n.nextJob, round := rid, kind, owner, other, secret }], nextJob := n.nextJob + 1 }

/-- Working KAE cores of a Tarn (R322, R330). -/
def coresOf (s : State) (t : TarnIx) : Nat :=
  if live s t then ((upto 64).filter fun c => (entryOf s t).kaeGroups.getLsbD (c / 8) && !s.units.kaeFailed.getLsbD c
    && !s.units.kaeTesting.getLsbD (c / 8)).length else 0

/-- HKDF units of a Tarn. -/
def hkdfUnits (s : State) (t : TarnIx) : Nat :=
  if live s t then ((upto 8).filter fun g => (entryOf s t).kaeGroups.getLsbD g && !s.units.kaeTesting.getLsbD g).length else 0

/-- The Tarn's queue (R322): of the jobs still due, in order, at most 65,536; the kernel generates the rest as entries free. -/
def kaeQueue (n : Tarn) : List KaeJob := (n.kae.filter fun j => j.kind < 3).take 65536

/-- Jobs of the KAE cores, or of the HKDF units, that have been started: the first of the queue, one per core or unit. -/
def started (s : State) (t : TarnIx) (hkdf : Bool) : List KaeJob :=
  match tarnOf s t with
  | none => []
  | some n => if hkdf then (n.kae.filter fun j => 3 ≤ j.kind).take (hkdfUnits s t) else (kaeQueue n).take (coresOf s t)

/-- Remove a job. -/
def dropJob (s : State) (t : TarnIx) (id : Nat) : State := modTarn s t fun n => { n with kae := n.kae.filter fun j => j.id != id }

/-- Entry to UNMASKING: VALIDATE of each dropped contributor with a surviving neighbour, in ascending order (R313). -/
def startUnmasking (s : State) (t : TarnIx) (rid : Nat) : State :=
  let s := moveRound s t rid .unmasking .ok
  let s := modRound s t rid fun r => { r with unmaskBeat := s.beat }
  match roundOf s t rid with
  | none => s
  | some r =>
    let todo := (droppedOf r).filter fun i => hasSurvivor r i
    let s := modRound s t rid fun r => { r with validating := todo.length }
    let s := todo.foldl (fun s i => addJob s t rid 0 i i []) s
    if todo.isEmpty then requireSecrets s t rid else s

/-- The effective cohort floor of a round (R299, R301). -/
def cohortFloor (s : State) (t : TarnIx) (r : Round) : Nat :=
  let op := match tarnOf s t with
    | some n => n.opFloor
    | none => 0
  max 64 (max (max r.fOpOpen op) r.plan.floor)

/-- No claimed record is being folded. -/
def foldsDone (r : Round) : Bool := r.slots.all fun x => match x.state with
  | .folding _ _ => false
  | _ => true

/-- Every fold of the survivors is committed (R271), and at a combine leader every member's data has arrived or is missing. -/
def leaveReady (s : State) (r : Round) : Bool :=
  r.state == .closed && r.foldLog.isEmpty && r.abortAsked.isNone && foldsDone r && (!r.plan.combined || r.members.all fun m =>
      m.serial == deviceSerial s || m.received || m.missing)

/-- A member sends its bitmap range and its masked image 0 to the leader in COMBINE_DATA messages on VC 3 (R281) (DESIGN CHOICE, log 55);
with no route to it yet it sends nothing and tries again. -/
def sendCombineData (s : State) (t : TarnIx) (r : Round) : State :=
  match r.members.head?, myMember s r with
  | some lead, some me => match linkTo s t lead.serial with
    | some (n, dest) =>
      let data := bitmapOf r.accepted me.first me.count ++ imgBytes s r.plan
      let s := (chunks 65536 data).zipIdx.foldl (fun s x => sendMessage s n 3 1
        (msgBytes { op := 0x10, dest, src := s.timing.deviceNo, destTarn := t, srcTarn := t, cls := 3, addr := 65536 * x.2,
                    len := x.1.length, tag := BitVec.ofNat 32 r.plan.roundId } ++ x.1)) s
      modRound s t r.plan.roundId fun r => { r with dataSentBeat := some s.beat, dataLink := some n }
    | none => s
  | _, _ => s

/-- COMBINE_DATA messages for this device with a round's ID. -/
def isDataFor (s : State) (rid : Nat) (m : InMsg) : Bool :=
  let h := msgOf m.bytes
  m.vc == 3 && h.op == 0x10 && h.dest == s.timing.deviceNo.val && h.tag.toNat == rid

/-- Drop what has come of members' data for a round: the leader discards a partial image (R376). -/
def dropData (s : State) (rid : Nat) : State :=
  { s with links := s.links.map fun l => { l with inbox := l.inbox.filter fun m => !isDataFor s rid m } }

/-- A round leaves CLOSED (R302): to REFUSED below the floor, else to UNMASKING. A combine member sends its data instead, unless it is
to abort (R295), and stays CLOSED until it hears of the round's end (DEDUCED, log 54). -/
def leaveClosed (s : State) (t : TarnIx) (rid : Nat) : State :=
  match roundOf s t rid with
  | none => s
  | some r =>
    if !r.isLeader then
      (if r.state == .closed && r.foldLog.isEmpty && foldsDone r && r.abortAsked.isNone && r.dataSentBeat.isNone then
        sendCombineData s t r else s)
    else if !leaveReady s r then s
    else
      let floor := cohortFloor s t r
      let s := modRound (dropData s rid) t rid fun r => { r with floorApplied := floor, memberData := [] }
      if r.accepted.length < floor then refuseRound s t rid .belowFloor else startUnmasking s t rid

/-- ROUND_LEAVE_CLOSED (R302). -/
def execRoundLeaveClosed (t : TarnIx) (round : BitVec 32) (s : State) : Host.Outcome State Fault Refusal :=
  .next (if running s then leaveClosed s t round.toNat else s)

/-! Shares -/

/-- Accepted shares of a secret. -/
def shareSetOf (r : Round) (owner kind : Nat) : ShareSet :=
  (r.shareSets.find? fun x => x.owner == owner && x.kind == kind).getD { owner, kind }

/-- Change the share set of a secret, making it when there is none. -/
def putShares (s : State) (t : TarnIx) (rid owner kind : Nat) (g : ShareSet → ShareSet) : State :=
  modRound s t rid fun r =>
    let x := g (shareSetOf r owner kind)
    { r with shareSets := x :: r.shareSets.filter fun y => !(y.owner == owner && y.kind == kind) }

/-- The checks of R304 on the round and the entry, items 2 to 8 in order. -/
def shareChecks (r : Round) (e : Bytes) : Status :=
  let kind := byteAt e 2
  let owner := field e 8 4
  let holder := field e 0x0C 4
  let x := field e 0x10 4
  if r.state == .opening || r.state == .isOpen || !r.isLeader then .notPermitted
  else if r.state == .aborted then .roundAborted
  else if r.state == .released || r.state == .refused then .late
  else if r.plan.n ≤ owner || r.plan.n ≤ holder || !(neighbours r.plan owner).contains holder then .notPermitted
  else if !isRequired r owner kind || (match assocGet owner r.recovery with
      | some k => k != (kind == 1)
      | none => false) then .recoveryRefused
  else
    let z := shareSetOf r owner kind
    if x == 0 || x != holder + 1 || shareQ ≤ field e 0x20 32 || shareQ ≤ field e 0x40 32 || z.barred.contains holder then .invalidShare
    else if r.plan.threshold ≤ z.shares.length || z.rebuilt then .duplicate
    else if z.shares.any fun h => h.2.1 == x then .invalidShare
    else .ok

/-- The outcome of an entry of a SHARES_SUBMIT for the round `rid` (R304). -/
def shareVerdict (o : Option Round) (rid : Nat) (e : Bytes) : Status :=
  if field e 0 2 != 1 || 1 < byteAt e 2 || byteAt e 3 != 0 || !allZero (slice e 0x14 12) || field e 4 4 != rid then .badCommand
  else match o with
    | none => .notPermitted
    | some r => shareChecks r e

/-- Accept a share (R304, R307, R309): the ledger entry is written first; the t-th share queues a rebuild. -/
def acceptShare (s : State) (t : TarnIx) (r : Round) (e : Bytes) : State :=
  let rid := r.plan.roundId
  let kind := byteAt e 2
  let owner := field e 8 4
  let s := modRound s t rid fun r => { r with
    recovery := if (assocGet owner r.recovery).isSome then r.recovery else r.recovery ++ [(owner, kind == 1)] }
  let sh := (field e 0x0C 4, field e 0x10 4, field e 0x20 32, field e 0x40 32)
  let s := putShares s t rid owner kind fun z => { z with shares := z.shares ++ [sh] }
  if (shareSetOf r owner kind).shares.length + 1 == r.plan.threshold then
    { s with rebuilds := s.rebuilds ++ [(t, rid, owner, kind)] }
  else s

/-- Entries of a round are not checked yet: it is CLOSED (R305), or its VALIDATE jobs run (R313). -/
def sharesWait (o : Option Round) : Bool :=
  match o with
  | some r => r.state == .closed || (r.state == .unmasking && 0 < r.validating)
  | none => false

/-- The next entry at a round's share point (R304 to R306): the first unchecked entry of the ticket admitted first. None is
taken while VALIDATE jobs run (R313) or while the round is CLOSED (R305). -/
def shareNext (s : State) (t : TarnIx) (rid : Nat) : State :=
  let o := roundOf s t rid
  match roundTickets s t rid 0x22 with
  | k :: _ =>
    let e := k.plain.take 96
    if sharesWait o || e.length < 96 then s
    else
      let st := shareVerdict o rid e
      let m := k.outcomes.length
      let s := modTicket s k.uid fun k => { k with plain := k.plain.drop 96 }
      let s := match o with
        | some r => if st == .ok then acceptShare s t r e
          else if st == .recoveryRefused then tallyNote s t rid 0x10 (byteAt e 2) (field e 8 4) (field e 0x0C 4) st
          else s
        | none => s
      entryOutcome s k.uid m 96 st
  | [] => s

/-- SHARE_ENTRY (R304). -/
def execShareEntry (t : TarnIx) (round : BitVec 32) (s : State) : Host.Outcome State Fault Refusal :=
  .next (if running s && fwUp s && basinNow s t then shareNext s t round.toNat else s)

/-- SHARES_SUBMIT (R303 to R305): the buffer is read in BASIN beats, and no more of it while the round is CLOSED. -/
def serveShares (s : State) (k : Ticket) : State :=
  let closed := match roundOf s k.tarn (opW k 0) with
    | some r => r.state == .closed
    | none => false
  if opW k 2 == 0 then finishTicket s k.uid 0 0
  else if closed || !basinNow s k.tarn then s
  else if k.stage == 0 then
    fetchHost (modTicket s k.uid fun k => { k with stage := 1 }) k.uid (hostReads s k (opW k 1) (96 * opW k 2))
  else pumpDma (takePlain s k.uid 1 (96 * opW k 2)) s.beat k.uid

/-- SHARES_SUBMIT. -/
def execSharesSubmit (uid : Nat) (s : State) : Host.Outcome State Fault Refusal :=
  .next (serveRunning s uid 0x22 serveShares)

/-! Rebuilding -/

/-- Lagrange interpolation at 0 over the field of q (R309). -/
def lagrange0 (pts : List (Nat × Nat)) : Nat :=
  (pts.map fun m => m.2 * ((pts.filter fun l => l.1 != m.1).map fun l =>
    l.1 * invMod shareQ (subMod shareQ l.1 m.1) % shareQ).foldl (fun a b => a * b % shareQ) 1 % shareQ).sum % shareQ

/-- Count a rebuild, failed ones included (R310, R317). -/
def countRebuild (s : State) (t : TarnIx) (rid kind : Nat) : State :=
  modRound s t rid fun r => if kind == 0 then { r with keysRebuilt := r.keysRebuilt + 1 }
    else { r with seedsRebuilt := r.seedsRebuilt + 1 }

/-- A rebuild fails (R310): its shares are discarded and their holders barred; with too few neighbours left the round is to be
refused (R311). -/
def rebuildFails (s : State) (t : TarnIx) (rid owner kind : Nat) (st : Status) : State :=
  let s := countRebuild s t rid kind
  let s := tallyNote s t rid 0x11 kind owner 0xFFFFFFFF st
  let s := putShares s t rid owner kind fun z => { z with barred := z.barred ++ z.shares.map (·.1), shares := [] }
  match roundOf s t rid with
  | none => s
  | some r =>
    let free := (neighbours r.plan owner).filter fun h => !(shareSetOf r owner kind).barred.contains h
    if free.length < r.plan.threshold then modRound s t rid fun r => { r with refuseAsked := true } else s

/-- The field unit finishes the rebuild at the head of its queue (R309, R322). -/
def rebuildHead (s : State) : State :=
  match s.rebuilds with
  | [] => s
  | (t, rid, owner, kind) :: rest =>
    let s := { s with rebuilds := rest }
    match roundOf s t rid with
    | none => s
    | some r =>
      let sh := (shareSetOf r owner kind).shares
      let l0 := lagrange0 (sh.map fun h => (h.2.1, h.2.2.1))
      let l1 := lagrange0 (sh.map fun h => (h.2.1, h.2.2.2))
      if 2 ^ 128 ≤ l0 || 2 ^ 128 ≤ l1 then rebuildFails s t rid owner kind .invalidShare
      else
        let secret := leBytes 16 l0 ++ leBytes 16 l1
        if kind == 0 then addJob s t rid 1 owner owner secret
        else
          let s := countRebuild s t rid kind
          let s := putShares s t rid owner kind fun z => { z with rebuilt := true }
          addJob s t rid 3 owner owner secret

/-- REBUILD_COMPLETE (R309, R331). -/
def execRebuildComplete (s : State) : Host.Outcome State Fault Refusal :=
  .next (if running s && !s.units.fieldFailed then rebuildHead s else s)

/-- A secret is done with when its corrections are all applied (R317); the last one lets the round be released. -/
def settleSecret (s : State) (t : TarnIx) (rid owner kind : Nat) : State :=
  match roundOf s t rid, tarnOf s t with
  | some r, some n =>
    let mine := fun (o : Nat) (self : Bool) => o == owner && self == (kind == 1)
    if !(shareSetOf r owner kind).rebuilt || (n.kae.any fun j => j.round == rid && 0 < j.kind && mine j.owner (j.kind == 3))
        || (r.corrections.any fun c => mine c.owner (c.owner == c.other)) then s
    else
      let left := r.required.filter fun x => !(x == (owner, kind))
      modRound s t rid fun r => { r with required := left, releasing := left.isEmpty }
  | _, _ => s

/-- Flag a roster entry, with its Tally entry (R314). -/
def flagEntry (s : State) (t : TarnIx) (rid i other : Nat) (st : Status) : State :=
  match roundOf s t rid with
  | some r => if r.flagged.contains i then s
    else tallyNote (modRound s t rid fun r => { r with flagged := insertNat i r.flagged }) t rid 0x12 0 i other st
  | none => s

/-- An edge fails, with its Tally entry (R314). -/
def failEdge (s : State) (t : TarnIx) (rid i j : Nat) (st : Status) : State :=
  let e := (min i j, max i j)
  match roundOf s t rid with
  | some r => if r.failedEdges.contains e then s
    else tallyNote (modRound s t rid fun r => { r with failedEdges := r.failedEdges ++ [e] }) t rid 0x13 0 e.1 e.2 st
  | none => s

/-- A VALIDATE job ends (R313): a flagged contributor's edges all fail, and with the last job the secrets become required. -/
def validateDone (s : State) (t : TarnIx) (r : Round) (j : KaeJob) : State :=
  let rid := r.plan.roundId
  let st := validateEntry r.plan.kex (r.roster.getD j.owner [])
  let s := if st == .ok then s
    else (neighbours r.plan j.owner).foldl (fun s i => failEdge s t rid j.owner i st) (flagEntry s t rid j.owner 0xFFFFFFFF st)
  let s := modRound s t rid fun r => { r with validating := r.validating - 1 }
  if r.validating ≤ 1 then requireSecrets s t rid else s

/-- A VERIFY job ends (R309, R316): PAIR jobs for the surviving neighbours follow in ascending order. -/
def verifyDone (s : State) (t : TarnIx) (r : Round) (j : KaeJob) : State :=
  let rid := r.plan.roundId
  match verifyKey r.plan.kex j.secret (r.roster.getD j.owner []) with
  | .ok =>
    let s := countRebuild s t rid 0
    let s := putShares s t rid j.owner 0 fun z => { z with rebuilt := true }
    let s := ((neighbours r.plan j.owner).filter fun i => r.accepted.contains i).foldl
      (fun s i => addJob s t rid 2 j.owner i j.secret) s
    settleSecret s t rid j.owner 0
  | st => rebuildFails s t rid j.owner 0 st

/-- A PAIR job ends (R314, R316): a shared secret goes to the HKDF unit; with any other status the survivor's entry is flagged, and so
every edge there is a failed edge. -/
def pairDone (s : State) (t : TarnIx) (r : Round) (j : KaeJob) : State :=
  let rid := r.plan.roundId
  match pairSecret r.plan.kex j.secret (r.roster.getD j.other []) with
  | .ok z => addJob s t rid 4 j.owner j.other z
  | .error st =>
    let s := failEdge (flagEntry s t rid j.other j.owner st) t rid j.owner j.other st
    settleSecret ((neighbours r.plan j.other).foldl (fun s i => failEdge s t rid j.other i st) s) t rid j.owner 0

/-- A job ends. -/
def jobDone (s : State) (t : TarnIx) (j : KaeJob) : State :=
  let s := dropJob s t j.id
  match roundOf s t j.round with
  | none => s
  | some r => match j.kind with
    | 0 => validateDone s t r j
    | 1 => verifyDone s t r j
    | _ => pairDone s t r j

/-- KAE_JOB_COMPLETE (R314, R322, R330). -/
def execKaeJobComplete (t : TarnIx) (job : Nat) (s : State) : Host.Outcome State Fault Refusal :=
  .next (if running s then match (started s t false).find? fun j => j.id == job with
    | some j => jobDone s t j
    | none => s
  else s)

/-- An HKDF derivation ends (R256, R312, R321): the derived seed goes to the Basin lanes as a correction. -/
def hkdfDone (s : State) (t : TarnIx) (j : KaeJob) : State :=
  let s := dropJob s t j.id
  match roundOf s t j.round with
  | none => s
  | some r =>
    let c : Correction :=
      if j.kind == 3 then { id := j.id, add := false, seed := selfKey r.plan j.secret j.owner, owner := j.owner, other := j.owner }
      else { id := j.id, add := j.owner < j.other, seed := pairSeed r.plan j.secret j.owner j.other, owner := j.owner, other := j.other }
    modRound s t j.round fun r => { r with corrections := r.corrections ++ [c] }

/-- HKDF_COMPLETE (R321). -/
def execHkdfComplete (t : TarnIx) (job : Nat) (s : State) : Host.Outcome State Fault Refusal :=
  .next (if running s then match (started s t true).find? fun j => j.id == job with
    | some j => hkdfDone s t j
    | none => s
  else s)

/-- A Basin lane applies a correction to image 0 (R316); the seed is erased with it (R312). A correction of a survivor's edge that
has failed meanwhile is still applied, since each edge has one job. -/
def correctImage (s : State) (t : TarnIx) (rid id : Nat) : State :=
  match roundOf s t rid with
  | none => s
  | some r => match r.corrections.find? fun c => c.id == id with
    | none => s
    | some c =>
      if r.state != .unmasking then s
      else
        let s := imgAdd s r.plan (!c.add) (prgWords r.plan c.seed)
        let s := modRound s t rid fun r => { r with corrections := r.corrections.filter fun x => x.id != id }
        settleSecret s t rid c.owner (if c.owner == c.other then 1 else 0)

/-- MASK_CORRECTION_DONE (R316, R323). -/
def execMaskCorrectionDone (t : TarnIx) (round : BitVec 32) (corr : Nat) (s : State) : Host.Outcome State Fault Refusal :=
  .next (if running s && fwUp s && basinNow s t && !imagesHeld s then correctImage s t round.toNat corr else s)

/-! Combined rounds -/

/-- The members of a combine descriptor that keeps R279. -/
def descriptorOf (p : Plan) (b : Bytes) : Option (List Member) :=
  let m := field b 2 2
  let entries := (chunks 32 (b.drop 16)).map fun e =>
    ({ serial := e.take 16, first := field e 16 4, count := field e 20 4 } : Member)
  let covered := fun (l : List Member) => (l.map (·.count)).sum == p.n && l.all fun x =>
    x.count ≤ 4194304 && x.first + x.count ≤ p.n && (l.filter fun y => x.first < y.first + y.count && y.first < x.first + x.count
      && 0 < y.count && 0 < x.count).length ≤ 1
  if b.length == 16 + 32 * m && field b 0 2 == 1 && 2 ≤ m && m ≤ 64 && field b 4 4 == p.roundId && allZero (slice b 8 8)
      && ((chunks 32 (b.drop 16)).all fun e => allZero (slice e 24 8)) && covered entries then some entries
  else none

/-- Every member has confirmed while a COMBINE_ATTACH waits: the round is attached and the ticket completes with M (R280). -/
def attachIfAll (s : State) (t : TarnIx) (rid : Nat) : State :=
  match roundOf s t rid with
  | none => s
  | some r => match r.attachUid with
    | none => s
    | some uid =>
      if !r.members.isEmpty && r.members.all (·.confirmed) then
        finishTicket (modRound s t rid fun r => { r with attached := true, attachUid := none }) uid r.members.length 0
      else s

/-- COMBINE_ATTACH (R279, R280): the descriptor is checked and the digests go to the other members. The spec gives no status for a
descriptor that breaks R279, BAD_COMMAND here, nor for one with another digest, without this device, or led by another device than the
one that opened with the roster, NOT_PERMITTED here (DESIGN CHOICE, log 89). -/
def serveAttach (s : State) (k : Ticket) : State :=
  match roundOf s k.tarn (opW k 0), plainOf s k 1 (opW k 2) k.buf with
  | none, _ => s
  | some _, (.error st, s) => failTicket s k.uid st
  | some r, (.ok raw, s) =>
    let lead := fun (ms : List Member) => match ms.head? with
      | some m => m.serial == (deviceSerial s)
      | none => false
    match descriptorOf r.plan raw with
    | none => answerTicket s k.uid .badCommand 0 0
    | some ms =>
      if !r.plan.combined || r.state != .isOpen || sha384 raw != r.plan.combineDigest || !(ms.any fun m => m.serial == (deviceSerial s))
          || lead ms != r.isLeader then answerTicket s k.uid .notPermitted 0 0
      else
        let ms := if r.members.isEmpty then ms else r.members
        let ms := ms.map fun m => if m.serial == deviceSerial s || r.confirms.contains m.serial then { m with confirmed := true } else m
        let s := modTicket s k.uid fun k => { k with stage := 1 }
        let s := modRound s k.tarn (opW k 0) fun r => { r with members := ms, attachUid := some k.uid, attachBeat := s.beat }
        attachIfAll (combineNote s k.tarn { r with members := ms } 1) k.tarn (opW k 0)

/-- COMBINE_ATTACH. -/
def execCombineAttach (uid : Nat) (s : State) : Host.Outcome State Fault Refusal :=
  .next (serve s uid 0x27 fun s k => if k.stage == 0 then serveAttach s k else s)

/-- A member's confirmation (R280): the serial of its sender, known or kept for this device's own COMBINE_ATTACH. -/
def confirmMember (s : State) (t : TarnIx) (rid : Nat) (serial : Bytes) : State :=
  attachIfAll (modRound s t rid fun r => { r with
    confirms := if r.confirms.contains serial then r.confirms else r.confirms ++ [serial]
    members := r.members.map fun m => if m.serial == serial then { m with confirmed := true } else m }) t rid

/-- COMBINE_CONFIRM (R280): the notice that waits on a link is taken; digests other than the round's confirm nothing. -/
def execCombineConfirm (t : TarnIx) (round : BitVec 32) (member : Nat) (planDigest descDigest : Bytes) (s : State) :
    Host.Outcome State Fault Refusal :=
  .next (if running s then match roundOf s t round.toNat with
    | some r => (match noteWaiting s 1 round.toNat planDigest descDigest ((r.members[member]?).map (·.serial)) with
      | some x =>
        let s := takeMsg s x
        if r.plan.combined && planDigest == r.plan.planDigest && descDigest == r.plan.combineDigest then
          confirmMember s t round.toNat (slice x.2.bytes 12 16)
        else s
      | none => s)
    | none => s
  else s)

/-- The members have not all confirmed within 3 bars (R280). -/
def attachExpire (s : State) (uid : Nat) : State :=
  match ticketOf s uid with
  | none => s
  | some k => match roundOf s k.tarn (opW k 0) with
    | none => s
    | some r =>
      if k.op == 0x27 && k.stage == 1 && ticketRuns k && r.attachUid == some uid && r.attachBeat + 3 * barBeats s ≤ s.beat then
        answerTicket (modRound s k.tarn (opW k 0) fun r => { r with attachUid := none }) uid .timeout
          (r.members.filter (·.confirmed)).length 0
      else s

/-- COMBINE_ATTACH_TIMEOUT (R280). -/
def execCombineAttachTimeout (uid : Nat) (s : State) : Host.Outcome State Fault Refusal :=
  .next (if running s then attachExpire s uid else s)

/-- A notice of the leader reaches a member of a combined round: it is taken from its link and acted on once (R351). -/
def memberNote (s : State) (t : TarnIx) (rid kind : Nat) (g : Round → Round) : State :=
  match roundOf s t rid with
  | some r => (match noteWaiting s kind rid r.plan.planDigest r.plan.combineDigest (r.members.head?.map (·.serial)) with
    | some x => if r.plan.combined && !r.isLeader then modRound (takeMsg s x) t rid g else takeMsg s x
    | none => s)
  | none => s

/-- LEADER_CLOSE_MESSAGE (R281): the member closes at the next seam. -/
def execLeaderCloseMessage (t : TarnIx) (round : BitVec 32) (s : State) : Host.Outcome State Fault Refusal :=
  .next (if running s then memberNote s t round.toNat 2 fun r => { r with leaderClose := true } else s)

/-- LEADER_RELEASE_MESSAGE (R282): the member's wait for the round's end is over (DEDUCED, log 54). -/
def execLeaderReleaseMessage (t : TarnIx) (round : BitVec 32) (s : State) : Host.Outcome State Fault Refusal :=
  .next (if running s then memberNote s t round.toNat 3 fun r => { r with leaderRelease := true } else s)

/-- LEADER_ABORT_MESSAGE (R295): the member's round moves to ABORTED at the next seam. -/
def execLeaderAbortMessage (t : TarnIx) (round : BitVec 32) (s : State) : Host.Outcome State Fault Refusal :=
  .next (if running s then memberNote s t round.toNat 4 fun r => { r with
    abortAsked := if rstateLive r.state then some .roundAborted else none } else s)

/-- A member's data reach the leader (R281, R282): its image is added and its bits join the bitmap. Data that come before the leader's
own close are kept for it; data of a member already counted are refused. -/
def addMember (s : State) (t : TarnIx) (rid i : Nat) (bitmap image : Bytes) : State :=
  match roundOf s t rid with
  | none => s
  | some r => match r.members[i]? with
    | none => s
    | some m =>
      if r.plan.combined && r.isLeader && r.attached && m.serial != deviceSerial s && !m.received && !m.missing
          && image.length == r.plan.l * elemLen r.plan && bitmap.length == cdiv m.count 8 then
        if r.state == .isOpen then
          (if r.memberData.any fun x => x.1 == i then s
            else modRound s t rid fun r => { r with memberData := r.memberData ++ [(i, bitmap, image)] })
        else if r.state == .closed then
          let s := imgAdd s r.plan false (vecWords r.plan image)
          modRound s t rid fun r => { r with
            accepted := (bitsOf bitmap m.first m.count).foldl (fun l c => insertNat c l) r.accepted
            members := r.members.modify i fun m => { m with received := true } }
        else s
      else s

/-- The data that came early are added once the leader has closed (R281). -/
def addEarly (s : State) (t : TarnIx) (rid : Nat) : State :=
  match roundOf s t rid with
  | none => s
  | some r => if r.state == .closed then r.memberData.foldl (fun s x => addMember s t rid x.1 x.2.1 x.2.2) s else s

/-- The data of COMBINE_DATA messages from one device on one link: joined from the last that starts anew (R376). -/
def joinedData (ms : List InMsg) : Bytes :=
  ms.foldl (fun b m => (if (msgOf m.bytes).addr == 0 then [] else b) ++ m.bytes.drop 32) []

/-- The device whose COMBINE_DATA for a round, all received on one link, are a bitmap and an image (R281, R351). -/
def dataFrom (s : State) (rid : Nat) (data : Bytes) : Option Nat :=
  (List.finRange 12).findSome? fun n =>
    let ms := (linkOf s n).inbox.filter (isDataFor s rid)
    ((ms.map fun m => (msgOf m.bytes).src).dedup).find? fun d => joinedData (ms.filter fun m => (msgOf m.bytes).src == d) == data

/-- COMBINE_DATA (R281): whole data are taken from the links and acted on once (DESIGN CHOICE, log 56). -/
def execCombineData (t : TarnIx) (round : BitVec 32) (member : Nat) (bitmap image : Bytes) (s : State) :
    Host.Outcome State Fault Refusal :=
  .next (if running s then match dataFrom s round.toNat (bitmap ++ image) with
    | some d =>
      let mine := fun (m : InMsg) => isDataFor s round.toNat m && (msgOf m.bytes).src == d
      let s := { s with links := s.links.map fun l => { l with inbox := l.inbox.filter fun m => !mine m } }
      addMember s t round.toNat member bitmap image
    | none => s
  else s)

/-- A member's data are 2 bars late (R282). -/
def missMember (s : State) (t : TarnIx) (rid i : Nat) : State :=
  match roundOf s t rid with
  | none => s
  | some r => match r.members[i]? with
    | none => s
    | some m =>
      if r.plan.combined && r.isLeader && r.state == .closed && m.serial != deviceSerial s && !m.received && !m.missing
          && r.closeBeat + 2 * barBeats s ≤ s.beat then
        roundEvent (modRound s t rid fun r => { r with
          members := r.members.modify i fun m => { m with missing := true }, memberMissing := true }) t rid 7 .timeout
      else s

/-- MEMBER_MISSING (R282). -/
def execMemberMissing (t : TarnIx) (round : BitVec 32) (member : Nat) (s : State) : Host.Outcome State Fault Refusal :=
  .next (if running s then missMember s t round.toNat member else s)

/-- A member has heard neither a release nor an abort for 16 bars after sending its data, or after its close where it has found no way
to send them (R282, R293) (DEDUCED, log 54). -/
def orphanDue (s : State) (r : Round) : Bool :=
  r.plan.combined && !r.isLeader && rstateLive r.state && !r.leaderRelease
    && (match r.dataSentBeat with
      | some b => b + 16 * barBeats s ≤ s.beat
      | none => r.state == .closed && r.closeBeat + 16 * barBeats s ≤ s.beat)

/-- MEMBER_ORPHAN_ABORT (R282). -/
def execMemberOrphanAbort (t : TarnIx) (round : BitVec 32) (s : State) : Host.Outcome State Fault Refusal :=
  .next (if running s then match roundOf s t round.toNat with
    | some r => if orphanDue s r then abortRound s t round.toNat .roundAborted else s
    | none => s
  else s)

/-! The rounds' part of step 2 -/

/-- Step 2 for one round (R255, R263, R269 to R275, R280 to R282, R287, R302, R311, R318). While the control firmware is down no
round closes (R583). -/
def roundStep (s : State) (t : TarnIx) (rid : Nat) : State :=
  let s := commitFolds (becomeOpen s t rid) t rid
  match roundOf s t rid with
  | none => s
  | some r =>
    match r.abortAsked with
    | some st => abortRound s t rid st
    | none =>
      if unmaskExpired s r then abortRound s t rid .timeout
      else if orphanDue s r then abortRound s t rid .roundAborted
      else if r.refuseAsked && r.state == .unmasking then refuseRound s t rid .recoveryRefused
      else match r.state with
        | .closed =>
          let s := (upto r.members.length).foldl (fun s i => missMember s t rid i) (addEarly s t rid)
          leaveClosed s t rid
        | .unmasking => releaseRound s t rid
        | .isOpen =>
          let s := match r.attachUid with
            | some uid => attachExpire s uid
            | none => s
          if fwUp s && closeDue s t r then closeRound s t rid else s
        | .opening => s
        | .released => s
        | .refused => s
        | .aborted => s

/-- Step 2 for all rounds, Tarn by Tarn. -/
def roundsStep (s : State) : State :=
  allTarns.foldl (fun s t => match tarnOf s t with
    | none => s
    | some n => (n.rounds.map fun r => r.plan.roundId).foldl (fun s rid => roundStep s t rid) s) s

/-- Step 5 for a hold (R254): from this beat the region is refused to the Tarn. -/
def applyHold (s : State) (t : TarnIx) (rid : Nat) : State :=
  addRule (modRound s t rid fun r => { r with holdOn := true }) { id := 0, what := 3, e := s.beat, tarn := some t, round := some rid }

/-- Step 5 for the lifting of a hold (R273, R274). -/
def applyRelease (s : State) (t : TarnIx) (rid : Nat) : State :=
  addRule (modRound s t rid fun r => { r with holdOn := false }) { id := 0, what := 4, e := s.beat, tarn := some t, round := some rid }

end Sys2Proof.Machine
end

