-- ==== Sys2Proof/Machine/Timing.lean ====
section
/-! DEFINITION. Rack-wide beat alignment: the choice of a leader, joining a domain, beat marks on links and on BEAT_IN, holdover
(R49 to R60, R367 to R369). -/

namespace Sys2Proof.Machine

/-- ALIGN event: 1 leader change, 2 counter jump, 3 holdover entered, 4 holdover left (R54, Table 12-5). -/
def tallyAlign (s : State) (action : Nat) (leader : Bytes) (old new : Nat) : State :=
  tally s 0x0013 1 anyTarn (fwUp s) .ok (leBytes 1 action ++ zeros 7 ++ padTo 16 leader ++ leBytes 8 old ++ leBytes 8 new)

/-- Enter holdover (R59, R60): the device free-runs on its own clock, and what was still to be corrected is dropped. -/
def enterHoldover (s : State) : State :=
  let s := { s with timing := { s.timing with owedPs := 0, join := none } }
  if s.timing.holdover then s
  else tallyAlign { s with timing := { s.timing with holdover := true, validPulses := 0 } } 3 s.timing.leader s.beat s.beat

/-- Leave holdover. -/
def leaveHoldover (s : State) : State :=
  if s.timing.holdover then
    tallyAlign { s with timing := { s.timing with holdover := false, lostBars := 0 } } 4 s.timing.leader s.beat s.beat
  else s

/-- A member of the alignment domain: what its HELLO says, and the links to it. -/
structure Cand where
  info : Peer
  dist : Nat
  deriving DecidableEq, Repr

/-- A device comes before another as leader (R49). -/
def candBefore (a b : Cand) : Bool :=
  let pin := fun (c : Cand) => c.info.timing == 2 && c.info.beatInValid
  if pin a != pin b then pin a
  else if a.info.priority != b.info.priority then a.info.priority < b.info.priority
  else beNat a.info.serial < beNat b.info.serial

/-- The alignment domain: this device and the devices that FABRIC links that are UP join to it under its domain number, whatever their
timing mode and values (R49) (DEDUCED, log 88). -/
def domainOf (s : State) : List Cand :=
  { info := ownPeer s 0, dist := 0 }
    :: ((knownNodes s).filter fun x => x.fabric && x.info.domain == s.timing.domain.toNat).map fun x => { info := x.info, dist := x.dist }

/-- Candidates for the leader (R49): a lost leader does not stand while it calls itself leader (R59) (DEDUCED, log 88). -/
def leaderCands (s : State) : List Cand :=
  (domainOf s).filter fun c => !(c.info.serial == s.timing.gone && c.info.leader == c.info.serial && 0 < c.dist)

/-- The candidate that leads. -/
def bestCand (l : List Cand) : Option Cand :=
  l.foldl (fun a c => match a with
    | none => some c
    | some b => if candBefore c b then some c else some b) none

/-- The link toward a leader: a FABRIC link that is UP to the device nearest to it, ties to the lowest link, with that distance. -/
def upstreamOf (s : State) (leader : Bytes) : Option (LinkIx × Nat) :=
  ((List.finRange 12).filterMap fun n =>
    let l := linkOf s n
    match if l.mode == .fabric && l.state == .up then l.peer else none with
    | none => none
    | some p =>
      if p.serial == leader then some (n, 0)
      else if p.leader == leader && p.hops < 255 then some (n, p.hops)
      else (l.topo.find? fun x => x.fabric && x.info.serial == leader).map fun x => (n, x.dist)).foldl
    (fun a x => match a with
      | none => some x
      | some y => if x.2 < y.2 then some x else some y) none

/-- This device leads its domain. -/
def isBeatLeader (s : State) : Bool := s.timing.leader == deviceSerial s

/-- How far the largest counter of the domain is ahead of this device's (R54). -/
def counterLead (s : State) : Nat := ((domainOf s).map fun c => c.info.beat - s.beat).foldl max 0

/-- Apply R49 to what is known of the domain; a leader change is written to the Tally (R54), and a leader whose counter is behind moves
to the domain's at its next bar boundary. A device whose beat or bar length differs from its leader's, or in INTERNAL timing, does not
follow (R50). -/
def chooseLeader (s : State) : State :=
  match bestCand (leaderCands s) with
  | none => s
  | some c =>
    let self := c.dist == 0
    let mis := !self && (c.info.beatUs != s.table.beatUs || c.info.barBeats != barBeats s)
    let follow := !self && !mis && s.timing.mode != .internal
    let way := if follow then upstreamOf s c.info.serial else none
    let still := (domainOf s).any fun x => x.info.serial == s.timing.gone && x.info.leader == x.info.serial
    let m := { s.timing with
      mismatch := mis && s.timing.mode != .internal, leader := c.info.serial, upstream := way.map (·.1)
      hops := if self then 0 else match way with
        | some w => w.2 + 1
        | none => 255
      gone := if still then s.timing.gone else [] }
    if c.info.serial == s.timing.leader then { s with timing := m }
    else
      let m := if self && 0 < counterLead s then { m with join := some 0 } else m
      tallyAlign { s with timing := m } 1 c.info.serial s.beat s.beat

/-- Phase correction of one work window (R52): at most 20 ns either way. -/
def phaseStep (owed : Int) : Int := max (-20000) (min 20000 owed)

/-- A beat of this device started `ps` before the instant it is to start at (R52): its own window takes the first correction, and what is
left goes to the next (example 08-1). A window that a join lengthens stays. -/
def correctPhase (s : State) (ps : Int) : State :=
  if s.timing.windowPs.natAbs ≤ 20000 then
    { s with timing := { s.timing with windowPs := phaseStep ps, owedPs := ps - phaseStep ps } }
  else s

/-- BEAT body (R367). -/
def beatBody (s : State) (corr : Int) : Bytes :=
  leBytes 8 s.beat ++ leBytes 1 s.pos ++ leBytes 1 s.timing.hops ++ leBytes 4 (corr % 2 ^ 32).toNat

/-- Send a BEAT flit with the time to its departure added to CORRECTION. -/
def sendBeat (s : State) (n : LinkIx) (corr : Int) : State :=
  let d := Config.departPs s.freeCtr
  sendFlit { s with freeCtr := s.freeCtr + 1 } n 3 0 false 0 (beatBody s (corr + d))

/-- FABRIC links that are UP. -/
def fabricUp (s : State) : List LinkIx :=
  (List.finRange 12).filter fun n => (linkOf s n).mode == .fabric && (linkOf s n).state == .up

/-- A 32-bit field as a signed number. -/
def signed32 (v : Nat) : Int := if v < 2 ^ 31 then v else (v : Int) - 2 ^ 32

/-- A received BEAT flit (R367, R368): the leader's beat start is its arrival less the link delay and CORRECTION, and the follower corrects
toward it. The mark goes on toward members farther from the leader with the link delay and the time here added to CORRECTION. A follower
in holdover whose marks are back within the tolerance of R51 leaves it (R59) (DEDUCED, log 88). -/
def takeBeat (s : State) (n : LinkIx) (flit : Bytes) (arrivalPs : Int) : State :=
  if timingNow s == .link && s.timing.upstream == some n then
    let delay := s.timing.linkDelay.getD n 0
    let corr := signed32 (field flit 18 4)
    let off := arrivalPs - delay - corr
    let s := { s with timing := { s.timing with lostBars := 0 } }
    let s := if s.timing.holdover && off.natAbs ≤ 50000 then leaveHoldover s else s
    let s := if s.timing.holdover then s else correctPhase s off
    ((fabricUp s).filter fun k => k != n && (match (linkOf s k).peer with
      | some p => s.timing.hops < p.hops
      | none => false)).foldl (fun s k => sendBeat s k (corr + delay)) s
  else s

/-- Link delay of a delay exchange (R368). -/
def delayOf (t1 t2 t3 t4 : Int) : Int := ((t2 - t1) + (t4 - t3)) / 2

/-- A 64-bit field as a signed number. -/
def signed64 (v : Nat) : Int := if v < 2 ^ 63 then v else (v : Int) - 2 ^ 64

/-- Length of a bar in nanoseconds. -/
def barNs (s : State) : Nat := barBeats s * s.table.beatUs * 1000

/-- The domain's counter at the bar start that a join lengthens the window to, `off` ns from now (R53, R54): that of the upstream
neighbour, told by its last HELLO and moved on since, at the nearest bar start; or a larger one of another member (DEDUCED, log 88). -/
def domainCounter (s : State) (off : Nat) : Nat :=
  let past := off / (1000 * s.table.beatUs)
  let own := s.beat + past
  match s.timing.upstream with
  | none => own + counterLead s
  | some n => match (linkOf s n).peer with
    | none => own
    | some p =>
      let bar := max 1 p.barBeats
      let start := p.beat - p.barPos
      let now := (aged s (linkOf s n).heard p).beat + past
      let up := start + (now - start + bar / 2) / bar * bar
      if counterLead s ≤ (aged s (linkOf s n).heard p).beat - s.beat then up else max up (own + counterLead s)

/-- DOMAIN_JOIN (R53): the first work window of the next bar is lengthened by the offset to the domain's bar boundary. -/
def execDomainJoin (offsetNs : Nat) (s : State) : Host.Outcome State Fault Refusal :=
  .next (if running s && timingNow s != .internal && s.timing.upstream.isSome && offsetNs ≤ barNs s then
    { s with timing := { s.timing with join := some offsetNs } }
  else s)

/-- The join at a bar boundary (R53, R54): the window of the new bar's first beat is lengthened, and the counter moves forward. -/
def applyJoin (s : State) : State :=
  match s.timing.join with
  | none => s
  | some off =>
    let old := s.beat
    let new := max old (domainCounter s off)
    let s := { s with
      beat := new, pos := 0
      timing := { s.timing with join := none, windowPs := 1000 * off, owedPs := 0 } }
    leaveHoldover (if new == old then s else tallyAlign s 2 s.timing.leader old new)

/-- LEADER_LOSS (R59, R380): a follower in LINK timing free-runs in holdover, and the remaining members choose a new leader, around which
routes are computed again. A device in PIN timing follows BEAT_IN and is not in holdover. -/
def execLeaderLoss (s : State) : Host.Outcome State Fault Refusal :=
  .next (if running s && s.timing.leader != deviceSerial s && !s.timing.leader.isEmpty then
    let s := if timingNow s == .link then enterHoldover s else s
    let s := chooseLeader { s with timing := { s.timing with gone := s.timing.leader } }
    let s := { s with routesNext := computeRoutes s }
    if isBeatLeader s && s.timing.mode == .link then leaveHoldover s else s
  else s)

/-- What a BEAT_IN pulse marks (R55): some true a bar start, some false a beat. -/
def pulseKind (widthNs : Nat) : Option Bool :=
  if 50 ≤ widthNs && widthNs ≤ 150 then some false
  else if 250 ≤ widthNs && widthNs ≤ 400 then some true
  else none

/-- BEAT_IN_PULSE (R55, R60, R666): the device corrects toward the rising edge, and a bar start out of place asks for a join at the
next bar boundary. In holdover it free-runs and only counts valid pulses, which a pulse of another width breaks off. Before the first beat a
bar start is what the device waits for (DEDUCED, log 51). -/
def execBeatInPulse (widthNs : Nat) (offsetNs : Int) (s : State) : Host.Outcome State Fault Refusal :=
  .next (if s.board.running && s.timing.mode == .pin then match pulseKind widthNs with
    | none => { s with timing := { s.timing with validPulses := 0 } }
    | some bar =>
      let s := { s with timing := { s.timing with
        beatInValid := true, missed := 0, validPulses := if s.timing.holdover then s.timing.validPulses + 1 else 0 } }
      if s.timing.holdover then s
      else
        let s := correctPhase s (1000 * offsetNs)
        if bar && s.pos != 0 then { s with timing := { s.timing with join := some (s.pos * s.table.beatUs * 1000) } } else s
  else if !s.board.running && s.timing.mode == .pin && pulseKind widthNs == some true then
    { s with timing := { s.timing with beatInValid := true } }
  else s)

/-- PIN_HOLDOVER (R60). -/
def execPinHoldover (missed : Nat) (periodErrPpm : Nat) (s : State) : Host.Outcome State Fault Refusal :=
  .next (if s.board.running && s.timing.mode == .pin && (2 ≤ missed || 200 < periodErrPpm) then
    enterHoldover { s with timing := { s.timing with missed, beatInValid := false, validPulses := 0 } }
  else s)

/-- PIN_HOLDOVER_EXIT (R60): after one full bar of valid pulses. -/
def execPinHoldoverExit (s : State) : Host.Outcome State Fault Refusal :=
  .next (if s.board.running && s.timing.mode == .pin && barBeats s ≤ s.timing.validPulses then leaveHoldover s else s)

end Sys2Proof.Machine
end

