-- ==== Sys2Proof/Machine/Links.lean ====
section
/-! DEFINITION. The Spillway links: states and discovery, retry, remote accesses, sessions, lane faults, routes, forwarding and
INTAKE records (R337 to R380). -/

namespace Sys2Proof.Machine

/-! States -/

/-- An outstanding remote access ends its ticket (R346, R362). -/
def failRemote (s : State) (m : Remote) (st : Status) : State :=
  let s := { s with remotes := s.remotes.filter fun x => x.tag != m.tag }
  match figOf s m.group with
  | some f => if f.uid == m.uid then figFault s m.group st else failTicket s m.uid st
  | none => failTicket s m.uid st

/-- A link leaves DRAINING (R362): unanswered messages sent over it end their tickets. -/
def endLinkMessages (s : State) (n : LinkIx) : State :=
  (s.remotes.filter fun m => m.link == n).foldl (fun s m => failRemote s m .abortedByRecovery) s

/-- What a link that went DOWN keeps: its settings, its history, and what it has delivered (R351). -/
def linkReset (l : Link) : Link :=
  { mode := l.mode, laneFaults := l.laneFaults, lanes := l.lanes, signal := l.signal, cause := l.cause, retryUs := l.retryUs,
    flaps := l.flaps, held := l.held, flapping := l.flapping, modeMismatch := l.modeMismatch, loopback := l.loopback,
    replays := l.replays, rejected := l.rejected, inbox := l.inbox }

/-- Combine data wait on a link to be sent, or to be acknowledged. -/
def bulkPending (l : Link) : Bool :=
  (l.txq.any fun m => m.1 == 3) || l.replay.any fun x => bits (leNat (x.2.1.take 8)) 5 4 == 3

/-- A link leaves UP with combine data still on it: the members' rounds send them whole again over the new route (R376). -/
def resendData (s : State) (n : LinkIx) : State :=
  let again := fun (r : Round) =>
    if r.dataLink == some n && !r.leaderRelease then { r with dataSentBeat := none, dataLink := none } else r
  if bulkPending (linkOf s n) then
    { s with tarns := s.tarns.map fun x => x.map fun t => { t with rounds := t.rounds.map again } }
  else s

/-- Step 1 of R352: an ephemeral public key goes to the partner, on an EDGE link in a message of VC 0 (Table 08-3), on an INTAKE link in a
SESSION frame (Table 08-5) (DESIGN CHOICE, log 87). -/
def sendEphemeral (s : State) (n : LinkIx) : State :=
  let (draw, s) := drawEntropy s 56
  let pub := sec1 p384 (ecPub p384 (p384Key draw))
  let s := modLink s n fun l => { l with eph := some (p384Key draw) }
  if (linkOf s n).mode == .edge then sendMessage s n 0 0 (linkMsg s 6 s.timing.deviceNo pub) else sendIntake s n 4 1 pub

/-- Move a link (R361): every move is written to the Tally, and candidate routes are computed again (R364). -/
def linkMove (s : State) (n : LinkIx) (dst : LinkState) (cause : Nat) : State :=
  let l := linkOf s n
  let s := if l.state == .draining then endLinkMessages s n else s
  let s := if l.state == .up then resendData s n else s
  let flaps := if dst == .down && l.wasUp then s.beat :: l.flaps.filter fun b => s.beat < b + 64 * barBeats s else l.flaps
  let held := l.held || 4 < flaps.length
  let cause := if held && !l.held then 9 else cause
  let s := tallyLink s n l.state dst cause
  let s := modLink s n fun l => match dst with
    | .down => linkReset { l with cause, flaps, held, flapping := held }
    | .up => { l with state := .up, cause := 0, wasUp := true, silentBars := 0,
                      credits := match l.peer with
                        | some p => if l.state == .training then p.credits else l.credits
                        | none => l.credits }
    | .training => { linkReset l with state := .training, trainUs := s.timeUs, modeMismatch := false, loopback := false }
    | .draining => { l with state := .draining, cause, silentBars := if l.mode == .intake then 0 else l.silentBars }
  let s := { s with routesNext := computeRoutes s }
  if dst == .up then linkPump s n
  else if dst == .training && (linkOf s n).mode == .edge then sendEphemeral s n
  else s

/-- Take a link DOWN by the states of Table 08-7. -/
def linkDown (s : State) (n : LinkIx) (cause : Nat) : State :=
  match (linkOf s n).state with
  | .down => s
  | .up => linkMove (linkMove s n .draining cause) n .down cause
  | .training => linkMove s n .down cause
  | .draining => linkMove s n .down cause

/-- UP to DRAINING. -/
def linkDrain (s : State) (n : LinkIx) (cause : Nat) : State :=
  if (linkOf s n).state == .up then linkMove s n .draining cause else s

/-- A link may train: a mode, a signal, not held, in service, and an owner for INTAKE (R339, R361, R363). -/
def mayTrain (s : State) (n : LinkIx) : Bool :=
  let l := linkOf s n
  l.state == .down && l.mode != .off && l.signal && !l.held && !s.units.linkRetired.getLsbD n
    && (l.mode != .intake || (linkOwner s n).isSome) && l.retryUs ≤ s.timeUs

/-- LINK_SIGNAL_DETECT (R361). A signal at a DOWN link is its partner's training: a degraded link starts again with 8 lanes (R371)
(DEDUCED, log 90). -/
def execLinkSignalDetect (n : LinkIx) (s : State) : Host.Outcome State Fault Refusal :=
  .next (if running s then
    let s := modLink s n fun l => if l.state == .down && l.lanes == 4 then { l with signal := true, lanes := 8, laneFaults := 0 }
      else { l with signal := true }
    if mayTrain s n then linkMove s n .training 0 else s
  else s)

/-- TRAINING_RETRY (R361): 100 ms after a link's training has failed. -/
def execTrainingRetry (n : LinkIx) (s : State) : Host.Outcome State Fault Refusal :=
  .next (if running s && mayTrain s n then linkMove s n .training 0 else s)

/-- What UP asks of a TRAINING link besides lock (R352, R361, R373, R374). -/
def upReady (l : Link) : Bool :=
  l.state == .training && l.fecLock && (match l.mode with
    | .fabric => 2 ≤ l.hellos
    | .edge => 2 ≤ l.hellos && l.partnerOk
    | .intake => l.partnerOk
    | .off => false)

/-- Enter UP when everything is there. -/
def tryUp (s : State) (n : LinkIx) : State := if upReady (linkOf s n) then linkMove s n .up 0 else s

/-- LINK_TRAINED (R361): PMD training and FEC lock are complete. -/
def execLinkTrained (n : LinkIx) (s : State) : Host.Outcome State Fault Refusal :=
  .next (if running s then tryUp (modLink s n fun l => { l with fecLock := l.state == .training || l.state == .draining || l.fecLock, lockBars := 0 }) n else s)

/-- TRAINING_TIMEOUT (R361, R373, R374) (DESIGN CHOICE, log 58). -/
def execTrainingTimeout (n : LinkIx) (s : State) : Host.Outcome State Fault Refusal :=
  .next (if running s then
    let l := linkOf s n
    if l.state == .training && l.trainUs + 1000000 ≤ s.timeUs then
      modLink (linkMove s n .down (if l.loopback then 11 else if l.modeMismatch then 10 else 0)) n
        fun l => { l with retryUs := s.timeUs + 100000 }
    else s
  else s)

/-- FEC_LOCK_LOSS (R361). -/
def execFecLockLoss (n : LinkIx) (s : State) : Host.Outcome State Fault Refusal :=
  .next (if running s then linkDrain (modLink s n fun l => { l with fecLock := false }) n 2 else s)

/-- A whole bar without a valid HELLO (R361). -/
def helloExpire (s : State) (n : LinkIx) : State :=
  let l := linkOf s n
  if (l.mode == .fabric || l.mode == .edge) && 2 ≤ l.silentBars then linkDrain s n 1 else s

/-- HELLO_TIMEOUT (R361). -/
def execHelloTimeout (n : LinkIx) (s : State) : Host.Outcome State Fault Refusal :=
  .next (if running s then helloExpire s n else s)

/-- A DRAINING link has had three bars without a valid HELLO since the last one, or without FEC lock (R361, R362). An INTAKE link hears no
HELLO, and its bars count from its drain (DEDUCED, log 90). -/
def drainExpire (s : State) (n : LinkIx) : State :=
  let l := linkOf s n
  if l.state == .draining && (3 ≤ l.silentBars || 3 ≤ l.lockBars) then linkMove s n .down l.cause else s

/-- DRAIN_TIMEOUT (R361). -/
def execDrainTimeout (n : LinkIx) (s : State) : Host.Outcome State Fault Refusal :=
  .next (if running s then drainExpire s n else s)

/-- OPERATOR_DRAIN (R361). -/
def execOperatorDrain (n : LinkIx) (complete : Bool) (s : State) : Host.Outcome State Fault Refusal :=
  .next (if running s then
    let l := linkOf s n
    if complete then (if l.state == .draining && l.opDrain then linkMove s n .down 6 else s)
    else if l.state == .up then modLink (linkMove s n .draining 6) n fun l => { l with opDrain := true } else s
  else s)

/-- LINK_TAG_FAILURE_LIMIT (R354). -/
def execLinkTagFailureLimit (n : LinkIx) (s : State) : Host.Outcome State Fault Refusal :=
  .next (if running s && linkTagged (linkOf s n) && 16 ≤ (linkOf s n).tagFails && (linkOf s n).state == .up then
    let s := linkDrain s n 4
    match linkOwner s n with
    | some t => adviseUnit s t (mkUnit kLink n)
    | none => s
  else s)

/-- Lanes 0 to 3, and lanes 4 to 7, have a faulty lane. -/
def faultyHalves (f : BitVec 8) : Bool × Bool := (f &&& 0x0F#8 != 0, f &&& 0xF0#8 != 0)

/-- A lane leaves use (R370, R582, R632): the link degrades to its other half, or goes DOWN. -/
def loseLane (s : State) (n : LinkIx) (lane : Fin 8) : State :=
  let s := modLink s n fun l => { l with laneFaults := l.laneFaults ||| BitVec.ofNat 8 (2 ^ lane.val) }
  let l := linkOf s n
  let h := faultyHalves l.laneFaults
  if (h.1 && h.2) || !s.gov.bounds.degradeMask.getLsbD n || !fwUp s then
    let s := tallyFault s anyTarn (mkUnit kLink n) 1 0
    let s := match linkOwner s n with
      | some t => adviseUnit s t (mkUnit kLink n)
      | none => s
    linkDown s n 7
  else if l.lanes == 4 then s
  else
    let s := tallyGovernorOpen s anyTarn 7
    linkDrain (modLink s n fun l => { l with lanes := 4, fecLock := false }) n 7

/-- LANE_FAULT (R370). -/
def execLaneFault (n : LinkIx) (lane : Fin 8) (s : State) : Host.Outcome State Fault Refusal :=
  .next (if running s then loseLane s n lane else s)

/-! Routes -/

/-- A new route table takes effect (R364) (DEDUCED, log 68). -/
def newRoutes (s : State) : State := { s with routes := s.routesNext }

/-- ROUTE_UPDATE (R364): the table is computed again, to take effect at the next seam. -/
def execRouteUpdate (s : State) : Host.Outcome State Fault Refusal :=
  .next (if running s then { s with routesNext := computeRoutes s } else s)

/-! Flits -/

/-- CREDITS and ACK of a flit header (R342, R348): acknowledged flits leave the replay buffer. -/
def headerIn (l : Link) (flit : Bytes) : Link :=
  let h := leNat (flit.take 8)
  let ack := bits h 31 20
  { l with
    replay := l.replay.filter fun x => !(1 ≤ (ack + 4096 - x.1) % 4096 && (ack + 4096 - x.1) % 4096 ≤ 1024)
    credits := l.credits.zipIdx.map fun c => c.1 + bits h (35 + 4 * c.2) (32 + 4 * c.2) }

/-- Receive a flit (R340, R341, R349): the Bool says that its length, CRC-64 and tag are right. A flit without DATA has its header
acted on here. On an EDGE link in TRAINING a flit before the keys are agreed is taken on its CRC-64 alone, since HELLO and session setup
come before them (R352, R361); after the end of a session only session setup is (R353, R377) (DESIGN CHOICE, log 87). -/
def flitIn (s : State) (n : LinkIx) (flit : Bytes) : Bool × State :=
  let s := replaceKeys s n
  let l := linkOf s n
  if l.state == .down || (l.mode != .fabric && l.mode != .edge) then (false, s)
  else
    let crc := flit.length == 256 && crc64xz (flit.take 0xF8) == field flit 0xF8 8
    if l.mode == .edge then
      let s := modLink s n fun l => { l with rx := { l.rx with ctr := l.rx.ctr + 1 } }
      let setup := bits (leNat (flit.take 8)) 3 0 == 1 && bits (leNat (flit.take 8)) 5 4 == 0
      if !crc then (false, s)
      else if sessionOver l then (setup, if setup then modLink s n fun l => headerIn l flit else s)
      else if l.rx.key.isEmpty then (l.state == .training, if l.state == .training then modLink s n fun l => headerIn l flit else s)
      else if gmac l.rx.key (gmacNonce l.rx l.rx.ctr) (flit.take 0xE8) == slice flit 0xE8 16 then
        (true, modLink s n fun l => headerIn l flit)
      else (false, modLink s n fun l => { l with tagFails := l.tagFails + 1 })
    else if crc then (true, modLink s n fun l => headerIn l flit)
    else (false, s)

/-- Send the current ACK in an IDLE flit (R349). -/
def sendAck (s : State) (n : LinkIx) : State := sendFlit s n 0 0 false 0 []

/-- LENGTH of a request is in range (Table 08-4). -/
def remoteLenOk (h : MsgHeader) : Bool :=
  if h.op == 2 then 1 ≤ h.len && h.len ≤ 64 && (match atomWidth h.ty with
    | some w => h.len % w == 0
    | none => false)
  else 64 ≤ h.len && h.len ≤ 65536 && h.len % 64 == 0

/-- The checks of R345 in order, made when a header arrives: on link `n`, for Tarn `t`. They name no alignment of the address of a remote
ATOMIC: one that is no multiple of the element width is performed on the bytes it names (DESIGN CHOICE, log 85). What only performing the
access shows, data lost with a retired unit, comes last. -/
def remoteCheck (s : State) (n : LinkIx) (t : TarnIx) (msg : Bytes) (h : MsgHeader) : Option Status :=
  let granted := match tarnOf s t with
    | some x => x.grants.any fun g => g.1.val == h.src && g.2.val == h.srcTarn
    | none => false
  let access := accessCheck s t h.addr h.len
  if msgReserved msg || !remoteLenOk h then some .badCommand
  else if !granted || !live s t || isConf s t || linkOwner s n != some t then some .notPermitted
  else if access.isSome && access != some .dataLost then access
  else if h.op == 2 && atomFloat h.ty && isAudit s t then some .notPermitted
  else access

/-- A message whose first flit arrives: a request for this device has its check made and stamped now (R345). -/
def newMessage (s : State) (n : LinkIx) (vc : Nat) (body : Bytes) : InMsg :=
  let h := msgOf body
  let t : TarnIx := ⟨h.destTarn % 8, Nat.mod_lt _ (by decide)⟩
  let mine := vc == 1 && h.dest == s.timing.deviceNo.val
  { vc, bytes := body, stamp := s.beat, verdict := if mine then remoteCheck s n t body h else none }

/-- A route update of the partner (R364) (DESIGN CHOICE, log 68). -/
def takeTopo (s : State) (n : LinkIx) (b : Bytes) : State :=
  let s := modLink s n fun l => { l with topo := nodesOf (b.drop 8), topoBeat := s.beat }
  { s with routesNext := computeRoutes s }

/-- The receiver takes the flit of the expected SEQ (R349, R351): its body joins the message of its channel, and its buffer's credit
is returned. Whole messages wait for their commands; a route update is acted on at once (DESIGN CHOICE, log 56). -/
def acceptData (s : State) (n : LinkIx) (flit : Bytes) : State :=
  let h := leNat (flit.take 8)
  let vc := bits h 5 4
  let body := slice flit 8 (bits h 55 48)
  let old := (linkOf s n).partials.getD vc { vc, bytes := [] }
  let msg := if old.bytes.isEmpty then newMessage s n vc body else { old with bytes := old.bytes ++ body }
  let topo := vc == 0 && byteAt msg.bytes 0 == 5
  let s := modLink s n fun l => { l with
    expSeq := (l.expSeq + 1) % 4096, nakOut := false, unackedRx := l.unackedRx + 1
    owed := l.owed.modify vc (· + 1)
    partials := l.partials.set vc (if bit h 6 then { vc, bytes := [] } else msg)
    inbox := if bit h 6 && !topo then l.inbox ++ [msg] else l.inbox }
  let s := if bit h 6 && topo then takeTopo s n msg.bytes else s
  if 64 ≤ (linkOf s n).unackedRx then sendAck s n else s

/-- DATA_FLIT (R349): a flit out of order or damaged is discarded, the first of them with a NAK. -/
def execDataFlit (n : LinkIx) (flit : Bytes) (s : State) : Host.Outcome State Fault Refusal :=
  .next (if running s && (linkOf s n).state != .down && ((linkOf s n).mode == .fabric || (linkOf s n).mode == .edge) then
    let (ok, s) := flitIn s n flit
    let h := leNat (flit.take 8)
    let l := linkOf s n
    if ok && bits h 3 0 != 1 then s
    else if ok && bits h 19 8 == l.expSeq then linkPump (acceptData s n flit) n
    else if l.nakOut then s
    else sendFlit (modLink s n fun l => { l with nakOut := true }) n 6 0 false 0 []
  else s)

/-- Resend everything unacknowledged, or take an UP link to DRAINING when a SEQ has been sent 8 times, with the fault reported (R350). A
DRAINING link goes on resending while it has lock (R362). -/
def replayAll (s : State) (n : LinkIx) : State :=
  let l := linkOf s n
  if l.replay.isEmpty || l.state == .down || !l.fecLock then s
  else if l.state == .up && l.replay.any fun x => 8 ≤ x.2.2 then
    let s := tallyFault s anyTarn (mkUnit kLink n) 1 0
    let s := match linkOwner s n with
      | some t => adviseUnit s t (mkUnit kLink n)
      | none => s
    linkDrain s n 3
  else resendAll (modLink s n fun l => { l with replays := l.replays + 1 }) n

/-- NAK_RECEIVED (R350). -/
def execNakReceived (n : LinkIx) (flit : Bytes) (s : State) : Host.Outcome State Fault Refusal :=
  .next (if running s then
    let (ok, s) := flitIn s n flit
    if ok && bits (leNat (flit.take 8)) 3 0 == 6 then linkPump (replayAll s n) n else s
  else s)

/-- REPLAY_TIMEOUT (R350) (DESIGN CHOICE, log 58). -/
def execReplayTimeout (n : LinkIx) (s : State) : Host.Outcome State Fault Refusal :=
  .next (if running s then replayAll s n else s)

/-- ACK_DEADLINE (R349) (DESIGN CHOICE, log 58). -/
def execAckDeadline (n : LinkIx) (s : State) : Host.Outcome State Fault Refusal :=
  .next (if running s && 0 < (linkOf s n).unackedRx then sendAck s n else s)

/-- IDLE_FLIT (R342, R348). -/
def execIdleFlit (n : LinkIx) (flit : Bytes) (s : State) : Host.Outcome State Fault Refusal :=
  .next (if running s then linkPump (flitIn s n flit).2 n else s)

/-- BEAT_FLIT (R367 to R369). -/
def execBeatFlit (n : LinkIx) (flit : Bytes) (arrivalPs : Ps) (s : State) : Host.Outcome State Fault Refusal :=
  .next (if running s && (linkOf s n).mode == .fabric then
    let (ok, s) := flitIn s n flit
    if ok && bits (leNat (flit.take 8)) 3 0 == 3 then takeBeat s n flit arrivalPs else s
  else s)

/-- DELAY_REQ (R368): answered with t2 and t3, in picoseconds (DESIGN CHOICE, log 87). -/
def execDelayReq (n : LinkIx) (flit : Bytes) (stamps : Ps × Ps) (s : State) : Host.Outcome State Fault Refusal :=
  .next (if running s && (linkOf s n).mode == .fabric && (linkOf s n).state == .up then
    let (ok, s) := flitIn s n flit
    if ok && bits (leNat (flit.take 8)) 3 0 == 4 then
      sendFlit s n 5 0 false 0 (leBytes 8 (stamps.1 % 2 ^ 64).toNat ++ leBytes 8 (stamps.2 % 2 ^ 64).toNat)
    else s
  else s)

/-- DELAY_RESP (R368): t2 and t3 stand in the flit, t1 and t4 are the follower's own times (DESIGN CHOICE, log 87). -/
def execDelayResp (n : LinkIx) (header rest : Bytes) (t1 t4 : Ps) (s : State) : Host.Outcome State Fault Refusal :=
  .next (if running s && (linkOf s n).mode == .fabric then
    let flit := header ++ rest
    let (ok, s) := flitIn s n flit
    if ok && bits (leNat (flit.take 8)) 3 0 == 5 && s.timing.upstream == some n then
      { s with timing := { s.timing with
          linkDelay := s.timing.linkDelay.set n (delayOf t1 (signed64 (field flit 8 8)) (signed64 (field flit 16 8)) t4) } }
    else s
  else s)

/-! HELLO -/

/-- Send a HELLO (R360). -/
def sendHello (s : State) (n : LinkIx) : State :=
  let l := linkOf s n
  if (l.mode == .fabric || l.mode == .edge) && l.state != .down then sendFlit s n 2 0 false 0 (peerBytes (ownPeer s n)) else s

/-- The cause of a drain has gone (R361). -/
def causeGone (l : Link) (p : Peer) : Bool :=
  match l.cause with
  | 2 => l.fecLock
  | 3 => l.replay.isEmpty
  | 4 => l.tagFails < 16
  | 5 => p.state != 3
  | 6 => false
  | 7 => l.fecLock
  | _ => true

/-- A valid HELLO (R360, R361, R373 to R375): peer data, the successive-bar count, and the state it leads to. -/
def takeHello (s : State) (n : LinkIx) (p : Peer) : State :=
  let l := linkOf s n
  if p.serial == deviceSerial s then modLink s n fun l => { l with loopback := true, hellos := 0 }
  else if p.mode != linkModeCode l.mode then modLink s n fun l => { l with modeMismatch := true, hellos := 0 }
  else
    let bar := s.beat - s.pos
    let good := p.seen == (deviceSerial s)
    let count := if !good then 0 else if l.hellos == 0 then 1 else if l.helloBeat == bar then l.hellos
      else if l.helloBeat + barBeats s == bar then l.hellos + 1 else 1
    let back := l.silentBars < 3
    let s := modLink s n fun l => { l with peer := some p, hellos := count, helloBeat := bar, silentBars := 0, heard := s.beat }
    let s := modLink s n fun l => { l with deviceConflict := numberConflict s p.deviceNo }
    let s := match (linkOf s n).state with
      | .training => tryUp s n
      | .up => if p.state == 3 then linkDrain s n 5 else s
      | .draining => if causeGone (linkOf s n) p && back && !(linkOf s n).opDrain then linkMove s n .up 0 else s
      | .down => s
    let s := chooseLeader s
    { s with routesNext := computeRoutes s }

/-- Traffic of the other kind on a link in TRAINING shows that its ends are set to different modes (R373): flits at an INTAKE end, frames
at a FABRIC or EDGE end. -/
def otherMode (s : State) (n : LinkIx) (here : LinkMode) : State :=
  modLink s n fun l => if l.state == .training && l.mode == here then { l with modeMismatch := true } else l

/-- HELLO_RECEIVED (R360, R361). -/
def execHelloReceived (n : LinkIx) (flit : Bytes) (s : State) : Host.Outcome State Fault Refusal :=
  .next (if running s then
    let (ok, s) := flitIn (otherMode s n .intake) n flit
    let b := slice flit 8 240
    if ok && bits (leNat (flit.take 8)) 3 0 == 2 && field b 0 2 == 1 then takeHello s n (helloOf b) else s
  else s)

/-! Remote accesses at their destination -/

/-- Answer a remote access (R345). -/
def respond (s : State) (n : LinkIx) (h : MsgHeader) (op : Nat) (st : Status) (data : Bytes) : State :=
  let t : TarnIx := ⟨h.destTarn % 8, Nat.mod_lt _ (by decide)⟩
  let out := (routeFor s t h.src).getD n
  sendMessage s out 2 0 (msgBytes { h with
    op, dest := h.src, src := s.timing.deviceNo, hops := 0, destTarn := h.srcTarn, srcTarn := h.destTarn, addr := 0,
    len := data.length, status := statusCode st } ++ data)

/-- A request of operation `op` at the head of a link's REQUEST channel (R345): performed as its check at arrival said, and answered. A
request to a stack in thermal hold waits (R236) (DEDUCED, log 28). -/
def remoteServe (s : State) (n : LinkIx) (op : Nat) : State :=
  match firstOf (linkOf s n) 1 with
  | none => s
  | some m =>
    let h := msgOf m.bytes
    let data := m.bytes.drop 32
    let verdict := if m.verdict.isNone && data.length != (if op == 3 then 0 else h.len) then some Status.badCommand else m.verdict
    if h.op != op || h.dest != s.timing.deviceNo.val then s
    else match verdict with
      | some st => respond (popMessage s n 1) n h 6 st []
      | none =>
        if touchesHold s h.addr h.len then s
        else
          let s := popMessage s n 1
          if op == 1 then respond (devWrite s h.addr data) n h 5 .ok []
          else if op == 3 then
            if poisoned s h.addr h.len then respond s n h 6 .dataLost [] else respond s n h 4 .ok (devRead s h.addr h.len)
          else match atomicApply s h.ty h.addr data with
            | (none, s) => respond s n h 5 .ok []
            | (some st, s) => respond s n h 6 st []

/-- REMOTE_WRITE (R345). -/
def execRemoteWrite (n : LinkIx) (s : State) : Host.Outcome State Fault Refusal := .next (if running s then remoteServe s n 1 else s)

/-- REMOTE_ATOMIC (R345). -/
def execRemoteAtomic (n : LinkIx) (s : State) : Host.Outcome State Fault Refusal := .next (if running s then remoteServe s n 2 else s)

/-- REMOTE_READ (R345). -/
def execRemoteRead (n : LinkIx) (s : State) : Host.Outcome State Fault Refusal := .next (if running s then remoteServe s n 3 else s)

/-! Responses -/

/-- A response at the head of a link's RESPONSE channel, for this device. -/
def responseOf (s : State) (n : LinkIx) (op : Nat) : Option (MsgHeader × Bytes) :=
  match firstOf (linkOf s n) 2 with
  | none => none
  | some m =>
    let h := msgOf m.bytes
    if h.op == op && h.dest == s.timing.deviceNo.val then some (h, m.bytes.drop 32) else none

/-- A Tarn's messages may come in on a link: it owns it, or a change that took the link from it has not drained (R339, R378). -/
def linkServes (s : State) (n : LinkIx) (t : TarnIx) : Bool :=
  linkOwner s n == some t || s.rules.any fun r => r.d.isNone && r.tarn == some t && r.takes.contains (.link n)

/-- The access that a response answers, on a link that may carry it. -/
def answered (s : State) (n : LinkIx) (h : MsgHeader) : Option Remote :=
  s.remotes.find? fun m => m.tag == h.tag && linkServes s n m.tarn

/-- An access is answered: its tile waits for it no longer (R347). -/
def remoteDone (s : State) (m : Remote) : State :=
  let s := { s with remotes := s.remotes.filter fun x => x.tag != m.tag }
  modTile s m.group m.tile fun r => { r with remote := r.remote.filter (· != m.tag) }

/-- READ_DATA (R128): the data go to the issuing tile's scratchpad. -/
def execReadData (n : LinkIx) (s : State) : Host.Outcome State Fault Refusal :=
  .next (if running s then match responseOf s n 4 with
    | none => s
    | some (h, data) =>
      let s := popMessage s n 2
      match (answered s n h).filter fun m => m.op == 3 with
      | none => s
      | some m =>
        let s := match figOf s m.group with
          | some f => if f.uid == m.uid then
              modTile s m.group m.tile fun r => { r with scratch := (scrWrite (scrOf f m.tile r) m.spOff (data.take m.len)).cells }
            else s
          | none => s
        remoteDone s m
  else s)

/-- DONE (R347). -/
def execDone (n : LinkIx) (s : State) : Host.Outcome State Fault Refusal :=
  .next (if running s then match responseOf s n 5 with
    | none => s
    | some (h, _) =>
      let s := popMessage s n 2
      match answered s n h with
      | some m => remoteDone s m
      | none => s
  else s)

/-- REFUSED (R346). -/
def execRefused (n : LinkIx) (s : State) : Host.Outcome State Fault Refusal :=
  .next (if running s then match responseOf s n 6 with
    | none => s
    | some (h, _) =>
      let s := popMessage s n 2
      match answered s n h with
      | some m => failRemote s m (statusOfCode h.status)
      | none => s
  else s)

/-- REMOTE_RESPONSE_TIMEOUT (R346). -/
def remoteExpire (s : State) (tag : BitVec 32) : State :=
  match s.remotes.find? fun m => m.tag == tag with
  | some m => if m.beat + 2 * barBeats s ≤ s.beat then failRemote s m .timeout else s
  | none => s

/-- REMOTE_RESPONSE_TIMEOUT. -/
def execRemoteResponseTimeout (tag : BitVec 32) (s : State) : Host.Outcome State Fault Refusal :=
  .next (if running s then remoteExpire s tag else s)

/-- Order in which VC 1 serves a CLASS code (R343, Table 08-4). -/
def codeRank (c : Nat) : Nat :=
  match classOf c with
  | some x => classRank x
  | none => 4

/-- MESSAGE_FORWARD (R343, R365, R366): the first message for another device goes on, on its channel, with HOPS raised; one with no
onward route is dropped. -/
def execMessageForward (n : LinkIx) (s : State) : Host.Outcome State Fault Refusal :=
  .next (if running s then
    match (linkOf s n).inbox.find? fun m => byteAt m.bytes 1 != s.timing.deviceNo.val with
    | none => s
    | some m =>
      let msg := m.bytes
      let s := modLink s n fun l => { l with inbox := l.inbox.erase m }
      let hops := byteAt msg 3 % 16
      let edge := bit (byteAt msg 3) 4 || (linkOf s n).mode == .edge
      match forwardLink s n (byteAt msg 1) (hops + 1) edge with
      | none => s
      | some out => sendMessage s out m.vc (codeRank (byteAt msg 6))
          (msg.set 3 (BitVec.ofNat 8 (hops + 1 + 16 * b2n (edge || (linkOf s out).mode == .edge))))
  else s)

/-! Sessions -/

/-- Lexicographic order of byte strings. -/
def bytesLe : Bytes → Bytes → Bool
  | [], _ => true
  | _ :: _, [] => false
  | a :: x, b :: y => if a == b then bytesLe x y else a.toNat < b.toNat

/-- The key that signs for this device on a link, its public key and the identity that enters the derivation (R352). -/
def linkIdentity (s : State) (n : LinkIx) : Nat × Bytes :=
  if (linkOf s n).mode == .edge then (aliasKey s, deviceSerial s)
  else match linkOwner s n with
    | some t => match tarnOf s t with
      | some x => (x.attKey, sha384 (sec1 p384 (ecPub p384 x.attKey)))
      | none => (0, [])
    | none => (0, [])

/-- The ephemeral key of the agreement: the one sent when the link entered TRAINING, or a fresh one that is sent now. -/
def ownEphemeral (s : State) (n : LinkIx) : Nat × State :=
  let s := if (linkOf s n).eph.isSome then s else sendEphemeral s n
  ((linkOf s n).eph.getD 0, modLink s n fun l => { l with eph := none })

/-- Send the signature and the certificate chain of step 2 of R352 (DESIGN CHOICE, log 87). -/
def sendIdentity (s : State) (n : LinkIx) (sig : Bytes) : State :=
  if (linkOf s n).mode == .edge then sendMessage s n 0 0 (linkMsg s 7 s.timing.deviceNo (sig ++ certChain s none))
  else (chunks 9000 (sig ++ certChain s (linkOwner s n))).foldl (fun s b => sendIntake s n 4 2 b) s

/-- A partner that does not pass is refused (R352): the link stays out of UP, and leaves it. -/
def refusePartner (s : State) (n : LinkIx) : State :=
  let s := modLink s n fun l => { l with partnerOk := false }
  if (linkOf s n).state == .up then linkDown s n 8 else tallyLink s n (linkOf s n).state (linkOf s n).state 8

/-- Frames and messages that waited for a session go out (R377). -/
def sendWaiting (s : State) (n : LinkIx) : State :=
  let l := linkOf s n
  linkPump (l.waiting.foldl (fun s x => sendIntake s n x.1 x.2.1 x.2.2) (modLink s n fun l => { l with waiting := [] })) n

/-- The agreement of R352: signed ephemeral keys, the allow list, and the derived keys. The direction from the end whose identity
comes first takes the first key. The setup messages of the partner are taken with it (R351). -/
def agreeKeys (s : State) (n : LinkIx) (p : LinkPartner) : State :=
  let setup := fun (m : InMsg) => m.vc == 0 && (byteAt m.bytes 0 == 6 || byteAt m.bytes 0 == 7)
  let s := modLink s n fun l => { l with
    inbox := l.inbox.filter fun m => !setup m
    tx := if sessionOver l then {} else l.tx, rx := if sessionOver l then {} else l.rx }
  let (d, s) := ownEphemeral s n
  let eph := sec1 p384 (ecPub p384 d)
  let (key, me) := linkIdentity s n
  let (sig, s) := signWith s key (eph ++ p.ephemeral)
  let s := sendIdentity s n sig
  let owner := match linkOwner s n with
    | some t => t.val
    | none => anyTarn
  match unSec1 p384 p.ephemeral with
  | none => refusePartner s n
  | some q =>
    if s.mgmt.allow.contains (sha384 p.signer) && ecdsaVerify p.signer (sha384 (p.ephemeral ++ eph)) p.sig then
      let z := (ecdh p384 d q).getD []
      let first := bytesLe me p.identity
      let info := ascii "GZ8-SPILLWAY-1" ++ (if first then me ++ p.identity else p.identity ++ me)
      let k := hkdf384 [] z info 72
      let a : DirKey := { key := k.take 32, salt := slice k 32 4 }
      let b : DirKey := { key := slice k 36 32, salt := slice k 68 4 }
      let s := modLink s n fun l => { l with
        partnerOk := true, tagFails := 0, intakeCtr := 0, tx := if first then a else b, rx := if first then b else a }
      sendWaiting (tryUp (tallySession s owner 6 n) n) n
    else refusePartner s n

/-- LINK_KEY_AGREEMENT (R352). -/
def execLinkKeyAgreement (n : LinkIx) (p : LinkPartner) (s : State) : Host.Outcome State Fault Refusal :=
  .next (let l := linkOf s n
    if running s && ((l.mode == .edge && l.state == .training) || (l.mode == .intake && (l.state == .training || l.state == .up)))
    then agreeKeys s n p else s)

/-- LINK_KEY_REPLACE (R353). -/
def execLinkKeyReplace (n : LinkIx) (s : State) : Host.Outcome State Fault Refusal :=
  .next (if running s then replaceKeys s n else s)

/-- LINK_SESSION_RENEW (R353, R377): at 2^48 transmissions a new agreement runs without leaving UP. -/
def execLinkSessionRenew (n : LinkIx) (p : LinkPartner) (s : State) : Host.Outcome State Fault Refusal :=
  .next (let l := linkOf s n
    if running s && l.state == .up && sessionOver l then agreeKeys s n p else s)

/-! INTAKE records -/

/-- The intake header, data and tag of a frame (R355): past the addresses, at most one IEEE 802.1Q tag and the EtherType. -/
def intakeBody (frame : Bytes) : Option Bytes :=
  if 9212 < frame.length then none
  else if beNat (slice frame 12 2) == 0x88B5 then some (frame.drop 14)
  else if beNat (slice frame 12 2) == 0x8100 && beNat (slice frame 16 2) == 0x88B5 then some (frame.drop 18)
  else none

/-- Receive a frame (R356): FCS, tag and COUNTER. The result is the intake header and the data. -/
def intakeIn (s : State) (n : LinkIx) (frame : Bytes) (fcsOk : Bool) : Option (Bytes × Bytes) × State :=
  let l := linkOf s n
  match if fcsOk && l.state == .up && l.mode == .intake && l.partnerOk then intakeBody frame else none with
  | none => (none, s)
  | some b =>
    let len := field b 0x1C 2
    let c := field b 4 8
    let d := keyFor l.rx c
    if b.length < 48 + len || byteAt b 0 != 1 || !allZero (slice b 2 2) || c < l.intakeCtr || 2 ^ 48 ≤ c then (none, s)
    else if gmac d.key (gmacNonce d c) (b.take (32 + len)) == slice b (32 + len) 16 then
      (some (b.take 32, slice b 32 len),
       replaceKeys (modLink s n fun l => { l with intakeCtr := c + 1, rx := { l.rx with ctr := c }, peerMac := slice frame 6 6 }) n)
    else (none, modLink s n fun l => { l with tagFails := l.tagFails + 1 })

/-- End a partial record: its staging slot is freed and its outcome is sent (R357). -/
def endPart (s : State) (n : LinkIx) (t : TarnIx) (q : IntakePart) (st : Status) : State :=
  let s := touchRound (dropPart s n q) t q.round
  let s := match q.slot with
    | some i => modSlotOf s t q.round i {}
    | none => s
  sendOutcome s n q.round q.contrib st

/-- Add a frame's data to the partial record that its ROUND_ID and CONTRIB name (R357). A frame that continues none starts one, which a
granted credit permits (R358); one that starts none, without a credit or not at OFFSET 0, is dropped (DEDUCED, log 86). The bytes are held
until a lane works for the Tarn (R242). -/
def addPart (s : State) (n : LinkIx) (t : TarnIx) (h data : Bytes) : State :=
  let rid := field h 0x0C 4
  let c := field h 0x10 4
  let off := field h 0x14 8
  let grow := fun (s : State) (q : IntakePart) =>
    let q' := { q with got := q.got + data.length, held := q.held ++ data, last := s.beat }
    let s := touchRound (setPart s n q q') t rid
    let s := match q.slot with
      | some i => modRound s t rid fun r => { r with slots := r.slots.modify i fun x => match x.state with
          | .receiving b _ => { x with state := .receiving b s.beat }
          | _ => x }
      | none => s
    pumpPart s t (n, q')
  let start := fun (s : State) =>
    if off != 0 || (linkOf s n).granted == 0 then s
    else
      let q : IntakePart := { round := rid, contrib := c, last := s.beat }
      grow (modLink s n fun l => { l with granted := l.granted - 1, parts := l.parts ++ [q] }) q
  match (linkOf s n).parts.find? fun q => q.round == rid && q.contrib == c with
  | none => start s
  | some q => if off == q.got then grow s q else start (endPart s n t q .badCommand)

/-- RECORD_PART (R356, R357). -/
def execRecordPart (n : LinkIx) (frame : Bytes) (fcsOk : Bool) (s : State) : Host.Outcome State Fault Refusal :=
  .next (if running s then
    match intakeIn (otherMode (otherMode s n .fabric) n .edge) n frame fcsOk with
    | (none, s) => modLink s n fun l => { l with rejected := l.rejected + 1 }
    | (some (h, data), s) => match linkOwner s n with
      | some t => if byteAt h 1 == 1 && fwUp s then addPart s n t h data else s
      | none => s
  else s)

/-! The links' part of a seam -/

/-- An INTAKE link that no Tarn owns goes DOWN (R339), once a change that took it has drained (R378). -/
def intakeOwned (s : State) (n : LinkIx) : State :=
  let l := linkOf s n
  let draining := s.rules.any fun r => r.d.isNone && r.takes.contains (.link n)
  if l.mode == .intake && l.state != .down && (linkOwner s n).isNone && !draining then linkDown s n 6 else s

/-- At the end of a bar: counts of the bar start again, and links whose HELLO has been missing move (R354, R360, R361). -/
def linksBarEnd (s : State) : State :=
  let s := { s with links := s.links.map fun l => { l with
    tagFails := 0, silentBars := l.silentBars + 1, lockBars := if l.fecLock then 0 else l.lockBars + 1 } }
  (List.finRange 12).foldl (fun s n => intakeOwned (drainExpire (helloExpire s n) n) n) s

/-- At the start of a beat: BEAT flits of the leader, and at the start of a bar the HELLOs, route updates and the follower's DELAY_REQ
(R360, R364, R367, R368). -/
def linksBeatStart (s : State) : State :=
  let s := if isBeatLeader s then (fabricUp s).foldl (fun s n => sendBeat s n 0) s else s
  if s.pos != 0 then s
  else
    let s := (List.finRange 12).foldl sendTopo ((List.finRange 12).foldl sendHello s)
    match s.timing.upstream with
    | some n => if timingNow s == .link && (linkOf s n).state == .up then sendFlit s n 4 0 false 0 [] else s
    | none => s

/-- Remote accesses whose response is 2 bars late end (R346). -/
def remotesExpire (s : State) : State := (s.remotes.map (·.tag)).foldl remoteExpire s

end Sys2Proof.Machine
end

