-- ==== Sys2Proof/Machine/Units.lean ====
section
/-! DEFINITION. Failed and retired units: what each takes from running work, how spares and the spare area absorb it, and which
tests run on a unit (R110 to R112, R233 to R235, R272, R289, R290, R330, R331, R568, R576 to R582, R634 to R639, R654). -/

namespace Sys2Proof.Machine

/-! Reports -/

/-- The Tarns that own a memory unit of a stack. -/
def stackTarns (s : State) (st : Nat) : List TarnIx :=
  allTarns.filter fun t => live s t && (upto 32).any fun u => (entryOf s t).memUnits.getLsbD (32 * st + u)

/-- The Tarns that a unit's failure touches. -/
def unitTarns (s : State) (u : UnitId) : List TarnIx :=
  let i := u.index.toNat
  let own := fun (r : Resource) => (resOwner s r).toList
  match u.kind.toNat with
  | 0x01 => own (.tileGroup (Fin.ofNat 16 (i / 8)))
  | 0x02 => own (.tileGroup (Fin.ofNat 16 i))
  | 0x03 => stackTarns s (i / 32)
  | 0x04 => stackTarns s (i / 32)
  | 0x05 => own (.memUnit (Fin.ofNat 8 (i / 32)) (Fin.ofNat 32 i))
  | 0x06 => own (.lane (Fin.ofNat 16 i))
  | 0x07 => own (.kaeGroup (Fin.ofNat 8 (i / 8)))
  | 0x08 => allTarns.filter fun t => live s t && (entryOf s t).lanes != 0
  | 0x09 => own (.link (Fin.ofNat 12 (i / 8)))
  | 0x0A => own (.link (Fin.ofNat 12 i))
  | _ => allTarns.filter (live s)

/-- The TARN field of a unit's FAULT entries: the one Tarn touched, else the device (DEDUCED, log 73). -/
def unitTarnField (s : State) (u : UnitId) : Nat :=
  match unitTarns s u with
  | [t] => t.val
  | _ => anyTarn

/-- Device address of a unit, for those that are memory (DEDUCED, log 73). -/
def unitAddr (u : UnitId) : Nat :=
  let i := u.index.toNat
  if u.kind == kChan || u.kind == kReel then linAddr i 0
  else if u.kind == kMem then linAddr (i / 32 * 32) (i % 32 * 2 ^ 25)
  else 0

/-- FAULT entry of a unit (DEDUCED, log 73). -/
def noteUnit (s : State) (u : UnitId) (action : Nat) (ticketId : BitVec 32 := 0xFFFFFFFF) : State :=
  tallyFault s (unitTarnField s u) u action (unitAddr u) ticketId

/-- The ticket concerned by the failure of a tile or tile group: that of the figure it stopped (DEDUCED, log 73). -/
def unitTicket (s : State) (u : UnitId) : BitVec 32 :=
  let i := u.index.toNat
  let g := if u.kind == kTile then some (i / 8) else if u.kind == kGroup then some i else none
  if u.kind == kTile && s.units.tileTesting.getLsbD i then 0xFFFFFFFF
  else match g.bind (figOf s) with
    | some f => if f.fault.isSome && f.cycles.isNone then (match ticketOf s f.uid with
        | some k => k.ledger.ticketId
        | none => 0xFFFFFFFF) else 0xFFFFFFFF
    | none => 0xFFFFFFFF

/-- Detected, when it failed; retired; and the advisory to each Tarn touched. -/
def reportUnit (s : State) (u : UnitId) (failed : Bool) : State :=
  let id := unitTicket s u
  let s := if failed then noteUnit s u 1 id else s
  (unitTarns s u).foldl (fun s t => adviseUnit s t u id) (noteUnit s u 2 id)

/-- A ticket that a recovery action ends keeps RECOVERING set until its completion is posted (R568). -/
def recoverTicket (s : State) (uid : Nat) : State :=
  match ticketOf s uid with
  | some k => if ticketRuns k then modFn s k.tarn fun f => { f with recovering := if f.recovering.contains uid then f.recovering else uid :: f.recovering } else s
  | none => s

/-- A figure that a failed unit stops: its ticket ends (R567). -/
def killFigure (s : State) (g : Nat) (st : Status) : State :=
  match figOf s g with
  | some f => if f.cycles.isSome then s else figFault (recoverTicket s f.uid) g st
  | none => s

/-- A resource that is owned by no Tarn and FREE becomes RETIRED. -/
def retireRes (s : State) (r : Resource) : State := if statOf s r == .free && (resOwner s r).isNone then setStat s r .retired else s

/-! Self-tests -/

/-- The resources that a test takes, and that are scrubbed after it (R637, R638, Table 10-7). -/
def bistRes (u : UnitId) : List Resource :=
  if u.kind == kChan then (List.finRange 32).map fun x => .memUnit (Fin.ofNat 8 (u.index.toNat / 32)) x
  else (testRes u).toList

/-- Set or clear the marks of a unit that is out of service for a test (R637). -/
def setTesting (s : State) (u : UnitId) (on : Bool) : State :=
  let i := u.index.toNat
  let put := fun {n : Nat} (m : BitVec n) => if on then m ||| BitVec.ofNat n (2 ^ i) else m &&& ~~~ BitVec.ofNat n (2 ^ i)
  if u.kind == kTile then { s with units := { s.units with tileTesting := put s.units.tileTesting } }
  else if u.kind == kLane then { s with units := { s.units with laneTesting := put s.units.laneTesting } }
  else if u.kind == kKae then
    let m := BitVec.ofNat 8 (2 ^ (i / 8))
    { s with units := { s.units with kaeTesting := if on then s.units.kaeTesting ||| m else s.units.kaeTesting &&& ~~~m } }
  else if u.kind == kMem then { s with units := { s.units with memTesting := put s.units.memTesting } }
  else s

/-- A test has ended with its values: the scrub of what it took follows (R635, R637). -/
def bistEnds (s : State) (u : UnitId) (st : Status) (sig expected : BitVec 32) : State :=
  match s.bists.find? fun b => b.unit == u && b.stage ≤ 2 with
  | none => s
  | some b =>
    let rs := bistRes u
    let s := rs.foldl (fun s r => setStat s r .scrubbing) s
    { s with
      scrubs := s.scrubs ++ (rs.filter fun r => !(s.scrubs.any fun x => x.1 == r)).map fun r => (r, s.beat)
      bists := s.bists.map fun x => if x == b then { x with stage := 3, status := st, sig, expected } else x }

/-- A unit that fails while it is tested ends its test (R654) (DEDUCED, log 36). -/
def failTest (s : State) (u : UnitId) : State :=
  let under := s.bists.filter fun b => b.stage ≤ 2 && (b.unit == u || (u.kind == kKae && b.unit.kind == kKae && b.unit.index.toNat / 8 == u.index.toNat / 8))
  under.foldl (fun s b => bistEnds s b.unit .unitFailed 0 0) s

/-- Step 5 for tests whose scrub has ended (R637, R638): the resource returns, and the command gets its outcome. -/
def settleBist (s : State) (b : Bist) : State :=
  let rs := bistRes b.unit
  if b.stage == 3 && rs.all fun r => !(s.scrubs.any fun x => x.1 == r) then
    let later := fun (r : Resource) => s.rules.any fun c => c.takes.contains r
    let s := rs.foldl (fun s r =>
      if statOf s r == .scrubbed then setStat s r (if later r then .scrubbing else if resRetired s r then .retired else .free) else s) s
    let s := setTesting { s with bists := s.bists.filter (· != b) } b.unit false
    let s := match b.uid with
      | some uid => if b.status == .ok then finishTicket s uid b.sig.toNat b.expected.toNat
        else answerTicket s uid b.status b.sig.toNat b.expected.toNat
      | none => s
    match b.gmp with
    | some (ch, req) => gmpReply s ch req b.status (leBytes 4 b.sig.toNat ++ leBytes 4 b.expected.toNat)
    | none => s
  else s

/-- Step 5 for all tests. -/
def settleBists (s : State) : State := s.bists.foldl settleBist s

/-! Tiles -/

/-- Tiles of a group that have failed and have no spare in their place. -/
def failedTiles (s : State) (g : Nat) : Nat := ((upto 8).filter fun i => s.units.tileFailed.getLsbD (8 * g + i)).length

/-- A tile group left with fewer than 7 working tiles is retired as a whole (R576). -/
def retireGroup (s : State) (g : GroupIx) : State :=
  if 2 ≤ failedTiles s g && !s.units.groupRetired.getLsbD g then
    let s := { s with units := { s.units with groupRetired := s.units.groupRetired ||| BitVec.ofNat 16 (2 ^ g.val) } }
    retireRes (reportUnit (killFigure s g .unitFailed) (mkUnit kGroup g) false) (.tileGroup g)
  else s

/-- Retire a tile (R111, R576): the scrub of the quadrant's spare, when it has one, starts in this seam. -/
def retireTile (s : State) (tile : Nat) (failed : Bool) : State :=
  if s.units.tileFailed.getLsbD tile then s
  else
    let q := tile / 32
    let u := mkUnit kTile tile
    let s := failTest s u
    let spare := s.units.spares.getD q .failed == .idle
    let s := { s with units := { s.units with
      tileFailed := s.units.tileFailed ||| BitVec.ofNat 128 (2 ^ tile)
      spares := if spare then s.units.spares.set q .scrubbing else s.units.spares
      spareFor := if spare then s.units.spareFor.set q (some tile) else s.units.spareFor } }
    retireGroup (reportUnit s u failed) (Fin.ofNat 16 (tile / 8))

/-- The scrub of a spare has ended by the seam after its start, and its tests follow (R459, R639) (DESIGN CHOICE, log 31). -/
def stepSpares (s : State) : State :=
  { s with units := { s.units with spares := s.units.spares.map fun x => if x == .scrubbing then .testing1 else x } }

/-- A test of a spare, named by the logical tile it is to stand in for, has ended (R639). -/
def spareTest (s : State) (tile code : Nat) (pass : Bool) : State :=
  let q := tile / 32
  if s.units.spareFor.getD q none != some tile then s
  else
    let now := s.units.spares.getD q .idle
    let set := fun (x : SpareState) => { s with units := { s.units with spares := s.units.spares.set q x } }
    match now, code with
    | .testing1, 1 => set (if pass then .testing2 else .failed)
    | .testing2, 2 => set (if pass then .ready else .failed)
    | _, _ => s

/-- A spare takes the logical number of its tile (R111, R698). -/
def placeSpare (s : State) (q : Nat) : State :=
  match s.units.spares.getD q .idle, s.units.spareFor.getD q none with
  | .ready, some tile =>
    let s := { s with units := { s.units with
      spares := s.units.spares.set q .used
      tileMap := s.units.tileMap.set tile (33 * q + 32)
      tileFailed := s.units.tileFailed &&& ~~~ BitVec.ofNat 128 (2 ^ tile) } }
    noteUnit s (mkUnit kTile tile) 3
  | _, _ => s

/-! Memory -/

/-- Channels of a stack that take remapped data: they work and none of them is retired (DESIGN CHOICE, log 31). -/
def spareHosts (s : State) (st : Nat) : List Nat :=
  ((upto 32).map (32 * st + ·)).filter fun i => s.units.chans.getD i .working == .working

/-- Free places for unit slices in a stack's spare area: each working channel holds two (R579) (DESIGN CHOICE, log 31). -/
def spareRoom (s : State) (st : Nat) : List Nat :=
  ((spareHosts s st).map fun h => List.replicate (2 - (s.units.remapped.filter fun x => x.2.2 == h).length) h).flatten

/-- Words of a channel's unit slice. -/
def sliceWords (ch u : Nat) : Nat × Nat := ((ch * 2 ^ 30 + u * 2 ^ 25) / 32, (ch * 2 ^ 30 + u * 2 ^ 25) / 32 + 2 ^ 20)

/-- Poison the words of a channel from a channel-local offset to another. -/
def poisonSlice (s : State) (ch u from_ : Nat) : State :=
  let w := sliceWords ch u
  let lo := max w.1 ((ch * 2 ^ 30 + from_) / 32)
  if lo < w.2 then { s with poison := (lo, w.2) :: s.poison } else s

/-- Retire a memory unit (R579, R653). -/
def retireMem (s : State) (k : Nat) (failed : Bool) : State :=
  if s.units.memRetired.getLsbD k then s
  else
    let s := failTest s (mkUnit kMem k)
    let s := { s with units := { s.units with memRetired := s.units.memRetired ||| BitVec.ofNat 256 (2 ^ k) } }
    retireRes (reportUnit s (mkUnit kMem k) failed) (.memUnit (Fin.ofNat 8 (k / 32)) (Fin.ofNat 32 k))

/-- A live round loses an image with a unit (R264, R272, R290): with a mirror the round goes on degraded, without one it aborts. With a
channel the staged records go too and claims not yet logged are released; a Reel unit leaves them, and an interrupted fold is repeated. -/
def imageFails (s : State) (t : TarnIx) (rid : Nat) (staged : Bool) : State :=
  match roundOf s t rid with
  | none => s
  | some r =>
    if !(r.state == .opening || rstateLive r.state) then s
    else
      let s := if staged then dropSlots s t rid .unitFailed else s
      if r.plan.mirror then
        if r.mirrorDegraded then s
        else roundEvent (modRound s t rid fun r => { r with mirrorDegraded := true }) t rid 6 .unitFailed
      else modRound s t rid fun r => { r with abortAsked := some (r.abortAsked.getD .roundAborted) }

/-- Every live round whose region satisfies a condition loses an image (DEDUCED, log 32). -/
def imagesFail (s : State) (hit : Plan → Bool) (staged : Bool) : State :=
  allTarns.foldl (fun s t => match tarnOf s t with
    | none => s
    | some n => ((n.rounds.filter fun r => hit r.plan).map fun r => r.plan.roundId).foldl (fun s rid => imageFails s t rid staged) s) s

/-- The copies that a channel held of mirrored rounds are rebuilt from the surviving ones (R272): the accumulator of its chain position from
the mirror 32 positions on, and the mirror it held from the accumulator 32 positions back. Failures of one seam are taken one by one, so
the other copy is whole by then (DEDUCED, log 32). -/
def rebuildImages (s : State) (ch : Nat) : State :=
  allTarns.foldl (fun s t => match tarnOf s t with
    | none => s
    | some n => (n.rounds.filter fun r => r.plan.mirror && rstateLive r.state).foldl (fun s r =>
        let p := r.plan
        let len := imageLen p
        copyImage (copyImage s len (imageKey p 0 ch) (imageKey p 1 (ch + 32))) len (imageKey p 1 ch) (imageKey p 0 (ch + 224))) s) s

/-- Find room for unit slices, in order: those moved, and those for which the area has no space (R579) (DESIGN CHOICE, log 31). -/
def findRoom : List (Nat × Nat) → List Nat → List (Nat × Nat × Nat) × List (Nat × Nat)
  | [], _ => ([], [])
  | x :: xs, [] => ([], x :: xs)
  | x :: xs, h :: hs =>
    let (a, b) := findRoom xs hs
    ((x.1, x.2, h) :: a, b)

/-- Memory units that leave service take the images in them along (R653). -/
def retireMems (s : State) (st : Nat) (us : List Nat) : State :=
  let s := us.foldl (fun s u => retireMem s (32 * st + u) false) s
  if us.isEmpty then s else imagesFail s (fun p => us.any fun u => p.u0 ≤ u && u < p.u0 + p.units) true

/-- Retire a channel, or lose it (R577 to R579): slices that its spare area held, then its own in ascending order, go to the rest of
the stack's spare area; memory units without room are retired. A lost channel's words, its own and those its spare area held, are poisoned
where they were not copied (DESIGN CHOICE, log 22; DEDUCED, log 32).
Rounds lose their images with a channel that is lost, or retired on its error rate (R578, R653), not with one that the operator retires. -/
def retireChan (s : State) (ch : Nat) (lost failed rate : Bool) : State :=
  let now := s.units.chans.getD ch .lost
  let u := mkUnit kChan ch
  let setC := fun (s : State) (x : ChanState) => { s with units := { s.units with chans := s.units.chans.set ch x } }
  if now == .lost || (now != .working && !lost) then s
  else if now != .working then
    -- retired before: only what has not been copied is lost
    let s := reportUnit (setC s .lost) u true
    if now == .copying then
      let p := Config.copyProgress s.freeCtr
      let q := Config.copyProgress (s.freeCtr + 1)
      let (mine, rest) := s.units.moving.partition fun x => x.2.2 == ch
      let s := { s with freeCtr := s.freeCtr + 2, units := { s.units with moving := rest } }
      let s := mine.foldl (fun s x => poisonSlice s x.1 x.2.1 (x.2.1 * 2 ^ 25 + q)) ((upto 32).foldl (fun s x => poisonSlice s ch x p) s)
      imagesFail ((ch :: mine.map (·.1)).dedup.foldl rebuildImages s) (fun _ => true) true
    else s
  else
    let st := ch / 32
    let s := reportUnit (setC (failTest s u) (if lost then .lost else .copying)) u failed
    let moved := (s.units.remapped.filter fun x => x.2.2 == ch).map fun x => (x.1, x.2.1)
    let s := { s with units := { s.units with remapped := s.units.remapped.filter fun x => x.2.2 != ch } }
    let (placed, left) := findRoom (moved ++ (upto 32).map fun x => (ch, x)) (spareRoom s st)
    let s := { s with units := { s.units with
      remapped := s.units.remapped ++ placed
      moving := if lost then s.units.moving else s.units.moving ++ moved.map fun x => (x.1, x.2, ch) } }
    let s := noteUnit s u 4
    let s := if lost then
        let s := (moved ++ (upto 32).map fun x => (ch, x)).foldl (fun s x => poisonSlice s x.1 x.2 0) s
        (ch :: moved.map (·.1)).dedup.foldl rebuildImages (noteUnit s u 5)
      else s
    let s := retireMems s st (left.map (·.2))
    if lost || rate then imagesFail s (fun _ => true) true else s

/-- Retire a Reel unit (R233, R289): another unit of the stack serves its channel. With one that failed, or whose error rate passed its
bound, rounds lose their images there (R272, R653); one that the operator retires leaves them to the lanes (R289). -/
def retireReel (s : State) (ch : Nat) (failed rate : Bool) : State :=
  if s.units.reelRetired.getLsbD ch then s
  else
    let s := reportUnit { s with units := { s.units with reelRetired := s.units.reelRetired ||| BitVec.ofNat 256 (2 ^ ch) } } (mkUnit kReel ch) failed
    if failed || rate then imagesFail s (fun _ => true) false else s

/-! Basin, KAE, field unit, links, cores -/

/-- Records that a lane holds are dropped with UNIT_FAILED; claims not yet logged are released (R264, Table 13-5). -/
def dropLane (s : State) (t : TarnIx) (j : LaneIx) : State :=
  match tarnOf s t with
  | none => s
  | some n => n.rounds.foldl (fun s r => r.slots.zipIdx.foldl (fun s x =>
      if x.1.lane != j then s
      else
        let rid := r.plan.roundId
        let drop := fun (b : Bytes) =>
          recOutcome (clearSlot s t rid x.2 x.1) x.1.src (recLen r.plan) rid (partContrib s rid x.2 x.1 b) .unitFailed
        match x.1.state with
        | .free => s
        | .receiving b _ => drop b
        | .arrived b => drop b
        | .folding _ b => drop b) s) s

/-- Retire a Basin lane (R582). -/
def retireLane (s : State) (j : LaneIx) (failed : Bool) : State :=
  if s.units.laneRetired.getLsbD j then s
  else
    let s := failTest s (mkUnit kLane j)
    let s := match resOwner s (.lane j) with
      | some t => dropLane s t j
      | none => s
    let s := { s with units := { s.units with laneRetired := s.units.laneRetired ||| BitVec.ofNat 16 (2 ^ j.val) } }
    retireRes (reportUnit s (mkUnit kLane j) failed) (.lane j)

/-- Retire a KAE core (R330): its job runs again on another core. -/
def retireKae (s : State) (c : Nat) (failed : Bool) : State :=
  if s.units.kaeFailed.getLsbD c then s
  else
    let s := failTest s (mkUnit kKae c)
    let s := { s with units := { s.units with kaeFailed := s.units.kaeFailed ||| BitVec.ofNat 64 (2 ^ c) } }
    let r := Resource.kaeGroup (Fin.ofNat 8 (c / 8))
    let s := reportUnit s (mkUnit kKae c) failed
    if resRetired s r then retireRes s r else s

/-- Retire the field unit (R331). -/
def retireField (s : State) (failed : Bool) : State :=
  if s.units.fieldFailed then s
  else reportUnit { s with units := { s.units with fieldFailed := true } } (mkUnit kField 0) failed

/-- Retire a link: it goes DOWN and stays so. -/
def retireLink (s : State) (n : LinkIx) (failed : Bool) : State :=
  if s.units.linkRetired.getLsbD n then s
  else
    let s := failTest s (mkUnit kLink n)
    let s := { s with units := { s.units with linkRetired := s.units.linkRetired ||| BitVec.ofNat 12 (2 ^ n.val) } }
    retireRes (linkDown (reportUnit s (mkUnit kLink n) failed) n 6) (.link n)

/-- Working control cores (R581). -/
def workingCores (s : State) : Nat := ((upto 8).filter fun c => !s.units.coreFailed.getLsbD c).length

/-- A FATAL fault (R587): every figure and DMA transfer stops, links fall silent, FAULT_N goes low and BEAT_OUT stays low (DESIGN CHOICE, log 61). -/
def setFatal (s : State) : State :=
  if s.fatal then s
  else
    { s with
      fatal := true
      figs := s.figs.map fun _ => none
      tickets := s.tickets.map fun k => { k with dma := none, need := [] }
      fns := s.fns.map fun f => { f with qps := f.qps.map fun p => { p with reading := 0 } }
      board := { s.board with faultN := false, beatOut := 0 } }

/-- Control commands, which the control cores serve (Table 02-9: Ctl). -/
def isControl (op : Nat) : Bool := op ≤ 0x0B || op == 0x14 || op == 0x25 || op == 0x26

/-- Retire a control core (R581): the control commands it was serving end; the loss of the last core is FATAL (DESIGN CHOICE, log 22). -/
def retireCore (s : State) (c : Nat) (failed : Bool) : State :=
  if s.units.coreFailed.getLsbD c then s
  else
    let hit := s.tickets.filter fun k => isControl k.op && ticketRuns k && Config.servingCore k.uid % 8 == c
    let s := hit.foldl (fun s k => failTicket (recoverTicket s k.uid) k.uid .abortedByRecovery) s
    let s := { s with units := { s.units with coreFailed := s.units.coreFailed ||| BitVec.ofNat 8 (2 ^ c) } }
    let s := reportUnit s (mkUnit kCore c) failed
    if workingCores s == 0 then setFatal s else s

/-- Take a unit out of service: it failed, was lost (a channel that stopped responding), or was retired. -/
def retireUnit (s : State) (u : UnitId) (failed lost rate : Bool) : State :=
  let i := u.index.toNat
  match u.kind.toNat with
  | 0x01 => retireTile s (i % 128) failed
  | 0x02 => (upto 8).foldl (fun s x => retireTile s (8 * (i % 16) + x) failed) s
  | 0x03 => retireChan s (i % 256) lost failed rate
  | 0x04 => retireReel s (i % 256) failed rate
  | 0x05 => imagesFail (retireMem s (i % 256) failed) (fun p => p.u0 ≤ i % 32 && i % 32 < p.u0 + p.units) true
  | 0x06 => retireLane s (Fin.ofNat 16 i) failed
  | 0x07 => retireKae s (i % 64) failed
  | 0x08 => retireField s failed
  | 0x09 => loseLane s (Fin.ofNat 12 (i / 8)) (Fin.ofNat 8 i)
  | 0x0A => retireLink s (Fin.ofNat 12 i) failed
  | 0x0B => retireCore s (i % 8) failed
  | _ => s

/-- Note that a unit failed or is to be retired at the coming seam: 0 failed, 1 lost, 2 by the operator, 3 on its error rate. -/
def queueUnit (s : State) (u : UnitId) (code : Nat) : State :=
  if s.units.failing.contains (u, code) then s else { s with units := { s.units with failing := s.units.failing ++ [(u, code)] } }

/-- Seam step 1: failures detected in the beat take effect (R567). -/
def takeFailures (s : State) : State :=
  let now := s.units.failing.filter fun x => x.2 ≤ 1
  let s := { s with units := { s.units with failing := s.units.failing.filter fun x => 1 < x.2 } }
  now.foldl (fun s x => retireUnit s x.1 true (x.2 == 1) false) s

/-- Seam step 7: retirements on error rate and by the operator, with their GOVERNOR entries (R632) (DEDUCED, log 73). -/
def takeRetirements (s : State) (rates : Bool) : State :=
  let now := s.units.failing.filter fun x => x.2 == 2 || (rates && x.2 == 3)
  let s := { s with units := { s.units with failing := s.units.failing.filter fun x => !(now.contains x) } }
  now.foldl (fun s x =>
    retireUnit (tallyRetire s (if x.2 == 2 then 4 else 3) .ok) x.1 false false (x.2 == 3)) s

end Sys2Proof.Machine
end

