-- ==== Sys2Proof/Machine/Governor.lean ====
section
/-! DEFINITION. The governor's step 7: bounds, the clock rule, the core voltage, refresh and request throttling of the stacks, the
throttle of Tarns (R23, R38, R39, R229 to R231, R584, R628 to R633, R657 to R660, R693). -/

namespace Sys2Proof.Machine

/-! Bounds -/

/-- Value of a bound by its number (Table 14-4). -/
def boundVal (b : Bounds) (n : Nat) : Nat :=
  match n with
  | 1 => b.powerCap
  | 2 => b.clkMax
  | 3 => b.clkMin
  | 4 => b.tjTarget
  | 5 => b.dramOffset
  | 6 => b.lendMask.toNat
  | 7 => b.adaptMask.toNat
  | 8 => b.qMin
  | 9 => b.degradeMask.toNat
  | 10 => b.retireMode
  | 11 => b.ceChannel
  | 12 => b.ueChannel
  | 13 => b.ceTile
  | _ => b.ceEngine

/-- A complete set of bounds is in range (Table 14-4, R628). -/
def boundsOk (s : State) (b : Bounds) : Bool :=
  300 ≤ b.powerCap && b.powerCap ≤ 950 && 12 ≤ b.clkMax && b.clkMax ≤ 60 && 12 ≤ b.clkMin && b.clkMin ≤ b.clkMax
    && 85 ≤ b.tjTarget && b.tjTarget ≤ 100 && b.dramOffset ≤ 15 && b.qMin ≤ 65535 && b.retireMode ≤ 1
    && 100 ≤ b.ceChannel && b.ceChannel ≤ 10 ^ 6 && 1 ≤ b.ueChannel && b.ueChannel ≤ 64
    && 10 ≤ b.ceTile && b.ceTile ≤ 10 ^ 5 && 10 ≤ b.ceEngine && b.ceEngine ≤ 10 ^ 5 && s.table.clkFloor ≤ b.clkMax

/-- Put a set of bounds in force, with an entry for each bound changed (R628) (DESIGN CHOICE, log 20). -/
def applyBounds (s : State) (b : Bounds) : State :=
  let old := s.gov.bounds
  let s := { s with gov := { s.gov with bounds := b } }
  ((upto 14).map (· + 1)).foldl (fun s n =>
    if boundVal old n == boundVal b n then s
    else tallyGovernor s anyTarn (Config.boundAction n).toNat 4 n (boundVal old n) (boundVal b n)) s

/-! The clock -/

/-- Highest junction temperature read, in tenths of a degree (DESIGN CHOICE, log 50). -/
def worstTj (tj : List Int) : Int := tj.foldl max (tj.headD 0)

/-- What the clock rule answers: the clock, and whether a thermal and a power limit are in force. -/
structure ClockChoice where
  f : Nat
  thermal : Bool
  power : Bool
  deriving DecidableEq, Repr

/-- The clock rule (R630); `rise` says whether its last branch applies (R584). Temperatures are in tenths of a degree and powers in
milliwatts; `est` is the estimate of power two steps up. -/
def clockRule (b : Bounds) (tableFloor : Nat) (was : ClockChoice) (tj : Int) (p est : Nat) (rise : Bool) : ClockChoice :=
  let floor := max b.clkMin tableFloor
  let f := min was.f b.clkMax
  let hot := decide ((10 * b.tjTarget : Nat) ≤ tj)
  let thermal := hot || (was.thermal && decide ((10 * b.tjTarget : Nat) - 30 ≤ tj))
  let cap := 1000 * b.powerCap
  let power := decide (cap < p) || (was.power && decide (970 * b.powerCap < p))
  let f' :=
    if 1050 ≤ tj then b.clkMin
    else if hot then max b.clkMin (f - 4)
    else if power && cap < p then max b.clkMin (f - 4)
    else if thermal || power then f
    else if f < floor then floor
    else if rise && est ≤ 970 * b.powerCap then min b.clkMax (f + 2)
    else f
  { f := f', thermal, power }

/-- The highest clock that a measured voltage covers, not above `f` (R658, R693). -/
def clockFor (f vddUv : Nat) : Nat := ((upto (f + 1)).reverse.find? fun x => 12 ≤ x && Config.vCore x ≤ vddUv).getD 12

/-- REASON of a clock entry (R631): thermal before power. -/
def clockReason (c : ClockChoice) : Nat := if c.thermal then 1 else if c.power then 2 else 0

/-- Choose the clock of the next beat (R630, R631, R693) (DESIGN CHOICE, log 18). -/
def stepClock (s : State) (i : SeamIn) : State :=
  let g := s.gov
  let tj := worstTj i.tj
  let est := Config.powerEstimate (min g.clk g.bounds.clkMax + 2) i.powerMw g.clk
  let c := clockRule g.bounds s.table.clkFloor { f := g.clk, thermal := g.thermal, power := g.power } tj i.powerMw est (fwUp s)
  let slow := decide (i.vddUv + 25000 < g.target)
  let f := if slow then clockFor c.f i.vddUv else c.f
  let c' : ClockChoice := { c with f, power := c.power || slow }
  let reason := if slow then 2 else clockReason c'
  let s := { s with gov := { g with
    clk := f, thermal := c.thermal, power := c.power, past := (g.clk :: g.past).take 64, slow, tj := i.tj, tDram := i.tDram
    powerMw := i.powerMw } }
  if f != g.clk || f < s.table.clkFloor then tallyGovernor s anyTarn 1 reason 0 g.clk f else s

/-! The voltage -/

/-- The table that holds at the following seam (R659). -/
def tableNext (s : State) : SchedTable :=
  let atEnd := !barEnd s && s.pos + 2 == barBeats s
  match s.shadow with
  | some tb => if atEnd then tb else s.table
  | none => match dueAt s (s.beat + 1) atEnd with
    | some (_, ph) => match ph.table with
      | some tb => if atEnd then tb else s.table
      | none => s.table
    | none => s.table

/-- The sets of bounds that this step 7 accepts (R628, R660). -/
def acceptable (s : State) : List Bounds := (s.gov.askedBounds.filter fun x => boundsOk s x.2.2).map (·.2.2)

/-- Accept or refuse the sets of bounds that have come in, and answer each (R628, R660): an accepted one waits for the next step 7. -/
def acceptBounds (s : State) : State :=
  let asked := s.gov.askedBounds
  let s := { s with gov := { s.gov with pendingBounds := acceptable s, askedBounds := [] } }
  asked.foldl (fun s x => gmpReply s x.1 x.2.1 (if boundsOk s x.2.2 then .ok else .badCommand) []) s

/-- The clock whose voltage is requested (R659); while a higher clock has still to run the next beat, its voltage stays (R658)
 (DEDUCED, log 74). -/
def voltageClock (s : State) : Nat :=
  let b := (acceptable s).getLast?.getD (s.gov.pendingBounds.getLast?.getD s.gov.bounds)
  max s.gov.clk (min b.clkMax (max (s.gov.clk + 2) (max b.clkMin (tableNext s).clkFloor)))

/-- Request the voltage (R659): a higher target goes out in step 7, a lower one waits for the start of the next beat. -/
def stepVoltage (s : State) : State :=
  let v := Config.vCore (voltageClock s)
  if s.gov.target < v then emit { s with gov := { s.gov with target := v } } (.avs v) else s

/-- A lower target goes out at the start of the next beat (R659). -/
def lowerVoltage (s : State) (v : Nat) : State :=
  if v < s.gov.target then emit { s with gov := { s.gov with target := v } } (.avs v) else s

/-! Stacks -/

/-- Level of Table 05-7 for a temperature in tenths of a degree: 0 to 4. -/
def dramLevel (was : Stack) (t : Int) : Stack :=
  if 1050 ≤ t then { level := 4, hold := true }
  else if was.hold && 1000 ≤ t then { level := 4, hold := true }
  else if 1000 ≤ t then { level := 3 }
  else if 950 ≤ t then { level := 2 }
  else if 850 ≤ t then { level := 1 }
  else { level := 0 }

/-- A CXL.mem access of one line that passed its checks reaches memory (R224, R579). A read of a retired unit's line is answered with
poison, a write to it with an error (DESIGN CHOICE, log 34). -/
def hdmServe (s : State) (p : Port) (a : Nat) (req : CxlReq) : State :=
  match req with
  | .read => emit s (.cxl p true (poisoned s a 64 || touchesRetired s a 64) (devRead s a 64))
  | .write line =>
    if line.length == 64 && !touchesRetired s a 64 then emit (devWrite s a line) (.cxl p true false [])
    else emit s (.cxl p (line.length == 64) false [])

/-- Data of a ticket that a thermal hold kept waiting are written (R236). -/
def releaseParked (s : State) (uid : Nat) : State :=
  match ticketOf s uid with
  | some k => (match k.parked with
    | some (d, bs) => if ticketRuns k && !touchesHold s d bs.length then landChunk s (s.beat + 1) uid d bs else s
    | none => s)
  | none => s

/-- What waited for a stack whose thermal hold has ended goes on, oldest first (R236, Table 05-7). -/
def releaseHeld (s : State) : State :=
  let go := s.cxlHeld.filter fun x => !touchesHold s x.addr 64
  let s := { s with cxlHeld := s.cxlHeld.filter fun x => touchesHold s x.addr 64 }
  let s := go.foldl (fun s x => hdmServe s x.port x.addr x.req) s
  ((s.tickets.filter fun k => k.parked.isSome).map (·.uid)).foldl releaseParked s

/-- Refresh and request throttle of every stack (R229, R231, R632). A seam that changes both of a stack writes one GOVERNOR entry for it, as
R231 leaves open (DESIGN CHOICE, log 84). -/
def stepStacks (s : State) (i : SeamIn) : State :=
  releaseHeld ((upto 8).foldl (fun s k =>
    let was := s.dram.getD k {}
    let now := dramLevel was (i.tDram.getD k 0 + 10 * s.gov.bounds.dramOffset)
    let s := { s with dram := s.dram.set k now }
    if now.level == was.level then s else tallyGovernorOpen s anyTarn 5) s)

/-! The throttle of a Tarn -/

/-- Set a throttle that is due (R38) (DEDUCED, log 27). -/
def setThrottle (s : State) (t : TarnIx) : State :=
  match tarnOf s t with
  | none => s
  | some n => match n.throttleDue with
    | none => s
    | some (id, figs) =>
      let s := modTarn s t fun n => { n with throttleDue := none }
      if n.throttled then s
      else
        let s := modTarn s t fun n => { n with throttled := true, throttleBeat := s.beat }
        advise (tallyGovernorOpen s t 2) t
          { kind := 1, status := .overrun, ticketId := id, result0 := BitVec.ofNat 32 figs, result1 := BitVec.ofNat 64 s.beat }

/-- THROTTLE_SET (R38). -/
def execThrottleSet (t : TarnIx) (s : State) : Host.Outcome State Fault Refusal := .next (if running s && fwUp s then setThrottle s t else s)

/-- Lift a throttle at a bar boundary after a complete bar without an overrun (R39). -/
def liftThrottle (s : State) (t : TarnIx) : State :=
  match tarnOf s t with
  | none => s
  | some n =>
    if barEnd s && n.throttled && !n.overThisBar && n.throttleBeat < s.bar.firstBeat then
      let s := modTarn s t fun n => { n with throttled := false }
      advise (tallyGovernorOpen s t 3) t { kind := 2, status := .ok, result1 := BitVec.ofNat 64 s.beat }
    else s

/-- THROTTLE_LIFT (R39). -/
def execThrottleLift (t : TarnIx) (s : State) : Host.Outcome State Fault Refusal :=
  .next (if running s && fwUp s then liftThrottle s t else s)

/-- The lending entry of a bar, after which the count starts anew (R632) (DESIGN CHOICE, log 72). -/
def noteLending (s : State) : State :=
  if !barEnd s then s
  else
    let s' := if 0 < s.bar.lent
      then tallyGovernor s anyTarn 4 (govFree s 4 0) s.bar.lentMask.toNat (govFree s 4 2) s.bar.lent else s
    { s' with bar := { s'.bar with lent := 0, lentMask := 0 } }

/-! Step 7 -/

/-- Step 7 with the control firmware down (R584): the kernel keeps the limits and moves nothing else. -/
def stepGovernorDown (s : State) (i : SeamIn) : State :=
  let s := s.gov.pendingBounds.foldl applyBounds s
  stepStacks (stepClock { s with gov := { s.gov with pendingBounds := [] } } i) i

/-- Step 7 (R628 to R632, R659, R660). -/
def stepGovernor (s : State) (i : SeamIn) : State :=
  let s := s.gov.pendingBounds.foldl applyBounds s
  let s := stepClock { s with gov := { s.gov with pendingBounds := [] } } i
  let s := stepStacks (acceptBounds (stepVoltage s)) i
  let s := allTarns.foldl setThrottle s
  let s := allTarns.foldl liftThrottle s
  takeRetirements (noteLending s) (s.gov.bounds.retireMode == 0)

end Sys2Proof.Machine
end

