-- ==== Sys2Proof/Machine/Placement.lean ====
section
/-! DEFINITION. Steps 8 and 9 of the seam: admission of submissions (R27, R28, R58, R72, R83 to R86, R100, R703) and placement of
figures (R18, R21, R22, R29, R30, R36, R38, R40, R57, R63, R111, R120, R123, R124, R129). -/

namespace Sys2Proof.Machine

/-! Admission -/

/-- Step 8 serves a Tarn: it is not being destroyed at the next seam (R437). -/
def tarnAdmits (s : State) (t : TarnIx) : Bool :=
  live s t && match dueAt s (s.beat + 1) (!barEnd s && s.pos + 2 == barBeats s) with
  | some (_, ph) => !(phaseDestroys s ph).contains t
  | none => true

/-- A queue pair may give up its next entry: no fault, an entry read, a free completion slot, no FENCE entry held, and a host entry
of the ticket table left (R72, R84, R86, R703). -/
def mayConsume (s : State) (p : Qp) : Bool :=
  p.enable && !p.error && !p.fetched.isEmpty && (outstanding p + ringDist p.cqHead p.cqTail < qpDepth p)
    && !(p.order.any fun x => x.fence.isSome) && s.tickets.length < hostTickets

/-- A SUBMIT_GRAPH entry whose header or argument block lies in a stack in thermal hold waits to be read (R236). -/
def graphHeld (s : State) (b : Bytes) : Bool :=
  let e := entryFields b
  s.dram.any (·.hold) && e.op == 0x13 && (touchesHold s (eW e 0) 64 || touchesHold s (eW e 2) (eW e 3))

/-- The held FENCE entry of a queue pair whose turn has come: everything before it has been posted (R86). While all host entries of the
ticket table are in use it waits for a later seam, as R84 has an entry wait that is still in its ring (DEDUCED, log 23). -/
def fenceDue (s : State) (p : Qp) : Option Bytes :=
  match p.order with
  | x :: _ => if s.tickets.length < hostTickets then x.fence.filter fun b => !graphHeld s b else none
  | [] => none

/-- The status that refuses an entry when it is consumed (R83 items 1 to 3, R91); `held` says that it will wait as a FENCE entry. -/
def refusal (s : State) (t : TarnIx) (expressQp : Bool) (e : Entry) (held : Bool := false) : Option Status :=
  match entryCheck s t expressQp e held with
  | some st => some st
  | none => if quotaOf s t ≤ liveCount s t then some .ticketQuota else none

/-- Count an admission of a class (R546). -/
def countAdmitted (s : State) (cls : Nat) : State :=
  { s with bar := match classOf cls with
    | some .express => { s.bar with express := s.bar.express + 1 }
    | some .basin => { s.bar with basin := s.bar.basin + 1 }
    | some .steady => { s.bar with steady := s.bar.steady + 1 }
    | some .house => s.bar
    | none => s.bar }

/-- Consume the next entry of a queue pair (R83, R86, R91): it is refused, held as a FENCE entry, or admitted (DEDUCED, log 23). -/
def consumeOne (s : State) (t : TarnIx) (q : QpIx) : State :=
  let p := qpOf s t q
  match p.fetched with
  | [] => s
  | b :: rest =>
    let e := entryFields b
    let held := e.fence && !p.order.isEmpty
    let s := modQp s t q fun p => { p with fetched := rest, sqHead := p.sqHead + 1 }
    let put := fun (s : State) (x : PostItem) => modQp s t q fun p => { p with order := p.order ++ [x] }
    let item : PostItem := { commandId := e.commandId, irqNow := e.irqNow }
    match refusal s t (p.qclass == 1) e held with
    | some st => put s { item with comp := some { status := st } }
    | none =>
      if held then put s { item with fence := some b }
      else
        let (uid, s) := createTicket s t q e
        countAdmitted (put s { item with uid := some uid }) e.cls

/-- Admit the held FENCE entry `b` of a queue pair (R86). Its status was fixed when it was consumed (R91), but for what the header of a
SUBMIT_GRAPH decides, which admission reads (R122) (DEDUCED, log 23). While the host entries of the ticket table are all in use it waits
(DESIGN CHOICE, log 23). -/
def admitFence (s : State) (t : TarnIx) (q : QpIx) (b : Bytes) : State :=
  let e := entryFields b
  let put := fun (s : State) (y : PostItem) => modQp s t q fun p => { p with order := y :: p.order.drop 1 }
  let item : PostItem := { commandId := e.commandId, irqNow := e.irqNow }
  match if e.op == 0x13 then graphCheck s t e else none with
  | some st => put s { item with comp := some { status := st } }
  | none =>
    let (uid, s) := createTicket s t q e
    countAdmitted (put s { item with uid := some uid }) e.cls

/-- A pass of step 8: EXPRESS queue pairs, then BASIN entries at the head of general ones, then the rest (R28). -/
inductive Pass where
  | express | basin | steady
  deriving DecidableEq, Repr

/-- What a queue pair would give up next: its held FENCE entry when its turn has come, or the entry at the head of its ring. -/
def nextBytes (s : State) (p : Qp) : Option Bytes :=
  match fenceDue s p with
  | some b => some b
  | none => if mayConsume s p then (p.fetched.head?).filter fun b => !graphHeld s b else none

/-- An entry of a queue pair belongs to a pass (DEDUCED, log 24). -/
def inPass (p : Qp) (b : Bytes) (x : Pass) : Bool :=
  match x with
  | .express => p.qclass == 1
  | .basin => p.qclass != 1 && (entryFields b).cls == 3
  | .steady => p.qclass != 1

/-- Take what a queue pair gives up next. -/
def takeNext (s : State) (t : TarnIx) (q : QpIx) : State :=
  match fenceDue s (qpOf s t q) with
  | some b => admitFence s t q b
  | none => consumeOne s t q

/-- Take from one queue pair in a pass; the budget counts entries consumed and FENCE entries admitted (R28, R58, R83) (DEDUCED, log 24). -/
def consumeQp (x : Pass) (t : TarnIx) (q : QpIx) : Nat → Nat × State → Nat × State
  | 0, bs => bs
  | fuel + 1, (budget, s) => match nextBytes s (qpOf s t q) with
    | some b => if 0 < budget && inPass (qpOf s t q) b x then consumeQp x t q fuel (budget - 1, takeNext s t q) else (budget, s)
    | none => (budget, s)

/-- The Tarns in turn, from beat counter mod 8 (R28). -/
def tarnTurn (beat : Nat) : List TarnIx := (upto 8).map fun i => Fin.ofNat 8 (beat + i)

/-- One pass over all Tarns (DEDUCED, log 24). -/
def admitPass (ts : List TarnIx) (bs : Nat × State) (x : Pass) : Nat × State :=
  ts.foldl (fun bs t => (List.finRange 64).foldl (fun bs q => consumeQp x t q ((qpOf bs.2 t q).fetched.length + 1) bs) bs) bs

/-- Admissions that the coming step 8 may still make (R28, R581): those made by SUBMIT_GRAPH since the last seam count. -/
def admitBudget (s : State) : Nat := min 1024 (128 * workingCores s) - s.admitted

/-- Step 8 (R26, R28); no submission is admitted while an activation drains (R643) (DEDUCED, log 24). -/
def stepAdmit (s : State) : State :=
  if s.fw.drain.isSome then s
  else
    let ts := (tarnTurn s.beat).filter (tarnAdmits s)
    let s := ([Pass.express, .basin, .steady].foldl (admitPass ts) (admitBudget s, s)).2
    ts.foldl (fun s t => (List.finRange 64).foldl (fun s q => ringPump s t q) s) s

/-- SUBMIT_GRAPH (R122): what a queue pair gives up next, when it is a SUBMIT_GRAPH, goes through step 8 alone and counts toward the
admissions of the coming seam (R28, R83) (DESIGN CHOICE, log 60). -/
def execSubmitGraph (t : TarnIx) (q : QpIx) (s : State) : Host.Outcome State Fault Refusal :=
  .next (
    let isGraph := match nextBytes s (qpOf s t q) with
      | some b => (entryFields b).op == 0x13
      | none => false
    if running s && fwUp s && s.fw.drain.isNone && tarnAdmits s t && 0 < admitBudget s && isGraph then
      ringPump (takeNext { s with admitted := s.admitted + 1 } t q) t q
    else s)

/-! Reading a figure -/

/-- The planning budget P in cycles (R22). -/
def planningBudget (tb : SchedTable) : Nat := 9 * (tb.beatUs - 2) * 25 * tb.clkFloor / 10

/-- A figure descriptor (Table 03-10). -/
structure FigDesc where
  stage : Nat
  bound : Nat
  srSeed : Nat
  streams : List (Nat × Nat)
  reserved : Bool
  deriving DecidableEq, Repr

/-- Read a descriptor from its 128 bytes. -/
def figDesc (b : Bytes) : FigDesc where
  stage := field b 0 2
  bound := field b 4 4
  srSeed := field b 8 8
  streams := (upto 8).map fun i => (field b (0x10 + 8 * i) 4, field b (0x14 + 8 * i) 4)
  reserved := field b 2 2 != 0 || !allZero (slice b 0x50 0x30)

/-- The eight 64-bit words of an operation. -/
def opWords (b : Bytes) : List Nat := (chunks 8 b).map leNat

/-- The operation words of a stream. -/
def streamWords (s : State) (gr : Graph) (x : Nat × Nat) : List (List Nat) :=
  (upto x.2).map fun i => opWords (devRead s (gr.base + gr.opsOff + 64 * (x.1 + i)) 64)

/-- A stream lies within the operation area (R122, Table 03-10). -/
def streamIn (gr : Graph) (x : Nat × Nat) : Bool := x.2 ≤ 65536 && (x.2 == 0 || x.1 + x.2 ≤ (gr.totalLen - gr.opsOff) / 64)

/-- STAGE of figure `n` follows R124. -/
def stageOk (s : State) (gr : Graph) (n stage : Nat) : Bool :=
  (if n == 0 then stage == 0
    else
      let prev := descStage s gr.base gr.descOff (n - 1)
      stage == prev || stage == prev + 1)
  && (n + 1 != gr.figures || stage + 1 == gr.stages)

/-- Bytes of the program that cannot be read: the status that ends the ticket (R203, R218, R579) (DEDUCED, log 28). -/
def progLost (s : State) (t : TarnIx) (a len : Nat) : Option Status :=
  if len == 0 then none
  else match accessCheck s t a len with
    | some st => some st
    | none => if poisoned s a len then some .dataLost else none

/-- Read and check a figure for placement (R40, R120, R124, R129): the figure, or the status that ends its ticket. -/
def readFigure (s : State) (k : Ticket) (gr : Graph) (n : Nat) : Except Status FigRun :=
  let da := gr.base + gr.descOff + 128 * n
  match progLost s k.tarn (da - (if n == 0 then 0 else 128)) (if n == 0 then 128 else 256) with
  | some st => .error st
  | none =>
    let d := figDesc (devRead s da 128)
    if d.reserved || planningBudget s.table < d.bound || !stageOk s gr n d.stage || !d.streams.all (streamIn gr) then .error .badCommand
    else match d.streams.findSome? fun x => progLost s k.tarn (gr.base + gr.opsOff + 64 * x.1) (64 * x.2) with
      | some st => .error st
      | none =>
        let progs := match tarnOf s k.tarn with
          | some tn => tn.progs
          | none => []
        let streams := d.streams.map (streamWords s gr)
        if chkStreams { args := gr.args, audit := isAudit s k.tarn, progs := progs.map (·.1) } streams then
          .ok { uid := k.uid, tarn := k.tarn, cls := k.ledger.cls, figIndex := n, bound := d.bound
                srSeed := d.srSeed
                tiles := streams.map fun ws => { ops := ws.take (ws.length - 1) }
                progs, args := gr.args, audit := isAudit s k.tarn
                extent := figExtent gr.args streams }
        else .error .badCommand

/-! Placement -/

/-- A tile-group slot of a Tarn in the coming beat. -/
structure SlotView where
  g : Nat
  tarn : TarnIx
  code : SlotCode
  lend : Bool
  deriving DecidableEq, Repr

/-- The row of the coming beat. -/
def nextRow (s : State) : SchedRow := rowAt s.table (if barEnd s then 0 else s.pos + 1)

/-- Slots of tile groups that Tarns own and that are in service. -/
def slotViews (s : State) : List SlotView :=
  let row := nextRow s
  (upto 16).filterMap fun g => match resOwner s (.tileGroup (Fin.ofNat 16 g)) with
    | some t =>
      if s.units.groupRetired.getLsbD g then none
      else some { g, tarn := t, code := row.tg.getD g .idle, lend := row.tgLend.getLsbD g }
    | none => none

/-- Figures of one ticket released to placement and not yet committed, at most (R99). -/
def queuedLimit : Nat := 64

/-- The figure of a ticket that may be placed next (R29, R124): one that was deferred, else the next in the table, once the stages
before its own are committed. -/
def readyFigure (s : State) (gr : Graph) : Option Nat :=
  match gr.back with
  | f :: _ => some f
  | [] =>
    if gr.figures ≤ gr.next || queuedLimit ≤ gr.next - gr.first - gr.committed.length then none
    else if gr.next == gr.first || gr.committed.length == gr.next - gr.first
        || descStage s gr.base gr.descOff gr.next == descStage s gr.base gr.descOff (gr.next - 1) then some gr.next
    else none

/-- The ticket has figures for placement. -/
def graphOf (k : Ticket) : Option Graph := if k.op == 0x13 && ticketRuns k then k.graph else none

/-- Some ticket of the Tarn and class has a figure ready. -/
def anyReady (s : State) (t : TarnIx) (cls : TClass) : Bool :=
  s.tickets.any fun k => k.tarn == t && k.ledger.cls == cls && match graphOf k with
    | some gr => (readyFigure s gr).isSome
    | none => false

/-- Mark a figure as taken for placement; the record is rewritten by step 2 alone (R87). -/
def takeFigure (s : State) (uid n : Nat) : State :=
  modTicket s uid fun k => { k with
    graph := k.graph.map fun gr => if gr.back.contains n then { gr with back := gr.back.filter (· != n) } else { gr with next := n + 1 } }

/-- Give a figure back for a later placement (R36). -/
def deferFigure (s : State) (f : FigRun) : State :=
  modTicket s f.uid fun k => { k with graph := k.graph.map fun gr => { gr with back := insertNat f.figIndex gr.back } }

/-- What a figure's placement reads lies in a stack in thermal hold, and so it waits (R236): its descriptor and the one before it, and its
streams. -/
def figHeld (s : State) (gr : Graph) (n : Nat) : Bool :=
  let da := gr.base + gr.descOff + 128 * n
  s.dram.any (·.hold) && (touchesHold s (da - (if n == 0 then 0 else 128)) (if n == 0 then 128 else 256)
    || (figDesc (devRead s da 128)).streams.any fun x => touchesHold s (gr.base + gr.opsOff + 64 * x.1) (64 * x.2))

/-- The first figure that can be placed for a Tarn in a class, in admission order; a figure that breaks a rule ends its ticket and
leaves the slot to the next (R24, R26, R40, R120). -/
def pickFigure (t : TarnIx) (cls : TClass) : List Nat → State → Option FigRun × State
  | [], s => (none, s)
  | uid :: rest, s => match ticketOf s uid with
    | none => pickFigure t cls rest s
    | some k =>
      if k.tarn != t || k.ledger.cls != cls then pickFigure t cls rest s
      else match graphOf k with
        | none => pickFigure t cls rest s
        | some gr => match readyFigure s gr with
          | none => pickFigure t cls rest s
          | some n => if figHeld s gr n then pickFigure t cls rest s else match readFigure s k gr n with
            | .ok f => (some f, takeFigure s uid n)
            | .error st => pickFigure t cls rest (failTicket s uid st)

/-- A plan: figures for slots that no spill occupies or, until it is resolved, that one does. -/
abbrev Plan9 := List (Nat × FigRun)

/-- STEADY figures that a throttled Tarn may have in a beat (R38) (DEDUCED, log 26). -/
def steadyCap (s : State) (v : List SlotView) (t : TarnIx) : Nat :=
  let n := (v.filter fun x => x.tarn == t && x.code == .steady).length
  match tarnOf s t with
  | some tn => if tn.throttled then max 1 (n / 2) else 16
  | none => 0

/-- STEADY figures of a Tarn placed so far, spills among them (DEDUCED, log 26). -/
def steadyUsed (s : State) (pl : Plan9) (t : TarnIx) : Nat :=
  (pl.filter fun x => x.2.tarn == t && x.2.cls == .steady).length
    + (s.figs.filter fun f => match f with
      | some r => r.tarn == t && r.cls == .steady
      | none => false).length

/-- Fill the free slots of one class, in ascending tile group. -/
def fillClass (cls : TClass) (v : List SlotView) (skip : Nat → Bool) (ps : Plan9 × State) : Plan9 × State :=
  v.foldl (fun ps x =>
    if x.code != slotOfClass cls || skip x.g || ps.1.any (fun y => y.1 == x.g)
        || (cls == .steady && steadyCap ps.2 v x.tarn ≤ steadyUsed ps.2 ps.1 x.tarn) then ps
    else match pickFigure x.tarn cls (ps.2.tickets.map (·.uid)) ps.2 with
      | (some f, s) => (ps.1 ++ [(x.g, f)], s)
      | (none, s) => (ps.1, s)) ps

/-- HOUSE work waits for, or runs in, a tile-group slot: a self-test of one of its tiles (R24, R639). -/
def houseReady (s : State) (g : Nat) : Bool :=
  s.bists.any fun b => b.unit.kind == kTile && b.unit.index.toNat / 8 == g && 1 ≤ b.stage

/-- Work of a slot's class is ready (R30). SUBMIT_GRAPH alone has figures and carries class EXPRESS or STEADY (Table 02-9), so no figure of
class BASIN ever waits for a tile-group slot. -/
def classReady (s : State) (x : SlotView) : Bool :=
  match x.code with
  | .express => anyReady s x.tarn .express
  | .house => houseReady s x.g
  | .basin => anyReady s x.tarn .basin
  | .steady => anyReady s x.tarn .steady
  | .idle => false

/-- The governor may lend a slot (R30, R38, R632) (DEDUCED, log 26). -/
def mayLend (s : State) (x : SlotView) : Bool :=
  x.lend && (x.code == .express || x.code == .basin || x.code == .house) && s.gov.bounds.lendMask.getLsbD x.tarn
    && (match tarnOf s x.tarn with
      | some n => !n.throttled
      | none => false)
    && !classReady s x

/-- Lend free slots to STEADY figures of their own Tarns (R30) (DEDUCED, log 26). -/
def fillLent (v : List SlotView) (skip : Nat → Bool) (ps : Plan9 × State) : Plan9 × State :=
  v.foldl (fun ps x =>
    if skip x.g || ps.1.any (fun y => y.1 == x.g) || !mayLend ps.2 x then ps
    else match pickFigure x.tarn .steady (ps.2.tickets.map (·.uid)) ps.2 with
      | (some f, s) =>
        let s := modTarn s x.tarn fun n => { n with lentBar := n.lentBar + 1 }
        (ps.1 ++ [(x.g, f)], { s with bar := { s.bar with lentMask := s.bar.lentMask ||| BitVec.ofNat 8 (2 ^ x.tarn.val), lent := s.bar.lent + 1 } })
      | (none, s) => (ps.1, s)) ps

/-- The slot that a displaced figure moves to (R36): of the Tarn's slots that no spill and no moved figure holds, one of the lowest class;
an EXPRESS figure moves only to a slot of a lower class (R57). Of several slots of that class it is the lowest tile group
(DESIGN CHOICE, log 25). -/
def moveTarget (v : List SlotView) (busy : Nat → Bool) (f : FigRun) : Option SlotView :=
  (v.filter fun x => x.tarn == f.tarn && !busy x.g && (f.cls != .express || x.code != .express)).foldl (fun (a : Option SlotView) x =>
    match a with
    | none => some x
    | some y => if slotRank y.code < slotRank x.code then some x else some y) none

/-- An OVERRUN entry for a figure that is moved or deferred (R36) (DEDUCED, log 25). -/
def noteMove (s : State) (f : FigRun) (action g : Nat) : State :=
  match ticketOf s f.uid with
  | some k => tallyOverrun s f.tarn k.ledger.ticketId f.figIndex 0 f.bound action g
  | none => s

/-- Defer a figure to the next free slot of its class (DEDUCED, log 25). -/
def deferIt (s : State) (f : FigRun) (g : Nat) : State :=
  let s := noteMove (deferFigure s f) f 4 g
  { s with bar := { s.bar with deferred := s.bar.deferred + 1 } }

/-- What a seam's placement has decided: the plan, and the slots that figures have been moved to. -/
abbrev Moved := List Nat

/-- A spill holds its slot: the figure placed there moves or waits, and the work it displaces waits (R36, R57) (DEDUCED, log 25). -/
def displace (v : List SlotView) (spill : Nat → Bool) (x : Plan9 × Moved × State) (g : Nat) : Plan9 × Moved × State :=
  let (pl, mv, s) := x
  match pl.find? fun y => y.1 == g with
  | none => x
  | some (_, f) =>
    let pl := pl.filter fun y => y.1 != g
    match moveTarget v (fun h => spill h || mv.contains h) f with
    | none => (pl, mv, deferIt s f g)
    | some d =>
      let s := match pl.find? fun y => y.1 == d.g with
        | some (_, h) => deferIt s h d.g
        | none =>
          if d.code == .house then
            let s := tallyOverrun s f.tarn 0xFFFFFFFF 0xFFFFFFFF 0 0 4 d.g
            { s with bar := { s.bar with deferred := s.bar.deferred + 1 } }
          else s
      let pl := pl.filter fun y => y.1 != d.g
      (pl ++ [(d.g, f)], d.g :: mv, noteMove s f 3 d.g)

/-- Physical tiles that carry the working logical tiles of a group (R110, R112). -/
def groupTiles (s : State) (g : Nat) : List Nat :=
  ((upto 8).filter fun i => !s.units.tileFailed.getLsbD (8 * g + i) && !s.units.tileTesting.getLsbD (8 * g + i)).map fun i =>
    s.units.tileMap.getD (8 * g + i) 0

/-- Put the planned figures into their slots (R154, R699). -/
def putPlan (s : State) (pl : Plan9) : State := { s with figs := s.figs.zipIdx.map fun x => match pl.find? fun y => y.1 == x.2 with
  | some (g, f) => some { f with left := s.spLeft.getD g [], phys := groupTiles s g }
  | none => x.1 }

/-- Step 9 (R26, R29, R30, R36): spares take their tiles, then the figures of the coming beat are placed. -/
def stepPlace (s : State) (lend : Bool) : State :=
  let s := (upto 4).foldl placeSpare s
  let v := slotViews s
  let held := (upto 16).filter fun g => (figOf s g).isSome
  let spill := fun g => held.contains g
  -- the placement as it stands without spills, then spills take their slots, then what is free is filled again
  let ps := fillClass .steady v (fun _ => false) (fillClass .express v (fun _ => false) ([], s))
  let (pl, mv, s) := held.foldl (displace v spill) (ps.1, [], ps.2)
  let skip := fun g => spill g || mv.contains g
  let ps := fillClass .steady v skip (fillClass .express v skip (pl, s))
  let ps := if lend then fillLent v skip ps else ps
  putPlan ps.2 ps.1

/-- The 256-byte placement record of a beat (R546): the figures in the tile-group slots; the lanes hold no figures (DEDUCED, log 29). -/
def placementRecord (s : State) : Bytes :=
  ((upto 16).map fun g => match figOf s g with
    | some f => (match ticketOf s f.uid with
      | some k => leBytes 4 k.ledger.ticketId.toNat ++ leBytes 4 f.figIndex
      | none => leBytes 4 0xFFFFFFFF ++ leBytes 4 0xFFFFFFFF)
    | none => leBytes 4 0xFFFFFFFF ++ leBytes 4 0xFFFFFFFF).flatten ++ List.replicate 128 0xFF

end Sys2Proof.Machine
end

