-- ==== Sys2Proof/Machine/Telemetry.lean ====
section
/-! DEFINITION. The telemetry set (R451, R575, R627, Table 14-3): the values each item reports, as held at the end of step 10. -/

namespace Sys2Proof.Machine

/-- A temperature as a 32-bit two's complement field. -/
def tempBytes (t : Int) : Bytes := leBytes 4 (t % 2 ^ 32).toNat

/-- Limit in force: 0 none, 1 thermal, 2 power. -/
def limitCode (g : Governor) : Nat := if g.slow then 2 else if g.thermal then 1 else if g.power then 2 else 0

/-- The fourteen bounds of Table 14-4, in order. -/
def boundsBytes (b : Bounds) : Bytes :=
  ([b.powerCap, b.clkMax, b.clkMin, b.tjTarget, b.dramOffset, b.lendMask.toNat, b.adaptMask.toNat, b.qMin, b.degradeMask.toNat,
    b.retireMode, b.ceChannel, b.ueChannel, b.ceTile, b.ceEngine].map (leBytes 4)).flatten

/-- Counts of a Tarn; those of a confidential Tarn read zero (R451). -/
def tarnTelem (s : State) (t : TarnIx) : Bytes :=
  match tarnOf s t with
  | some n =>
    if isConf s t then zeros 17
    else leBytes 4 (liveCount s t) ++ leBytes 1 (b2n n.throttled) ++ leBytes 4 n.overruns ++ leBytes 4 n.spills ++ leBytes 4 n.lentBar
  | none => zeros 17

/-- Overruns of a tile group (R575); those of a confidential Tarn's read zero (R451). -/
def groupTelem (s : State) (g : GroupIx) : Bytes := leBytes 4 (if lockedRes s (.tileGroup g) then 0 else s.units.groupOver.getD g 0)

/-- The resource that a counted unit belongs to, when one Tarn may own it. -/
def unitRes (u : UnitId) : Option Resource :=
  let i := u.index.toNat
  if u.kind == kTile then some (.tileGroup (Fin.ofNat 16 (i / 8)))
  else if u.kind == kLane then some (.lane (Fin.ofNat 16 i))
  else if u.kind == kKae then some (.kaeGroup (Fin.ofNat 8 (i / 8)))
  else none

/-- Corrected and uncorrectable counts by unit; zero for units of a confidential Tarn (R451). -/
def countTelem (s : State) (x : Nat × Nat × Nat) : Bytes :=
  let hidden := match unitRes (unitOfNum x.1) with
    | some r => lockedRes s r
    | none => false
  leBytes 4 x.1 ++ leBytes 4 (if hidden then 0 else x.2.1) ++ leBytes 4 (if hidden then 0 else x.2.2)

/-- Values of a link, the count of discarded frames among them (R356). -/
def linkTelem (s : State) (n : LinkIx) : Bytes :=
  let l := linkOf s n
  if lockedRes s (.link n) then zeros 16
  else leBytes 1 (linkStateCode l.state) ++ leBytes 1 (linkModeCode l.mode) ++ leBytes 1 l.lanes ++ leBytes 4 l.replays
    ++ leBytes 4 l.tagFails ++ leBytes 4 l.rejected
    ++ leBytes 1 (b2n l.modeMismatch + 2 * b2n l.loopback + 4 * b2n l.deviceConflict + 8 * b2n l.flapping)

/-- Open rounds of a Tarn with their states. -/
def roundTelem (s : State) (t : TarnIx) : Bytes :=
  match tarnOf s t with
  | some n => if isConf s t then []
    else ((n.rounds.filter fun r => rstateLive r.state).map fun r =>
      leBytes 1 t ++ leBytes 4 r.plan.roundId ++ leBytes 1 (rstateCode r.state)).flatten
  | none => []

/-- Resources in a status. -/
def countStat (s : State) (x : RStat) : Nat := (mapResources.filter fun r => (resOwner s r).isNone && statOf s r == x).length

/-- The values that a telemetry item reports (Table 14-3); voltages and currents of item 0x04 are measured outside the state. -/
def telemFacts (s : State) (item : Nat) : Bytes :=
  match item with
  | 0x01 => leBytes 4 s.gov.powerMw
  | 0x02 => (s.gov.tj.map tempBytes).flatten ++ tempBytes (s.gov.tj.foldl max (-400))
  | 0x03 => (s.gov.tDram.map tempBytes).flatten ++ (s.dram.map fun d => leBytes 1 d.level).flatten
  | 0x04 => leBytes 1 (b2n s.gov.slow) ++ leBytes 4 s.gov.target
  | 0x05 => leBytes 1 s.gov.clk ++ (s.gov.past.map (leBytes 1)).flatten ++ leBytes 1 (limitCode s.gov)
  | 0x06 => boundsBytes s.gov.bounds
  | 0x07 => (allTarns.map (tarnTelem s)).flatten ++ ((List.finRange 16).map (groupTelem s)).flatten
  | 0x08 => (s.units.tileMap.map (leBytes 1)).flatten ++ (s.units.spares.map fun x => leBytes 1 (b2n (x == .idle))).flatten
      ++ leBytes 16 s.units.tileFailed.toNat ++ leBytes 2 s.units.groupRetired.toNat ++ leBytes 32 s.units.reelRetired.toNat
      ++ leBytes 32 s.units.memRetired.toNat ++ leBytes 2 s.units.laneRetired.toNat ++ leBytes 8 s.units.kaeFailed.toNat
      ++ leBytes 1 (b2n s.units.fieldFailed) ++ leBytes 1 s.units.coreFailed.toNat ++ leBytes 2 s.units.linkRetired.toNat
      ++ (s.units.chans.map fun c => leBytes 1 (b2n (c != .working))).flatten
  | 0x09 => (s.units.counts.map (countTelem s)).flatten
  | 0x0A => ((List.finRange 12).map (linkTelem s)).flatten
  | 0x0B => leBytes 1 (timingCode s.timing.mode) ++ leBytes 2 s.timing.domain.toNat ++ padTo 16 s.timing.leader
      ++ leBytes 1 (b2n s.timing.holdover) ++ leBytes 1 (b2n s.timing.mismatch)
  | 0x0C => (allTarns.map (roundTelem s)).flatten
  | 0x0D => ((List.finRange 8).map fun st => leBytes 1 ((List.finRange 32).filter fun u => statOf s (.memUnit st u) == .scrubbing).length).flatten
      ++ leBytes 2 (countStat s .scrubbing) ++ leBytes 2 (countStat s .testing) ++ leBytes 2 (countStat s .free)
  | 0x0E => leBytes 4 (s.tally.next - s.tally.oldest) ++ leBytes 8 s.tally.acked
  | 0x0F => leBytes 1 (b2n s.board.batteryAbsent) ++ leBytes 1 s.rootState ++ leBytes 1 s.bbram.tamperCount.toNat
      ++ leBytes 1 (b2n s.fatal + 2 * b2n s.timing.holdover)
  | 0x10 => leBytes 4 s.table.tableId.toNat ++ leBytes 1 s.table.beatUs ++ leBytes 1 (barBeats s) ++ leBytes 1 s.table.clkFloor
  | _ => []

/-- Items that are updated once a bar. -/
def eachBar (item : Nat) : Bool := [0x04, 0x07, 0x09, 0x0A, 0x0B, 0x0C, 0x0D, 0x0E].contains item

/-- The items at the end of step 10 (R627). -/
def telemStep (s : State) (atEnd : Bool) : State :=
  { s with mgmt := { s.mgmt with
      telem := (upto 16).map fun i => if eachBar (i + 1) && !atEnd then s.mgmt.telem.getD i [] else telemFacts s (i + 1)
      telemBeat := s.beat } }

/-- Items that the board channel's sensors present (Table 14-3, R645). -/
def boardItem (item : Nat) : Bool := item == 1 || item == 2 || item == 3 || item == 4 || item == 0x0F

/-- A telemetry item as TELEMETRY_READ returns it. -/
def telemValue (s : State) (item : Nat) : Bytes :=
  let facts := s.mgmt.telem.getD (item - 1) []
  (upto (Config.telemetryLen item facts)).map (Config.telemetryByte item facts)

end Sys2Proof.Machine
end

