-- ==== Sys2Proof/Machine/Seam.lean ====
section
/-! DEFINITION. The seam (R26): its ten steps in order, what a declared firmware fault and a restart change in them, and the start of
the next beat (R20, R35 to R38, R77, R78, R97, R546, R547, R583 to R586, R637). -/

namespace Sys2Proof.Machine

/-! Step 1 -/

/-- Core-clock cycles of the work window that closes, its phase correction or lengthening included (R17, R52, R53) (DEDUCED, log 65). -/
def windowCycles (s : State) : Nat := ((1000000 * (beatLen s - 2) + s.timing.windowPs) * (25 * s.gov.clk) / 1000000).toNat

/-- Count an overrun of a figure (R35, R575): in the ticket's record, of its Tarn and tile group, and toward the throttle (R38) (DEDUCED, log 27). -/
def countOverrun (s : State) (f : FigRun) (g : Nat) : State :=
  match ticketOf s f.uid with
  | none => s
  | some k =>
    let again := match k.graph with
      | some gr => gr.lastOver
      | none => false
    let n := min 65535 (k.ledger.overruns + 1)
    let s := { s with units := { s.units with groupOver := s.units.groupOver.modify g (· + 1) } }
    let s := modTicket s f.uid fun k => { k with
      ledger := { k.ledger with overruns := n, overrunSeen := true }, graph := k.graph.map fun gr => { gr with lastOver := true } }
    modTarn s f.tarn fun t => { t with
      overruns := t.overruns + 1, overThisBar := true
      throttleDue := if again then some (k.ledger.ticketId, n) else t.throttleDue }

/-- OVERRUN entry of a figure. -/
def noteOverrun (s : State) (f : FigRun) (cycles action g : Nat) : State :=
  match ticketOf s f.uid with
  | some k => tallyOverrun s f.tarn k.ledger.ticketId f.figIndex cycles f.bound action g
  | none => s

/-- Stop a spill figure that has not finished (R37) (DEDUCED, log 27). -/
def stopSpill (s : State) (g : Nat) : State :=
  match figOf s g with
  | none => s
  | some f =>
    if f.spilled && f.cycles.isNone && f.fault.isNone then
      let s := countOverrun (noteOverrun s f (f.ran + windowCycles s) 2 g) f g
      leaveSlot (failTicket s f.uid .overrun) g
    else s

/-- SPILL_STOP (R37). -/
def execSpillStop (g : GroupIx) (s : State) : Host.Outcome State Fault Refusal := .next (if running s then stopSpill s g else s)

/-- A figure of a ticket that has ended, or one that a fault stopped, leaves its slot. -/
def figDead (s : State) (f : FigRun) : Bool :=
  f.fault.isSome || (f.cycles.isNone && match ticketOf s f.uid with
    | some k => !ticketRuns k
    | none => true)

/-- Drop the figures that run no longer. -/
def dropDead (s : State) : State := (upto 16).foldl (fun s g => match figOf s g with
  | some f => if figDead s f then leaveSlot s g else s
  | none => s) s

/-- Close the window of one slot (R36, R37): a figure still running becomes a spill, or is stopped (DEDUCED, log 27). -/
def closeSlot (s : State) (g : Nat) : State :=
  match figOf s g with
  | none => s
  | some f =>
    if f.cycles.isSome then s
    else if f.spilled then stopSpill s g
    else
      let s := noteOverrun s f (windowCycles s) 1 g
      let s := modFig s g fun f => { f with spilled := true, ran := windowCycles s }
      let s := modTarn s f.tarn fun t => { t with spills := t.spills + 1 }
      { s with bar := { s.bar with spills := s.bar.spills + 1 } }

/-- Step 1. -/
def stepClose (s : State) : State := dropDead ((upto 16).foldl closeSlot (dropDead (takeFailures s)))

/-! Step 2 -/

/-- Count a finished figure in its ticket's record (R35, R88, R90, R702) (DEDUCED, log 79). -/
def commitFigure (s : State) (g : Nat) : State :=
  match figOf s g with
  | none => s
  | some f => match f.cycles with
    | none => s
    | some c =>
      let isOver := f.bound < c || f.spilled
      let s := if isOver then countOverrun (noteOverrun s f c 0 g) f g
        else modTicket s f.uid fun k => { k with graph := k.graph.map fun gr => { gr with lastOver := false } }
      let s := modTicket s f.uid fun k => match k.graph with
        | none => k
        | some gr =>
          let gr := { gr with committed := (f.figIndex, f.extent) :: gr.committed }
          let e := extentBelow (firstOpen gr) gr.committed
          { k with dirty := true, graph := some gr, ledger := { k.ledger with figuresDone := firstOpen gr, extentBase := e.1, extentLen := e.2 } }
      let s := leaveSlot s g
      match ticketOf s f.uid with
      | some k => (match k.graph with
        | some gr => if gr.first + gr.committed.length == gr.figures then finishTicket s f.uid k.ledger.figuresDone 0 else s
        | none => s)
      | none => s

/-- The command has counted all its work (R585, Table 13-4). -/
def workDone (k : Ticket) : Bool :=
  (k.op == 0x10 || k.op == 0x11 || k.op == 0x13 || k.op == 0x21 || k.op == 0x22) && 0 < k.ledger.figuresTotal
    && k.ledger.figuresDone == k.ledger.figuresTotal

/-- At the restart seam a live ticket completes with OK where its record shows all its work, and otherwise ends (R585). -/
def restartTicket (s : State) (uid : Nat) : State :=
  match ticketOf s uid with
  | none => s
  | some k =>
    if settled k then s
    else if workDone k then
      let r := if k.op == 0x21 || k.op == 0x22 then (k.accepted, k.refused) else if k.op == 0x13 then (k.ledger.figuresDone, 0) else (k.cursor, 0)
      finishTicket s uid r.1 r.2
    else failTicket s uid .abortedByRecovery

/-- What the restart seam adds to step 2 (R585). -/
def restartTickets (s : State) : State :=
  let s := commitTickets s
  dropDead (commitTickets ((s.tickets.map (·.uid)).foldl restartTicket s))

/-- A phase that this seam applies: the set, the phase, why it fails, and whether it breaks open work. -/
structure Due where
  set : ChangeSet
  phase : Phase
  fails : Option Status
  breaks : Bool
  deriving DecidableEq, Repr

/-- The phase that this seam applies, validated (R592, R600). -/
def duePhase (s : State) : Option Due :=
  (dueAt s s.beat (barEnd s)).map fun x => { set := x.1, phase := x.2, fails := phaseCheck s x.1 x.2, breaks := phaseBreaks s x.2 }

/-- What a phase asks of step 2: forced aborts (R598), the end of destroyed Tarns' tickets (R437), the outcome of a set that fails. -/
def prepareDue (s : State) (d : Due) : State :=
  match d.fails with
  | some st => (match d.set.uid with
    | some uid => answerTicket s uid st 0 0
    | none => s)
  | none => (phaseDestroys s d.phase).foldl endTarn (forceAborts s d.phase)

/-- The phase that this seam applies when it is one of a set submitted with FORCE that passes its checks (R598). -/
def forcedPhase (s : State) : Option Phase :=
  ((duePhase s).filter fun d => d.set.mgmt && d.set.forced && d.fails.isNone).map (·.phase)

/-- Step 2 (R26, R87, R88, R263, R569). Figures of one ticket that commit in this seam succeed each other, for R38, in ascending
tile-group order (DESIGN CHOICE, log 78). -/
def stepCommit (was : State) (restart : Bool) : Option Due × State :=
  let s := (upto 16).foldl commitFigure was
  -- a forced abort comes before a close of the same seam (R287, R598, R607)
  let forced := forcedPhase s
  let s := roundsStep (match forced with
    | some ph => forceAborts s ph
    | none => s)
  let s := if restart then restartTickets s else s
  -- a host set is checked against the programs in effect after this seam's MICROPROG_LOADs (R592)
  let s := ((s.tickets.filter fun k => k.op == 0x12 && k.stage == 1).map (·.uid)).foldl commitTicket s
  let due := (duePhase s).map fun d => { d with breaks := d.breaks || (forced.map (phaseBreaks was)).getD false }
  let s := match due with
    | some d => prepareDue s d
    | none => s
  (due, commitTickets s)

/-! Steps 4 and 5 -/

/-- Tickets of rule changes that drain at this seam. -/
def drainedUids (s : State) : List Nat := s.rules.filterMap fun r => if r.d == some s.beat then r.uid else none

/-- Step 4 (R26, R441): rule changes drain, journal entries come to rest, and the completions are posted. While the control firmware
is down only those of the rule changes are (R583). -/
def stepRetire (s : State) (cqFail : List (TarnIx × QpIx)) : State :=
  let s := (upto 16).foldl journalIdle (drainRules s)
  let uids := drainedUids s
  if fwUp s then postAll s cqFail
  else allTarns.foldl (fun s t => postTarn s cqFail t fun x => match x.uid with
    | some u => uids.contains u
    | none => false) s

/-- Apply a rack grant (R428, R624). -/
def applyGrant (s : State) (gmp : Option (GmpChannel × Nat)) (t : TarnIx) (dev : Fin 64) (src : TarnIx) (add : Bool) : State :=
  if add && isConf s t then match gmp with
    | some (ch, req) => gmpReply s ch req .notPermitted []
    | none => s
  else
    let s := modTarn s t fun n => { n with grants :=
      if add then (if n.grants.contains (dev, src) then n.grants else n.grants ++ [(dev, src)]) else n.grants.filter (· != (dev, src)) }
    addRule s { id := 0, what := 8, e := s.beat, tarn := some t, gmp }

/-- A unit leaves service for a GCI test from this beat (R637, R649). -/
def applyTest (s : State) (uid : Nat) (t : TarnIx) (u : UnitId) : State :=
  match ticketOf s uid with
  | none => s
  | some k =>
    if !ticketRuns k then s
    else if testRefused s t u (opW k 1) then answerTicket s uid .notPermitted 0 0
    else
      let s := setTesting s u true
      let s := { s with bists := s.bists ++ [{ unit := u, code := opW k 1, uid := some uid, tarn := some t, stage := 1 }] }
      addRule s { id := 0, what := 7, e := s.beat, tarn := some t, unit := some u }

/-- Order of pending rule changes within step 5 (R505): invalidations, unloads, then replacements, then the others. -/
def pendRank (p : PendRule) : Nat :=
  match p with
  | .invalidate _ _ _ => 0
  | .unload _ _ _ => 1
  | .hold _ _ => 3
  | .release _ _ => 4
  | .grant _ _ _ _ _ => 5
  | .test _ _ _ => 6

/-- One pending rule change in step 5. -/
def applyPend (s : State) (p : PendRule) : State :=
  match p with
  | .unload uid t slot => applyUnload s uid t slot
  | .invalidate uid t entry => applyInvalidate s uid t entry
  | .hold t round => applyHold s t round
  | .release t round => applyRelease s t round
  | .grant gmp t dev src add => applyGrant s gmp t dev src add
  | .test uid t u => applyTest s uid t u

/-- The pending rule changes of one rank. -/
def applyRank (ps : List PendRule) (s : State) (r : Nat) : State := (ps.filter fun p => pendRank p == r).foldl applyPend s

/-- Pending rule changes in their order, replacement commits among them (R505). -/
def applyPends (s : State) : State :=
  let ps := s.pendRules
  let s := [0, 1].foldl (applyRank ps) { s with pendRules := [] }
  [3, 4, 5, 6].foldl (applyRank ps) ((upto 16).foldl commitReplace s)

/-- Step 5 (R26, R435, R447, R601). -/
def stepRules (s : State) (due : Option Due) : State :=
  let s := closeRules (settleDying (freeScrubbed (settleBists s)))
  let s := match due with
    | some d => (match d.fails with
      | some st => failPhase s d.set st
      | none => applyPhase s d.set d.phase d.breaks)
    | none => s
  applyPends s

/-! Step 10 -/

/-- Scrubs of drained changes start (R445), with those that waited for a HOUSE ticket (R99); a resource under test waits for the scrub of
its test (R649). -/
def stepScrubs (s : State) : State :=
  let busy := fun (r : Resource) => s.bists.any fun b => (bistRes b.unit).contains r
  let held := fun (r : Resource) => s.rules.any fun c => c.d.isNone && c.takes.contains r
  startScrubs s (trackedResources.filter fun r => !busy r && !held r)

/-- Write one advisory, or lose it (R77, R78, R97) (DESIGN CHOICE, log 50). -/
def postAdvisory (s : State) (t : TarnIx) (fails : Bool) (a : Advisory) : State :=
  let s := modFn s t fun f => { f with
    advSummary := f.advSummary ||| BitVec.ofNat 6 (2 ^ advBit a.kind)
    advOwed := f.advOwed || !f.advMask.getLsbD (advBit a.kind) }
  let f := fnOf s t
  if !f.advEnable then s
  else if 256 ≤ ringDist f.advHead f.advTail || !issues f || fails then
    modFn s t fun f => { f with
      advLost := if f.advLost == BitVec.allOnes 32 then f.advLost else f.advLost + 1
      advSummary := f.advSummary ||| BitVec.ofNat 6 (2 ^ 5)
      advOwed := f.advOwed || !f.advMask.getLsbD 5 }
  else
    let e := compBytes a.kind a.status (phaseBit 256 f.advTail + 2) 0 a.ticketId a.result0.toNat s.beat a.result1.toNat
    modFn (writeEntry s t f.advBase.toNat 256 f.advTail e) t fun f => { f with advTail := f.advTail + 1 }

/-- Post the advisories of a Tarn, then its vector once (R77, R97). -/
def postAdvisories (s : State) (advFail : List TarnIx) (t : TarnIx) : State :=
  let l := (fnOf s t).advisories
  let s := l.foldl (fun s a => postAdvisory s t (advFail.contains t) a) (modFn s t fun f => { f with advisories := [] })
  if (fnOf s t).advOwed then modFn (sendVector s t (fnOf s t).advVector.toNat) t fun f => { f with advOwed := false } else s

/-- BAR event of the bar that ends (R546), when it admitted or placed anything; the count starts again (DEDUCED, log 29). -/
def stepBar (s : State) : State :=
  if !barEnd s then s
  else
    let b := s.bar
    let s := if fwUp s && (0 < b.express + b.basin + b.steady + b.house || 0 < b.placed) then
        tally s 0x0010 2 anyTarn true .ok
          (leBytes 8 b.firstBeat ++ leBytes 4 b.express ++ leBytes 4 b.basin ++ leBytes 4 b.steady ++ leBytes 4 b.house ++ leBytes 4 b.placed
            ++ leBytes 4 b.spills ++ leBytes 4 b.deferred ++ zeros 20 ++ sha384 b.records.flatten)
      else s
    { s with bar := { firstBeat := s.beat + 1 } }

/-- Add the placement record of the coming beat (DEDUCED, log 29). -/
def addRecord (s : State) : State :=
  { s with bar := { s.bar with
      records := s.bar.records ++ [placementRecord s]
      placed := s.bar.placed + (s.figs.filter (·.isSome)).length } }

/-- The time at which the coming seam begins (R17). -/
def seamUs (s : State) : Nat := s.timeUs + (beatLen s - 2)

/-- A checkpoint falls due by time at a bar end, or by entries (R547). -/
def checkpointDue (s : State) : Bool :=
  (barEnd s && s.tally.lastCpUs + 10000 ≤ seamUs s && 0 < s.tally.sinceCp) || 65536 ≤ s.tally.sinceCp

/-- Begin a checkpoint that is due (R547). -/
def autoCheckpoint (s : State) : State :=
  if !checkpointDue s then s
  else
    let s' := beginCheckpoint s
    if rootOk s && s.tally.signing.isNone then { s' with tally := { s'.tally with lastCpUs := seamUs s } } else s'

/-! Firmware images -/

/-- FIRMWARE event of an image: 1 staged, 2 activated, 3 refused, 4 rolled back (DEDUCED, log 45). -/
def tallyFirmware (s : State) (half event : Nat) (release : BitVec 32) (digest : Bytes) (st : Status) : State :=
  tally s 0x0070 2 anyTarn false st
    (leBytes 1 half ++ leBytes 1 event ++ zeros 2 ++ leBytes 4 release.toNat ++ zeros 48 ++ padTo 48 digest)

/-- Largest body of a half (R640). -/
def maxBody (half : Nat) : Nat := if half == 0 then 131072 else 67108864

/-- The header's form (Table 14-6): format, half, reserved fields and lengths. -/
def imageFormOk (img : Bytes) : Bool :=
  256 ≤ img.length && field img 0 2 == 1 && byteAt img 2 ≤ 1 && field img 0x0C 4 == 0 && allZero (slice img 0xD0 0x30) && byteAt img 7 == 0
    && field img 8 4 ≤ maxBody (byteAt img 2) && img.length == 256 + field img 8 4

/-- Signature and digest (R640): the signer is one of the fused keys, not revoked (DESIGN CHOICE, log 21). -/
def imageSigned (s : State) (img : Bytes) : Bool :=
  sha384 (img.drop 256) == slice img 0x10 48
    && (s.fuses.fwKeys.zipIdx.any fun k => !s.fuses.fwRevoked.getLsbD k.2 && sha384 k.1 == slice img 0x40 48
      && ecdsaVerify k.1 (sha384 (img.take 0x70)) (slice img 0x70 96))

/-- The checks of R641 in order. -/
def stageCheck (s : State) (img : Bytes) : Status :=
  if !imageFormOk img then .badCommand
  else if !imageSigned s img then .notPermitted
  else if 96 < byteAt img 3 then .counterExhausted
  else if byteAt img 3 < s.fuses.rollback then .notPermitted
  else .ok

/-- The inactive bank of a half. -/
def setNextBank (s : State) (half : Nat) (b : Bank) : State :=
  { s with fw := if half == 0 then { s.fw with kernelNext := b } else { s.fw with ctrlNext := b } }

/-- Answer the requester of a staging: over GMP, or with a PLDM completion code (PRESUMED, log 52). -/
def answerStage (s : State) (asker : Option (GmpChannel × Nat)) (st : Status) : State :=
  match asker with
  | some x => gmpReply s x.1 x.2 st []
  | none => pldmAnswer s (if st == .ok then 0 else 1) []

/-- A staging is refused: its inactive bank is empty (R641). -/
def refuseStage (s : State) (img : Bytes) (asker : Option (GmpChannel × Nat)) (st : Status) : State :=
  let half := byteAt img 2
  answerStage (if 1 < half then s
    else tallyFirmware (setNextBank s half {}) half 3 (BitVec.ofNat 32 (field img 4 4)) (slice img 0x10 48) st) asker st

/-- A staging begins (R641): the image is written to the inactive bank of its half, which is empty until the kernel has verified it in
step 10 of the coming seam (R651) (DESIGN CHOICE, log 45). -/
def beginStage (s : State) (img : Bytes) (asker : Option (GmpChannel × Nat)) : State :=
  if !imageFormOk img then refuseStage s img asker .badCommand
  else if s.fw.staging.any fun x => x.half == byteAt img 2 then answerStage s asker .notPermitted
  else
    let s := setNextBank s (byteAt img 2) {}
    { s with fw := { s.fw with staging := s.fw.staging ++ [{ half := byteAt img 2, image := img, asker := asker }] } }

/-- The kernel verifies an image (R641), with its FIRMWARE event: 1 staged, 3 refused (DEDUCED, log 45). -/
def endStage (s : State) (x : Staging) : State :=
  let img := x.image
  match stageCheck s img with
  | .ok =>
    let b : Bank := { staged := true, svn := byteAt img 3, release := BitVec.ofNat 32 (field img 4 4), digest := slice img 0x10 48 }
    answerStage (tallyFirmware (setNextBank s x.half b) x.half 1 b.release b.digest .ok) x.asker .ok
  | st => refuseStage s img x.asker st

/-- Every staging in progress ends. -/
def endStages (s : State) : State := s.fw.staging.foldl endStage { s with fw := { s.fw with staging := [] } }

/-- Step 10 (R26, R77, R445, R546, R547, R641). -/
def stepHouse (s : State) (advFail : List TarnIx) : State :=
  let s := addRecord (stepBar (stepScrubs s))
  let s := autoCheckpoint (endStages s)
  if fwUp s then telemStep (allTarns.foldl (fun s t => postAdvisories s advFail t) s) (barEnd s) else s

/-! The end of the beat -/

/-- What ends with a bar: counts of the bar, waits counted in bars, and a join (R39, R53, R354, R600, R643). -/
def endBar (s : State) : State :=
  let s := linksBarEnd s
  let s := { s with
    fns := s.fns.map fun f => { f with sessions := f.sessions.map fun x => { x with tagFails := 0 } }
    tarns := s.tarns.map fun t => t.map fun t => { t with overThisBar := false, lentBar := 0 }
    sets := s.sets.map fun c => if c.state == .between && (c.phases.getD (c.applied - 1) {}).e < s.beat then { c with phase1Bars := c.phase1Bars + 1 } else c
    fw := { s.fw with drain := s.fw.drain.map (· - 1) }
    timing := { s.timing with lostBars := if s.timing.mode == .link then s.timing.lostBars + 1 else s.timing.lostBars } }
  expirePhases s

/-- The counter and the bar position move on (R19, R20), and the work window of the new beat has its phase correction (R52, R53) (DEDUCED, log 65). -/
def nextBeat (s : State) (us : Nat) (atEnd : Bool) : State :=
  let ps := 1000000 * us + s.timing.windowPs + s.timing.fracPs
  let s := { s with
    beat := s.beat + 1, pos := if atEnd then 0 else s.pos + 1, timeUs := s.timeUs + (ps / 1000000).toNat, swapped := none, admitted := 0
    timing := { s.timing with fracPs := ps % 1000000 } }
  let c := phaseStep s.timing.owedPs
  let s := { s with timing := { s.timing with windowPs := c, owedPs := s.timing.owedPs - c } }
  let s := if atEnd then applyJoin s else s
  let s := { s with board := { s.board with beatOut := if s.pos == 0 then 300 else 100 } }
  linksBeatStart (if fwUp s then allTarns.foldl pumpIntake s else s)

/-! The seam -/

/-- A fault of the control firmware is declared (R583, R586): the fourth within 60 s of the first of three earlier ones is FATAL. -/
def declareFault (s : State) : State :=
  if !s.fw.faulty then s
  else
    let old := s.fw.faults
    let s := { s with
      fw := { s.fw with faulty := false, down := some s.beat, faults := (s.timeUs :: old).take 4 }
      fns := s.fns.map fun f => { f with recoverAll := true } }
    let s := tallyFault s anyTarn (mkUnit kFw 0) 1 0
    match old[2]? with
    | some x => if s.timeUs ≤ x + 60000000 then setFatal s else s
    | none => s

/-- The restart seam begins (R585, R643): the control firmware serves again. -/
def beginRestart (s : State) : State :=
  let s := { s with
    fw := { s.fw with down := none }
    fuses := { s.fuses with rollback := max s.fuses.rollback (min 96 s.fw.ctrl.svn) } }
  if s.fw.drainGmp.isEmpty then s else tallyFirmware s 1 2 s.fw.ctrl.release s.fw.ctrl.digest .ok

/-- The restart seam ends: its completions are posted (R568). -/
def endRestart (s : State) : State :=
  { s with fw := { s.fw with restart := false, drainGmp := [] }, fns := s.fns.map fun f => { f with recoverAll := false } }

/-- Answer an activation that the restart completes (R643) (DEDUCED, log 45). -/
def answerDrain (s : State) : State :=
  s.fw.drainGmp.foldl (fun s x => gmpReply s x.1 x.2 .ok []) s

/-- Steps 1 to 6. The vectors owed are raised once, after the completions of step 4 (R95) (DESIGN CHOICE, log 78). A FATAL fault that step 1
finds ends the seam there: nothing is posted (R109, R587). -/
def seamRules (s : State) (i : SeamIn) (restart : Bool) : State :=
  let s := stepClose s
  if s.fatal then s
  else
    let (due, s) := stepCommit s restart
    let s := if fwUp s then postAll s i.cqFail else s
    let s := raiseAll (stepRetire s i.cqFail)
    let s := stepRules s due
    if fwUp s then stepSchedule s else s

/-- Steps 7 to 10 and the start of the next beat. -/
def seamWork (s : State) (i : SeamIn) : State :=
  let up := fwUp s
  let s := if up then stepGovernor s i else stepGovernorDown s i
  let v := Config.vCore (voltageClock s)
  let s := if up then stepPlace (stepAdmit s) i.lend else s
  let s := remotesExpire (newRoutes (stepHouse s i.advFail))
  let atEnd := barEnd s
  let s := nextBeat (if atEnd then endBar s else s) (beatLen s) atEnd
  if up then lowerVoltage s v else s

/-- A whole seam (R26, R583, R585) (DESIGN CHOICE, log 2). -/
def seam (s : State) (i : SeamIn) : State :=
  let restart := s.fw.restart && s.fw.down.isSome
  let s := stepSpares (if restart then beginRestart s else declareFault s)
  if s.fatal then s
  else
    let s := seamRules s i restart
    let s := if s.fatal then s else seamWork s i
    if restart then endRestart (answerDrain s) else s

/-- SEAM (R26) (DESIGN CHOICE, log 2). -/
def execSeam (i : SeamIn) (s : State) : Host.Outcome State Fault Refusal := .next (if running s then seam s i else s)

end Sys2Proof.Machine
end

