-- ==== Sys2Proof/Machine/Faults.lean ====
section
/-! DEFINITION. Faults as they are detected, the progress of recovery, self-tests, patrol scrub and targeted refresh, and the host's
accesses under CXL (R218, R219, R224, R230, R234, R239, R387, R395, R566, R567, R576 to R587, R632 to R639). -/

namespace Sys2Proof.Machine

/-! Tiles -/

/-- A tile fails (R154, R567, R576): the figure that runs on that physical tile is lost, and the tile is retired in the coming seam. -/
def tileFails (s : State) (tile : Fin 128) : State :=
  if s.units.tileFailed.getLsbD tile then s
  else
    let hit := match figOf s (tile / 8) with
      | some f => f.phys.contains (s.units.tileMap.getD tile 0)
      | none => false
    let s := if hit then killFigure s (tile / 8) .unitFailed else s
    queueUnit s (mkUnit kTile tile) 0

/-- TILE_FAULT (R576). -/
def execTileFault (tile : Fin 128) (s : State) : Host.Outcome State Fault Refusal := .next (if running s then tileFails s tile else s)

/-- SPARE_PLACED (R111): this part of step 9 for one quadrant. -/
def execSparePlaced (quadrant : Fin 4) (s : State) : Host.Outcome State Fault Refusal :=
  .next (if running s && fwUp s then placeSpare s quadrant else s)

/-! Memory -/

/-- Channel index of a channel. -/
def chanIx (st : StackIx) (c : ChanIx) : Nat := 32 * st + c

/-- The bound on corrected errors of a unit's kind (Table 14-4) (DEDUCED, log 59). -/
def errorBound (b : Bounds) (u : UnitId) : Option Nat :=
  if u.kind == kChan then some b.ceChannel
  else if u.kind == kTile then some b.ceTile
  else if u.kind == kLane || u.kind == kKae then some b.ceEngine
  else none

/-- Record an error count of a unit (R627, R632). -/
def setCount (s : State) (u : UnitId) (ce : Nat) : State :=
  let old := (assocGet (unitNum u) s.units.counts).getD (0, 0)
  { s with units := { s.units with counts := assocPut (unitNum u) (ce, old.2) s.units.counts } }

/-- A unit has left service. -/
def unitGone (s : State) (u : UnitId) : Bool :=
  let i := u.index.toNat
  match u.kind.toNat with
  | 0x01 => s.units.tileFailed.getLsbD i
  | 0x02 => s.units.groupRetired.getLsbD i
  | 0x03 => s.units.chans.getD i .lost != .working
  | 0x04 => s.units.reelRetired.getLsbD i
  | 0x05 => s.units.memRetired.getLsbD i
  | 0x06 => s.units.laneRetired.getLsbD i
  | 0x07 => s.units.kaeFailed.getLsbD i
  | 0x08 => s.units.fieldFailed
  | 0x0A => s.units.linkRetired.getLsbD i
  | 0x0B => s.units.coreFailed.getLsbD i
  | _ => false

/-- A unit whose error rate passes its bound (R632): it is retired in step 7 of the coming seam, or, with RETIRE_MODE 1, reported once (DEDUCED, log 32). -/
def ratePassed (s : State) (u : UnitId) : State :=
  if unitGone s u then s
  else if s.gov.bounds.retireMode == 1 then
    if s.units.advised.contains (unitNum u) then s
    else tallyRetire { s with units := { s.units with advised := unitNum u :: s.units.advised } } 3 .unitFailed
  else queueUnit s u 3

/-- ERROR_RATE_RETIRE (R632): `count` is the unit's count of corrected errors over its window (DEDUCED, log 59). -/
def execErrorRateRetire (u : UnitId) (count : Nat) (s : State) : Host.Outcome State Fault Refusal :=
  .next (if running s && unitExists u then match errorBound s.gov.bounds u with
    | some b => if b < count then ratePassed (setCount s u count) u else setCount s u count
    | none => s
  else s)

/-- CHANNEL_RETIRE (R577, R632): a channel's error rate, of either kind, has passed its bound (DEDUCED, log 59). -/
def execChannelRetire (s_ : StackIx) (c : ChanIx) (s : State) : Host.Outcome State Fault Refusal :=
  .next (if running s && s.units.chans.getD (chanIx s_ c) .lost == .working then ratePassed s (mkUnit kChan (chanIx s_ c)) else s)

/-- CHANNEL_COPY_DONE (R577): the retired channel's data are all in the spare area. -/
def execChannelCopyDone (s_ : StackIx) (c : ChanIx) (s : State) : Host.Outcome State Fault Refusal :=
  .next (if running s && s.units.chans.getD (chanIx s_ c) .lost == .copying then
    { s with units := { s.units with
        chans := s.units.chans.set (chanIx s_ c) .remapped, moving := s.units.moving.filter fun x => x.2.2 != chanIx s_ c } } else s)

/-- CHANNEL_LOST (R578). -/
def execChannelLost (s_ : StackIx) (c : ChanIx) (s : State) : Host.Outcome State Fault Refusal :=
  .next (if running s && s.units.chans.getD (chanIx s_ c) .lost != .lost then queueUnit s (mkUnit kChan (chanIx s_ c)) 1 else s)

/-- The Reel unit that carries out the commands of a channel: its own, or the nearest working one of the stack in descending
channel order (R233, R235) (DEDUCED, log 33). -/
def servingReel (s : State) (ch : Nat) : Option Nat :=
  ((upto 32).map fun i => ch / 32 * 32 + (ch % 32 + 32 - i) % 32).find? fun c => !s.units.reelRetired.getLsbD c

/-- The Reel commands of a tile that may be running (R234): those on their way to their units, and one at the head of its stream that
nothing keeps from being issued: no fault or end of the figure, no thermal hold, no read awaited, its ranges permitted (DEDUCED, log 33). -/
def reelCommands (s : State) (g ti : Nat) (f : FigRun) : List (List Nat) :=
  let r := f.tiles.getD ti {}
  let w := r.ops.headD []
  let head := f.cycles.isNone && f.fault.isNone && opCode w == 0x0A && !opHeld s f.args w && !awaitsRead s r w
    && (reqAccesses (.reel (w.drop 1))).all fun x => (accessCheck s f.tarn x.2.1 x.2.2).isNone
  (f.flying.filterMap fun x => match x with
    | (t, .reel c) => if t == ti && !reqHeld s (.reel c) then some c else none
    | _ => none) ++ (if head && figuresRun s && (figOf s g).isSome then [w.drop 1] else [])

/-- A Reel command of a tile runs on a Reel unit that fails (R234): its destination is undefined and its ticket ends
(DESIGN CHOICE, log 9; DEDUCED, log 33). -/
def reelStops (ch : Nat) (s : State) (gt : Nat × Nat) : State :=
  match figOf s gt.1 with
  | none => s
  | some f =>
    ((reelCommands s gt.1 gt.2 f).filter fun c => (reelPositions c).any fun p => servingReel s p == some ch).foldl (fun s c =>
      let d := (reelRanges c).2
      let (bs, s) := drawFree s d.2
      killFigure (modFig (devWrite s d.1 bs) gt.1 fun f => { f with flying := f.flying.erase (gt.2, .reel c) }) gt.1 .unitFailed) s

/-- A Reel unit fails (R234) (DEDUCED, log 33); the rounds follow when it is taken out of service (R272). -/
def reelFails (s : State) (ch : Nat) : State :=
  if s.units.reelRetired.getLsbD ch then s
  else
    let s := ((upto 16).map fun g => (upto 8).map fun t => (g, t)).flatten.foldl (reelStops ch) s
    queueUnit s (mkUnit kReel ch) 0

/-- REEL_UNIT_FAULT (R234). -/
def execReelUnitFault (s_ : StackIx) (c : ChanIx) (s : State) : Host.Outcome State Fault Refusal :=
  .next (if running s then reelFails s (chanIx s_ c) else s)

/-- Count an error of a channel found by patrol scrub. -/
def countWord (s : State) (ch : Nat) (bad : Bool) : State :=
  let k := unitNum (mkUnit kChan ch)
  let old := (assocGet k s.units.counts).getD (0, 0)
  { s with units := { s.units with counts := assocPut k (if bad then (old.1, old.2 + 1) else (old.1 + 1, old.2)) s.units.counts } }

/-- Bytes of a channel, visible, spare and device-private (R196, Table 05-1). -/
def rawChannel : Nat := 36 * 2 ^ 25

/-- The visible word whose data lies at a spare-area offset of a channel, when a remapped slice is there (R235). -/
def remappedWord (s : State) (ch offset : Nat) : Option Nat :=
  ((s.units.remapped.filter fun x => x.2.2 == ch)[(offset - 2 ^ 30) / 2 ^ 25]?).map fun x =>
    (x.1 * 2 ^ 30 + x.2.1 * 2 ^ 25 + (offset - 2 ^ 30) % 2 ^ 25) / 32

/-- Mark a word of a channel poisoned: a visible one, one whose data a remap holds in the spare area, or one of the rest of the spare area
and of device-private memory, which no address names (R197). -/
def poisonWord (s : State) (ch offset : Nat) : State :=
  if offset < 2 ^ 30 then { s with poison := putBad s.poison ((ch * 2 ^ 30 + offset) / 32) }
  else match if offset < 2 ^ 30 + 2 ^ 26 then remappedWord s ch offset else none with
    | some w => { s with poison := putBad s.poison w }
    | none => { s with hiddenPoison := if s.hiddenPoison.contains (ch, offset) then s.hiddenPoison else (ch, offset) :: s.hiddenPoison }

/-- Patrol scrub of one word (R218, R219): 0 clean, 1 corrected and written back, 2 uncorrectable and marked poisoned. -/
def patrolWord (s : State) (ch offset outcome : Nat) : State :=
  let s := { s with patrol := s.patrol + 1 }
  match outcome with
  | 0 => s
  | 1 => countWord s ch false
  | _ => poisonWord (countWord s ch true) ch offset

/-- PATROL_SCRUB (R219). -/
def execPatrolScrub (s_ : StackIx) (c : ChanIx) (offset outcome : Nat) (s : State) : Host.Outcome State Fault Refusal :=
  .next (if running s && offset < rawChannel && s.units.chans.getD (chanIx s_ c) .lost != .lost then patrolWord s (chanIx s_ c) offset outcome else s)

/-- TARGETED_REFRESH (R230): a row that reaches 2,048 activations in a refresh window has the two rows on each side refreshed (DESIGN CHOICE, log 35). -/
def execTargetedRefresh (s_ : StackIx) (c : ChanIx) (row activations : Nat) (s : State) : Host.Outcome State Fault Refusal :=
  .next (if running s && 2048 ≤ activations then
    { s with dram := s.dram.modify s_ fun d => { d with
        refreshed := ((if 2 ≤ row then [row - 2] else []) ++ (if 1 ≤ row then [row - 1] else []) ++ [row + 1, row + 2]).map fun x => (c.val, x) } }
  else s)

/-! Engines and cores -/

/-- BASIN_LANE_FAULT (R582). -/
def execBasinLaneFault (j : LaneIx) (s : State) : Host.Outcome State Fault Refusal :=
  .next (if running s && !s.units.laneRetired.getLsbD j then queueUnit s (mkUnit kLane j) 0 else s)

/-- KAE_CORE_FAULT (R330). -/
def execKaeCoreFault (core : Fin 64) (s : State) : Host.Outcome State Fault Refusal :=
  .next (if running s && !s.units.kaeFailed.getLsbD core then queueUnit s (mkUnit kKae core) 0 else s)

/-- FIELD_UNIT_FAULT (R331). -/
def execFieldUnitFault (s : State) : Host.Outcome State Fault Refusal :=
  .next (if running s && !s.units.fieldFailed then queueUnit s (mkUnit kField 0) 0 else s)

/-- CONTROL_CORE_FAULT (R581). -/
def execControlCoreFault (core : Fin 8) (s : State) : Host.Outcome State Fault Refusal :=
  .next (if running s && !s.units.coreFailed.getLsbD core then queueUnit s (mkUnit kCore core) 0 else s)

/-- FIRMWARE_FAULT (R583): the fault is declared at the next seam. -/
def execFirmwareFault (s : State) : Host.Outcome State Fault Refusal :=
  .next (if running s && fwUp s then { s with fw := { s.fw with faulty := true } } else s)

/-- The staged control firmware becomes the active one, and the banks swap (R643, R650). -/
def swapControl (s : State) : State :=
  { s with fw := { s.fw with ctrl := { s.fw.ctrlNext with staged := false, marked := false },
                             ctrlNext := { s.fw.ctrl with staged := false, marked := false }, drain := none } }

/-- FIRMWARE_RESTART (R585, R650): the next seam is the restart seam; a restart during a drain loads the staged image. -/
def execFirmwareRestart (s : State) : Host.Outcome State Fault Refusal :=
  .next (if running s && !fwUp s && !s.fw.restart then
    let s := if s.fw.drain.isSome then swapControl s else s
    { s with fw := { s.fw with restart := true } }
  else s)

/-- FATAL_FAULT (R587). -/
def execFatalFault (s : State) : Host.Outcome State Fault Refusal := .next (setFatal s)

/-! Self-tests -/

/-- BIST_RUN over GCI (R634, R637): the unit leaves service in step 5 of the coming seam. -/
def serveBistRun (s : State) (k : Ticket) : State :=
  if k.stage != 0 then s
  else
    let s := modTicket s k.uid fun k => { k with stage := 1 }
    { s with pendRules := s.pendRules ++ [.test k.uid k.tarn (unitOfNum (opW k 0))] }

/-- BIST_RUN. -/
def execBistRun (uid : Nat) (s : State) : Host.Outcome State Fault Refusal := .next (serve s uid 0x06 serveBistRun)

/-- A test ends (R635, R639): a signature other than the fused one, or none, retires the unit (DEDUCED, log 36). -/
def bistDone (s : State) (u : UnitId) (code : Nat) (r : BistResult) : State :=
  let want := Config.bistExpected code u.kind.toNat
  let fails := fun (s : State) (sig expected : BitVec 32) => queueUnit (bistEnds s u .unitFailed sig expected) u 0
  if s.bists.any fun b => b.unit == u && b.code == code && b.stage == 2 then
    match r with
    | .signature v => if v == want then bistEnds s u .ok v want else fails s v want
    | .cannotComplete => fails s 0 0
  else if u.kind == kTile then
    spareTest s u.index.toNat code (match r with
      | .signature v => v == want
      | .cannotComplete => false)
  else s

/-- BIST_COMPLETE (R635). -/
def execBistComplete (u : UnitId) (code : Nat) (r : BistResult) (s : State) : Host.Outcome State Fault Refusal :=
  .next (if running s then bistDone s u code r else s)

/-! CXL -/

/-- The interleaved-view address of a host offset into a Tarn's decoder range (R395). -/
def hdmAddr (s : State) (t : TarnIx) (x : Nat) : Option Nat :=
  ((setBits 32 (entryOf s t).expose.toNat)[x / 2 ^ 33]?).map fun b => b * 2 ^ 33 + x % 2 ^ 33

/-- The access reaches an exposed band that the Tarn owns whole (R224, R239), through a decoder, which a port has only while it runs CXL
(R421). -/
def hdmOk (s : State) (p : Port) (t : TarnIx) (a : Nat) : Bool :=
  (portSt s p).cxl && live s t && !isConf s t && portOf s t == p && ownsBand (entryOf s t) (a / 2 ^ 33) && (rangeUnits a 64).all (unitOk s t)

/-- A CXL.mem access of one line (R224, R236, R239, R395): a stack in thermal hold lets it wait, its check
made at its arrival (R439). -/
def hdmAccess (s : State) (p : Port) (t : TarnIx) (x : Nat) (req : CxlReq) : State :=
  match (if x % 64 == 0 then hdmAddr s t x else none) with
  | none => emit s (.cxl p false false [])
  | some a =>
    if !hdmOk s p t a then emit s (.cxl p false false [])
    else if touchesHold s a 64 then { s with cxlHeld := s.cxlHeld ++ [{ port := p, tarn := t, addr := a, req, stamp := s.beat }] }
    else hdmServe s p a req

/-- CXL_MEM_ACCESS (R239). -/
def execCxlMemAccess (p : Port) (t : TarnIx) (offset : Nat) (req : CxlReq) (s : State) : Host.Outcome State Fault Refusal :=
  .next (if running s then hdmAccess s p t offset req else s)

/-- CXL_SNOOP (R387): the GZ8 never holds a host line; a port that runs PCIe gets no snoop (R421). -/
def execCxlSnoop (p : Port) (_line : Nat) (s : State) : Host.Outcome State Fault Refusal :=
  .next (if running s && (portSt s p).cxl then emit s (.snoopMiss p) else s)

end Sys2Proof.Machine
end

