-- ==== Sys2Proof/Machine/Host.lean ====
section
/-! DEFINITION. Host reads and their answers (R389, R390, R101), function-level reset (R392, R393), and the limits of sessions
(R413 to R415). -/

namespace Sys2Proof.Machine

/-- End every ticket of a Tarn whose outcome is not committed with ABORTED_BY_RECOVERY in the next seam, and stop its host reads. -/
def abortTickets (s : State) (t : TarnIx) : State :=
  { s with tickets := s.tickets.map fun k =>
      if k.tarn == t && k.ledger.state != .complete && k.ledger.state != .failed then { k with faults := k.faults ++ [.abortedByRecovery], need := [], dma := none, dirty := true }
      else k }

/-- Registers of a function after FLR: its reset values; the sticky error status and recovery bookkeeping stay. -/
def fnAfterFlr (f : FnRegs) : FnRegs := { aer := f.aer, recovering := f.recovering, recoverAll := f.recoverAll }

/-- FLR of a Tarn function (R392, R393): no completion record of its tickets is written, since its queue pairs are reset. -/
def flrTarn (s : State) (t : TarnIx) : State :=
  let s := abortTickets s t
  let s := modFn s t fnAfterFlr
  tallySession s t 5 0

/-- FLR (R392). -/
def execFlr (t : TarnIx) (s : State) : Host.Outcome State Fault Refusal :=
  .next (if s.board.running then flrTarn s t else s)

/-- Uncorrectable error status bit of an answer. -/
def aerBit (r : DmaResult) : BitVec 32 :=
  match r with
  | .data _ => 0
  | .unsupportedRequest => BitVec.ofNat 32 (2 ^ 20)
  | .completerAbort => BitVec.ofNat 32 (2 ^ 15)
  | .poisoned => BitVec.ofNat 32 (2 ^ 12)

/-- Status with which an answer other than data ends a ticket (R389). -/
def dmaStatus (r : DmaResult) : Status :=
  match r with
  | .data _ => .ok
  | .unsupportedRequest => .notPermitted
  | .completerAbort => .notPermitted
  | .poisoned => .dataLost

/-- Log an error of a function in its AER status. -/
def logAer (s : State) (t : TarnIx) (b : BitVec 32) : State := modFn s t fun f => { f with aer := f.aer ||| b }

/-- Data of a host read arrive: to device memory where the read names it, else to the ticket's buffer; the next
read goes out, but for CONTRIB_SUBMIT, whose reads wait for a staging slot (R265). A stack in thermal hold lets the data wait (R236). -/
def ticketData (s : State) (k : Ticket) (c : DmaChunk) (bs : Bytes) : State :=
  if bs.length != c.len then s
  else
    let stamp := match k.dma with
      | some (_, b) => b
      | none => s.beat
    match c.dev with
    | some d => if touchesHold s d bs.length then
        modTicket s k.uid fun k => { k with dma := none, parked := some (d, bs), hand := [(bs.length, stamp)] }
      else landChunk s s.beat k.uid d bs
    | none =>
      let s := modTicket s k.uid fun k => { k with
        dma := none, buf := k.buf ++ bs
        hand := if c.chk.isSome then k.hand ++ [(k.received + bs.length, stamp)] else k.hand
        received := k.received + bs.length }
      if k.op == 0x21 || k.op == 0x22 then s else pumpDma s s.beat k.uid

/-- Submission entries arrive (R101). -/
def ringData (s : State) (t : TarnIx) (q : QpIx) (bs : Bytes) : State :=
  let p := qpOf s t q
  if p.reading == 0 || bs.length != 64 * p.reading then s
  else ringPump (modQp s t q fun p => { p with
    fetched := (p.fetched ++ chunks 64 bs).take (ringDist p.sqHead p.sqTail), reading := 0 }) t q

/-- An answer to an outstanding host read. -/
def dmaAnswer (s : State) (target : DmaTarget) (r : DmaResult) : State :=
  match target with
  | .ticket uid => match ticketOf s uid with
    | none => s
    | some k => match k.dma with
      | none => s
      | some (c, _) => match r with
        | .data bs => ticketData s k c bs
        | e => failTicket (logAer s k.tarn (aerBit e)) uid (dmaStatus e)
  | .ring t q => match r with
    | .data bs => ringData s t q bs
    | e => if (qpOf s t q).reading == 0 then s
      else modQp (logAer s t (aerBit e)) t q fun p => { qpFault p 2 with reading := 0 }

/-- DMA_COMPLETION (R389) (DESIGN CHOICE, log 5). -/
def execDmaCompletion (target : DmaTarget) (r : DmaResult) (s : State) : Host.Outcome State Fault Refusal :=
  .next (if running s then dmaAnswer s target r else s)

/-- The completion timeout of an encoding in Device Control 2, in µs: the upper bound of its range, and 50 ms for the default (R390)
(PRESUMED, log 92). -/
def ctoUs (enc : BitVec 4) : Nat :=
  match enc.toNat with
  | 1 => 100
  | 2 => 10000
  | 5 => 55000
  | 6 => 210000
  | 9 => 900000
  | 10 => 3500000
  | 13 => 13000000
  | 14 => 64000000
  | _ => 50000

/-- A read of a function that went out at a device time can have reached its completion timeout in this beat. -/
def ctoPassed (s : State) (t : TarnIx) (us : Nat) : Bool := us + ctoUs (fnOf s t).ctoEnc ≤ s.timeUs + beatLen s

/-- A host read reaches its completion timeout (R390): its ticket ends with TIMEOUT; a ring read faults its queue pair (DESIGN CHOICE, log 58). -/
def dmaTimeout (s : State) (target : DmaTarget) : State :=
  let b := BitVec.ofNat 32 (2 ^ 14)
  match target with
  | .ticket uid => match ticketOf s uid with
    | none => s
    | some k => match k.dma with
      | some (c, _) => if ctoPassed s k.tarn c.us then failTicket (logAer s k.tarn b) uid .timeout else s
      | none => s
  | .ring t q => if (qpOf s t q).reading == 0 || !ctoPassed s t (qpOf s t q).readUs then s
    else modQp (logAer s t b) t q fun p => { qpFault p 2 with reading := 0 }

/-- COMPLETION_TIMEOUT (R390) (DESIGN CHOICE, log 58). -/
def execCompletionTimeout (target : DmaTarget) (s : State) : Host.Outcome State Fault Refusal :=
  .next (if running s then dmaTimeout s target else s)

/-- REKEY_DUE (R414). -/
def execRekeyDue (t : TarnIx) (session : BitVec 32) (s : State) : Host.Outcome State Fault Refusal :=
  .next (postRekey s t session)

/-- SESSION_EXHAUSTED (R415): once SEQ 0xFFFF_FFFF has been used, tickets that need another record end. -/
def execSessionExhausted (t : TarnIx) (session : BitVec 32) (s : State) : Host.Outcome State Fault Refusal :=
  .next (match sessionOf s t session with
    | some x => if sessionSpent x then
        endSessionTickets (modSession s t session fun x => { x with exhausted := true }) t session .sessionExhausted
      else s
    | none => s)

/-- BOUNCE_TAG_FAILURE_LIMIT (R413): sixteen tag failures of one session within a bar end it. -/
def execBounceTagFailureLimit (t : TarnIx) (session : BitVec 32) (s : State) : Host.Outcome State Fault Refusal :=
  .next (match sessionOf s t session with
    | some x => if 16 ≤ x.tagFails then tallySession (dropSession s t session .notPermitted) t 4 session.toNat else s
    | none => s)

end Sys2Proof.Machine
end

