-- ==== Sys2Proof/Machine/Mailbox.lean ====
section
/-! DEFINITION. The registers of a Tarn function (R64 to R78, R95 to R104, R703): doorbells, queue-pair control, the advisory
ring's control, MSI-X masks, and every other register write. -/

namespace Sys2Proof.Machine

/-- The BAR0 registers of a Tarn function answer: the device runs beats, and the function is in D0 (PRESUMED, log 92). -/
def hostReach (s : State) (t : TarnIx) : Bool := s.board.running && !(fnOf s t).d3hot

/-- A write of SQ_TAIL (R67, R100, R104, R384). -/
def writeSqTail (s : State) (t : TarnIx) (q : QpIx) (v : BitVec 16) : State :=
  let p := qpOf s t q
  if !p.enable || !live s t then s
  else if qpDepth p < ringDist p.sqHead v then modQp s t q fun p => qpFault p 1
  else ringPump (modQp s t q fun p => { p with sqTail := v, fetched := p.fetched.take (ringDist p.sqHead v) }) t q

/-- A write of CQ_HEAD (R72, R103, R104); a value behind the current head is treated as one beyond CQ_TAIL (DESIGN CHOICE, log 77). -/
def writeCqHead (s : State) (t : TarnIx) (q : QpIx) (v : BitVec 16) : State :=
  let p := qpOf s t q
  if !p.enable || !live s t then s
  else if ringDist p.cqHead p.cqTail < ringDist p.cqHead v then modQp s t q fun p => qpFault p 4
  else modQp s t q fun p => { p with cqHead := v }

/-- The fields of QP_CTRL that may always be written, and those that may be while ACTIVE is 0 (R68). -/
def qpFields (p : Qp) (v : Nat) : Qp :=
  let p' := { p with
    vector := BitVec.ofNat 6 (bits v 13 8)
    irqEn := bit v 14
    coalCount := BitVec.ofNat 8 (bits v 23 16)
    coalBeats := BitVec.ofNat 4 (bits v 27 24) }
  if qpActive p then p' else { p' with depthLog2 := BitVec.ofNat 4 (bits v 3 0), qclass := BitVec.ofNat 2 (bits v 6 5) }

/-- DEPTH_LOG2 and QCLASS hold values with which a queue pair may be enabled (R70). -/
def qpLegal (p : Qp) : Bool := 6 ≤ p.depthLog2.toNat && p.depthLog2.toNat ≤ 12 && (p.qclass == 1 || p.qclass == 2)

/-- ENABLE goes from 0 to 1 (R69). -/
def qpStart (p : Qp) : Qp :=
  { p with enable := true, error := false, cause := 0, sqHead := 0, sqTail := 0, cqHead := 0, cqTail := 0,
           fetched := [], reading := 0, withhold := false }

/-- A write of QP_CTRL (R68 to R71). -/
def qpCtrl (p : Qp) (v : Nat) : Qp :=
  if bit v 4 then
    if p.enable then qpFields p v
    else if qpActive p then p
    else
      let p := qpFields p v
      if qpLegal p then qpStart p else qpFault p 5
  else { qpFields p v with enable := false, fetched := [], reading := 0 }

/-- A write of QP_CTRL to a queue pair of a function. -/
def writeQpCtrl (s : State) (t : TarnIx) (q : QpIx) (v : Nat) : State := modQp s t q fun p => qpCtrl p v

/-- ADV_CTRL (R78). -/
def advCtrl (f : FnRegs) (v : Nat) : FnRegs :=
  let f' := { f with advVector := BitVec.ofNat 6 (bits v 13 8), advEnable := bit v 0 }
  if bit v 0 && !f.advEnable then { f' with advTail := 0, advHead := 0, advLost := 0 } else f'

/-- A write of ADV_CTRL. -/
def writeAdvCtrl (s : State) (t : TarnIx) (v : Nat) : State := modFn s t fun f => advCtrl f v

/-- A write of ADV_HEAD (R78). -/
def writeAdvHead (s : State) (t : TarnIx) (v : BitVec 16) : State :=
  modFn s t fun f => if ringDist v f.advTail ≤ 256 then { f with advHead := v } else f

/-- The low 12 bits of a ring address are reserved. -/
def baseOf (hi lo : Nat) : BitVec 64 := BitVec.ofNat 64 (hi * 2 ^ 32 + lo / 4096 * 4096)

/-- A write to a 64-bit base register by halves or whole (R65): the new value and remembered lower half. -/
def writeBase (cur : BitVec 64) (lo : Option (BitVec 32)) (half : Option Bool) (v : Nat) : BitVec 64 × Option (BitVec 32) :=
  match half with
  | none => (baseOf (v / 2 ^ 32) (v % 2 ^ 32), none)
  | some false => (cur, some (BitVec.ofNat 32 v))
  | some true => (baseOf (v % 2 ^ 32) (match lo with
    | some l => l.toNat
    | none => cur.toNat % 2 ^ 32), none)

/-- Which part of a 64-bit register an access names: the whole, or a half (R65). -/
def halfOf (base off width : Nat) : Option (Option Bool) :=
  if off == base && width == 8 then some none
  else if off == base && width == 4 then some (some false)
  else if off == base + 4 && width == 4 then some (some true)
  else none

/-- Set or clear the mask of an MSI-X vector; a pended message goes out when it is unmasked (R96). -/
def writeVectorMask (s : State) (t : TarnIx) (v : Nat) (m : Bool) : State :=
  flushPending (modFn s t fun f => { f with msix := f.msix.modify v fun e => { e with mask := m } }) t

/-- A write to a register of the queue-pair configuration region (Table 02-3). -/
def writeQpReg (s : State) (t : TarnIx) (q : QpIx) (off width v : Nat) : State :=
  let p := qpOf s t q
  if off == 0x10 && width == 4 then writeQpCtrl s t q v
  else if qpActive p then s
  else match halfOf 0 off width with
    | some h => modQp s t q fun p => let r := writeBase p.sqBase p.sqBaseLo h v; { p with sqBase := r.1, sqBaseLo := r.2 }
    | none => match halfOf 8 off width with
      | some h => modQp s t q fun p => let r := writeBase p.cqBase p.cqBaseLo h v; { p with cqBase := r.1, cqBaseLo := r.2 }
      | none => s

/-- A write to a register of Table 02-2. -/
def writeTarnReg (s : State) (t : TarnIx) (off width v : Nat) : State :=
  if off == 0x18 && width == 4 then modFn s t fun f => { f with advSummary := f.advSummary &&& ~~~ BitVec.ofNat 6 v }
  else if off == 0x1C && width == 4 then modFn s t fun f => { f with advMask := BitVec.ofNat 6 v }
  else if off == 0x28 && width == 4 then writeAdvCtrl s t v
  else if off == 0x34 && width == 4 then writeAdvHead s t (BitVec.ofNat 16 v)
  else match halfOf 0x20 off width with
    | some h => if (fnOf s t).advEnable then s
      else modFn s t fun f => let r := writeBase f.advBase f.advBaseLo h v; { f with advBase := r.1, advBaseLo := r.2 }
    | none => s

/-- A write to a word of the MSI-X table. -/
def writeMsix (s : State) (t : TarnIx) (off v : Nat) : State :=
  let n := off / 16
  match off % 16 with
  | 0 => modFn s t fun f => { f with msix := f.msix.modify n fun e => { e with addrLo := BitVec.ofNat 32 v } }
  | 4 => modFn s t fun f => { f with msix := f.msix.modify n fun e => { e with addrHi := BitVec.ofNat 32 v } }
  | 8 => modFn s t fun f => { f with msix := f.msix.modify n fun e => { e with data := BitVec.ofNat 32 v } }
  | _ => writeVectorMask s t n (bit v 0)

/-- A write anywhere in BAR0 (R64, R65). -/
def writeBar0 (s : State) (t : TarnIx) (off width v : Nat) : State :=
  if !(width == 4 || width == 8) || off % width != 0 then s
  else if off < 0x1000 then writeTarnReg s t off width v
  else if off < 0x2000 then writeQpReg s t (Fin.ofNat 64 ((off - 0x1000) / 0x40)) ((off - 0x1000) % 0x40) width v
  else if off < 0x2400 then (if width == 4 then writeMsix s t (off - 0x2000) v else s)
  else if 0x40000 ≤ off && off < 0x80000 && width == 4 then
    let q : QpIx := Fin.ofNat 64 ((off - 0x40000) / 0x1000)
    let o := (off - 0x40000) % 0x1000
    if o == 0 then writeSqTail s t q (BitVec.ofNat 16 v) else if o == 4 then writeCqHead s t q (BitVec.ofNat 16 v) else s
  else s

/-! Reads -/

/-- A pair of flags and fields as one register: each field with its lowest bit. -/
def packFields (l : List (Nat × Nat)) : Nat := (l.map fun x => x.1 * 2 ^ x.2).sum

/-- DEV_STATE (Table 02-2): READY once the Tarn accepts submissions (R384, R436), RECOVERING, THROTTLED, HOLDOVER, FATAL. -/
def devState (s : State) (t : TarnIx) : Nat :=
  let f := fnOf s t
  let throttled := match tarnOf s t with
    | some n => n.throttled
    | none => false
  packFields [(b2n (live s t), 0), (b2n (f.recoverAll || !f.recovering.isEmpty), 1), (b2n throttled, 2), (b2n s.timing.holdover, 3),
    (b2n s.fatal, 4)]

/-- What a 32-bit read at 0x0014 returns: the latched upper half of BEAT, or the live one before a latch (R65). -/
def beatUpper (s : State) (f : FnRegs) : Nat :=
  match f.beatLatch with
  | some l => l.toNat
  | none => s.beat / 2 ^ 32

/-- A register of Table 02-2, or a half of one, as a 32-bit read returns it; reserved bits, write-only fields and unlisted offsets are
zero (R7, R9, R64). -/
def tarnReg (s : State) (t : TarnIx) (off : Nat) : Nat :=
  let f := fnOf s t
  match off with
  | 0x00 => 0x0301
  | 0x04 => packFields [(t.val, 0), (b2n (isConf s t), 3), (b2n (isAudit s t), 4), (64, 8), (64, 16)]
  | 0x08 => devState s t
  | 0x0C => packFields [(quotaOf s t, 0), (liveCount s t, 16)]
  | 0x10 => s.beat
  | 0x14 => beatUpper s f
  | 0x18 => f.advSummary.toNat
  | 0x1C => f.advMask.toNat
  | 0x20 => f.advBase.toNat
  | 0x24 => f.advBase.toNat / 2 ^ 32
  | 0x28 => packFields [(b2n f.advEnable, 0), (f.advVector.toNat, 8)]
  | 0x2C => f.advLost.toNat
  | 0x30 => f.advTail.toNat
  | _ => 0

/-- QP_CTRL as it reads (Table 02-3). -/
def qpCtrlBits (p : Qp) : Nat :=
  packFields [(p.depthLog2.toNat, 0), (b2n p.enable, 4), (p.qclass.toNat, 5), (p.vector.toNat, 8), (b2n p.irqEn, 14),
    (p.coalCount.toNat, 16), (p.coalBeats.toNat, 24)]

/-- QP_STATE as it reads (Table 02-3). -/
def qpStateBits (p : Qp) : Nat := packFields [(b2n (qpActive p), 0), (b2n p.error, 1), (p.cause.toNat, 4), (outstanding p, 16)]

/-- A register of Table 02-3, or a half of one, as a 32-bit read returns it. -/
def qpReg (p : Qp) (off : Nat) : Nat :=
  match off with
  | 0x00 => p.sqBase.toNat
  | 0x04 => p.sqBase.toNat / 2 ^ 32
  | 0x08 => p.cqBase.toNat
  | 0x0C => p.cqBase.toNat / 2 ^ 32
  | 0x10 => qpCtrlBits p
  | 0x14 => qpStateBits p
  | 0x18 => p.sqHead.toNat
  | 0x1C => p.cqTail.toNat
  | _ => 0

/-- A word of the MSI-X table as a 32-bit read returns it (R96). -/
def msixWord (f : FnRegs) (off : Nat) : Nat :=
  let e := f.msix.getD (off / 16) {}
  match off % 16 with
  | 0 => e.addrLo.toNat
  | 4 => e.addrHi.toNat
  | 8 => e.data.toNat
  | _ => b2n e.mask

/-- A 32-bit word of BAR0 (Table 02-1); unlisted offsets and the write-only doorbells read as zero (R9, R64). -/
def bar0Word (s : State) (t : TarnIx) (off : Nat) : Nat :=
  if off < 0x1000 then tarnReg s t off
  else if off < 0x2000 then qpReg (qpOf s t (Fin.ofNat 64 ((off - 0x1000) / 0x40))) ((off - 0x1000) % 0x40)
  else if off < 0x2400 then msixWord (fnOf s t) (off - 0x2000)
  else if off == 0x3000 then (fnOf s t).msixPending.toNat
  else if off == 0x3004 then (fnOf s t).msixPending.toNat / 2 ^ 32
  else 0

/-- The offset is that of a 64-bit register: BEAT, ADV_BASE, SQ_BASE, CQ_BASE or the pending-bit array (Tables 02-1 to 02-3)
(DESIGN CHOICE, log 77). -/
def wideReg (off : Nat) : Bool :=
  off == 0x10 || off == 0x20 || off == 0x3000 || (0x1000 ≤ off && off < 0x2000 && ((off - 0x1000) % 0x40 == 0 || (off - 0x1000) % 0x40 == 8))

/-- What a read of BAR0 returns (R9, R64, R65): zero for an access that fits no register; a 64-bit read of BEAT is of the live counter. -/
def readBar0 (s : State) (t : TarnIx) (off width : Nat) : Nat :=
  if !(width == 4 || width == 8) || off % width != 0 then 0
  else if width == 4 then bar0Word s t off % 2 ^ 32
  else if off == 0x10 then s.beat % 2 ^ 64
  else if wideReg off then bar0Word s t off % 2 ^ 32 + 2 ^ 32 * (bar0Word s t (off + 4) % 2 ^ 32)
  else 0

/-- What a read of BAR0 does beside answering: a 32-bit read at 0x0010 latches the upper half of BEAT (R65). -/
def readEffect (s : State) (t : TarnIx) (off width : Nat) : State :=
  if off == 0x10 && width == 4 then modFn s t fun f => { f with beatLatch := some (BitVec.ofNat 32 (s.beat / 2 ^ 32)) } else s

/-- SQ_DOORBELL (R67, R100, R104). -/
def execSqDoorbell (t : TarnIx) (q : QpIx) (value : BitVec 32) (s : State) : Host.Outcome State Fault Refusal :=
  .next (if hostReach s t then writeSqTail s t q (value.setWidth 16) else s)

/-- CQ_DOORBELL (R72, R103, R104). -/
def execCqDoorbell (t : TarnIx) (q : QpIx) (value : BitVec 32) (s : State) : Host.Outcome State Fault Refusal :=
  .next (if hostReach s t then writeCqHead s t q (value.setWidth 16) else s)

/-- QP_ENABLE (R69, R70): QP_CTRL written with ENABLE 1. -/
def execQpEnable (t : TarnIx) (q : QpIx) (value : BitVec 32) (s : State) : Host.Outcome State Fault Refusal :=
  .next (if hostReach s t then writeQpCtrl s t q (value ||| 0x10).toNat else s)

/-- QP_DISABLE (R71): QP_CTRL written with ENABLE 0. -/
def execQpDisable (t : TarnIx) (q : QpIx) (value : BitVec 32) (s : State) : Host.Outcome State Fault Refusal :=
  .next (if hostReach s t then writeQpCtrl s t q (value &&& ~~~ 0x10#32).toNat else s)

/-- ADV_ENABLE (R78): ADV_CTRL written with ENABLE 1. -/
def execAdvEnable (t : TarnIx) (value : BitVec 32) (s : State) : Host.Outcome State Fault Refusal :=
  .next (if hostReach s t then writeAdvCtrl s t (value ||| 1).toNat else s)

/-- ADV_DISABLE (R78): ADV_CTRL written with ENABLE 0. -/
def execAdvDisable (t : TarnIx) (value : BitVec 32) (s : State) : Host.Outcome State Fault Refusal :=
  .next (if hostReach s t then writeAdvCtrl s t (value &&& ~~~ 1#32).toNat else s)

/-- ADV_HEAD_WRITE (R78). -/
def execAdvHeadWrite (t : TarnIx) (value : BitVec 32) (s : State) : Host.Outcome State Fault Refusal :=
  .next (if hostReach s t then writeAdvHead s t (value.setWidth 16) else s)

/-- BEAT_READ (R9, R64, R65): a read of BAR0. At 0x0010 the lower half of BEAT is returned and the upper half latched. -/
def execBeatRead (r : BarRead) (s : State) : Host.Outcome State Fault Refusal :=
  .next (if hostReach s r.t then
    emit (readEffect s r.t r.offset.toNat r.width) (.readData r.t (readBar0 s r.t r.offset.toNat r.width))
  else s)

/-- MSIX_UNMASK (R96). -/
def execMsixUnmask (t : TarnIx) (v : Fin 64) (s : State) : Host.Outcome State Fault Refusal :=
  .next (if hostReach s t then writeVectorMask s t v false else s)

/-- BUS_MASTER_ENABLE (R96, R391): pended messages and ring reads go out once it is 1. -/
def execBusMasterEnable (t : TarnIx) (on : Bool) (s : State) : Host.Outcome State Fault Refusal :=
  .next (if s.board.running then
    let s := modFn s t fun f => { f with busMaster := on }
    if on then (List.finRange 64).foldl (fun s q => ringPump s t q) (flushPending s t) else s
  else s)

end Sys2Proof.Machine
end

