-- ==== Sys2Proof/Machine/Mgmt.lean ====
section
/-! DEFINITION. The management plane: channels, the trust store, signed commands, GMP and PLDM (R451, R452, R493 to R499, R545, R549,
R551, R588, R612 to R652). -/

namespace Sys2Proof.Machine

/-! Credentials -/

/-- Any role. -/
abbrev anyRole : BitVec 4 := 0
/-- OBSERVE. -/
abbrev observe : BitVec 4 := 1
/-- OPERATE. -/
abbrev operate : BitVec 4 := 2
/-- SECURITY. -/
abbrev security : BitVec 4 := 4
/-- AUDIT. -/
abbrev audit : BitVec 4 := 8

/-- An anchor slot. -/
def anchorOf (s : State) (k : Nat) : Anchor := s.fuses.anchors.getD k {}

/-- An anchor is in force: burnt, not revoked, and its public key in the boot flash matches the fused digest (R614). -/
def anchorLive (a : Anchor) : Bool := a.burnt && !a.revoked && sha384 a.pub == a.digest

/-- An anchor slot is burnt and not revoked. -/
def anchorUnrevoked (a : Anchor) : Bool := a.burnt && !a.revoked

/-- No unrevoked anchor exists. -/
def storeEmpty (s : State) : Bool := !s.fuses.anchors.any anchorUnrevoked

/-- Roles that a requester holds (R615, R621): a session those of its anchor, the board channel OBSERVE. -/
def heldRoles (s : State) (ch : GmpChannel) : BitVec 4 :=
  match ch with
  | .board => observe
  | .port n => match s.mgmt.tls.find? fun x => x.1 == n with
    | some x => if (anchorOf s x.2.1).revoked then 0 else x.2.2
    | none => 0

/-- The nonce came from GET_NONCE within the last 16 bars and has not been used (R619). -/
def nonceFresh (s : State) (n : Bytes) : Bool := s.mgmt.nonces.any fun x => x.1 == n && s.beat ≤ x.2 + 16 * barBeats s

/-- What a signature covers (R618) (DESIGN CHOICE, log 38). -/
def signedText (s : State) (r : GmpReq) (b : SignedBlock) : Bytes :=
  ascii "GZ8-GMP-1" ++ r.header ++ r.body ++ b.nonce ++ leBytes 1 b.anchorSlot ++ deviceIdDigest s

/-- The trusted kernel verifies a signed command for a role (R618, R619) (DEDUCED, log 37). -/
def signedOk (s : State) (r : GmpReq) (role : BitVec 4) : Bool :=
  match r.signedBlock with
  | none => false
  | some b =>
    let a := anchorOf s b.anchorSlot
    b.anchorSlot < 32 && a.roles &&& role == role && nonceFresh s b.nonce && anchorLive a
      && ecdsaVerify a.pub (sha384 (signedText s r b)) b.sig

/-- The management plane serves commands: from the first beat, while the control firmware runs; once FATAL it serves only reads, while
a control core works and the clocks run, whatever made it FATAL (R588, R663, R694) (DESIGN CHOICE, log 61). -/
def gmpServed (s : State) (reads : Bool) : Bool :=
  s.board.running && (if s.fatal then reads && s.board.clocks && 0 < workingCores s else fwUp s)

/-- The header is one of a request (Table 14-1): version, no RESPONSE flag, STATUS 0, reserved fields zero, and SIGNED and LENGTH as the
request has its signed block (R8, R617, R618). -/
def headerOk (r : GmpReq) : Bool :=
  let h := r.header
  let signed := r.signedBlock.isSome
  h.length == 16 && byteAt h 0 == 1 && byteAt h 2 == 2 * b2n signed && byteAt h 3 == 0
    && field h 4 4 == r.body.length + 144 * b2n signed && allZero (slice h 12 4)

/-- The outcome of the checks before a command's own, in order (R617 to R621); OK where the command goes on (DEDUCED, log 37). -/
def gmpVerdict (s : State) (r : GmpReq) (role : BitVec 4) (signed onBoard : Bool) : Status :=
  let block := match r.signedBlock with
    | some b => allZero b.reserved
    | none => true
  if !headerOk r || !r.lengthOk || !block then .badCommand
  else if r.channel == .board && !onBoard then .notPermitted
  else if !(signed && r.channel == .board) && heldRoles s r.channel &&& role != role then .notPermitted
  else if signed && !signedOk s r role then .notPermitted
  else .ok

/-- Answer a request (DESIGN CHOICE, log 39). -/
def gmpAnswer (s : State) (r : GmpReq) (st : Status) (body : Bytes) : State := gmpReply s r.channel r.requestId st body

/-- An accepted signed command has used its nonce (R619) (DEDUCED, log 37). -/
def useNonce (s : State) (r : GmpReq) (signed : Bool) : State :=
  match r.signedBlock with
  | some b => if signed then { s with mgmt := { s.mgmt with nonces := s.mgmt.nonces.filter fun x => x.1 != b.nonce } } else s
  | none => s

/-- A GMP command: the shared checks, then its own effect (DESIGN CHOICE, log 3; DESIGN CHOICE, log 38). -/
def gmpRun (s : State) (r : GmpReq) (role : BitVec 4) (signed onBoard reads : Bool) (f : State → State) : State :=
  if !gmpServed s reads || !chanOpen s r.channel then s
  else match gmpVerdict s r role signed onBoard with
    | .ok => f (useNonce s r signed)
    | st => gmpAnswer s r st []

/-- TLS_HANDSHAKE (R613 to R615): at most four sessions, each with the roles of an unrevoked anchor. -/
def execTlsHandshake (anchorSlot : Nat) (clientKey : Bytes) (paramsOk : Bool) (s : State) : Host.Outcome State Fault Refusal :=
  .next (
    let a := anchorOf s anchorSlot
    if gmpServed s true && paramsOk && s.mgmt.tls.length < 4 && anchorSlot < 32 && anchorUnrevoked a && sha384 clientKey == a.digest then
      { s with mgmt := { s.mgmt with tls := s.mgmt.tls ++ [(s.mgmt.nextTls, anchorSlot, a.roles)], nextTls := s.mgmt.nextTls + 1 } }
    else s)

/-- TLS_SESSION_END (R646): what is pending runs on and gets no response. -/
def execTlsSessionEnd (session : Nat) (s : State) : Host.Outcome State Fault Refusal :=
  .next { s with mgmt := { s.mgmt with tls := s.mgmt.tls.filter fun x => x.1 != session } }

/-- Issue a nonce (R619): at most 64 are kept, the oldest going first. -/
def giveNonce (s : State) (r : GmpReq) : State :=
  let (n, s) := drawEntropy s 32
  let l := s.mgmt.nonces ++ [(n, s.beat)]
  gmpAnswer { s with mgmt := { s.mgmt with nonces := l.drop (l.length - 64) } } r .ok n

/-- GET_NONCE (R619). -/
def execGetNonce (req : GmpReq) (s : State) : Host.Outcome State Fault Refusal :=
  .next (gmpRun s req anyRole false true false fun s => giveNonce s req)

/-! Reading -/

/-- TELEMETRY_READ (R627): the seam that the values belong to, then each item named (DESIGN CHOICE, log 15; DESIGN CHOICE, log 39). -/
def readTelemetry (s : State) (r : GmpReq) (items : List Nat) : State :=
  if items.all fun i => 1 ≤ i && i ≤ 16 then
    gmpAnswer s r .ok (leBytes 8 s.mgmt.telemBeat ++ (items.map fun i => leBytes 1 i ++ telemValue s i).flatten)
  else gmpAnswer s r .badCommand []

/-- TELEMETRY_READ. -/
def execTelemetryRead (req : GmpReq) (items : List Nat) (s : State) : Host.Outcome State Fault Refusal :=
  .next (gmpRun s req observe false true false fun s => readTelemetry s req items)

/-- Ledger records of any Tarn (R588, R704), leading records where the answer has no room for all (DESIGN CHOICE, log 39). -/
def readLedger (s : State) (r : GmpReq) (t : TarnIx) (sel : LedgerSel) (max : Nat) : State :=
  let all := selectLedger s t sel
  gmpAnswer s r (if max < all.length then .partialRead else .ok) (all.take max).flatten

/-- LEDGER_READ of the management plane (R588). -/
def execGmpLedgerRead (req : GmpReq) (t : TarnIx) (sel : LedgerSel) (max : Nat) (s : State) : Host.Outcome State Fault Refusal :=
  .next (gmpRun s req audit false false true fun s => readLedger s req t sel max)

/-- TALLY_READ of the management plane (R551): whole entries. -/
def execGmpTallyRead (req : GmpReq) (first count : Nat) (s : State) : Host.Outcome State Fault Refusal :=
  .next (gmpRun s req audit false false true fun s => gmpAnswer s req .ok ((tallyRange s.tally first count).map tallyBytes).flatten)

/-- TALLY_ACK (R549): every assigned SEQ up to a value. -/
def execTallyAck (req : GmpReq) (seq : Nat) (s : State) : Host.Outcome State Fault Refusal :=
  .next (gmpRun s req audit true false false fun s =>
    gmpAnswer { s with tally := { s.tally with acked := max s.tally.acked (min (seq + 1) s.tally.next) } } req .ok [])

/-- A checkpoint on request (R493, R547): the response follows the signature. -/
def askCheckpoint (s : State) (r : GmpReq) : State :=
  let me := (r.channel, r.requestId)
  if !rootOk s then gmpAnswer s r .rootLost []
  else if s.tally.signing.isSome then { s with mgmt := { s.mgmt with cpWait := s.mgmt.cpWait ++ [me] } }
  else beginCheckpoint { s with mgmt := { s.mgmt with cpGmp := s.mgmt.cpGmp ++ [me] } }

/-- CHECKPOINT (R547). -/
def execCheckpoint (req : GmpReq) (s : State) : Host.Outcome State Fault Refusal :=
  .next (gmpRun s req audit false false false fun s => askCheckpoint s req)

/-- A checkpoint's signature is made (R547): its entries become readable, requests are answered, and one that waited begins, unless the
root was lost meanwhile (R493). -/
def endSigning (s : State) : State :=
  let s := s.mgmt.cpGmp.foldl (fun s x => gmpReply s x.1 x.2 .ok []) { s with tally := { s.tally with signing := none } }
  let wait := s.mgmt.cpWait
  let s := { s with mgmt := { s.mgmt with cpGmp := [], cpWait := [] } }
  if wait.isEmpty then s
  else if rootOk s then beginCheckpoint { s with mgmt := { s.mgmt with cpGmp := wait } }
  else wait.foldl (fun s x => gmpReply s x.1 x.2 .rootLost []) s

/-- CHECKPOINT_SIGNED (R547). -/
def execCheckpointSigned (s : State) : Host.Outcome State Fault Refusal :=
  .next (if running s && s.tally.signing.isSome then endSigning s else s)

/-- TALLY_CHECKPOINT_AUTO (R547): this part of step 10. -/
def execTallyCheckpointAuto (s : State) : Host.Outcome State Fault Refusal := .next (if running s then autoCheckpoint s else s)

/-! Changing the configuration -/

/-- A management change set (R591, R596, R626). -/
def submitGmp (s : State) (r : GmpReq) (force : Bool) (set : Bytes) : State :=
  match submitMgmt s set force (some (r.channel, r.requestId)) with
  | (.ok, s) => match s.sets.getLast? with
    | some c => gmpAnswer s r (if c.phases.length == 2 then .staged else .ok) (setUnits s c).flatten
    | none => s
  | (st, s) => gmpAnswer s r st []

/-- CHANGE_SUBMIT of the management plane (Table 14-2): its body is FORCE, 7 reserved bytes, which must be zero (R8), and the set. -/
def execGmpChangeSubmit (req : GmpReq) (force : Bool) (set : Bytes) (s : State) : Host.Outcome State Fault Refusal :=
  .next (gmpRun s req operate (setHasMap set) false false fun s =>
    if req.body == leBytes 1 (b2n force) ++ zeros 7 ++ set then submitGmp s req force set else gmpAnswer s req .badCommand [])

/-- CHANGE_STATUS of the management plane (R602). -/
def execGmpChangeStatus (req : GmpReq) (changeId : Nat) (s : State) : Host.Outcome State Fault Refusal :=
  .next (gmpRun s req observe false false false fun s => match setById s changeId with
    | some c => gmpAnswer s req .ok (setUnits s c).flatten
    | none => gmpAnswer s req .notPermitted [])

/-- GOVERNOR_SET (R628, R660): it is checked and answered in step 7 of the coming seam. -/
def setGovernor (s : State) (r : GmpReq) (b : Bounds) : State :=
  { s with gov := { s.gov with askedBounds := s.gov.askedBounds ++ [(r.channel, r.requestId, b)] } }

/-- GOVERNOR_SET. -/
def execGovernorSet (req : GmpReq) (b : Bounds) (s : State) : Host.Outcome State Fault Refusal :=
  .next (gmpRun s req operate false false false fun s => setGovernor s req b)

/-- A unit may be tested over GMP (R638): FREE or retired; a link also DOWN. -/
def bistFree (s : State) (u : UnitId) : Bool :=
  (bistRes u).all (fun r => (resOwner s r).isNone && (statOf s r == .free || (u.kind != kChan && statOf s r == .retired)))
    && (u.kind != kLink || (linkOf s (Fin.ofNat 12 u.index.toNat)).state == .down)

/-- BIST_RUN over GMP (R452, R634, R638): the response follows the test's scrub. -/
def runBist (s : State) (r : GmpReq) (u : UnitId) (code : Nat) : State :=
  if !testOk u code then gmpAnswer s r .badCommand []
  else if (bistRes u).any (lockedRes s) then gmpAnswer s r .debugLocked []
  else if !bistFree s u then gmpAnswer s r .notPermitted []
  else
    let s := (bistRes u).foldl (fun s x => setStat s x .testing) s
    { s with bists := s.bists ++ [{ unit := u, code, gmp := some (r.channel, r.requestId), stage := 2 }] }

/-- BIST_RUN over GMP. -/
def execGmpBistRun (req : GmpReq) (u : UnitId) (code : Nat) (s : State) : Host.Outcome State Fault Refusal :=
  .next (gmpRun s req operate false false false fun s => runBist s req u code)

/-- UNIT_CONTROL, retirement (R566, R632): it takes place in step 7 of the coming seam (DESIGN CHOICE, log 41). -/
def retireByOperator (s : State) (r : GmpReq) (u : UnitId) : State :=
  if u.kind.toNat == 0 || 0x0B < u.kind.toNat || !unitExists u then gmpAnswer s r .badCommand []
  else gmpAnswer (if unitGone s u then s else queueUnit s u 2) r .ok []

/-- UNIT_CONTROL, retirement. -/
def execUnitRetire (req : GmpReq) (u : UnitId) (s : State) : Host.Outcome State Fault Refusal :=
  .next (gmpRun s req operate false false false fun s => retireByOperator s req u)

/-- A link is enabled again (R363, R371): one that is DOWN returns to eight lanes (DESIGN CHOICE, log 41). -/
def reenableLink (s : State) (n : LinkIx) : State :=
  modLink s n fun l => { l with
    held := false, flapping := false, flaps := []
    lanes := if l.state == .down then 8 else l.lanes
    laneFaults := if l.state == .down then 0 else l.laneFaults }

/-- UNIT_CONTROL, re-enabling of a link (R363). -/
def execLinkReenable (req : GmpReq) (n : LinkIx) (s : State) : Host.Outcome State Fault Refusal :=
  .next (gmpRun s req operate false false false fun s => gmpAnswer (reenableLink s n) req .ok [])

/-- Timing mode, domain, device number and priority (R49, R337, R665): in force, and in the boot flash (DESIGN CHOICE, log 42). -/
def setTiming (s : State) (mode : TimingMode) (domain : BitVec 16) (deviceNo : Fin 64) (priority : BitVec 8) : State :=
  let s := { s with
    flash := { s.flash with mode, domain, deviceNo, priority }
    timing := { s.timing with mode, domain, deviceNo, priority } }
  chooseLeader (if mode == .internal then leaveHoldover { s with timing := { s.timing with owedPs := 0, join := none } } else s)

/-- TIMING_SET. -/
def execTimingSet (req : GmpReq) (mode : TimingMode) (domain : BitVec 16) (deviceNo : Fin 64) (priority : BitVec 8) (s : State) :
    Host.Outcome State Fault Refusal :=
  .next (gmpRun s req operate false false false fun s => gmpAnswer (setTiming s mode domain deviceNo priority) req .ok [])

/-- PORT_SET (R381, R671): kept for the next reset (DESIGN CHOICE, log 42). -/
def setPorts (s : State) (r : GmpReq) (x8 : Bool) (assign : List Port) : State :=
  if assign.length == 8 then gmpAnswer { s with flash := { s.flash with x8, assign } } r .ok [] else gmpAnswer s r .badCommand []

/-- PORT_SET. -/
def execPortSet (req : GmpReq) (x8 : Bool) (assign : List Port) (s : State) : Host.Outcome State Fault Refusal :=
  .next (gmpRun s req operate false false false fun s => setPorts s req x8 assign)

/-- A link carries a live combined round's traffic (R379): its data went there, or a message to one of its members would. -/
def carriesCombined (s : State) (n : LinkIx) : Bool :=
  allTarns.any fun (t : TarnIx) => match tarnOf s t with
    | some x => x.rounds.any fun r => rstateLive r.state && r.plan.combined
        && (r.dataLink == some n || r.members.any fun m => m.serial != deviceSerial s && ((linkTo s t m.serial).map (·.1)) == some n)
    | none => false

/-- The outcome of LINK_SET's own checks on one change (R337, R379, R428, R624). LINK_SET has no FORCE flag, so a mode change that
would break a combined round always gets BUSY_CHANGE (DEDUCED, log 40). -/
def linkItemBad (s : State) (i : LinkSetItem) : Option Status :=
  match i with
  | .mode n m => if m != (linkOf s n).mode && carriesCombined s n then some .busyChange else none
  | .allowList ds => if ds.all fun d => d.length == 48 then none else some .badCommand
  | .grant t _ _ => if !live s t || isConf s t then some .notPermitted else none
  | .ungrant t _ _ => if !live s t then some .notPermitted else none

/-- Mode of a link after a LINK_SET. -/
def modeAfter (s : State) (items : List LinkSetItem) (n : LinkIx) : LinkMode :=
  items.foldl (fun m i => match i with
    | .mode k x => if k == n then x else m
    | _ => m) (linkOf s n).mode

/-- One change of LINK_SET: a mode, which takes the link DOWN first (R378), and the allow list at once, a grant in step 5 of the coming
seam. -/
def linkItem (s : State) (i : LinkSetItem) : State :=
  match i with
  | .mode n m => if (linkOf s n).mode == m then s else modLink (linkDown s n 6) n fun l => { l with mode := m }
  | .allowList ds => { s with mgmt := { s.mgmt with allow := ds } }
  | .grant t d x => { s with pendRules := s.pendRules ++ [.grant none t d x true] }
  | .ungrant t d x => { s with pendRules := s.pendRules ++ [.grant none t d x false] }

/-- The last pending grant answers the request with its E and D (R624). -/
def askLast (gmp : GmpChannel × Nat) (l : List PendRule) : List PendRule :=
  match l.getLast? with
  | some (.grant _ t d x a) => l.dropLast ++ [.grant (some gmp) t d x a]
  | _ => l

/-- A change is a grant. -/
def isGrant (i : LinkSetItem) : Bool :=
  match i with
  | .mode _ _ => false
  | .allowList _ => false
  | .grant _ _ _ => true
  | .ungrant _ _ _ => true

/-- LINK_SET (R337, R352, R428, R624): all its changes, or none (DESIGN CHOICE, log 40). -/
def setLinks (s : State) (r : GmpReq) (items : List LinkSetItem) : State :=
  match items.findSome? (linkItemBad s) with
  | some st => gmpAnswer s r st []
  | none =>
    if 4 < ((List.finRange 12).filter fun n => modeAfter s items n == .intake).length then gmpAnswer s r .notPermitted []
    else
      let (grants, rest) := items.partition isGrant
      let s := rest.foldl linkItem s
      if grants.isEmpty then gmpAnswer s r .ok []
      else
        let s := grants.foldl linkItem s
        { s with pendRules := askLast (r.channel, r.requestId) s.pendRules }

/-- LINK_SET. -/
def execLinkSet (req : GmpReq) (items : List LinkSetItem) (s : State) : Host.Outcome State Fault Refusal :=
  .next (gmpRun s req security true false false fun s => setLinks s req items)

/-- The fields of a legal NETWORK_SET body (Table 14-2a, R622). -/
def netOf (b : Bytes) : Option NetBody :=
  let n : NetBody := { mode := byteAt b 0, family := byteAt b 1, prefixLen := byteAt b 2, phyMode := byteAt b 3, address := slice b 4 16,
                       gateway := slice b 0x14 16, vlan := field b 0x24 2 }
  let addr := if n.mode == 1 then (n.family == 4 && 1 ≤ n.prefixLen && n.prefixLen ≤ 32) || (n.family == 6 && 1 ≤ n.prefixLen && n.prefixLen ≤ 128)
    else n.family == 0 && n.prefixLen == 0
  if b.length == 48 && allZero (slice b 0x26 10) && n.mode ≤ 1 && n.phyMode ≤ 2 && n.vlan ≤ 4094 && addr then some n else none

/-- The settings that a change of ends open sessions (R622); a module without settings uses DHCP, untagged, over SGMII. -/
def netKey (n : Option NetBody) : Nat × Nat × Nat × Bytes × Nat × Nat :=
  match n with
  | none => (0, 0, 0, [], 0, 0)
  | some b => if b.mode == 0 then (0, 0, 0, [], b.phyMode, b.vlan) else (1, b.family, b.prefixLen, b.address, b.phyMode, b.vlan)

/-- NETWORK_SET (R622): applied once the response has gone; `b` is what the body's bytes say where they are legal. -/
def setNetwork (s : State) (r : GmpReq) (b : NetBody) : State :=
  if netOf r.body == some b then
    let changed := netKey s.flash.net != netKey (some b)
    let s := gmpAnswer { s with flash := { s.flash with net := some b } } r .ok []
    if changed then { s with mgmt := { s.mgmt with tls := [] } } else s
  else gmpAnswer s r .badCommand []

/-- NETWORK_SET. -/
def execNetworkSet (req : GmpReq) (b : NetBody) (s : State) : Host.Outcome State Fault Refusal :=
  .next (gmpRun s req (if req.channel == .board then anyRole else operate) false true false fun s => setNetwork s req b)

/-! Security -/

/-- TRUST_ADD needs no signature (R616). -/
def trustFree (s : State) (r : GmpReq) : Bool := r.channel == .board && storeEmpty s && lifeOf s.fuses.lc == .provisioned

/-- Change an anchor slot. -/
def modAnchor (s : State) (k : Nat) (g : Anchor → Anchor) : State := { s with fuses := { s.fuses with anchors := s.fuses.anchors.modify k g } }

/-- TRUST_ADD (R614, R616): the lowest slot that is not burnt (DESIGN CHOICE, log 21). -/
def addTrust (s : State) (r : GmpReq) (digest : Bytes) (roles : BitVec 4) : State :=
  if digest.length != 48 then gmpAnswer s r .badCommand []
  else match (upto 32).find? fun k => !(anchorOf s k).burnt with
    | none => gmpAnswer s r .counterExhausted []
    | some k =>
      let a : Anchor := { burnt := true, revoked := false, digest, roles, pub := (upto 97).map (Config.flashKey digest) }
      gmpAnswer (modAnchor s k fun _ => a) r .ok (leBytes 1 k)

/-- TRUST_ADD. -/
def execTrustAdd (req : GmpReq) (keyDigest : Bytes) (roles : BitVec 4) (s : State) : Host.Outcome State Fault Refusal :=
  .next (gmpRun s req (if trustFree s req then anyRole else security) (!trustFree s req) true false fun s => addTrust s req keyDigest roles)

/-- TRUST_REMOVE (R616): not the last unrevoked anchor with the SECURITY role. -/
def removeTrust (s : State) (r : GmpReq) (slot : Nat) : State :=
  if 31 < slot then gmpAnswer s r .badCommand []
  else
    let t := modAnchor s slot fun a => { a with revoked := true }
    if !(anchorOf s slot).burnt || !(t.fuses.anchors.any fun a => anchorUnrevoked a && a.roles &&& security == security) then
      gmpAnswer s r .notPermitted []
    else gmpAnswer t r .ok []

/-- TRUST_REMOVE. -/
def execTrustRemove (req : GmpReq) (slot : Nat) (s : State) : Host.Outcome State Fault Refusal :=
  .next (gmpRun s req security true true false fun s => removeTrust s req slot)

/-- FLOOR_SET (R300), with its FLOOR event. -/
def setFloor (s : State) (r : GmpReq) (t : TarnIx) (floor : Nat) : State :=
  match tarnOf s t with
  | none => gmpAnswer s r .notPermitted []
  | some n =>
    if 268435456 < floor then gmpAnswer s r .badCommand []
    else if floor < 64 then gmpAnswer s r .notPermitted []
    else gmpAnswer (tally (modTarn s t fun n => { n with opFloor := floor }) 0x0073 1 t false .ok (leBytes 4 n.opFloor ++ leBytes 4 floor)) r .ok []

/-- FLOOR_SET. -/
def execFloorSet (req : GmpReq) (t : TarnIx) (floor : Nat) (s : State) : Host.Outcome State Fault Refusal :=
  .next (gmpRun s req security true false false fun s => setFloor s req t floor)

/-- AUTHORITY_SET (R625). -/
def setAuthority (s : State) (r : GmpReq) (t : TarnIx) (keys : List Bytes) : State :=
  if 4 < keys.length || keys.any fun k => k.length != 97 then gmpAnswer s r .badCommand []
  else if (tarnOf s t).isNone then gmpAnswer s r .notPermitted []
  else gmpAnswer (modTarn s t fun n => { n with authKeys := keys }) r .ok []

/-- AUTHORITY_SET. -/
def execAuthoritySet (req : GmpReq) (t : TarnIx) (keys : List Bytes) (s : State) : Host.Outcome State Fault Refusal :=
  .next (gmpRun s req security true false false fun s => setAuthority s req t keys)

/-- The tag key that TAG_KEY_SET carries (R623). -/
def openTagKey (s : State) (ephemeral nonce ciphertext tag : Bytes) : Option Bytes :=
  match unSec1 p384 ephemeral with
  | none => none
  | some q => match ecdh p384 (aliasKey s) q with
    | none => none
    | some z => gcmOpen (hkdf384 [] z (ascii "GZ8-TAGKEY-1") 32) nonce [] ciphertext tag

/-- TAG_KEY_SET (R623). -/
def setTagKey (s : State) (r : GmpReq) (t : TarnIx) (ephemeral nonce ciphertext tag : Bytes) : State :=
  if ephemeral.length != 97 || nonce.length != 12 || ciphertext.length != 32 || tag.length != 16 then gmpAnswer s r .badCommand []
  else if (tarnOf s t).isNone || isConf s t then gmpAnswer s r .notPermitted []
  else match openTagKey s ephemeral nonce ciphertext tag with
    | none => gmpAnswer s r .notPermitted []
    | some k => gmpAnswer (modTarn s t fun n => { n with tagKey := some k }) r .ok []

/-- TAG_KEY_SET. -/
def execTagKeySet (req : GmpReq) (t : TarnIx) (ephemeral nonce ciphertext tag : Bytes) (s : State) : Host.Outcome State Fault Refusal :=
  .next (gmpRun s req security true false false fun s => setTagKey s req t ephemeral nonce ciphertext tag)

/-- KEY event of a parent-table entry, and the answer with its new generation; 0 when it became SPENT (R474, R487) (DEDUCED, log 43). -/
def parentDone (s : State) (r : GmpReq) (op p : Nat) (tarn : Nat) : State :=
  let e := parentOf s p
  gmpAnswer (tallyKeyEv s tarn op 0 { recordId := p, parentGen := e.gen.toNat } []) r .ok (leBytes 4 (if e.state == 2 then 0 else e.gen.toNat))

/-- PARENT_SET, assignment (R474, R487, R515) (DEDUCED, log 43). -/
def assignParent (s : State) (r : GmpReq) (p : Nat) (t : TarnIx) : State :=
  if p == 0 || 1023 < p then gmpAnswer s r .badCommand []
  else if (parentOf s p).state == 2 then gmpAnswer s r .counterExhausted []
  else if !((upto 1023).any fun i => (parentOf s (i + 1)).state == 0) then gmpAnswer s r .notPermitted []
  else
    let s := modParent s p fun e =>
      let e' := raiseGen e
      if e'.state == 2 then e' else { e' with state := 1, owner := BitVec.ofNat 3 t, kcvSet := false, kcvLow := 0 }
    parentDone s r 6 p t

/-- PARENT_SET, assignment. -/
def execParentAssign (req : GmpReq) (entry : Nat) (t : TarnIx) (s : State) : Host.Outcome State Fault Refusal :=
  .next (gmpRun s req security true false false fun s => assignParent s req entry t)

/-- PARENT_SET, freeing (R474, R487) (DEDUCED, log 43). -/
def freeParent (s : State) (r : GmpReq) (p : Nat) : State :=
  if p == 0 || 1023 < p then gmpAnswer s r .badCommand []
  else if (parentOf s p).state == 2 then gmpAnswer s r .counterExhausted []
  else
    let owner := (parentOf s p).owner.toNat
    let s := modParent s p fun e =>
      let e' := raiseGen e
      if e'.state == 2 then e' else { e' with state := 0, kcvSet := false, kcvLow := 0 }
    parentDone s r 7 p owner

/-- PARENT_SET, freeing. -/
def execParentFree (req : GmpReq) (entry : Nat) (s : State) : Host.Outcome State Fault Refusal :=
  .next (gmpRun s req security true false false fun s => freeParent s req entry)

/-- The header of a WRAPPED blob under the storage root (Table 11-4, R479). -/
def rootBlobHeader (usage owner p : Nat) (kcv nonce label : Bytes) : Bytes :=
  leBytes 2 1 ++ leBytes 1 0 ++ leBytes 1 usage ++ leBytes 1 0 ++ leBytes 1 owner ++ zeros 2 ++ zeros 4 ++ leBytes 2 p ++ zeros 2
    ++ kcv ++ nonce ++ zeros 4 ++ label ++ zeros 8

/-- ROOT_BLOB_CREATE (R476, R477, R479): a fresh key, recorded by its entry; the answer is its blob (DEDUCED, log 44). -/
def createRootBlob (s : State) (r : GmpReq) (p usage : Nat) (label : Bytes) : State :=
  if p == 0 || 1023 < p || usage == 0 || 4 < usage || label.length != 16 then gmpAnswer s r .badCommand []
  else if !rootOk s then gmpAnswer s r .rootLost []
  else if (parentOf s p).state != 1 then gmpAnswer s r .notPermitted []
  else
    let (k, s) := drawEntropy s 32
    let (nonce, s) := drawEntropy s 12
    let kcv := kcvOf usage k
    let h := rootBlobHeader usage (parentOf s p).owner.toNat p kcv nonce label
    let c := gcmSeal (storageRoot s) nonce h k
    gmpAnswer (modParent s p fun e => { e with kcvSet := true, kcvLow := kcvLow kcv }) r .ok (h ++ c.1 ++ c.2)

/-- ROOT_BLOB_CREATE. -/
def execRootBlobCreate (req : GmpReq) (entry : Nat) (usage : Nat) (label : Bytes) (s : State) : Host.Outcome State Fault Refusal :=
  .next (gmpRun s req security true false false fun s => createRootBlob s req entry usage label)

/-- DEBUG_SET (R450), with its DEBUG event. -/
def execDebugSet (req : GmpReq) (sw : DebugSwitch) (s : State) : Host.Outcome State Fault Refusal :=
  .next (gmpRun s req security true false false fun s =>
    gmpAnswer (tallyDebug { s with mgmt := { s.mgmt with switches := sw } } anyTarn 2) req .ok [])

/-- The switch of an instrument is on. -/
def debugOn (d : DebugSwitch) (k : DebugKind) : Bool :=
  match k with
  | .trace => d.trace
  | .counters => d.counters
  | .scan => d.ieee1687
  | .readBack => d.readBack

/-- A request for an instrument (R450, R452): read-back of a memory unit gives 64 bytes of its slice of a channel; what the other
instruments show is a free value (DEDUCED, log 63). -/
def readDebug (s : State) (r : GmpReq) (kind : DebugKind) (x : Resource) (offset : Nat) : State :=
  if lockedRes s x then gmpAnswer s r .debugLocked []
  else if !debugOn s.mgmt.switches kind then gmpAnswer s r .notPermitted []
  else match kind, x with
    | .readBack, .memUnit st u =>
      gmpAnswer s r .ok (devRead s (linAddr (32 * st + offset / 2 ^ 25 % 32) (u * 2 ^ 25 + offset % 2 ^ 25)) 64)
    | _, _ => let (bs, s) := drawFree s 64
      gmpAnswer s r .ok bs

/-- DEBUG_READ_REQUEST (R452). -/
def execDebugReadRequest (req : GmpReq) (kind : DebugKind) (r : Resource) (offset : Nat) (s : State) : Host.Outcome State Fault Refusal :=
  .next (gmpRun s req security false false false fun s => readDebug s req kind r offset)

/-- TEST_PORT_INSTRUCTION (R450, R451): the debug lock selects BYPASS. -/
def execTestPortInstruction (i : TestInstr) (s : State) : Host.Outcome State Fault Refusal :=
  .next (if s.board.mainPower then emit s (.testPort (match i with
      | .other c => if bit (debugDevice s) 0 then .other c else .bypass
      | .bypass => .bypass
      | .idcode => .idcode
      | .samplePreload => .samplePreload))
    else s)

/-! Life cycle -/

/-- A parent-table reset (R498). -/
def resetParents (l : List Parent) : List Parent := l.zipIdx.map fun x => if x.2 == 0 then x.1 else {}

/-- A new root secret with its check (R494, R497). -/
def newRoot (s : State) : State :=
  let (root, s) := drawEntropy s 32
  { s with rootState := 0, bbram := { s.bbram with root, check := (sha384 (ascii "GZ8-ROOT-CHECK-1" ++ root)).take 16 } }

/-- Bytes 192 to 391 of the BOOT layout (Table 12-6, R545). -/
def tallyKeyBytes (s : State) : Bytes × State :=
  if rootOk s then
    let (sig, s) := signWith s (aliasKey s) (ascii "GZ8-TALLY-KEY-1" ++ s.tally.bootNonce ++ tallyPub s ++ deviceIdDigest s)
    (tallyPub s ++ zeros 7 ++ sig, s)
  else (zeros 200, s)

/-- TALLY_KEY event (R545). -/
def tallyKeyEvent (s : State) : State :=
  let (b, s) := tallyKeyBytes s
  tally s 0x0003 4 anyTarn false .ok b

/-- A transition that Table 11-7 lists. -/
def lifeNext (cur dst : LifeCycle) : Bool :=
  match cur, dst with
  | .manufacture, .provisioned => true
  | .provisioned, .deployed => true
  | .provisioned, .retired => true
  | .deployed, .retired => true
  | _, _ => false

/-- The cause of a lost root: TAMPER where the log shows an event, else BATTERY (R492) (DEDUCED, log 46). -/
def lostCause (b : Bbram) : Nat := if b.tamperCount == 0 then 2 else 1

/-- The steps of R497 from the fuse on (DEDUCED, log 46). -/
def lifeSteps (s : State) (dst : LifeCycle) : State :=
  let s := { s with
    fuses := { s.fuses with lc := s.fuses.lc ||| BitVec.ofNat 3 (2 ^ (lifeCode dst - 1)) }
    keys := List.replicate 512 {}
    replaces := List.replicate 16 none
    bbram := { s.bbram with root := zeros 32, journal := List.replicate 16 {}, parents := resetParents s.bbram.parents } }
  let s := if dst == .retired then { s with rootState := lostCause s.bbram } else newRoot s
  { s with bbram := { s.bbram with lcMirror := BitVec.ofNat 32 (lifeCode dst) } }

/-- A life-cycle transition (R496, R497, R516, R545, R562) (DEDUCED, log 46). -/
def setLife (s : State) (r : GmpReq) (dst : LifeCycle) : State :=
  if !lifeNext (lifeOf s.fuses.lc) dst || s.map.entries.any (fun e => e.state == 1) || trackedResources.any (fun x => statOf s x == .scrubbing)
      || (dst == .deployed && storeEmpty s) then gmpAnswer s r .notPermitted []
  else
    let s := if s.tally.signing.isSome then endSigning s else s
    let s := if rootOk s then endSigning (beginCheckpoint s) else s
    let s := tallyDevice (lifeSteps s dst) 6 0
    gmpAnswer (if dst == .retired then s else tallyKeyEvent s) r .ok []

/-- LIFECYCLE_SET. -/
def execLifecycleSet (req : GmpReq) (target : LifeCycle) (s : State) : Host.Outcome State Fault Refusal :=
  .next (gmpRun s req security true false false fun s => setLife s req target)

/-- REPROVISION (R494, R545). -/
def provisionAgain (s : State) (r : GmpReq) : State :=
  let lc := lifeOf s.fuses.lc
  if rootOk s || !(lc == .provisioned || lc == .deployed) then gmpAnswer s r .notPermitted []
  else
    let s := newRoot { s with bbram := { s.bbram with journal := List.replicate 16 {}, parents := resetParents s.bbram.parents,
                                                      lcMirror := BitVec.ofNat 32 (lifeCode lc) } }
    gmpAnswer (tallyKeyEvent (tallyDevice s 5 0)) r .ok []

/-- REPROVISION. -/
def execReprovision (req : GmpReq) (s : State) : Host.Outcome State Fault Refusal :=
  .next (gmpRun s req security true false false fun s => provisionAgain s req)

/-- TAMPER_ARM (R499). -/
def armTamper (s : State) (r : GmpReq) (n : Fin 4) : State :=
  let lc := lifeOf s.fuses.lc
  if lc == .manufacture || lc == .provisioned then
    gmpAnswer { s with fuses := { s.fuses with tamperArm := s.fuses.tamperArm ||| BitVec.ofNat 4 (2 ^ n.val) } } r .ok []
  else gmpAnswer s r .notPermitted []

/-- TAMPER_ARM. -/
def execTamperArm (req : GmpReq) (n : Fin 4) (s : State) : Host.Outcome State Fault Refusal :=
  .next (gmpRun s req security true false false fun s => armTamper s req n)

/-! Firmware -/

/-- FW_STAGE (R641): the image goes to the inactive bank, and the response follows its verification (DESIGN CHOICE, log 45). -/
def execFwStage (req : GmpReq) (image : Bytes) (s : State) : Host.Outcome State Fault Refusal :=
  .next (gmpRun s req operate false false false fun s => beginStage s image (some (req.channel, req.requestId)))

/-- The refusals of FW_ACTIVATE (R642). -/
def activateBad (s : State) (kernel firmware : Bool) : Bool :=
  (kernel && !s.fw.kernelNext.staged) || (firmware && !s.fw.ctrlNext.staged)
    || (kernel && !firmware && s.fw.ctrl.svn < s.fw.kernelNext.svn) || (firmware && !kernel && s.fw.kernel.svn < s.fw.ctrlNext.svn)

/-- FW_ACTIVATE (R642 to R644): the control firmware alone drains and restarts; the kernel, or both halves, wait for the next reset (DEDUCED, log 45). -/
def activate (s : State) (r : GmpReq) (kernel firmware : Bool) (drainBars : Nat) : State :=
  if (!kernel && !firmware) || 64 < drainBars then gmpAnswer s r .badCommand []
  else if activateBad s kernel firmware then gmpAnswer s r .notPermitted []
  else if kernel then
    let s := { s with fw := { s.fw with kernelNext := { s.fw.kernelNext with marked := true } } }
    let s := tallyFirmware s 0 2 s.fw.kernelNext.release s.fw.kernelNext.digest .ok
    let s := if firmware then
        let s := { s with fw := { s.fw with ctrlNext := { s.fw.ctrlNext with marked := true } } }
        tallyFirmware s 1 2 s.fw.ctrlNext.release s.fw.ctrlNext.digest .ok
      else s
    gmpAnswer s r .ok []
  else { s with fw := { s.fw with drain := some drainBars, drainGmp := s.fw.drainGmp ++ [(r.channel, r.requestId)] } }

/-- FW_ACTIVATE. -/
def execFwActivate (req : GmpReq) (kernel firmware : Bool) (drainBars : Nat) (s : State) : Host.Outcome State Fault Refusal :=
  .next (gmpRun s req operate true false false fun s => activate s req kernel firmware drainBars)

/-- FIRMWARE_DRAIN_END (R643): the staged image starts; the coming seam is the restart seam, and the restart does not count toward
R586. -/
def execFirmwareDrainEnd (s : State) : Host.Outcome State Fault Refusal :=
  .next (if running s && fwUp s && (s.fw.drain == some 0 || (s.fw.drain.isSome && s.tickets.isEmpty)) then
    let s := swapControl s
    { s with
      fw := { s.fw with down := some s.beat, restart := true }
      fns := s.fns.map fun f => { f with recoverAll := true } }
  else s)

/-- A bank in an FW_STATUS answer. -/
def bankBytes (b : Bank) : Bytes :=
  leBytes 1 (b2n b.staged + 2 * b2n b.marked) ++ leBytes 1 b.svn ++ zeros 2 ++ leBytes 4 b.release.toNat ++ padTo 48 b.digest

/-- FW_STATUS: banks, releases, SVNs, ROLLBACK_STEPS. -/
def execFwStatus (req : GmpReq) (s : State) : Host.Outcome State Fault Refusal :=
  .next (gmpRun s req observe false true false fun s =>
    gmpAnswer s req .ok (bankBytes s.fw.kernel ++ bankBytes s.fw.kernelNext ++ bankBytes s.fw.ctrl ++ bankBytes s.fw.ctrlNext
      ++ leBytes 1 s.fuses.rollback))

/-! PLDM over the board channel (R645) -/

/-- A PLDM command, answered while the management plane serves commands. -/
def pldmRun (s : State) (f : State → State) : State := if gmpServed s false then f s else s

/-- Move the update state: 0 idle, 1 an update requested, 2 components named. -/
def pldmMove (s : State) (n : Nat) : State := { s with fw := { s.fw with pldm := n } }

/-- QueryDeviceIdentifiers: the PCI vendor ID. -/
def execQueryDeviceIdentifiers (s : State) : Host.Outcome State Fault Refusal :=
  .next (pldmRun s fun s => pldmAnswer s 0 (leBytes 2 0x1F17))

/-- GetFirmwareParameters: both components with their active and staged releases. -/
def execGetFirmwareParameters (s : State) : Host.Outcome State Fault Refusal :=
  .next (pldmRun s fun s => pldmAnswer s 0
    (leBytes 2 1 ++ leBytes 4 s.fw.kernel.release.toNat ++ leBytes 4 s.fw.kernelNext.release.toNat
      ++ leBytes 2 2 ++ leBytes 4 s.fw.ctrl.release.toNat ++ leBytes 4 s.fw.ctrlNext.release.toNat))

/-- RequestUpdate: refused while an update is in progress. -/
def execRequestUpdate (s : State) : Host.Outcome State Fault Refusal :=
  .next (pldmRun s fun s => if s.fw.pldm == 0 then pldmAnswer (pldmMove s 1) 0 [] else pldmAnswer s 1 [])

/-- PassComponentTable: components 0x0001 and 0x0002 only. -/
def execPassComponentTable (components : List Nat) (s : State) : Host.Outcome State Fault Refusal :=
  .next (pldmRun s fun s =>
    if s.fw.pldm == 1 && components.all fun c => c == 1 || c == 2 then pldmAnswer (pldmMove s 2) 0 [] else pldmAnswer s 1 [])

/-- UpdateComponent, with the transfer, verification and application that follow it: stages under R641 (PRESUMED, log 52). -/
def execUpdateComponent (component : Nat) (image : Bytes) (s : State) : Host.Outcome State Fault Refusal :=
  .next (pldmRun s fun s =>
    if s.fw.pldm == 2 && (component == 1 || component == 2) && byteAt image 2 + 1 == component then
      beginStage s image none
    else pldmAnswer s 1 [])

/-- ActivateFirmware: accepted, and activates nothing. -/
def execActivateFirmware (s : State) : Host.Outcome State Fault Refusal :=
  .next (pldmRun s fun s => if s.fw.pldm == 2 then pldmAnswer (pldmMove s 0) 0 [] else pldmAnswer s 1 [])

/-- GetStatus. -/
def execGetStatus (s : State) : Host.Outcome State Fault Refusal := .next (pldmRun s fun s => pldmAnswer s 0 (leBytes 1 s.fw.pldm))

/-- CancelUpdateComponent. -/
def execCancelUpdateComponent (s : State) : Host.Outcome State Fault Refusal :=
  .next (pldmRun s fun s => pldmAnswer s (if s.fw.pldm == 2 then 0 else 1) [])

/-- CancelUpdate. -/
def execCancelUpdate (s : State) : Host.Outcome State Fault Refusal :=
  .next (pldmRun s fun s => if s.fw.pldm == 0 then pldmAnswer s 1 [] else pldmAnswer (pldmMove s 0) 0 [])

/-- A sensor that presents an item marked P. -/
def readSensor (s : State) (item : Nat) : State :=
  if boardItem item then pldmAnswer s 0 (telemValue s item) else pldmAnswer s 1 []

/-- GetSensorReading: numeric sensors (PRESUMED, log 52). -/
def execGetSensorReading (sensor : Nat) (s : State) : Host.Outcome State Fault Refusal :=
  .next (pldmRun s fun s => if sensor == 0x0F then pldmAnswer s 1 [] else readSensor s sensor)

/-- GetStateSensorReadings: state sensors. -/
def execGetStateSensorReadings (sensor : Nat) (s : State) : Host.Outcome State Fault Refusal :=
  .next (pldmRun s fun s => if sensor == 0x0F then readSensor s sensor else pldmAnswer s 1 [])

end Sys2Proof.Machine
end

