-- ==== Sys2Proof/Machine/Pcie.lean ====
section
/-! DEFINITION. The functions of a port as configuration requests see them (R383 to R386, R394, R421), the registers there that act, and
writes to the registers of a function (R9, R64). -/

namespace Sys2Proof.Machine

/-- The port exists under the port mode (R381, R670). -/
def portUsed (s : State) (p : Port) : Bool := p == .a || s.board.x8

/-- Function 0 of a port forgets its SPDM negotiation. -/
def dropConn (s : State) (p : Port) : State :=
  { s with board := match p with
      | .a => { s.board with connA := {} }
      | .b => { s.board with connB := {} } }

/-- The capabilities that a function carries (Table 09-2). -/
def hasCap (f : Func) (c : Capability) : Bool :=
  let zero := match f with
    | .zero _ => true
    | .tarn _ => false
  match c with
  | .pciExpress => true
  | .powerManagement => true
  | .msi => zero
  | .msix => !zero
  | .aer => true
  | .ari => true
  | .linkFeatures => zero
  | .doe => true
  | .cxlDvsec => zero
  | .bandExposure => !zero

/-- The supported features (Table 09-3). -/
def featureOk (x : Feature) : Bool :=
  match x with
  | .rate h => [5, 10, 16, 32, 64, 128].contains h
  | .width n => [1, 2, 4, 8, 16].contains n
  | .maxPayload n => [128, 256, 512].contains n
  | .maxReadRequest n => [128, 256, 512, 1024, 2048, 4096].contains n
  | .tagBits n => n == 10 || n == 14
  | .timeoutRange n => n < 4
  | .relaxedOrdering => true
  | .idOrdering => true
  | .noSnoop => false
  | .timeoutDisable => false
  | .aspm => false
  | .addressServices => false
  | .sriov => false
  | .pcieIde => false
  | .tdisp => false
  | .cxlProtocols => true
  | .hdmInterleave n => n == 1
  | .backInvalidate => false
  | .cxlIde => false

/-- Size of a base address register's range (Table 09-1). -/
def barBytes (f : Func) (bar : Nat) : Nat :=
  match f with
  | .zero _ => if bar == 2 then 65536 else 0
  | .tarn _ => if bar == 0 then 524288 else 0

/-- What a configuration read returns (R383 to R386, R390, R394, R421); a field that a function does not have reads as zero. -/
def configRead (s : State) (f : Func) (r : ConfigReg) : Nat :=
  match r, f with
  | .vendor, _ => 0x1F17
  | .device, .zero _ => 0x0D80
  | .device, .tarn _ => 0x0D81
  | .classCode, _ => 0x120000
  | .subsystemVendor, _ => Config.subsystemVendor.toNat
  | .subsystem, _ => Config.subsystem.toNat
  | .barSize n, f => barBytes f n
  | .capability c, f => b2n (hasCap f c)
  | .feature x, _ => b2n (featureOk x)
  | .deviceControl2, .zero p => (portSt s p).ctoEnc.toNat
  | .deviceControl2, .tarn t => (fnOf s t).ctoEnc.toNat
  | .powerState, .zero p => 3 * b2n (portSt s p).d3hot
  | .powerState, .tarn t => 3 * b2n (fnOf s t).d3hot
  | .busMaster, .tarn t => b2n (fnOf s t).busMaster
  | .busMaster, .zero _ => 0
  | .errorStatus, .tarn t => (fnOf s t).aer.toNat
  | .errorStatus, .zero _ => 0
  | .bandExposure, .tarn t => if live s t && !isConf s t then (entryOf s t).expose.toNat else 0
  | .bandExposure, .zero _ => 0
  | .hdmDecoders, .zero p => if (portSt s p).cxl then 8 else 0
  | .hdmDecoders, .tarn _ => 0
  | .cxlCache, .zero p => b2n (portSt s p).cache
  | .cxlCache, .tarn _ => 0

/-- The function is there (R382, R383). -/
def funcThere (s : State) (f : Func) : Bool :=
  match f with
  | .zero p => portUsed s p
  | .tarn _ => true

/-- CONFIG_RETRY (R667): until the first beat, configuration requests get Request Retry Status; from then on they are answered. -/
def execConfigRetry (r : ConfigRead) (s : State) : Host.Outcome State Fault Refusal :=
  .next (if s.board.mainPower && !s.board.sysRst && funcThere s r.f then
    (if s.board.running then emit s (.configData r.f (configRead s r.f r.reg)) else emit s (.retryStatus r.f))
  else s)

/-- A completion timeout encoding that PCIe defines; a write of another one is ignored (DESIGN CHOICE, log 92). -/
def ctoLegal (v : Nat) : Bool := [0, 1, 2, 5, 6, 9, 10, 13, 14].contains v

/-- A write to configuration space (R385, R390, R392): the completion timeout, the power state, where leaving D3hot acts as an FLR, the
error status, a bit of which a 1 clears, and CXL.cache. Bus Master Enable has a command of its own. -/
def writeConfig (s : State) (f : Func) (r : ConfigReg) (v : Nat) : State :=
  match r, f with
  | .deviceControl2, .tarn t => if ctoLegal (v % 16) then modFn s t fun x => { x with ctoEnc := BitVec.ofNat 4 v } else s
  | .deviceControl2, .zero p => if ctoLegal (v % 16) then modPort s p fun x => { x with ctoEnc := BitVec.ofNat 4 v } else s
  | .powerState, .tarn t =>
    if v % 4 == 3 then modFn s t fun x => { x with d3hot := true }
    else if v % 4 == 0 && (fnOf s t).d3hot then flrTarn s t
    else s
  | .powerState, .zero p =>
    if v % 4 == 3 then modPort s p fun x => { x with d3hot := true }
    else if v % 4 == 0 && (portSt s p).d3hot then dropConn (modPort s p fun x => { x with d3hot := false, ctoEnc := 0 }) p
    else s
  | .errorStatus, .tarn t => modFn s t fun x => { x with aer := x.aer &&& ~~~ BitVec.ofNat 32 v }
  | .cxlCache, .zero p => if (portSt s p).cxl then modPort s p fun x => { x with cache := v % 2 == 1 } else s
  | _, _ => s

/-- REGISTER_WRITE (R9, R64, R65): any other write to BAR0 of a Tarn function, or to configuration space. -/
def execRegisterWrite (f : Func) (reg : RegAt) (width : Nat) (value : BitVec 64) (s : State) : Host.Outcome State Fault Refusal :=
  .next (
    let v := value.toNat % 2 ^ (8 * width)
    match reg, f with
    | .bar0 off, .tarn t => if hostReach s t then writeBar0 s t off.toNat width v else s
    | .bar0 _, .zero _ => s
    | .config r, f => if s.board.running && funcThere s f then writeConfig s f r v else s)

end Sys2Proof.Machine
end

