-- ==== Sys2Proof/Machine/Power.lean ====
section
/-! DEFINITION. Power, resets, start-up, ports, clocks, tamper and the battery (R392, R393, R422, R449, R471, R492, R500 to R503, R644,
R661 to R696). -/

namespace Sys2Proof.Machine

/-! Ports -/

/-- Every function of a port undergoes the effects of R392 (R393, R670). -/
def resetFunctions (s : State) (p : Port) : State :=
  if s.board.running then (allTarns.filter fun t => portOf s t == p).foldl flrTarn (dropConn s p) else dropConn s p

/-- PERST_ASSERT (R670, R671). -/
def assertPerst (s : State) (p : Port) : State :=
  let s := modPort s p fun _ => { perst := true }
  let s := { s with board := { s.board with bothLow := s.board.bothLow || (s.board.portA.perst && s.board.portB.perst) } }
  if portUsed s p then resetFunctions s p else s

/-- PERST_ASSERT. -/
def execPerstAssert (p : Port) (s : State) : Host.Outcome State Fault Refusal := .next (if s.board.mainPower then assertPerst s p else s)

/-- The port mode and assignment of the boot flash take effect (R671). -/
def applyPorts (s : State) : State := { s with board := { s.board with x8 := s.flash.x8, assign := s.flash.assign } }

/-- PERST_RELEASE (R667, R671): after both have been low together, a new port mode takes effect with PERST_A_N. -/
def releasePerst (s : State) (p : Port) : State :=
  let s := modPort s p fun x => { x with perst := false }
  if p == .a && s.board.bothLow then
    let s := resetFunctions (resetFunctions s .a) .b
    applyPorts { s with board := { s.board with bothLow := false } }
  else s

/-- PERST_RELEASE. -/
def execPerstRelease (p : Port) (s : State) : Host.Outcome State Fault Refusal :=
  .next (if s.board.mainPower && (portSt s p).perst then releasePerst s p else s)

/-- Tickets of a port's Tarns that wait on a host read reach its timeout (R390, R422); it comes before the abort of R392 (R603)
(DEDUCED, log 92). -/
def readsLost (s : State) (p : Port) : State :=
  (s.tickets.filter fun k => k.dma.isSome && portOf s k.tarn == p).foldl (fun s k => failTicket s k.uid .timeout) s

/-- A port's link goes down (R393, R422, R674). -/
def portDown (s : State) (p : Port) : State :=
  let s := modPort s p fun x => { perst := x.perst }
  if portUsed s p then resetFunctions (if s.board.running then readsLost s p else s) p else s

/-- PORT_LINK_DOWN (R393): a hot reset counts as well. -/
def execPortLinkDown (p : Port) (s : State) : Host.Outcome State Fault Refusal := .next (if s.board.mainPower then portDown s p else s)

/-- PORT_LINK_RETURN (R421, R422): the link runs PCIe or CXL, and the functions stay as R392 left them. -/
def execPortLinkReturn (l : PortLink) (s : State) : Host.Outcome State Fault Refusal :=
  .next (if s.board.mainPower && !s.board.sysRst && portUsed s l.p && !(portSt s l.p).perst then
    modPort s l.p fun x => { x with linkUp := true, cxl := l.proto == .cxl, cache := x.cache && l.proto == .cxl }
  else s)

/-- REFCLK_STOP (R674). -/
def execRefclkStop (p : Port) (s : State) : Host.Outcome State Fault Refusal := .next (if s.board.mainPower then portDown s p else s)

/-! Reset -/

/-- What a reset keeps of the firmware: the banks in the boot flash (DEDUCED, log 47). A staging that it interrupts leaves the inactive
bank empty (R651). -/
def fwAfterReset (f : Firmware) : Firmware :=
  { kernel := f.kernel, kernelNext := f.kernelNext, ctrl := f.ctrl, ctrlNext := f.ctrlNext }

/-- What a reset keeps of the units: what has been retired stays so (R576, R579); tests, counts and waiting failures are gone (DEDUCED, log 47). -/
def unitsAfterReset (u : Units) : Units :=
  { u with
    tileTesting := 0, laneTesting := 0, kaeTesting := 0, memTesting := 0, counts := [], advised := [], failing := []
    groupOver := List.replicate 16 0, moving := []
    spares := u.spares.map fun x => match x with
      | .testing1 => .scrubbing
      | .testing2 => .scrubbing
      | .ready => .scrubbing
      | x => x
    chans := u.chans.map fun x => if x == .copying then .remapped else x }

/-- The device in reset (R449, R550, R668): BBRAM, fuses, the boot flash, pins and battery stay; everything else is lost (DEDUCED, log 47). -/
def inReset (s : State) : State :=
  { State.reset with
    pending := s.pending, outbox := s.outbox, freeCtr := s.freeCtr
    bbram := s.bbram, fuses := s.fuses, flash := s.flash, fw := fwAfterReset s.fw, units := unitsAfterReset s.units
    board := { s.board with
      running := false, faultN := false, beatOut := 0, connA := {}, connB := {}
      portA := { perst := s.board.portA.perst }
      portB := { perst := s.board.portB.perst } } }

/-- SYS_RESET (R668): THERMTRIP_N goes high (R683), and clocks may run again. -/
def execSysReset (s : State) : Host.Outcome State Fault Refusal :=
  .next (if s.board.mainPower then
    let s := inReset s
    { s with board := { s.board with sysRst := true, brownOut := false, thermtripN := true, clocks := true, tamperLevel := [] } }
  else s)

/-- BROWN_OUT (R669). -/
def execBrownOut (s : State) : Host.Outcome State Fault Refusal :=
  .next (if s.board.mainPower && !s.board.sysRst then
    let s := inReset s
    { s with board := { s.board with brownOut := true } }
  else s)

/-! Tamper -/

/-- The tamper input is armed (R499). -/
def tamperArmed (s : State) (c : TamperCause) : Bool :=
  match c with
  | .meshOpen => true
  | .meshShort => true
  | .switch n => s.fuses.tamperArm.getLsbD n

/-- BBRAM after a tamper response (R500, R502): 0x0000 to 0x013F and 0x1000 to 0x3FFF read zero, and the log counts the event. -/
def tamperBbram (b : Bbram) (cause : Nat) (beat : BitVec 64) : Bbram :=
  { root := zeros 32, check := zeros 16, lcMirror := 0, journal := List.replicate 16 {}
    parents := List.replicate 1024 { gen := 0 }
    tamperCount := if b.tamperCount == 255 then 255 else b.tamperCount + 1
    tamperCause := BitVec.ofNat 8 cause, tamperBeat := beat }

/-- The hardware's response to a tamper signal (R500, R501) (DEDUCED, log 48). -/
def tamperWipe (s : State) (c : TamperCause) : State :=
  let beat := if s.board.mainPower then BitVec.ofNat 64 s.beat else BitVec.allOnes 64
  { s with
    bbram := tamperBbram s.bbram (tamperCode c) beat
    keys := List.replicate 512 {}
    replaces := List.replicate 16 none
    fns := s.fns.map fun f => { f with sessions := [], bounce := none }
    links := s.links.map fun l => { l with tx := { ctr := l.tx.ctr }, rx := { ctr := l.rx.ctr }, eph := none }
    tarns := s.tarns.map fun t => t.map fun n => { n with attKey := 0 }
    fw := { s.fw with aliasKey := 0 } }

/-- TAMPER (R500, R501, R688, R692): the trusted kernel, once it runs, holds the device FATAL (DEDUCED, log 48). -/
def tamperSignal (s : State) (c : TamperCause) : State :=
  if !tamperArmed s c then s
  else
    let s := tamperWipe s c
    let s := if s.board.sysRst then { s with board := { s.board with tamperLevel := s.board.tamperLevel ++ [c] } } else s
    if s.board.running then setFatal s else s

/-- TAMPER. -/
def execTamper (c : TamperCause) (s : State) : Host.Outcome State Fault Refusal := .next (tamperSignal s c)

/-- SYS_RESET_RELEASE (R665, R671, R689): the settings of the boot flash apply; a tamper signal still present keeps the device FATAL (DEDUCED, log 48). -/
def releaseReset (s : State) : State :=
  let s := applyPorts { s with
    timing := { s.timing with mode := s.flash.mode, domain := s.flash.domain, deviceNo := s.flash.deviceNo, priority := s.flash.priority }
    board := { s.board with sysRst := false } }
  match s.board.tamperLevel with
  | [] => s
  | c :: _ => setFatal (tamperWipe s c)

/-- SYS_RESET_RELEASE. -/
def execSysResetRelease (s : State) : Host.Outcome State Fault Refusal :=
  .next (if s.board.mainPower && s.board.sysRst then releaseReset s else s)

/-! Start-up -/

/-- Boot a marked bank whose checks pass (R644); the result says whether a check failed (DEDUCED, log 45). -/
def bootBank (rollback : Nat) (active next : Bank) : Bank × Bank × Bool :=
  if !next.marked then (active, next, false)
  else if next.staged && rollback ≤ next.svn then
    ({ next with staged := false, marked := false }, { active with staged := false, marked := false }, false)
  else (active, { next with marked := false }, true)

/-- The boot ROM (R519, R644): the banks to run, and the keys it derives (DESIGN CHOICE, log 11). The results say for which half a marked
bank failed its checks. -/
def bootRom (s : State) : (Bool × Bool) × State :=
  let k := bootBank s.fuses.rollback s.fw.kernel s.fw.kernelNext
  let c := bootBank s.fuses.rollback s.fw.ctrl s.fw.ctrlNext
  let fw := { s.fw with
    kernel := k.1, kernelNext := k.2.1, ctrl := c.1, ctrlNext := c.2.1
    devicePub := sec1 p384 (ecPub p384 (p384Key ((upto 56).map Config.deviceSecret)))
    aliasKey := p384Key ((upto 56).map (Config.aliasSecret k.1.digest)) }
  ((k.2.2, c.2.2), { s with fw })

/-- Item 1 of R492: the root is present when it is not zero and its check matches. -/
def rootPresent (b : Bbram) : Bool := !allZero b.root && (sha384 (ascii "GZ8-ROOT-CHECK-1" ++ b.root)).take 16 == b.check

/-- One journal entry at power-up (Table 11-6). -/
def resolveEntry (s : State) (x : JEntry × Nat) : State :=
  let e := x.1
  let s := if e.jstate == 2 && e.recordId != 0 then
      modParent s e.recordId.toNat fun p => { p with kcvSet := true, kcvLow := e.newKcv }
    else s
  if e.jstate == 0 then s
  else
    let s := setJournal s x.2 fun _ => {}
    tallyKeyEv s e.tarn.toNat 4 e.slot.toNat { recordId := e.recordId.toNat, kcv := leBytes 4 e.newKcv.toNat } (leBytes 4 e.oldKcv.toNat)

/-- The BOOT event (R541, Table 12-6). -/
def bootEvent (s : State) : State :=
  let (nonce, s) := drawEntropy s 32
  let s := { s with tally := { s.tally with bootNonce := nonce } }
  let (key, s) := tallyKeyBytes s
  tally s 0x0001 7 anyTarn false .ok
    (nonce ++ leBytes 4 s.fw.kernel.release.toNat ++ leBytes 4 s.fw.ctrl.release.toNat ++ leBytes 1 (lifeCode (lifeOf s.fuses.lc))
      ++ leBytes 1 s.rootState ++ zeros 6 ++ sha384 (aliasPub s) ++ padTo 48 s.fw.kernel.digest ++ padTo 48 s.fw.ctrl.digest ++ key)

/-- DEVICE event of the tamper log. -/
def tallyTamper (s : State) : State :=
  tally s 0x0071 1 anyTarn false .ok
    (leBytes 1 1 ++ leBytes 1 s.bbram.tamperCause.toNat ++ leBytes 1 s.bbram.tamperCount.toNat
      ++ leBytes 1 (lifeCode (lifeOf s.fuses.lc)) ++ zeros 4 ++ leBytes 8 s.bbram.tamperBeat.toNat)

/-- The power-up steps of the trusted kernel (R492, R644): the root, a transition to complete, the journal, and their entries after
the BOOT event, then the banks rolled back and a battery found absent (DEDUCED, log 46; DEDUCED, log 98). -/
def kernelBoot (s : State) (rolledBack : Bool × Bool) : State :=
  let present := rootPresent s.bbram
  let s := { s with rootState := if present then 0 else lostCause s.bbram }
  let ahead := present && s.bbram.lcMirror.toNat < lifeCode (lifeOf s.fuses.lc)
  let s := if ahead then lifeSteps s (lifeOf s.fuses.lc) else s
  let journal := s.bbram.journal.zipIdx
  let s := bootEvent s
  let s := journal.foldl resolveEntry s
  let s := if ahead then tallyDevice s 6 0 else s
  let s := if s.bbram.tamperCount == 0 then s else tallyTamper s
  let s := if rootOk s then s else tallyDevice s 4 s.rootState
  let s := if rolledBack.1 then tallyFirmware s 0 4 s.fw.kernel.release s.fw.kernel.digest .notPermitted else s
  let s := if rolledBack.2 then tallyFirmware s 1 4 s.fw.ctrl.release s.fw.ctrl.digest .notPermitted else s
  let s := if s.board.batteryAbsent then tallyDevice s 2 0 else s
  { s with fuses := { s.fuses with rollback := max s.fuses.rollback (min 96 s.fw.kernel.svn) } }

/-- The first beat (R449, R664, R666, R682): beat 0 at bar position 0 under the reset values, and every resource is scrubbed (DEDUCED, log 51). -/
def startBeats (s : State) : State :=
  let v := Config.vCore 50
  let s := emit { s with
    gov := { s.gov with target := v }
    scrubs := mapResources.map fun r => (r, s.beat)
    board := { s.board with running := true, faultN := true, beatOut := 300 } } (.avs v)
  let s := addRecord s
  let s := if s.timing.mode == .pin && !s.timing.beatInValid then enterHoldover s else s
  if workingCores s == 0 then setFatal s else s

/-- FIRST_BEAT (R492, R644, R663, R664). -/
def execFirstBeat (s : State) : Host.Outcome State Fault Refusal :=
  .next (if s.board.mainPower && !s.board.sysRst && !s.board.brownOut && !s.board.running && !s.fatal && s.board.clocks then
    let (rolledBack, s) := bootRom s
    startBeats (kernelBoot s rolledBack)
  else s)

/-! Clocks and temperature -/

/-- SYS_CLK_STOP (R674). -/
def execSysClkStop (s : State) : Host.Outcome State Fault Refusal :=
  .next (if s.board.mainPower && !s.board.sysRst then
    let s := setFatal s
    { s with board := { s.board with clocks := false } }
  else s)

/-- A link loses its reference clock (R674): it goes DOWN as a link fault. -/
def clockLost (s : State) (n : LinkIx) : State :=
  let s := modLink s n fun l => { l with fecLock := false, signal := false }
  if (linkOf s n).state == .down then s
  else
    let u := mkUnit kLink n
    let s := noteUnit s u 1
    linkDown ((unitTarns s u).foldl (fun s t => adviseUnit s t u) s) n 2

/-- SPW_REFCLK_STOP (R674). -/
def execSpwRefclkStop (k : Fin 3) (s : State) : Host.Outcome State Fault Refusal :=
  .next (if running s then ((List.finRange 12).filter fun (n : LinkIx) => n.val / 4 == k.val).foldl clockLost s else s)

/-- THERMTRIP (R683, R694): a junction sensor, in tenths of a degree, reads 115 °C or more (DESIGN CHOICE, log 50). -/
def execThermtrip (tj : Int) (s : State) : Host.Outcome State Fault Refusal :=
  .next (if s.board.mainPower && 1150 ≤ tj then
    let s := setFatal s
    { s with board := { s.board with thermtripN := false, clocks := false } }
  else s)

/-! Power and the battery -/

/-- BBRAM without power (R678, R690): nothing is kept, the tamper log included (PRESUMED, log 49). -/
def blankBbram : Bbram := { parents := List.replicate 1024 { gen := 0 } }

/-- BATTERY_ABSENT (R503, R678) (DESIGN CHOICE, log 50). -/
def execBatteryAbsent (vbatMv : Nat) (s : State) : Host.Outcome State Fault Refusal :=
  .next (if s.board.mainPower && vbatMv < 2400 then
    let was := s.board.batteryAbsent
    let s := { s with board := { s.board with vbatMv, batteryAbsent := true } }
    if s.board.running && !s.fatal && !was then tallyDevice s 2 0 else s
  else s)

/-- BATTERY_RESTORED (R678). -/
def execBatteryRestored (vbatMv : Nat) (s : State) : Host.Outcome State Fault Refusal :=
  .next (if s.board.mainPower && s.board.batteryAbsent && 2500 ≤ vbatMv then
    let s := { s with board := { s.board with vbatMv, batteryAbsent := false } }
    if s.board.running && !s.fatal then tallyDevice s 3 0 else s
  else s)

/-- MAIN_POWER_APPLIED (R661, R681): the rails come up while SYS_RST_N is low. -/
def execMainPowerApplied (s : State) : Host.Outcome State Fault Refusal :=
  .next (if s.board.mainPower then s
    else { s with board := { s.board with mainPower := true, sysRst := true, tamperLevel := [], thermtripN := true, clocks := true, brownOut := false } })

/-- MAIN_POWER_REMOVED (R550, R672, R690). -/
def execMainPowerRemoved (s : State) : Host.Outcome State Fault Refusal :=
  .next (if s.board.mainPower then
    let s := inReset s
    { s with
      board := { s.board with mainPower := false, batteryAbsent := false }
      bbram := if s.board.vbatMv < 2200 then blankBbram else s.bbram }
  else s)

/-- BATTERY_RETENTION_LOST (R678). -/
def execBatteryRetentionLost (s : State) : Host.Outcome State Fault Refusal :=
  .next (if s.board.mainPower then s else { s with bbram := blankBbram, board := { s.board with vbatMv := 0 } })

end Sys2Proof.Machine
end

