-- ==== Sys2Proof/Machine/Spdm.lean ====
section
/-! DEFINITION. SPDM 1.3 over DOE (R384, R397 to R402, R418, R525). The message codes and field places are those of DSP0274,
which the spec names and does not restate (PRESUMED, log 12). -/

namespace Sys2Proof.Machine

/-- The Tarn index of a function, none for function 0. -/
def funcTarn (f : Func) : Option TarnIx :=
  match f with
  | .zero _ => none
  | .tarn t => some t

/-- The DOE mailbox answers SPDM requests other than with UnexpectedRequest: function 0, or an existing Tarn (R384). -/
def funcLive (s : State) (f : Func) : Bool :=
  match f with
  | .zero _ => true
  | .tarn t => live s t

/-- An SPDM 1.3 message (PRESUMED, log 12). -/
def spdmMsg (code p1 p2 : Nat) (body : Bytes) : Bytes := leBytes 1 0x13 ++ leBytes 1 code ++ leBytes 1 p1 ++ leBytes 1 p2 ++ body

/-- ERROR codes of DSP0274. -/
abbrev errInvalid : Nat := 0x01
/-- InvalidSession. -/
abbrev errSession : Nat := 0x02
/-- UnexpectedRequest. -/
abbrev errUnexpected : Nat := 0x04
/-- DecryptError: verification failed. -/
abbrev errDecrypt : Nat := 0x06
/-- UnsupportedRequest. -/
abbrev errUnsupported : Nat := 0x07
/-- SessionLimitExceeded. -/
abbrev errLimit : Nat := 0x0A

/-- Answer with ERROR. -/
def spdmError (s : State) (f : Func) (code : Nat) : State := emit s (.doe f (spdmMsg 0x7F code 0 []))

/-- The SPDM negotiation of a function: function 0 of the model holds none in State beyond its answers (PRESUMED, log 12). -/
def connOf (s : State) (f : Func) : SpdmConn :=
  match f with
  | .zero .a => s.board.connA
  | .zero .b => s.board.connB
  | .tarn t => (fnOf s t).conn

/-- Change the negotiation of a function. -/
def modConn (s : State) (f : Func) (g : SpdmConn → SpdmConn) : State :=
  match f with
  | .zero .a => { s with board := { s.board with connA := g s.board.connA } }
  | .zero .b => { s with board := { s.board with connB := g s.board.connB } }
  | .tarn t => modFn s t fun r => { r with conn := g r.conn }

/-- The DOE mailbox of a function answers: the control firmware, which carries its objects, runs (DEDUCED, log 94); nothing before the first
beat (DESIGN CHOICE, log 3). -/
def doeReach (s : State) : Bool := s.board.running && !s.fatal && fwUp s

/-- Serve an SPDM request: refused as unexpected on the function of no Tarn (R384). -/
def spdmServe (s : State) (f : Func) (g : State → State) : State :=
  if !doeReach s then s else if !funcLive s f then spdmError s f errUnexpected else g s

/-- Serve a request that needs the negotiation done. -/
def spdmNegotiated (s : State) (f : Func) (g : State → State) : State :=
  spdmServe s f fun s => if (connOf s f).algs then g s else spdmError s f errUnexpected

/-- The confidential Tarn of a function. -/
def confTarn (s : State) (f : Func) : Option TarnIx :=
  match f with
  | .zero _ => none
  | .tarn t => if isConf s t then some t else none

/-- DOE_DISCOVERY (R397): vendor 0x0001, types 0, 1 and 2. -/
def execDoeDiscovery (f : Func) (index : Nat) (s : State) : Host.Outcome State Fault Refusal :=
  .next (if doeReach s then
    emit s (.doe f (if index ≤ 2 then leBytes 2 1 ++ leBytes 1 index ++ leBytes 1 (if index == 2 then 0 else index + 1)
      else leBytes 2 0xFFFF ++ leBytes 1 0xFF ++ leBytes 1 0))
  else s)

/-- GET_VERSION (R398): version 1.3 only; the negotiation starts anew. -/
def execGetVersion (f : Func) (s : State) : Host.Outcome State Fault Refusal :=
  .next (spdmServe s f fun s =>
    emit (modConn s f fun _ => { version := true }) (.doe f (leBytes 1 0x10 ++ leBytes 1 0x04 ++ zeros 3 ++ leBytes 1 1 ++ leBytes 2 0x1300)))

/-- Capability flags (R399): CERT, CHAL and MEAS with signature; ENCRYPT, MAC, KEY_EX and KEY_UPD on a confidential Tarn. -/
def capFlags (s : State) (f : Func) : Nat :=
  let base := 2 ^ 1 + 2 ^ 2 + 2 ^ 4
  if (confTarn s f).isSome then base + 2 ^ 6 + 2 ^ 7 + 2 ^ 9 + 2 ^ 14 else base

/-- GET_CAPABILITIES (R399): CTExponent 16. -/
def execGetCapabilities (f : Func) (s : State) : Host.Outcome State Fault Refusal :=
  .next (spdmServe s f fun s =>
    if (connOf s f).version then
      emit (modConn s f fun c => { c with caps := true })
        (.doe f (spdmMsg 0x61 0 0 (zeros 1 ++ leBytes 1 16 ++ zeros 2 ++ leBytes 4 (capFlags s f) ++ leBytes 4 65536 ++ leBytes 4 65536)))
    else spdmError s f errUnexpected)

/-- Every category of R399 is offered (DEDUCED, log 67). -/
def offerOk (o : AlgOffer) : Bool :=
  o.ecdsaP384 && o.sha384 && o.secp384r1 && o.aes256Gcm && o.measSha384 && o.measSpecDmtf

/-- NEGOTIATE_ALGORITHMS (R399). -/
def execNegotiateAlgorithms (f : Func) (offer : AlgOffer) (s : State) : Host.Outcome State Fault Refusal :=
  .next (spdmServe s f fun s =>
    if !(connOf s f).caps then spdmError s f errUnexpected
    else if !offerOk offer then spdmError s f errUnsupported
    else emit (modConn s f fun c => { c with algs := true })
      (.doe f (spdmMsg 0x63 2 0 (leBytes 2 52 ++ leBytes 1 1 ++ zeros 1 ++ leBytes 4 2 ++ leBytes 4 0x80 ++ leBytes 4 2 ++ zeros 16
        ++ leBytes 1 2 ++ leBytes 1 0x20 ++ leBytes 2 0x10 ++ leBytes 1 3 ++ leBytes 1 0x20 ++ leBytes 2 2))))

/-- The slot-0 chain as SPDM carries it: length, reserved, root digest, certificates. -/
def spdmChain (s : State) (f : Func) : Bytes :=
  let c := certChain s (funcTarn f)
  leBytes 2 (4 + 48 + c.length) ++ zeros 2 ++ sha384 (certOf s 1 none) ++ c

/-- GET_DIGESTS (R400): slot 0 alone. -/
def execGetDigests (f : Func) (s : State) : Host.Outcome State Fault Refusal :=
  .next (spdmNegotiated s f fun s => emit s (.doe f (spdmMsg 0x01 0 1 (sha384 (spdmChain s f)))))

/-- GET_CERTIFICATE (R400). -/
def execGetCertificate (f : Func) (slot : Nat) (offset length : Nat) (s : State) : Host.Outcome State Fault Refusal :=
  .next (spdmNegotiated s f fun s =>
    let c := spdmChain s f
    if slot != 0 || c.length ≤ offset then spdmError s f errInvalid
    else
      let part := Machine.slice c offset length
      emit s (.doe f (spdmMsg 0x02 0 0 (leBytes 2 part.length ++ leBytes 2 (c.length - offset - part.length) ++ part))))

/-- An SPDM signature: ECDSA P-384 over the digest that DSP0274 takes of the messages so far, a free value here (PRESUMED, log 12). -/
def signSpdm (s : State) (key : Nat) (said : Bytes) : Bytes × State :=
  (ecdsaSign key (Config.ecdsaNonce s.freeCtr) ((upto 48).map (Config.spdmDigest s.freeCtr said)), { s with freeCtr := s.freeCtr + 1 })

/-- CHALLENGE (R400): signed with the leaf key. -/
def execChallenge (f : Func) (slot : Nat) (nonce : Bytes) (s : State) : Host.Outcome State Fault Refusal :=
  .next (spdmNegotiated s f fun s =>
    if slot != 0 then spdmError s f errInvalid
    else
      let (own, s) := drawEntropy s 32
      let body := sha384 (spdmChain s f) ++ own ++ zeros 2
      let (sig, s) := signSpdm s (leafKey s (funcTarn f)) (nonce ++ body)
      emit s (.doe f (spdmMsg 0x03 0 1 (body ++ sig))))

/-- Content of a raw measurement block whose encoding the spec does not give (Table 09-5) (DESIGN CHOICE, log 16). -/
def rawBlock (i : Nat) (content : Bytes) : Bytes := (upto (Config.measureLen i content)).map (Config.measureByte i content)

/-- A measurement block: index, DMTF specification, size, value type, value (Table 09-5). -/
def measureBlock (s : State) (i : Nat) (rep : Bytes) : Bytes :=
  let v : Nat × Bytes := match i with
    | 1 => (0x01, padTo 48 s.fw.kernel.digest)
    | 2 => (0x01, padTo 48 s.fw.ctrl.digest)
    | 3 => (0x82, rawBlock 3 (leBytes 1 s.fuses.rollback ++ leBytes 4 64 ++ leBytes 1 s.fuses.tamperArm.toNat))
    | 4 => (0x82, rawBlock 4 (leBytes 1 (lifeCode (lifeOf s.fuses.lc))))
    | 5 => (0x82, rawBlock 5 (leBytes 1 (debugDevice s) ++ (allTarns.map fun t => leBytes 1 (debugTarn s t)).flatten))
    | 6 => (0x83, rawBlock 6 (mapBytes s.map))
    | _ => (0x83, rep)
  leBytes 1 i ++ leBytes 1 1 ++ leBytes 2 (3 + v.2.length) ++ leBytes 1 v.1 ++ leBytes 2 v.2.length ++ v.2

/-- The measurement summary hash (R525): blocks 1 to 6. -/
def summaryHash (s : State) : Bytes := sha384 (([1, 2, 3, 4, 5, 6].map fun i => measureBlock s i []).flatten)

/-- GET_MEASUREMENTS (R401): one block, their number, or all; block 0x10 is a fresh report with the request's nonce. -/
def execGetMeasurements (f : Func) (index : Nat) (nonce : Bytes) (s : State) : Host.Outcome State Fault Refusal :=
  .next (spdmNegotiated s f fun s =>
    let all := [1, 2, 3, 4, 5, 6, 0x10]
    let wanted := if index == 0xFF then all else all.filter (· == index)
    if index != 0 && wanted.isEmpty then spdmError s f errInvalid
    else
      let (rep, s) := report s (funcTarn f) nonce
      let blocks := (wanted.map fun i => measureBlock s i rep).flatten
      let (own, s) := drawEntropy s 32
      let body := leBytes 1 wanted.length ++ leBytes 3 blocks.length ++ blocks ++ own ++ zeros 2
      let (sig, s) := signSpdm s (leafKey s (funcTarn f)) (nonce ++ body)
      emit s (.doe f (spdmMsg 0x60 (if index == 0 then 7 else 0) 0 (body ++ sig))))

/-- Established sessions of a function. -/
def establishedCount (s : State) (t : TarnIx) : Nat := ((fnOf s t).sessions.filter (·.established)).length

/-- A 48-byte secret of the session's key schedule. -/
def spdmSecretBytes (which : Nat) (dhe : Bytes) (sid : Nat) : Bytes := (upto 48).map (Config.spdmSecret which dhe sid)

/-- KEY_EXCHANGE (R402, R525): confidential Tarns only; the session is established by FINISH. A point of the curve and a private
key below the order always have a shared secret (PRESUMED, log 53). -/
def execKeyExchange (f : Func) (summaryType : BitVec 8) (reqSessionId : BitVec 16) (exchangeData : Bytes) (s : State) :
    Host.Outcome State Fault Refusal :=
  .next (spdmServe s f fun s =>
    match confTarn s f with
    | none => spdmError s f errUnsupported
    | some t =>
      if !(connOf s f).algs then spdmError s f errUnexpected
      else if summaryType != 0 && summaryType != 0xFF then spdmError s f errInvalid
      else if 2 ≤ establishedCount s t then spdmError s f errLimit
      else match unSec1 p384 (leBytes 1 4 ++ exchangeData) with
        | none => spdmError s f errInvalid
        | some pub =>
          let (seed, s) := drawEntropy s 56
          let (rnd, s) := drawEntropy s 34
          let d := p384Key seed
          let sid := BitVec.ofNat 32 (reqSessionId.toNat + 65536 * field rnd 0 2)
          if ((fnOf s t).sessions.any fun x => x.id == sid) then spdmError s f errInvalid
          else
            let dhe := (ecdh p384 d pub).getD []
            let x : Session := { id := sid, exportSecret := spdmSecretBytes 0 dhe sid.toNat,
                                 reqSecret := spdmSecretBytes 1 dhe sid.toNat, rspSecret := spdmSecretBytes 2 dhe sid.toNat }
            let s := modFn s t fun r => { r with sessions := r.sessions.filter (·.established) ++ [x] }
            let body := leBytes 2 (sid.toNat / 65536) ++ zeros 2 ++ rnd.drop 2 ++ (sec1 p384 (ecPub p384 d)).drop 1
              ++ (if summaryType == 0xFF then summaryHash s else []) ++ zeros 2
            let (sig, s) := signSpdm s (leafKey s (some t)) (exchangeData ++ body)
            emit s (.doe f (spdmMsg 0x64 0 0 (body ++ sig))))

/-- FINISH (R402): the session is established, up to two of a function, and recorded. -/
def execFinish (f : Func) (session : BitVec 32) (verifyOk : Bool) (s : State) : Host.Outcome State Fault Refusal :=
  .next (spdmServe s f fun s =>
    match confTarn s f with
    | none => spdmError s f errUnsupported
    | some t => match sessionOf s t session with
      | none => spdmError s f errSession
      | some x =>
        if x.established then spdmError s f errUnexpected
        else if 2 ≤ establishedCount s t then spdmError s f errLimit
        else if !verifyOk then
          spdmError (modFn s t fun r => { r with sessions := r.sessions.filter fun y => y.id != session }) f errDecrypt
        else
          let s := modSession s t session fun y => { y with established := true }
          emit (tallySession s t 1 session.toNat) (.doe f (spdmMsg 0x65 0 0 [])))

/-- Run a request on an established session of a confidential Tarn (Table 09-4). -/
def withSession (s : State) (f : Func) (session : BitVec 32) (g : TarnIx → Session → State → State) : State :=
  spdmServe s f fun s =>
    match confTarn s f with
    | none => spdmError s f errUnsupported
    | some t => match sessionOf s t session with
      | none => spdmError s f errSession
      | some x => if x.established then g t x s else spdmError s f errUnexpected

/-- The next secret of a direction (DSP0274 key update) (PRESUMED, log 12). -/
def spdmNext (secret : Bytes) : Bytes := hkdfExpand384 secret (leBytes 2 48 ++ ascii "spdm1.3 traffic upd") 48

/-- KEY_UPDATE (R402): the keys of secured messages alone change. -/
def execKeyUpdate (f : Func) (session : BitVec 32) (s : State) : Host.Outcome State Fault Refusal :=
  .next (withSession s f session fun t x s =>
    emit (modSession s t x.id fun y => { y with reqSecret := spdmNext y.reqSecret, rspSecret := spdmNext y.rspSecret })
      (.doe f (spdmMsg 0x69 0 0 [])))

/-- END_SESSION (R418): the session ends at once, and tickets that still need it end with NOT_PERMITTED. -/
def execEndSession (f : Func) (session : BitVec 32) (s : State) : Host.Outcome State Fault Refusal :=
  .next (withSession s f session fun t x s =>
    emit (tallySession (dropSession s t x.id .notPermitted) t 2 x.id.toNat) (.doe f (spdmMsg 0x6C 0 0 [])))

/-- SPDM_UNSUPPORTED (R398): any request code not in Table 09-4. -/
def execSpdmUnsupported (f : Func) (code : BitVec 8) (s : State) : Host.Outcome State Fault Refusal :=
  .next (spdmServe s f fun s => emit s (.doe f (spdmMsg 0x7F errUnsupported code.toNat [])))

end Sys2Proof.Machine
end

