-- ==== Sys2Proof/Machine/Dispatch.lean ====
section
/-! DEFINITION. One arm per command: which meaning it has. -/

namespace Sys2Proof.Machine

/-- The effect of a command on everything but the queue. -/
def exec (i : Instr) (s : State) : Host.Outcome State Fault Refusal :=
  match i with
  | .seam inp => Sys2Proof.Machine.execSeam inp s
  | .figureFinish g cycles => Sys2Proof.Machine.execFigureFinish g cycles s
  | .spillStop g => Sys2Proof.Machine.execSpillStop g s
  | .throttleSet t => Sys2Proof.Machine.execThrottleSet t s
  | .throttleLift t => Sys2Proof.Machine.execThrottleLift t s
  | .scheduleSwap => Sys2Proof.Machine.execScheduleSwap s
  | .mapChangeApply => Sys2Proof.Machine.execMapChangeApply s
  | .ruleChangeDrained => Sys2Proof.Machine.execRuleChangeDrained s
  | .scrubComplete r => Sys2Proof.Machine.execScrubComplete r s
  | .phaseApply => Sys2Proof.Machine.execPhaseApply s
  | .phaseTimeout => Sys2Proof.Machine.execPhaseTimeout s
  | .hostSetApply => Sys2Proof.Machine.execHostSetApply s
  | .beatFlit n flit arrivalPs => Sys2Proof.Machine.execBeatFlit n flit arrivalPs s
  | .delayReq n flit stamps => Sys2Proof.Machine.execDelayReq n flit stamps s
  | .delayResp n header rest t1 t4 => Sys2Proof.Machine.execDelayResp n header rest t1 t4 s
  | .domainJoin offsetNs => Sys2Proof.Machine.execDomainJoin offsetNs s
  | .leaderLoss => Sys2Proof.Machine.execLeaderLoss s
  | .beatInPulse widthNs offsetNs => Sys2Proof.Machine.execBeatInPulse widthNs offsetNs s
  | .pinHoldover missed periodErrPpm => Sys2Proof.Machine.execPinHoldover missed periodErrPpm s
  | .pinHoldoverExit => Sys2Proof.Machine.execPinHoldoverExit s
  | .sqDoorbell t q value => Sys2Proof.Machine.execSqDoorbell t q value s
  | .cqDoorbell t q value => Sys2Proof.Machine.execCqDoorbell t q value s
  | .qpEnable t q value => Sys2Proof.Machine.execQpEnable t q value s
  | .qpDisable t q value => Sys2Proof.Machine.execQpDisable t q value s
  | .advEnable t value => Sys2Proof.Machine.execAdvEnable t value s
  | .advDisable t value => Sys2Proof.Machine.execAdvDisable t value s
  | .advHeadWrite t value => Sys2Proof.Machine.execAdvHeadWrite t value s
  | .beatRead r => Sys2Proof.Machine.execBeatRead r s
  | .registerWrite f reg width value => Sys2Proof.Machine.execRegisterWrite f reg width value s
  | .flr t => Sys2Proof.Machine.execFlr t s
  | .busMasterEnable t on => Sys2Proof.Machine.execBusMasterEnable t on s
  | .msixUnmask t v => Sys2Proof.Machine.execMsixUnmask t v s
  | .dmaCompletion target r => Sys2Proof.Machine.execDmaCompletion target r s
  | .completionTimeout target => Sys2Proof.Machine.execCompletionTimeout target s
  | .perstAssert p => Sys2Proof.Machine.execPerstAssert p s
  | .perstRelease p => Sys2Proof.Machine.execPerstRelease p s
  | .portLinkDown p => Sys2Proof.Machine.execPortLinkDown p s
  | .configRetry r => Sys2Proof.Machine.execConfigRetry r s
  | .rekeyDue t session => Sys2Proof.Machine.execRekeyDue t session s
  | .sessionExhausted t session => Sys2Proof.Machine.execSessionExhausted t session s
  | .bounceTagFailureLimit t session => Sys2Proof.Machine.execBounceTagFailureLimit t session s
  | .doeDiscovery f index => Sys2Proof.Machine.execDoeDiscovery f index s
  | .getVersion f => Sys2Proof.Machine.execGetVersion f s
  | .getCapabilities f => Sys2Proof.Machine.execGetCapabilities f s
  | .negotiateAlgorithms f offer => Sys2Proof.Machine.execNegotiateAlgorithms f offer s
  | .getDigests f => Sys2Proof.Machine.execGetDigests f s
  | .getCertificate f slot offset length => Sys2Proof.Machine.execGetCertificate f slot offset length s
  | .challenge f slot nonce => Sys2Proof.Machine.execChallenge f slot nonce s
  | .getMeasurements f index nonce => Sys2Proof.Machine.execGetMeasurements f index nonce s
  | .keyExchange f summaryType reqSessionId exchangeData => Sys2Proof.Machine.execKeyExchange f summaryType reqSessionId exchangeData s
  | .finish f session verifyOk => Sys2Proof.Machine.execFinish f session verifyOk s
  | .keyUpdate f session => Sys2Proof.Machine.execKeyUpdate f session s
  | .endSession f session => Sys2Proof.Machine.execEndSession f session s
  | .spdmUnsupported f code => Sys2Proof.Machine.execSpdmUnsupported f code s
  | .nop uid => Sys2Proof.Machine.execNop uid s
  | .ledgerRead uid => Sys2Proof.Machine.execLedgerRead uid s
  | .changeSubmit uid => Sys2Proof.Machine.execChangeSubmit uid s
  | .changeStatus uid => Sys2Proof.Machine.execChangeStatus uid s
  | .tallyRead uid => Sys2Proof.Machine.execTallyRead uid s
  | .reportGet uid => Sys2Proof.Machine.execReportGet uid s
  | .bistRun uid => Sys2Proof.Machine.execBistRun uid s
  | .bistComplete u code r => Sys2Proof.Machine.execBistComplete u code r s
  | .keyLoad uid => Sys2Proof.Machine.execKeyLoad uid s
  | .keyUnload uid => Sys2Proof.Machine.execKeyUnload uid s
  | .keyReplace uid => Sys2Proof.Machine.execKeyReplace uid s
  | .keyReplaceCommit j => Sys2Proof.Machine.execKeyReplaceCommit j s
  | .keyJournalIdle j => Sys2Proof.Machine.execKeyJournalIdle j s
  | .parentInvalidate uid => Sys2Proof.Machine.execParentInvalidate uid s
  | .copy uid => Sys2Proof.Machine.execCopy uid s
  | .modelLoad uid => Sys2Proof.Machine.execModelLoad uid s
  | .microprogLoad uid => Sys2Proof.Machine.execMicroprogLoad uid s
  | .submitGraph t q => Sys2Proof.Machine.execSubmitGraph t q s
  | .bounceSetup uid => Sys2Proof.Machine.execBounceSetup uid s
  | .roundOpen uid => Sys2Proof.Machine.execRoundOpen uid s
  | .roundOpened t round => Sys2Proof.Machine.execRoundOpened t round s
  | .contribSubmit uid => Sys2Proof.Machine.execContribSubmit uid s
  | .recordArrival t round slot => Sys2Proof.Machine.execRecordArrival t round slot s
  | .foldComplete t round slot => Sys2Proof.Machine.execFoldComplete t round slot s
  | .stageTimeout t round slot => Sys2Proof.Machine.execStageTimeout t round slot s
  | .recordIntakeResume t => Sys2Proof.Machine.execRecordIntakeResume t s
  | .sharesSubmit uid => Sys2Proof.Machine.execSharesSubmit uid s
  | .shareEntry t round => Sys2Proof.Machine.execShareEntry t round s
  | .rebuildComplete => Sys2Proof.Machine.execRebuildComplete s
  | .kaeJobComplete t job => Sys2Proof.Machine.execKaeJobComplete t job s
  | .maskCorrectionDone t round corr => Sys2Proof.Machine.execMaskCorrectionDone t round corr s
  | .roundClose uid => Sys2Proof.Machine.execRoundClose uid s
  | .close t round => Sys2Proof.Machine.execClose t round s
  | .roundLeaveClosed t round => Sys2Proof.Machine.execRoundLeaveClosed t round s
  | .roundRelease t round => Sys2Proof.Machine.execRoundRelease t round s
  | .unmaskTimeout t round => Sys2Proof.Machine.execUnmaskTimeout t round s
  | .roundAbort uid => Sys2Proof.Machine.execRoundAbort uid s
  | .roundRegionScrubbed t round => Sys2Proof.Machine.execRoundRegionScrubbed t round s
  | .roundStatus uid => Sys2Proof.Machine.execRoundStatus uid s
  | .certRead uid => Sys2Proof.Machine.execCertRead uid s
  | .combineAttach uid => Sys2Proof.Machine.execCombineAttach uid s
  | .combineConfirm t round member planDigest descDigest => Sys2Proof.Machine.execCombineConfirm t round member planDigest descDigest s
  | .combineAttachTimeout uid => Sys2Proof.Machine.execCombineAttachTimeout uid s
  | .leaderCloseMessage t round => Sys2Proof.Machine.execLeaderCloseMessage t round s
  | .combineData t round member bitmap image => Sys2Proof.Machine.execCombineData t round member bitmap image s
  | .memberMissing t round member => Sys2Proof.Machine.execMemberMissing t round member s
  | .memberOrphanAbort t round => Sys2Proof.Machine.execMemberOrphanAbort t round s
  | .leaderAbortMessage t round => Sys2Proof.Machine.execLeaderAbortMessage t round s
  | .memoryRequest g tile => Sys2Proof.Machine.execMemoryRequest g tile s
  | .reelCommand g tile => Sys2Proof.Machine.execReelCommand g tile s
  | .atomicRequest g tile => Sys2Proof.Machine.execAtomicRequest g tile s
  | .patrolScrub st c offset outcome => Sys2Proof.Machine.execPatrolScrub st c offset outcome s
  | .targetedRefresh st c row activations => Sys2Proof.Machine.execTargetedRefresh st c row activations s
  | .cxlMemAccess p t offset req => Sys2Proof.Machine.execCxlMemAccess p t offset req s
  | .cxlSnoop p line => Sys2Proof.Machine.execCxlSnoop p line s
  | .linkSignalDetect n => Sys2Proof.Machine.execLinkSignalDetect n s
  | .linkTrained n => Sys2Proof.Machine.execLinkTrained n s
  | .trainingTimeout n => Sys2Proof.Machine.execTrainingTimeout n s
  | .trainingRetry n => Sys2Proof.Machine.execTrainingRetry n s
  | .helloReceived n flit => Sys2Proof.Machine.execHelloReceived n flit s
  | .helloTimeout n => Sys2Proof.Machine.execHelloTimeout n s
  | .fecLockLoss n => Sys2Proof.Machine.execFecLockLoss n s
  | .drainTimeout n => Sys2Proof.Machine.execDrainTimeout n s
  | .dataFlit n flit => Sys2Proof.Machine.execDataFlit n flit s
  | .nakReceived n flit => Sys2Proof.Machine.execNakReceived n flit s
  | .replayTimeout n => Sys2Proof.Machine.execReplayTimeout n s
  | .ackDeadline n => Sys2Proof.Machine.execAckDeadline n s
  | .linkTagFailureLimit n => Sys2Proof.Machine.execLinkTagFailureLimit n s
  | .remoteWrite n => Sys2Proof.Machine.execRemoteWrite n s
  | .remoteAtomic n => Sys2Proof.Machine.execRemoteAtomic n s
  | .remoteRead n => Sys2Proof.Machine.execRemoteRead n s
  | .readData n => Sys2Proof.Machine.execReadData n s
  | .done n => Sys2Proof.Machine.execDone n s
  | .refused n => Sys2Proof.Machine.execRefused n s
  | .messageForward n => Sys2Proof.Machine.execMessageForward n s
  | .remoteResponseTimeout tag => Sys2Proof.Machine.execRemoteResponseTimeout tag s
  | .linkKeyAgreement n p => Sys2Proof.Machine.execLinkKeyAgreement n p s
  | .linkKeyReplace n => Sys2Proof.Machine.execLinkKeyReplace n s
  | .linkSessionRenew n p => Sys2Proof.Machine.execLinkSessionRenew n p s
  | .laneFault n lane => Sys2Proof.Machine.execLaneFault n lane s
  | .routeUpdate => Sys2Proof.Machine.execRouteUpdate s
  | .recordPart n frame fcsOk => Sys2Proof.Machine.execRecordPart n frame fcsOk s
  | .tileFault tile => Sys2Proof.Machine.execTileFault tile s
  | .sparePlaced quadrant => Sys2Proof.Machine.execSparePlaced quadrant s
  | .channelRetire st c => Sys2Proof.Machine.execChannelRetire st c s
  | .channelCopyDone st c => Sys2Proof.Machine.execChannelCopyDone st c s
  | .channelLost st c => Sys2Proof.Machine.execChannelLost st c s
  | .reelUnitFault st c => Sys2Proof.Machine.execReelUnitFault st c s
  | .basinLaneFault j => Sys2Proof.Machine.execBasinLaneFault j s
  | .kaeCoreFault core => Sys2Proof.Machine.execKaeCoreFault core s
  | .fieldUnitFault => Sys2Proof.Machine.execFieldUnitFault s
  | .controlCoreFault core => Sys2Proof.Machine.execControlCoreFault core s
  | .firmwareFault => Sys2Proof.Machine.execFirmwareFault s
  | .firmwareRestart => Sys2Proof.Machine.execFirmwareRestart s
  | .fatalFault => Sys2Proof.Machine.execFatalFault s
  | .errorRateRetire u count => Sys2Proof.Machine.execErrorRateRetire u count s
  | .sysReset => Sys2Proof.Machine.execSysReset s
  | .sysResetRelease => Sys2Proof.Machine.execSysResetRelease s
  | .firstBeat => Sys2Proof.Machine.execFirstBeat s
  | .brownOut => Sys2Proof.Machine.execBrownOut s
  | .sysClkStop => Sys2Proof.Machine.execSysClkStop s
  | .refclkStop p => Sys2Proof.Machine.execRefclkStop p s
  | .spwRefclkStop k => Sys2Proof.Machine.execSpwRefclkStop k s
  | .thermtrip tj => Sys2Proof.Machine.execThermtrip tj s
  | .tamper c => Sys2Proof.Machine.execTamper c s
  | .batteryAbsent vbatMv => Sys2Proof.Machine.execBatteryAbsent vbatMv s
  | .batteryRestored vbatMv => Sys2Proof.Machine.execBatteryRestored vbatMv s
  | .tallyCheckpointAuto => Sys2Proof.Machine.execTallyCheckpointAuto s
  | .checkpointSigned => Sys2Proof.Machine.execCheckpointSigned s
  | .testPortInstruction inp => Sys2Proof.Machine.execTestPortInstruction inp s
  | .tlsHandshake anchorSlot clientKey paramsOk => Sys2Proof.Machine.execTlsHandshake anchorSlot clientKey paramsOk s
  | .getNonce req => Sys2Proof.Machine.execGetNonce req s
  | .telemetryRead req items => Sys2Proof.Machine.execTelemetryRead req items s
  | .gmpChangeSubmit req force set => Sys2Proof.Machine.execGmpChangeSubmit req force set s
  | .gmpChangeStatus req changeId => Sys2Proof.Machine.execGmpChangeStatus req changeId s
  | .governorSet req b => Sys2Proof.Machine.execGovernorSet req b s
  | .gmpBistRun req u code => Sys2Proof.Machine.execGmpBistRun req u code s
  | .unitRetire req u => Sys2Proof.Machine.execUnitRetire req u s
  | .linkReenable req n => Sys2Proof.Machine.execLinkReenable req n s
  | .timingSet req mode domain deviceNo priority => Sys2Proof.Machine.execTimingSet req mode domain deviceNo priority s
  | .portSet req x8 assign => Sys2Proof.Machine.execPortSet req x8 assign s
  | .linkSet req items => Sys2Proof.Machine.execLinkSet req items s
  | .networkSet req b => Sys2Proof.Machine.execNetworkSet req b s
  | .gmpLedgerRead req t sel max => Sys2Proof.Machine.execGmpLedgerRead req t sel max s
  | .gmpTallyRead req first count => Sys2Proof.Machine.execGmpTallyRead req first count s
  | .tallyAck req seq => Sys2Proof.Machine.execTallyAck req seq s
  | .checkpoint req => Sys2Proof.Machine.execCheckpoint req s
  | .trustAdd req keyDigest roles => Sys2Proof.Machine.execTrustAdd req keyDigest roles s
  | .trustRemove req slot => Sys2Proof.Machine.execTrustRemove req slot s
  | .floorSet req t floor => Sys2Proof.Machine.execFloorSet req t floor s
  | .authoritySet req t keys => Sys2Proof.Machine.execAuthoritySet req t keys s
  | .tagKeySet req t ephemeral nonce ciphertext tag => Sys2Proof.Machine.execTagKeySet req t ephemeral nonce ciphertext tag s
  | .parentAssign req entry t => Sys2Proof.Machine.execParentAssign req entry t s
  | .parentFree req entry => Sys2Proof.Machine.execParentFree req entry s
  | .rootBlobCreate req entry usage label => Sys2Proof.Machine.execRootBlobCreate req entry usage label s
  | .debugSet req sw => Sys2Proof.Machine.execDebugSet req sw s
  | .lifecycleSet req target => Sys2Proof.Machine.execLifecycleSet req target s
  | .reprovision req => Sys2Proof.Machine.execReprovision req s
  | .tamperArm req n => Sys2Proof.Machine.execTamperArm req n s
  | .fwStage req image => Sys2Proof.Machine.execFwStage req image s
  | .fwActivate req kernel firmware drainBars => Sys2Proof.Machine.execFwActivate req kernel firmware drainBars s
  | .firmwareDrainEnd => Sys2Proof.Machine.execFirmwareDrainEnd s
  | .fwStatus req => Sys2Proof.Machine.execFwStatus req s
  | .queryDeviceIdentifiers => Sys2Proof.Machine.execQueryDeviceIdentifiers s
  | .getFirmwareParameters => Sys2Proof.Machine.execGetFirmwareParameters s
  | .requestUpdate => Sys2Proof.Machine.execRequestUpdate s
  | .passComponentTable components => Sys2Proof.Machine.execPassComponentTable components s
  | .updateComponent component image => Sys2Proof.Machine.execUpdateComponent component image s
  | .activateFirmware => Sys2Proof.Machine.execActivateFirmware s
  | .getStatus => Sys2Proof.Machine.execGetStatus s
  | .cancelUpdateComponent => Sys2Proof.Machine.execCancelUpdateComponent s
  | .cancelUpdate => Sys2Proof.Machine.execCancelUpdate s
  | .getSensorReading sensor => Sys2Proof.Machine.execGetSensorReading sensor s
  | .getStateSensorReadings sensor => Sys2Proof.Machine.execGetStateSensorReadings sensor s
  | .operatorDrain n complete => Sys2Proof.Machine.execOperatorDrain n complete s
  | .idleFlit n flit => Sys2Proof.Machine.execIdleFlit n flit s
  | .leaderReleaseMessage t round => Sys2Proof.Machine.execLeaderReleaseMessage t round s
  | .tlsSessionEnd session => Sys2Proof.Machine.execTlsSessionEnd session s
  | .debugReadRequest req kind r offset => Sys2Proof.Machine.execDebugReadRequest req kind r offset s
  | .portLinkReturn l => Sys2Proof.Machine.execPortLinkReturn l s
  | .hkdfComplete t job => Sys2Proof.Machine.execHkdfComplete t job s
  | .mainPowerApplied => Sys2Proof.Machine.execMainPowerApplied s
  | .mainPowerRemoved => Sys2Proof.Machine.execMainPowerRemoved s
  | .batteryRetentionLost => Sys2Proof.Machine.execBatteryRetentionLost s

end Sys2Proof.Machine
end

