-- ==== Sys2Proof/Safety.lean ====
section
/-! DEFINITION. What holds of every state that a run can reach, in the terms that statements use: every table of the device has
its full number of entries, and memory is in its canonical form. -/

namespace Sys2Proof.Machine

/-- A Tarn function has its 64 queue pairs and 64 MSI-X vectors (R64, R96). -/
abbrev FnShaped (f : FnRegs) : Prop := f.qps.length = 64 ∧ f.msix.length = 64

/-- Every table of fixed size is whole: 8 Tarn functions (R383), 8 Tarn indices and map entries (R426, R431), 16 tile-group slots
(R110), the status lists of the resources of Table 10-1, 12 links (R335) and their measured delays (R368), 512 key slots (R468), the BBRAM's 1,024 parents and 16
journal entries (Table 11-2), 32 anchors (R614), 8 stacks with 256 channels (R196). -/
structure Shaped (s : State) : Prop where
  fns : s.fns.length = 8
  fn : ∀ f ∈ s.fns, FnShaped f
  tarns : s.tarns.length = 8
  entries : s.map.entries.length = 8
  figs : s.figs.length = 16
  tgStat : s.tgStat.length = 16
  laneStat : s.laneStat.length = 16
  kaeStat : s.kaeStat.length = 8
  linkStat : s.linkStat.length = 12
  memStat : s.memStat.length = 256
  recStat : s.recStat.length = 16
  links : s.links.length = 12
  keys : s.keys.length = 512
  replaces : s.replaces.length = 16
  journal : s.bbram.journal.length = 16
  parents : s.bbram.parents.length = 1024
  anchors : s.fuses.anchors.length = 32
  dram : s.dram.length = 8
  chans : s.units.chans.length = 256
  spares : s.units.spares.length = 4
  delays : s.timing.linkDelay.length = 12

/-- What every step keeps: the shape of the tables, and the canonical form of memory. -/
def Good (s : State) : Prop := Shaped s ∧ memWf s.mem = true

/-- Bytes of a ticket may be written to host memory now: the function issues requests (R391), and a confidential Tarn's session still carries as
many records (R405, R415). -/
def HostWritable (s : State) (k : Ticket) (bs : Bytes) : Prop :=
  issues (fnOf s k.tarn) = true ∧ (isConf s k.tarn = true →
    ∃ x, ticketSession s k = some x ∧ sessionSpent x = false ∧ x.d2hNext + (chunks recPayload bs).length ≤ 2 ^ 32)

/-- A ticket is in the table with an outcome that the coming seam will commit. -/
def EndsWith (s : State) (uid : Nat) (st : Status) (r0 r1 : Nat) : Prop :=
  ∃ k, ticketOf s uid = some k ∧
    k.final = some { status := st, result0 := BitVec.ofNat 32 r0, result1 := BitVec.ofNat 64 r1 }

/-- A management request that the shared checks let go on (R617 to R621): `signed` and `onBoard` are those of Table 14-2, and `reads` holds of the
reads that a FATAL device still serves (R588). -/
def GmpOk (s : State) (r : GmpReq) (role : BitVec 4) (signed onBoard reads : Bool) : Prop :=
  gmpServed s reads = true ∧ chanOpen s r.channel = true ∧ gmpVerdict s r role signed onBoard = .ok

/-- The one thing sent between two states is the answer to a management request. -/
def Answered (s s' : State) (r : GmpReq) (st : Status) (body : Bytes) : Prop :=
  s'.outbox = s.outbox ++ [.gmp r.channel r.requestId st body]

end Sys2Proof.Machine
end

