-- ==== Sys2Proof/Certificates/Slice0/Obligations.lean ====
section
/-! DEFINITION. The statements about the GZ8 that are to be proved: each is one `def Obligations.<Name> : Prop`. -/

open Sys2Proof Sys2Proof.Machine

/-- For every command c, every state s and every queue `rest`: a step of s with c in front of `rest` is exec of c on s with the
queue `rest`; with an empty queue the block idles (the model's choice, log 1). -/
def Obligations.StepRunsFrontCommand : Prop :=
  (∀ (c : Instr) (rest : List Instr) (s : State), step { s with pending := c :: rest } = exec c { s with pending := rest }) ∧
  ∀ s : State, s.pending = [] → step s = .next s

/-- For every state and every value written, SQ_DOORBELL and CQ_DOORBELL of a queue pair whose ENABLE is 0 answer the same
state. -/
def Obligations.DoorbellWhileDisabledIgnored : Prop :=
  ∀ (s : State) (t : TarnIx) (q : QpIx) (v : BitVec 32), (qpOf s t q).enable = false →
    exec (.sqDoorbell t q v) s = .next s ∧ exec (.cqDoorbell t q v) s = .next s

/-- On a device that runs beats, with the Tarn's function in D0. For an enabled queue pair of a live Tarn: a tail within D of
the head is taken, and one beyond it sets ERROR with CAUSE 1 (the first cause stays) and moves no index; a completion head not
beyond CQ_TAIL is taken, and one beyond it sets ERROR with CAUSE 4 and moves no index. QP_ENABLE of an inactive queue pair: with
DEPTH_LOG2 and QCLASS in range it resets the four indices and ERROR and enables; with a value out of range ENABLE stays 0, CAUSE
is 5 and no index moves. QP_ENABLE of a disabled queue pair that still has entries to post changes nothing, and of an enabled
one moves no index and keeps its depth. QP_DISABLE clears ENABLE and keeps the indices and the entries still to post. -/
def Obligations.QueuePairControlActs : Prop :=
  ∀ (s : State) (t : TarnIx) (q : QpIx) (v : BitVec 32), Shaped s → s.board.running = true → (fnOf s t).d3hot = false →
    (live s t = true → (qpOf s t q).enable = true →
      (ringDist (qpOf s t q).sqHead (v.setWidth 16) ≤ qpDepth (qpOf s t q) →
        ∃ s', exec (.sqDoorbell t q v) s = .next s' ∧ (qpOf s' t q).sqTail = v.setWidth 16 ∧
          (qpOf s' t q).sqHead = (qpOf s t q).sqHead ∧ (qpOf s' t q).error = (qpOf s t q).error) ∧
      (qpDepth (qpOf s t q) < ringDist (qpOf s t q).sqHead (v.setWidth 16) →
        ∃ s', exec (.sqDoorbell t q v) s = .next s' ∧ (qpOf s' t q).error = true ∧
          (qpOf s' t q).cause = (if (qpOf s t q).error then (qpOf s t q).cause else 1) ∧
          (qpOf s' t q).sqTail = (qpOf s t q).sqTail ∧ (qpOf s' t q).sqHead = (qpOf s t q).sqHead) ∧
      (ringDist (qpOf s t q).cqHead (v.setWidth 16) ≤ ringDist (qpOf s t q).cqHead (qpOf s t q).cqTail →
        ∃ s', exec (.cqDoorbell t q v) s = .next s' ∧ (qpOf s' t q).cqHead = v.setWidth 16 ∧
          (qpOf s' t q).error = (qpOf s t q).error) ∧
      (ringDist (qpOf s t q).cqHead (qpOf s t q).cqTail < ringDist (qpOf s t q).cqHead (v.setWidth 16) →
        ∃ s', exec (.cqDoorbell t q v) s = .next s' ∧ (qpOf s' t q).error = true ∧
          (qpOf s' t q).cause = (if (qpOf s t q).error then (qpOf s t q).cause else 4) ∧
          (qpOf s' t q).cqHead = (qpOf s t q).cqHead ∧ (qpOf s' t q).cqTail = (qpOf s t q).cqTail)) ∧
    (qpActive (qpOf s t q) = false →
      (6 ≤ v.toNat % 16 → v.toNat % 16 ≤ 12 → (v.toNat / 32 % 4 = 1 ∨ v.toNat / 32 % 4 = 2) →
        ∃ s', exec (.qpEnable t q v) s = .next s' ∧ (qpOf s' t q).enable = true ∧ (qpOf s' t q).error = false ∧
          (qpOf s' t q).cause = 0 ∧ (qpOf s' t q).sqHead = 0 ∧ (qpOf s' t q).sqTail = 0 ∧ (qpOf s' t q).cqHead = 0 ∧
          (qpOf s' t q).cqTail = 0 ∧ (qpOf s' t q).depthLog2 = v.setWidth 4) ∧
      (v.toNat % 16 < 6 ∨ 12 < v.toNat % 16 ∨ v.toNat / 32 % 4 = 0 ∨ v.toNat / 32 % 4 = 3 →
        ∃ s', exec (.qpEnable t q v) s = .next s' ∧ (qpOf s' t q).enable = false ∧ (qpOf s' t q).error = true ∧
          (qpOf s' t q).cause = (if (qpOf s t q).error then (qpOf s t q).cause else 5) ∧
          (qpOf s' t q).sqHead = (qpOf s t q).sqHead ∧ (qpOf s' t q).sqTail = (qpOf s t q).sqTail ∧
          (qpOf s' t q).cqHead = (qpOf s t q).cqHead ∧ (qpOf s' t q).cqTail = (qpOf s t q).cqTail)) ∧
    (qpActive (qpOf s t q) = true → (qpOf s t q).enable = false → exec (.qpEnable t q v) s = .next s) ∧
    ((qpOf s t q).enable = true → ∃ s', exec (.qpEnable t q v) s = .next s' ∧ (qpOf s' t q).enable = true ∧
      (qpOf s' t q).depthLog2 = (qpOf s t q).depthLog2 ∧ (qpOf s' t q).sqHead = (qpOf s t q).sqHead ∧
      (qpOf s' t q).sqTail = (qpOf s t q).sqTail ∧ (qpOf s' t q).cqHead = (qpOf s t q).cqHead ∧
      (qpOf s' t q).cqTail = (qpOf s t q).cqTail) ∧
    ∃ s', exec (.qpDisable t q v) s = .next s' ∧ (qpOf s' t q).enable = false ∧ (qpOf s' t q).order = (qpOf s t q).order ∧
      (qpOf s' t q).sqHead = (qpOf s t q).sqHead ∧ (qpOf s' t q).sqTail = (qpOf s t q).sqTail ∧
      (qpOf s' t q).cqHead = (qpOf s t q).cqHead ∧ (qpOf s' t q).cqTail = (qpOf s t q).cqTail

/-- On a device that runs beats, with the Tarn's function in D0: ADV_ENABLE enables and, from 0, resets ADV_TAIL, the head and
ADV_LOST; ADV_DISABLE disables and keeps the tail; ADV_HEAD moves only to at most 256 behind ADV_TAIL and not beyond it; a
32-bit read of BEAT answers its lower half and latches the upper, which a 32-bit read of its upper half then answers (the live
one before a latch), and a 64-bit read answers the live counter; a read of an offset that Table 02-1 does not list, or that fits
no register, answers zero; a write of ADV_MASK is taken, ADV_SUMMARY bits written 1 are cleared, and a write to an offset that
Table 02-1 does not list changes nothing; error status bits written 1 are cleared, and the power state is written; unmasking a
vector, or setting Bus Master Enable, sends every message that then may go, so none that may stays pending. -/
def Obligations.TarnRegistersAct : Prop :=
  ∀ (s : State) (t : TarnIx) (v : BitVec 32) (w : BitVec 64) (x : Fin 64), Shaped s → s.board.running = true →
    (fnOf s t).d3hot = false →
    (∃ s', exec (.advEnable t v) s = .next s' ∧ (fnOf s' t).advEnable = true ∧
      ((fnOf s t).advEnable = false → (fnOf s' t).advTail = 0 ∧ (fnOf s' t).advHead = 0 ∧ (fnOf s' t).advLost = 0) ∧
      ((fnOf s t).advEnable = true → (fnOf s' t).advTail = (fnOf s t).advTail ∧ (fnOf s' t).advHead = (fnOf s t).advHead)) ∧
    (∃ s', exec (.advDisable t v) s = .next s' ∧ (fnOf s' t).advEnable = false ∧ (fnOf s' t).advTail = (fnOf s t).advTail) ∧
    (ringDist (v.setWidth 16) (fnOf s t).advTail ≤ 256 →
      ∃ s', exec (.advHeadWrite t v) s = .next s' ∧ (fnOf s' t).advHead = v.setWidth 16) ∧
    (256 < ringDist (v.setWidth 16) (fnOf s t).advTail →
      ∃ s', exec (.advHeadWrite t v) s = .next s' ∧ (fnOf s' t).advHead = (fnOf s t).advHead) ∧
    (∃ s', exec (.beatRead ⟨t, 0x10, 4⟩) s = .next s' ∧ s'.outbox = s.outbox ++ [.readData t (s.beat % 2 ^ 32)] ∧
      (fnOf s' t).beatLatch = some (BitVec.ofNat 32 (s.beat / 2 ^ 32))) ∧
    (∀ l, (fnOf s t).beatLatch = some l → exec (.beatRead ⟨t, 0x14, 4⟩) s = .next (emit s (.readData t l.toNat))) ∧
    ((fnOf s t).beatLatch = none → exec (.beatRead ⟨t, 0x14, 4⟩) s = .next (emit s (.readData t (s.beat / 2 ^ 32 % 2 ^ 32)))) ∧
    exec (.beatRead ⟨t, 0x10, 8⟩) s = .next (emit s (.readData t (s.beat % 2 ^ 64))) ∧
    (∀ (o : BitVec 19) (n : Nat), (0x3008 ≤ o.toNat ∨ (n ≠ 4 ∧ n ≠ 8) ∨ o.toNat % n ≠ 0) →
      exec (.beatRead ⟨t, o, n⟩) s = .next (emit s (.readData t 0))) ∧
    (∃ s', exec (.registerWrite (.tarn t) (.bar0 0x1C) 4 w) s = .next s' ∧ (fnOf s' t).advMask = w.setWidth 6) ∧
    (∃ s', exec (.registerWrite (.tarn t) (.bar0 0x18) 4 w) s = .next s' ∧
      (fnOf s' t).advSummary = (fnOf s t).advSummary &&& ~~~ w.setWidth 6) ∧
    (∀ (o : BitVec 19) (n : Nat), 0x2400 ≤ o.toNat → o.toNat < 0x40000 →
      exec (.registerWrite (.tarn t) (.bar0 o) n w) s = .next s) ∧
    (∃ s', exec (.registerWrite (.tarn t) (.config .errorStatus) 4 w) s = .next s' ∧
      (fnOf s' t).aer = (fnOf s t).aer &&& ~~~ w.setWidth 32) ∧
    (w.toNat % 4 = 3 → ∃ s', exec (.registerWrite (.tarn t) (.config .powerState) 4 w) s = .next s' ∧ (fnOf s' t).d3hot = true) ∧
    (∃ s', exec (.msixUnmask t x) s = .next s' ∧ ((fnOf s' t).msix.getD x {}).mask = false ∧
      ((fnOf s t).busMaster = true → (fnOf s' t).msixPending.getLsbD x = false)) ∧
    (∃ s', exec (.busMasterEnable t false) s = .next s' ∧ (fnOf s' t).busMaster = false) ∧
    ∃ s', exec (.busMasterEnable t true) s = .next s' ∧ (fnOf s' t).busMaster = true ∧
      (((fnOf s t).msix.getD x {}).mask = false → (fnOf s' t).msixPending.getLsbD x = false)

/-- Each of the eleven register commands of a Tarn function, of its BAR0 for REGISTER_WRITE, answers, in every state, a state
that differs from the first at most in the functions' registers and in what has been sent; every other function keeps its
registers, and the four queue-pair commands keep every other queue pair of the function. While the function is in D3hot, or
before the first beat, the ten of them that address BAR0 change nothing (D3hot: the model's choice, log 92; before the first
beat: log 3). A write to configuration space changes at most the registers of the function it names, that function's tickets and
the Tally when it leaves D3hot, and a port's state. -/
def Obligations.RegisterCommandsTouchOneFunction : Prop :=
  (∀ (s : State) (t : TarnIx) (q : QpIx) (v : BitVec 32) (w : BitVec 64) (o : BitVec 19) (n : Nat) (x : Fin 64) (b : Bool)
    (c : Instr),
    (c = .sqDoorbell t q v ∨ c = .cqDoorbell t q v ∨ c = .qpEnable t q v ∨ c = .qpDisable t q v ∨ c = .advEnable t v ∨
      c = .advDisable t v ∨ c = .advHeadWrite t v ∨ c = .beatRead ⟨t, o, n⟩ ∨ c = .registerWrite (.tarn t) (.bar0 o) n w ∨
      c = .msixUnmask t x ∨ c = .busMasterEnable t b) →
    (∃ s', exec c s = .next s' ∧ s' = { s with fns := s'.fns, outbox := s'.outbox } ∧ (∀ u, u ≠ t → fnOf s' u = fnOf s u) ∧
      ((c = .sqDoorbell t q v ∨ c = .cqDoorbell t q v ∨ c = .qpEnable t q v ∨ c = .qpDisable t q v) →
        ∀ p, p ≠ q → qpOf s' t p = qpOf s t p)) ∧
    ((s.board.running = false ∨ (fnOf s t).d3hot = true) → c ≠ .busMasterEnable t b → exec c s = .next s)) ∧
  ∀ (s : State) (f : Func) (r : ConfigReg) (n : Nat) (w : BitVec 64),
    ∃ s', exec (.registerWrite f (.config r) n w) s = .next s' ∧
      s' = { s with fns := s'.fns, tickets := s'.tickets, tally := s'.tally,
                    board := { s.board with portA := s'.board.portA, portB := s'.board.portB,
                                            connA := s'.board.connA, connB := s'.board.connB } } ∧
      (∀ u, f ≠ .tarn u → fnOf s' u = fnOf s u) ∧
      (r ≠ .powerState → s'.tickets = s.tickets ∧ s'.tally = s.tally)

/-- On a running device. For a ticket with a host read outstanding: data for its buffer are appended to the buffer and change no
memory; data for device memory are written at the read's device range and change no other byte, and while a stack they touch is
in thermal hold they wait; Unsupported Request and Completer Abort end the ticket with NOT_PERMITTED, a poisoned answer with
DATA_LOST, and a read that has reached its completion timeout with TIMEOUT, each logged in AER. Submission entries that arrive
are kept in the ring's order up to SQ_TAIL; a ring read that fails, or reaches its completion timeout, sets ERROR with CAUSE 2
(the first cause stays). An answer or a timeout of no outstanding read, data of another length than was asked for (the model's
choice, log 5), or a timeout before its time, changes nothing. -/
def Obligations.HostReadAnswersAct : Prop :=
  ∀ (s : State), Good s → running s = true →
    (∀ (uid : Nat) (k : Ticket) (c : DmaChunk) (b : Nat), ticketOf s uid = some k → k.dma = some (c, b) →
      (∀ bs : Bytes, bs.length = c.len → c.dev = none →
        ∃ s' k', exec (.dmaCompletion (.ticket uid) (.data bs)) s = .next s' ∧ ticketOf s' uid = some k' ∧
          k'.buf = k.buf ++ bs ∧ s'.mem = s.mem ∧ s'.poison = s.poison) ∧
      (∀ (bs : Bytes) (d : Nat), bs.length = c.len → c.dev = some d → touchesHold s d bs.length = false →
        ∃ s', exec (.dmaCompletion (.ticket uid) (.data bs)) s = .next s' ∧ s'.mem = (devWrite s d bs).mem ∧
          ∀ key, (∀ i, i < bs.length → addrKey (d + i) ≠ some key) → cellGet s'.mem key = cellGet s.mem key) ∧
      (∀ (bs : Bytes) (d : Nat), bs.length = c.len → c.dev = some d → touchesHold s d bs.length = true →
        ∃ s' k', exec (.dmaCompletion (.ticket uid) (.data bs)) s = .next s' ∧ ticketOf s' uid = some k' ∧
          k'.parked = some (d, bs) ∧ k'.dma = none ∧ s'.mem = s.mem) ∧
      (∀ bs : Bytes, bs.length ≠ c.len → exec (.dmaCompletion (.ticket uid) (.data bs)) s = .next s) ∧
      (∀ r, (r = .unsupportedRequest ∨ r = .completerAbort ∨ r = .poisoned) →
        ∃ s' k', exec (.dmaCompletion (.ticket uid) r) s = .next s' ∧ ticketOf s' uid = some k' ∧ k'.dma = none ∧
          k'.faults = k.faults ++ [if r = .poisoned then .dataLost else .notPermitted] ∧
          (fnOf s' k.tarn).aer = (fnOf s k.tarn).aer ||| aerBit r) ∧
      (c.us + ctoUs (fnOf s k.tarn).ctoEnc ≤ s.timeUs + beatLen s →
        ∃ s' k', exec (.completionTimeout (.ticket uid)) s = .next s' ∧ ticketOf s' uid = some k' ∧ k'.dma = none ∧
          k'.faults = k.faults ++ [.timeout] ∧ (fnOf s' k.tarn).aer = (fnOf s k.tarn).aer ||| 0x4000) ∧
      (s.timeUs + beatLen s < c.us + ctoUs (fnOf s k.tarn).ctoEnc →
        exec (.completionTimeout (.ticket uid)) s = .next s)) ∧
    (∀ (uid : Nat) (r : DmaResult), (∀ k, ticketOf s uid = some k → k.dma = none) →
      exec (.dmaCompletion (.ticket uid) r) s = .next s ∧ exec (.completionTimeout (.ticket uid)) s = .next s) ∧
    ∀ (t : TarnIx) (q : QpIx),
      ((qpOf s t q).reading = 0 → (∀ r, exec (.dmaCompletion (.ring t q) r) s = .next s) ∧
        exec (.completionTimeout (.ring t q)) s = .next s) ∧
      ((qpOf s t q).reading ≠ 0 →
        (∀ bs : Bytes, bs.length = 64 * (qpOf s t q).reading →
          ∃ s', exec (.dmaCompletion (.ring t q) (.data bs)) s = .next s' ∧
            (qpOf s' t q).fetched = ((qpOf s t q).fetched ++ chunks 64 bs).take (ringDist (qpOf s t q).sqHead (qpOf s t q).sqTail) ∧
            (qpOf s' t q).sqHead = (qpOf s t q).sqHead ∧ (qpOf s' t q).error = (qpOf s t q).error) ∧
        (∀ bs : Bytes, bs.length ≠ 64 * (qpOf s t q).reading → exec (.dmaCompletion (.ring t q) (.data bs)) s = .next s) ∧
        (∀ r, (r = .unsupportedRequest ∨ r = .completerAbort ∨ r = .poisoned) →
          ∃ s', exec (.dmaCompletion (.ring t q) r) s = .next s' ∧ (qpOf s' t q).error = true ∧ (qpOf s' t q).reading = 0 ∧
            (qpOf s' t q).cause = (if (qpOf s t q).error then (qpOf s t q).cause else 2)) ∧
        ((qpOf s t q).readUs + ctoUs (fnOf s t).ctoEnc ≤ s.timeUs + beatLen s →
          ∃ s', exec (.completionTimeout (.ring t q)) s = .next s' ∧ (qpOf s' t q).error = true ∧ (qpOf s' t q).reading = 0 ∧
            (qpOf s' t q).cause = (if (qpOf s t q).error then (qpOf s t q).cause else 2)) ∧
        (s.timeUs + beatLen s < (qpOf s t q).readUs + ctoUs (fnOf s t).ctoEnc →
          exec (.completionTimeout (.ring t q)) s = .next s))

/-- Once beats run, FLR of a Tarn function puts every queue pair and MSI-X vector at its reset value, ends every session, clears
the bounce area and Bus Master Enable, brings the function to D0, gives every ticket of the Tarn whose record is neither
COMPLETE nor FAILED the fault ABORTED_BY_RECOVERY and no host read, and writes a Tally entry. The other functions, the Tarn's
memory, key slots, micro-programs, rounds and ledger, the partition map and the schedule table are unchanged. Leaving D3hot does
the same. Before the first beat FLR changes nothing. -/
def Obligations.FunctionResetLeavesTheTarn : Prop :=
  ∀ (s : State) (t : TarnIx), Shaped s →
    (s.board.running = false → exec (.flr t) s = .next s) ∧
    (s.board.running = true → ∃ s', exec (.flr t) s = .next s' ∧
      (∀ w : BitVec 64, (fnOf s t).d3hot = true → w.toNat % 4 = 0 →
        exec (.registerWrite (.tarn t) (.config .powerState) 4 w) s = .next s') ∧
      s' = { s with fns := s'.fns, tickets := s'.tickets, tally := s'.tally } ∧
      (∀ q, qpOf s' t q = {}) ∧ (∀ v : Fin 64, (fnOf s' t).msix.getD v {} = {}) ∧ (fnOf s' t).sessions = [] ∧
      (fnOf s' t).bounce = none ∧ (fnOf s' t).busMaster = false ∧ (fnOf s' t).advEnable = false ∧ (fnOf s' t).d3hot = false ∧
      (∀ u, u ≠ t → fnOf s' u = fnOf s u) ∧ s.tally.next < s'.tally.next ∧
      s'.tickets = s.tickets.map (fun k => if k.tarn = t ∧ k.ledger.state ≠ .complete ∧ k.ledger.state ≠ .failed then
        { k with faults := k.faults ++ [.abortedByRecovery], need := [], dma := none, dirty := true } else k))

/-- For a session of a Tarn's function: at 2^32 − 2^20 records a REKEY_DUE advisory of a live Tarn is queued and will not be
queued again; once SEQ 0xFFFF_FFFF is used the session is marked exhausted and no ticket that needs its records runs on; at
sixteen tag failures in a bar the session is gone, its bounce area with it, no ticket that needs its records runs on, and a
Tally entry is written. Below its limit, and for an ID of no session, each of the three changes nothing. -/
def Obligations.SessionLimitsAct : Prop :=
  ∀ (s : State) (t : TarnIx) (id : BitVec 32), Shaped s →
    (sessionOf s t id = none → exec (.rekeyDue t id) s = .next s ∧ exec (.sessionExhausted t id) s = .next s ∧
      exec (.bounceTagFailureLimit t id) s = .next s) ∧
    ∀ x : Session, sessionOf s t id = some x →
    (live s t = true → rekeyReached x = true → x.rekeyPosted = false →
      ∃ s' x', exec (.rekeyDue t id) s = .next s' ∧ sessionOf s' t id = some x' ∧ x'.rekeyPosted = true ∧
        ∃ a, (fnOf s' t).advisories = (fnOf s t).advisories ++ [a] ∧ a.kind = 4 ∧ a.status = .rekeyDue ∧ a.result0 = id) ∧
    ((rekeyReached x = false ∨ x.rekeyPosted = true) → exec (.rekeyDue t id) s = .next s) ∧
    (sessionSpent x = true →
      ∃ s' x', exec (.sessionExhausted t id) s = .next s' ∧ sessionOf s' t id = some x' ∧ x'.exhausted = true ∧
        ∀ k ∈ s'.tickets, k.tarn = t → (∃ b, k.bounce = some b ∧ b.session = id) → movesHostData k = true →
          ticketRuns k = false) ∧
    (sessionSpent x = false → exec (.sessionExhausted t id) s = .next s) ∧
    (16 ≤ x.tagFails →
      ∃ s', exec (.bounceTagFailureLimit t id) s = .next s' ∧ sessionOf s' t id = none ∧
        (∀ b, (fnOf s' t).bounce = some b → b.session ≠ id) ∧ s.tally.next < s'.tally.next ∧
        ∀ k ∈ s'.tickets, k.tarn = t → (∃ b, k.bounce = some b ∧ b.session = id) → movesHostData k = true →
          ticketRuns k = false) ∧
    (x.tagFails < 16 → exec (.bounceTagFailureLimit t id) s = .next s)

/-- On a running device whose firmware serves, at function 0 of a port or at the function of a live Tarn: DOE Discovery answers
the three protocols; GET_VERSION starts the negotiation; GET_CAPABILITIES and NEGOTIATE_ALGORITHMS complete it in order when
every category offers the GZ8's choice, an offer without is UnsupportedRequest, and a request out of order is UnexpectedRequest;
then the digest of slot 0, a part of its chain, a signed challenge answer and signed measurement blocks are sent, and another
slot or block is InvalidRequest; any other request code is UnsupportedRequest. Every SPDM request at the function of a Tarn
index without a Tarn is answered with ERROR, code UnexpectedRequest, and changes nothing else. While the device does not run, or
its firmware does not serve, the thirteen requests change nothing. -/
def Obligations.SpdmRequestsAnswer : Prop :=
  (∀ (s : State) (f : Func), Shaped s → doeReach s = true → funcLive s f = true →
    (∀ i, ∃ s' b, exec (.doeDiscovery f i) s = .next s' ∧ s'.outbox = s.outbox ++ [.doe f b] ∧
      (i = 0 → b = [1, 0, 0, 1]) ∧ (i = 1 → b = [1, 0, 1, 2]) ∧ (i = 2 → b = [1, 0, 2, 0]) ∧ (2 < i → b = [0xFF, 0xFF, 0xFF, 0])) ∧
    (∃ s' b, exec (.getVersion f) s = .next s' ∧ s'.outbox = s.outbox ++ [.doe f b] ∧ connOf s' f = { version := true } ∧
      b.drop 6 = [0x00, 0x13]) ∧
    ((connOf s f).version = true →
      ∃ s' b, exec (.getCapabilities f) s = .next s' ∧ s'.outbox = s.outbox ++ [.doe f b] ∧ (connOf s' f).caps = true ∧
        byteAt b 5 = 16 ∧ field b 8 4 = capFlags s f) ∧
    ((connOf s f).version = false → exec (.getCapabilities f) s = .next (spdmError s f 0x04)) ∧
    (∀ o : AlgOffer,
      ((connOf s f).caps = false → exec (.negotiateAlgorithms f o) s = .next (spdmError s f 0x04)) ∧
      ((connOf s f).caps = true → offerOk o = true →
        ∃ s' b, exec (.negotiateAlgorithms f o) s = .next s' ∧ s'.outbox = s.outbox ++ [.doe f b] ∧
          byteAt b 1 = 0x63 ∧ (connOf s' f).algs = true) ∧
      ((connOf s f).caps = true → offerOk o = false → exec (.negotiateAlgorithms f o) s = .next (spdmError s f 0x07))) ∧
    ((connOf s f).algs = true →
      exec (.getDigests f) s = .next (emit s (.doe f (spdmMsg 0x01 0 1 (sha384 (spdmChain s f))))) ∧
      (∀ o n, o < (spdmChain s f).length → ∃ s' b, exec (.getCertificate f 0 o n) s = .next s' ∧
        s'.outbox = s.outbox ++ [.doe f b] ∧ byteAt b 1 = 0x02 ∧ b.drop 8 = slice (spdmChain s f) o n) ∧
      (∀ m o n, (m ≠ 0 ∨ (spdmChain s f).length ≤ o) → exec (.getCertificate f m o n) s = .next (spdmError s f 0x01)) ∧
      (∀ n, ∃ s' b g, exec (.challenge f 0 n) s = .next s' ∧ s'.outbox = s.outbox ++ [.doe f b] ∧ byteAt b 1 = 0x03 ∧
        b = spdmMsg 0x03 0 1 (sha384 (spdmChain s f) ++ g)) ∧
      (∀ m n, m ≠ 0 → exec (.challenge f m n) s = .next (spdmError s f 0x01)) ∧
      (∀ i n, i ∈ [0, 1, 2, 3, 4, 5, 6, 0x10, 0xFF] → ∃ s' b, exec (.getMeasurements f i n) s = .next s' ∧
        s'.outbox = s.outbox ++ [.doe f b] ∧ byteAt b 1 = 0x60 ∧
        byteAt b 4 = (if i = 0 then 0 else if i = 0xFF then 7 else 1)) ∧
      ∀ i n, i ∉ [0, 1, 2, 3, 4, 5, 6, 0x10, 0xFF] → exec (.getMeasurements f i n) s = .next (spdmError s f 0x01)) ∧
    ((connOf s f).algs = false → ∀ m o n b, exec (.getDigests f) s = .next (spdmError s f 0x04) ∧
      exec (.getCertificate f m o n) s = .next (spdmError s f 0x04) ∧ exec (.challenge f m b) s = .next (spdmError s f 0x04) ∧
      exec (.getMeasurements f m b) s = .next (spdmError s f 0x04)) ∧
    ∀ y, exec (.spdmUnsupported f y) s = .next (emit s (.doe f (spdmMsg 0x7F 7 y.toNat [])))) ∧
  (∀ (s : State) (t : TarnIx) (o : AlgOffer) (n m k : Nat) (b d : Bytes) (y : BitVec 8) (r : BitVec 16) (id : BitVec 32) (ok : Bool)
    (c : Instr), doeReach s = true → live s t = false →
    (c = .getVersion (.tarn t) ∨ c = .getCapabilities (.tarn t) ∨ c = .negotiateAlgorithms (.tarn t) o ∨ c = .getDigests (.tarn t) ∨
      c = .getCertificate (.tarn t) n m k ∨ c = .challenge (.tarn t) n b ∨ c = .getMeasurements (.tarn t) n b ∨
      c = .keyExchange (.tarn t) y r d ∨ c = .finish (.tarn t) id ok ∨ c = .keyUpdate (.tarn t) id ∨ c = .endSession (.tarn t) id ∨
      c = .spdmUnsupported (.tarn t) y) →
    exec c s = .next { s with outbox := s.outbox ++ [.doe (.tarn t) [0x13, 0x7F, 0x04, 0x00]] }) ∧
  ∀ (s : State) (f : Func) (o : AlgOffer) (n m k : Nat) (b d : Bytes) (y : BitVec 8) (r : BitVec 16) (id : BitVec 32) (ok : Bool)
    (c : Instr), doeReach s = false →
    (c = .doeDiscovery f n ∨ c = .getVersion f ∨ c = .getCapabilities f ∨ c = .negotiateAlgorithms f o ∨ c = .getDigests f ∨
      c = .getCertificate f n m k ∨ c = .challenge f n b ∨ c = .getMeasurements f n b ∨ c = .keyExchange f y r d ∨
      c = .finish f id ok ∨ c = .keyUpdate f id ∨ c = .endSession f id ∨ c = .spdmUnsupported f y) → exec c s = .next s

/-- On a running device whose firmware serves, at the function of a live confidential Tarn whose negotiation is done:
KEY_EXCHANGE with summary type 0 or 0xFF, a point of the curve and an identifier half that no session has adds a session that is
not established below two established sessions (another one not established goes); at two established sessions it answers
SessionLimitExceeded; a summary type or a point that is wrong is InvalidRequest. FINISH that verifies establishes a session and
writes a Tally entry, one that does not verify drops it; KEY_UPDATE changes the secured-message secrets and neither the exported
secret that bounce keys come from nor the record counts; END_SESSION removes the session. An identifier of no session is
answered with ERROR. On any other function the four are UnsupportedRequest. -/
def Obligations.SpdmSessionsAct : Prop :=
  (∀ (s : State) (t : TarnIx), Shaped s → doeReach s = true → isConf s t = true →
    (∀ (y : BitVec 8) (r : BitVec 16) (d : Bytes),
      ((connOf s (.tarn t)).algs = false → exec (.keyExchange (.tarn t) y r d) s = .next (spdmError s (.tarn t) 0x04)) ∧
      ((connOf s (.tarn t)).algs = true → (y = 0 ∨ y = 0xFF) →
        ((unSec1 p384 (leBytes 1 4 ++ d)).isSome = true → establishedCount s t < 2 →
          (∀ x ∈ (fnOf s t).sessions, x.id.setWidth 16 ≠ r) →
          ∃ s' x, exec (.keyExchange (.tarn t) y r d) s = .next s' ∧
            (fnOf s' t).sessions = (fnOf s t).sessions.filter (·.established) ++ [x] ∧ x.established = false ∧
            x.id.setWidth 16 = r) ∧
        (2 ≤ establishedCount s t → exec (.keyExchange (.tarn t) y r d) s = .next (spdmError s (.tarn t) 0x0A)) ∧
        ((unSec1 p384 (leBytes 1 4 ++ d)).isSome = false → establishedCount s t < 2 →
          exec (.keyExchange (.tarn t) y r d) s = .next (spdmError s (.tarn t) 0x01))) ∧
      ((connOf s (.tarn t)).algs = true → y ≠ 0 → y ≠ 0xFF →
        exec (.keyExchange (.tarn t) y r d) s = .next (spdmError s (.tarn t) 0x01))) ∧
    (∀ (id : BitVec 32) (x : Session), sessionOf s t id = some x →
      (x.established = false → establishedCount s t < 2 →
        (∃ s' x', exec (.finish (.tarn t) id true) s = .next s' ∧ sessionOf s' t id = some x' ∧ x'.established = true ∧
          s.tally.next < s'.tally.next) ∧
        ∃ s', exec (.finish (.tarn t) id false) s = .next s' ∧ sessionOf s' t id = none) ∧
      (x.established = false → 2 ≤ establishedCount s t → ∀ ok,
        exec (.finish (.tarn t) id ok) s = .next (spdmError s (.tarn t) 0x0A)) ∧
      (x.established = false → exec (.keyUpdate (.tarn t) id) s = .next (spdmError s (.tarn t) 0x04) ∧
        exec (.endSession (.tarn t) id) s = .next (spdmError s (.tarn t) 0x04)) ∧
      (x.established = true →
        (∀ ok, exec (.finish (.tarn t) id ok) s = .next (spdmError s (.tarn t) 0x04)) ∧
        (∃ s' x', exec (.keyUpdate (.tarn t) id) s = .next s' ∧ sessionOf s' t id = some x' ∧
          x' = { x with reqSecret := spdmNext x.reqSecret, rspSecret := spdmNext x.rspSecret }) ∧
        ∃ s', exec (.endSession (.tarn t) id) s = .next s' ∧ sessionOf s' t id = none ∧ s.tally.next < s'.tally.next ∧
          ∀ k ∈ s'.tickets, k.tarn = t → (∃ b, k.bounce = some b ∧ b.session = id) → movesHostData k = true →
            ticketRuns k = false)) ∧
    ∀ id : BitVec 32, sessionOf s t id = none → ∀ ok, exec (.finish (.tarn t) id ok) s = .next (spdmError s (.tarn t) 0x02) ∧
      exec (.keyUpdate (.tarn t) id) s = .next (spdmError s (.tarn t) 0x02) ∧
      exec (.endSession (.tarn t) id) s = .next (spdmError s (.tarn t) 0x02)) ∧
  ∀ (s : State) (f : Func) (y : BitVec 8) (r : BitVec 16) (d : Bytes) (id : BitVec 32) (ok : Bool) (c : Instr),
    doeReach s = true → funcLive s f = true → confTarn s f = none →
    (c = .keyExchange f y r d ∨ c = .finish f id ok ∨ c = .keyUpdate f id ∨ c = .endSession f id) →
    exec c s = .next (spdmError s f 0x07)

/-- Every DOE or SPDM request answers, in every state, a state that differs from the first at most in the functions' session and
negotiation fields, port negotiation fields, tickets that a session end touches, the Tally, what has been sent and the counter of free values; no queue pair and no MSI-X
vector changes. -/
def Obligations.SpdmCommandsFrame : Prop :=
  ∀ (s : State) (f : Func) (o : AlgOffer) (n m k : Nat) (b d : Bytes) (y : BitVec 8) (r : BitVec 16) (id : BitVec 32) (ok : Bool)
    (c : Instr),
    (c = .doeDiscovery f n ∨ c = .getVersion f ∨ c = .getCapabilities f ∨ c = .negotiateAlgorithms f o ∨ c = .getDigests f ∨
      c = .getCertificate f n m k ∨ c = .challenge f n b ∨ c = .getMeasurements f n b ∨ c = .keyExchange f y r d ∨
      c = .finish f id ok ∨ c = .keyUpdate f id ∨ c = .endSession f id ∨ c = .spdmUnsupported f y) →
    ∃ s', exec c s = .next s' ∧
      s' = { s with fns := s'.fns, outbox := s'.outbox, tickets := s'.tickets, tally := s'.tally, freeCtr := s'.freeCtr,
                    board := { s.board with connA := s'.board.connA, connB := s'.board.connB } } ∧
      ∀ t, (fnOf s' t) = { fnOf s t with sessions := (fnOf s' t).sessions, bounce := (fnOf s' t).bounce, conn := (fnOf s' t).conn }

/-- For a ticket that may be served: NOP ends with zero results. LEDGER_READ, TALLY_READ and REPORT_GET, when the answer may be
written to the host, end with the number of records, or bytes, written: OK where the whole answer fits, PARTIAL where only
leading whole records fit; a function that may not issue requests gives a non-empty answer the fault NOT_PERMITTED, and a nonce
that cannot be had gives REPORT_GET its status. BOUNCE_SETUP ends with OK for an established session of a confidential Tarn and
with NOT_PERMITTED in every other case. On a standard Tarn that may issue requests, LEDGER_READ and TALLY_READ send exactly the
leading whole records that fit, at the buffer's address, with relaxed ordering. A Tarn reads its own and device-wide Tally
entries whole, and another Tarn's with KIND 0xFFFF, STATUS 0 and the entry's hash and 8 zero bytes as payload. -/
def Obligations.ReadCommandsAnswer : Prop :=
  (∀ (s : State) (uid : Nat) (k : Ticket), Shaped s →
    (servable s uid 0x00 = some k → ∃ s', exec (.nop uid) s = .next s' ∧ EndsWith s' uid .ok 0 0) ∧
    (servable s uid 0x01 = some k →
      let l := selectLedger s k.tarn (ledgerSel k)
      let out := fitUnits (bufCapacity s k (opW k 3)) 64 l
      (HostWritable s k out.flatten → ∃ s', exec (.ledgerRead uid) s = .next s' ∧
        EndsWith s' uid (if out.length < l.length then .partialRead else .ok) out.length 0) ∧
      (issues (fnOf s k.tarn) = false → out.flatten ≠ [] → ∃ s' k', exec (.ledgerRead uid) s = .next s' ∧
        ticketOf s' uid = some k' ∧ k'.faults = k.faults ++ [.notPermitted] ∧ s'.outbox = s.outbox)) ∧
    (servable s uid 0x04 = some k →
      let l := (tallyRange s.tally (opW k 0) (opW k 1)).map (tallyFor k.tarn)
      let out := fitUnits (bufCapacity s k (opW k 3)) 128 l
      (HostWritable s k out.flatten → ∃ s', exec (.tallyRead uid) s = .next s' ∧
        EndsWith s' uid (if out.length < l.length then .partialRead else .ok) out.length (tallyReadable s.tally - 1)) ∧
      (issues (fnOf s k.tarn) = false → out.flatten ≠ [] → ∃ s' k', exec (.tallyRead uid) s = .next s' ∧
        ticketOf s' uid = some k' ∧ k'.faults = k.faults ++ [.notPermitted] ∧ s'.outbox = s.outbox)) ∧
    (servable s uid 0x05 = some k →
      (∀ nonce s1, plainOf s k 0 32 k.buf = (.ok nonce, s1) →
        HostWritable s1 k (report s1 (some k.tarn) nonce).1 → ∃ s', exec (.reportGet uid) s = .next s' ∧
          EndsWith s' uid .ok (report s1 (some k.tarn) nonce).1.length 0) ∧
      ∀ st s1, plainOf s k 0 32 k.buf = (.error st, s1) → ∃ s' k', exec (.reportGet uid) s = .next s' ∧
        ticketOf s' uid = some k' ∧ k'.faults = k.faults ++ [st]) ∧
    (servable s uid 0x14 = some k →
      let good := isConf s k.tarn = true ∧ opW k 2 < 2 ^ 32 ∧
        ∃ x, sessionOf s k.tarn (BitVec.ofNat 32 (opW k 2)) = some x ∧ x.established = true
      (good → ∃ s', exec (.bounceSetup uid) s = .next s' ∧ EndsWith s' uid .ok 0 0) ∧
      (¬ good → ∃ s', exec (.bounceSetup uid) s = .next s' ∧ EndsWith s' uid .notPermitted 0 0))) ∧
  (∀ (s : State) (uid : Nat) (k : Ticket), isConf s k.tarn = false → issues (fnOf s k.tarn) = true →
    (servable s uid 0x01 = some k → ∃ s', exec (.ledgerRead uid) s = .next s' ∧
      let out := (fitUnits (opW k 3) 64 (selectLedger s k.tarn (ledgerSel k))).flatten
      s'.outbox = s.outbox ++ if out = [] then [] else [.hostWrite k.tarn (opW k 2) out true (viaCache s k.tarn)]) ∧
    (servable s uid 0x04 = some k → ∃ s', exec (.tallyRead uid) s = .next s' ∧
      let out := (fitUnits (opW k 3) 128 ((tallyRange s.tally (opW k 0) (opW k 1)).map (tallyFor k.tarn))).flatten
      s'.outbox = s.outbox ++ if out = [] then [] else [.hostWrite k.tarn (opW k 2) out true (viaCache s k.tarn)])) ∧
  ∀ (t : TarnIx) (e : TallyEntry),
    ((e.tarn = t.val ∨ e.tarn = 0xFF) → tallyFor t e = tallyBytes e) ∧
    (e.tarn ≠ t.val → e.tarn ≠ 0xFF → field (tallyFor t e) 0x10 2 = 0xFFFF ∧ byteAt (tallyFor t e) 0x14 = 0 ∧
      (tallyFor t e).drop 24 = sha384 (tallyBytes e) ++ zeros 8 ++ e.prev)

/-- For a ticket that may be served when its turn among the Tarn's key commands has come: KEY_LOAD of a blob that passes the
checks puts the key in the lowest EMPTY slot, usable from the next beat, and ends with OK and the slot's number, or with
NOT_PERMITTED where no slot is EMPTY, and a blob that fails a check ends it with that check's status; with the root lost
KEY_LOAD, KEY_REPLACE and PARENT_INVALIDATE end with ROOT_LOST; KEY_UNLOAD of a held slot asks for the revocation at the coming
seam, and ends with NOT_PERMITTED for a slot the Tarn does not hold; KEY_REPLACE whose new blob passes keeps the slot's key and
writes a PREPARED journal entry with the new key beside it, one whose blob fails ends with the check's status, and one of a slot
that is not the Tarn's or not LOADED with NOT_PERMITTED; PARENT_INVALIDATE of an entry that passes R486 asks for the raised
generation, and otherwise ends with the status of R486. While an earlier key command of the Tarn is not handled, each of the
four waits. -/
def Obligations.KeyCommandsAct : Prop :=
  ∀ (s : State) (uid : Nat) (k : Ticket), Shaped s →
    (keyTurn s k = false → (servable s uid 0x08 = some k → exec (.keyLoad uid) s = .next s) ∧
      (servable s uid 0x09 = some k → exec (.keyUnload uid) s = .next s) ∧
      (servable s uid 0x0A = some k → exec (.keyReplace uid) s = .next s) ∧
      (servable s uid 0x0B = some k → exec (.parentInvalidate uid) s = .next s)) ∧
    (keyTurn s k = true →
    (servable s uid 0x08 = some k →
      (rootOk s = false → ∃ s', exec (.keyLoad uid) s = .next s' ∧ EndsWith s' uid .rootLost 0 0) ∧
      (rootOk s = true → ∀ raw s1, plainOf s k 0 112 k.buf = (.ok raw, s1) →
        (∀ st, checkBlob s1 k.tarn raw false (fun _ => true) = .error st →
          ∃ s', exec (.keyLoad uid) s = .next s' ∧ EndsWith s' uid st 0 0 ∧ s'.keys = s.keys) ∧
        ∀ key, checkBlob s1 k.tarn raw false (fun _ => true) = .ok key →
          (∀ i, (upto 480).find? (fun i => (slotOf s1 (i + 1)).state == .empty) = some i →
            ∃ s', exec (.keyLoad uid) s = .next s' ∧ EndsWith s' uid .ok (i + 1) 0 ∧
              slotOf s' (i + 1) = { key with readyFrom := s.beat + 1 } ∧ ∀ j, j ≠ i + 1 → slotOf s' j = slotOf s j) ∧
          ((upto 480).find? (fun i => (slotOf s1 (i + 1)).state == .empty) = none →
            ∃ s', exec (.keyLoad uid) s = .next s' ∧ EndsWith s' uid .notPermitted 0 0 ∧ s'.keys = s.keys))) ∧
    (servable s uid 0x09 = some k → k.stage = 0 → slotPending s (opW k 0) = false →
      (slotHeld s k.tarn (opW k 0) = true → ∃ s', exec (.keyUnload uid) s = .next s' ∧ s'.keys = s.keys ∧
        s'.pendRules = s.pendRules ++ [.unload uid k.tarn (opW k 0)]) ∧
      (slotHeld s k.tarn (opW k 0) = false → ∃ s', exec (.keyUnload uid) s = .next s' ∧ EndsWith s' uid .notPermitted 0 0)) ∧
    (servable s uid 0x0A = some k → k.stage = 0 → replaceTurn s k = true → replaceRunning s k (opW k 0) = false →
      (rootOk s = false → ∃ s', exec (.keyReplace uid) s = .next s' ∧ EndsWith s' uid .rootLost 0 0) ∧
      (rootOk s = true → (slotHeld s k.tarn (opW k 0) = false ∨ (slotOf s (opW k 0)).state ≠ .loaded) →
        ∃ s', exec (.keyReplace uid) s = .next s' ∧ EndsWith s' uid .notPermitted 0 0 ∧ s'.bbram = s.bbram) ∧
      (rootOk s = true → slotHeld s k.tarn (opW k 0) = true → (slotOf s (opW k 0)).state = .loaded → ∀ raw s1 j,
        (upto 16).find? (fun j => (s.bbram.journal.getD j {}).jstate == 0 && (s.replaces.getD j none).isNone) = some j →
        plainOf s k 1 112 k.buf = (.ok raw, s1) →
        let same := fun (b : Blob) => b.usage == (slotOf s (opW k 0)).usage && b.owner == k.tarn.val &&
          b.recordId == (slotOf s (opW k 0)).recordId && ((slotOf s (opW k 0)).recordId == 0 ||
            !(parentOf s1 (slotOf s (opW k 0)).recordId).kcvSet ||
            (parentOf s1 (slotOf s (opW k 0)).recordId).kcvLow == kcvLow (slotOf s (opW k 0)).kcv)
        (∀ st, checkBlob s1 k.tarn raw true same = .error st →
          ∃ s', exec (.keyReplace uid) s = .next s' ∧ EndsWith s' uid st 0 0 ∧ s'.bbram = s.bbram) ∧
        ∀ key, checkBlob s1 k.tarn raw true same = .ok key →
          ∃ s' e, exec (.keyReplace uid) s = .next s' ∧ s'.keys = s.keys ∧ s'.bbram.journal.getD j {} = e ∧ e.jstate = 1 ∧
            e.slot = BitVec.ofNat 9 (opW k 0) ∧ e.newKcv = kcvLow key.kcv ∧
            s'.replaces.getD j none = some { uid := uid, key := key, old := slotOf s (opW k 0) })) ∧
    (servable s uid 0x0B = some k → k.stage = 0 →
      (rootOk s = false → ∃ s', exec (.parentInvalidate uid) s = .next s' ∧ EndsWith s' uid .rootLost 0 0) ∧
      (rootOk s = true → ∀ st, parentCheck s k.tarn (opW k 0) = some st →
        ∃ s', exec (.parentInvalidate uid) s = .next s' ∧ EndsWith s' uid st 0 0) ∧
      (rootOk s = true → parentCheck s k.tarn (opW k 0) = none →
        ∃ s', exec (.parentInvalidate uid) s = .next s' ∧ s'.bbram = s.bbram ∧
          s'.pendRules = s.pendRules ++ [.invalidate uid k.tarn (opW k 0)])))

/-- On a running device, for journal entry j with a pending replacement: KEY_REPLACE_COMMIT of a PREPARED entry whose command
has ended sets it IDLE and keeps every slot and the parent table; while the command still runs, a new key whose parent still
stands writes COMMITTED, puts the new key in the slot the entry names, usable from the next beat, and records its check value; a
parent that has moved on sets the entry IDLE, keeps every slot, and ends the command with KEY_ORPHANED; an entry that is not
PREPARED is left as it is. KEY_JOURNAL_IDLE, after the commit's beat and when no operation uses the old key, sets the entry IDLE
and drops the pending slot; before that it changes nothing. With no pending replacement both change nothing. -/
def Obligations.KeyReplacementCommitsInOrder : Prop :=
  ∀ (s : State) (j : Fin 16), Shaped s → running s = true →
    (s.replaces.getD j none = none → exec (.keyReplaceCommit j) s = .next s ∧ exec (.keyJournalIdle j) s = .next s) ∧
    ∀ r : Replace, s.replaces.getD j none = some r →
    let e := s.bbram.journal.getD j {}
    (e.jstate ≠ 1 → exec (.keyReplaceCommit j) s = .next s) ∧
    ((∀ k, ticketOf s r.uid = some k → ticketRuns k = false) → e.jstate = 1 →
      ∃ s', exec (.keyReplaceCommit j) s = .next s' ∧ s'.bbram.journal.getD j {} = {} ∧ s'.keys = s.keys ∧
        s'.bbram.parents = s.bbram.parents ∧ s'.replaces.getD j none = none) ∧
    ((∃ k, ticketOf s r.uid = some k ∧ ticketRuns k = true) → e.jstate = 1 → (r.key.parentKind ≠ 1 ∨ ((parentOf s r.key.parentId).state ≠ 2 ∧
        (parentOf s r.key.parentId).gen.toNat = r.key.parentGen)) →
      ∃ s', exec (.keyReplaceCommit j) s = .next s' ∧ (s'.bbram.journal.getD j {}).jstate = 2 ∧
        slotOf s' e.slot.toNat = { r.key with readyFrom := s.beat + 1 } ∧
        (∀ i, i ≠ e.slot.toNat → slotOf s' i = slotOf s i) ∧
        (r.key.recordId ≠ 0 → r.key.recordId < 1024 → (parentOf s' r.key.recordId).kcvLow = e.newKcv) ∧
        s'.replaces.getD j none = some { r with commitBeat := some s.beat }) ∧
    ((∃ k, ticketOf s r.uid = some k ∧ ticketRuns k = true) → e.jstate = 1 → r.key.parentKind = 1 → ((parentOf s r.key.parentId).state = 2 ∨
        (parentOf s r.key.parentId).gen.toNat ≠ r.key.parentGen) →
      ∃ s', exec (.keyReplaceCommit j) s = .next s' ∧ s'.bbram.journal.getD j {} = {} ∧ s'.keys = s.keys ∧
        s'.replaces.getD j none = none ∧
        EndsWith s' r.uid .keyOrphaned 0 0) ∧
    (∀ c, r.commitBeat = some c → c < s.beat → keyBusy s e.slot.toNat r.old.material c = false →
      ∃ s', exec (.keyJournalIdle j) s = .next s' ∧ s'.bbram.journal.getD j {} = {} ∧ s'.replaces.getD j none = none ∧
        s'.keys = s.keys) ∧
    ((r.commitBeat = none ∨ ∃ c, r.commitBeat = some c ∧ (s.beat ≤ c ∨ keyBusy s e.slot.toNat r.old.material c = true)) →
      exec (.keyJournalIdle j) s = .next s)

/-- In every state the six key commands answer a state that differs from the first at most in tickets, sessions, key slots, the
parent table and journal, the requests for the coming seam, the Tally and pending replacements. The root secret, its check, LC_MIRROR and the tamper
record in BBRAM stay. In every state NOP, LEDGER_READ, TALLY_READ, REPORT_GET and BOUNCE_SETUP answer a state that differs from the first at most in
tickets, in the functions' sessions, in what has been sent and in the counter of free values; no queue pair changes. -/
def Obligations.ReadAndKeyCommandsFrame : Prop :=
  (∀ (s : State) (uid : Nat) (j : Fin 16) (c : Instr),
    (c = .keyLoad uid ∨ c = .keyUnload uid ∨ c = .keyReplace uid ∨ c = .keyReplaceCommit j ∨ c = .keyJournalIdle j ∨
      c = .parentInvalidate uid) →
    ∃ s', exec c s = .next s' ∧
      s' = { s with tickets := s'.tickets, fns := s'.fns, keys := s'.keys, pendRules := s'.pendRules, tally := s'.tally,
                    replaces := s'.replaces,
                    bbram := { s.bbram with journal := s'.bbram.journal, parents := s'.bbram.parents } } ∧
      ∀ t, fnOf s' t = { fnOf s t with sessions := (fnOf s' t).sessions }) ∧
  (∀ (s : State) (uid : Nat) (c : Instr),
    (c = .nop uid ∨ c = .ledgerRead uid ∨ c = .tallyRead uid ∨ c = .reportGet uid ∨ c = .bounceSetup uid) →
    ∃ s', exec c s = .next s' ∧
      s' = { s with tickets := s'.tickets, fns := s'.fns, outbox := s'.outbox, freeCtr := s'.freeCtr } ∧
      ∀ t, fnOf s' t = { fnOf s t with sessions := (fnOf s' t).sessions })

/-- For a COPY ticket that may be served with its reads done: length 0 ends with OK and 0. With no stack that it touches in
thermal hold: without a key slot, from device to host it sends the source's bytes, from device to device it writes them to the
destination (a source that fails its check, or holds a poisoned word, ends the ticket with that status, DATA_LOST for poison,
and so does a destination that fails its check), and from host on a standard Tarn it ends with OK, the data having gone to the
device as they arrived. With an ENCRYPT slot, from device to device, the package of R528 and R529 under a salt drawn for it is
written and the ticket ends with its length; with a DECRYPT slot, from device to device, a package that verifies is written as
plaintext and the ticket ends with its length, and one whose tag fails ends it with NOT_PERMITTED. While a stack is in thermal
hold the ticket waits. -/
def Obligations.CopyMovesBytes : Prop :=
  ∀ (s : State) (uid : Nat) (k : Ticket), Shaped s → servable s uid 0x10 = some k →
    (opW k 2 = 0 → ∃ s', exec (.copy uid) s = .next s' ∧ EndsWith s' uid .ok 0 0) ∧
    (opW k 2 ≠ 0 → copyHeld s k = true → exec (.copy uid) s = .next s) ∧
    (opW k 2 ≠ 0 → copyHeld s k = false → k.parked = none → bits (opW k 3) 10 2 = 0 →
      (bit (opW k 3) 0 = false → ∀ st, copySource s k (opW k 2) = .error st →
        ∃ s' k', exec (.copy uid) s = .next s' ∧ ticketOf s' uid = some k' ∧ k'.faults = k.faults ++ [st] ∧ s'.mem = s.mem) ∧
      (bit (opW k 3) 0 = false → ∀ bs, copySource s k (opW k 2) = .ok bs →
        (bit (opW k 3) 1 = true → HostWritable s k bs →
          ∃ s', exec (.copy uid) s = .next s' ∧ EndsWith s' uid .ok (opW k 2) 0 ∧ s'.mem = s.mem ∧
            (isConf s k.tarn = false → s'.outbox = s.outbox ++ [.hostWrite k.tarn (opW k 1) bs true (viaCache s k.tarn)])) ∧
        (bit (opW k 3) 1 = false → accessCheck s k.tarn (opW k 1) (opW k 2) = none →
          ∃ s', exec (.copy uid) s = .next s' ∧ EndsWith s' uid .ok (opW k 2) 0 ∧
            s'.mem = (devWrite s (opW k 1) bs).mem) ∧
        (bit (opW k 3) 1 = false → ∀ st, accessCheck s k.tarn (opW k 1) (opW k 2) = some st →
          ∃ s' k', exec (.copy uid) s = .next s' ∧ ticketOf s' uid = some k' ∧ k'.faults = k.faults ++ [st] ∧ s'.mem = s.mem)) ∧
      (bit (opW k 3) 0 = true → bit (opW k 3) 1 = false → isConf s k.tarn = false →
        ∃ s', exec (.copy uid) s = .next s' ∧ EndsWith s' uid .ok (opW k 2) 0)) ∧
    (opW k 2 ≠ 0 → copyHeld s k = false → k.parked = none → bits (opW k 3) 10 2 ≠ 0 → bit (opW k 3) 0 = false →
      bit (opW k 3) 1 = false → k.key = none →
      (bit (opW k 3) 11 = false → ∀ key bs, keyStart s k.tarn (bits (opW k 3) 10 2) 1 = .ok key →
        copySource s k (opW k 2) = .ok bs → accessCheck s k.tarn (opW k 1) (sealedLen (opW k 2)) = none →
        ∃ s', exec (.copy uid) s = .next s' ∧ EndsWith s' uid .ok (sealedLen (opW k 2)) 0 ∧
          s'.mem = (devWrite s (opW k 1) (sealPackage key.2.1 (drawEntropy s 32).1 bs)).mem) ∧
      (bit (opW k 3) 11 = true → ∀ key h pkg pt rest n bad, keyStart s k.tarn (bits (opW k 3) 10 2) 2 = .ok key →
        copySource s k 128 = .ok h → copyHeader k h key.2.1 = none → copySource s k (pkgLen (pkgOf h)) = .ok pkg →
        copyHeader k pkg key.2.1 = none → pkg.length = pkgLen (pkgOf pkg) →
        openChunks (pkgOf pkg) (chunkKey (pkgOf pkg) key.2.1) (cdiv (pkgOf pkg).plainLen (2 ^ (pkgOf pkg).log2)) 0 (pkg.drop 128) [] =
          (pt, rest, n, bad) →
        (bad = false → accessCheck s k.tarn (opW k 1) pt.length = none →
          ∃ s', exec (.copy uid) s = .next s' ∧ EndsWith s' uid .ok pt.length 0 ∧ s'.mem = (devWrite s (opW k 1) pt).mem) ∧
        (bad = true → ∃ s' k', exec (.copy uid) s = .next s' ∧ ticketOf s' uid = some k' ∧
          k'.faults = k.faults ++ [.notPermitted])))

/-- For a ticket that may be served: MICROPROG_LOAD of bytes that it may not read, or that hold poison, ends with that status,
DATA_LOST for poison; with no stack that they touch in thermal hold, bytes that may be read and hold no poison are kept for the
commit when every step is legal, and end it with BAD_COMMAND otherwise; while a stack is in thermal hold it waits. MODEL_LOAD on
a standard Tarn with its key in hand and the whole package arrived, whose header passes R530, whose destination is the Tarn's
and touches no stack in thermal hold, and all of whose chunks verify, ends with OK and PLAIN_LEN, writes the plaintext at OP2
and a MODEL event; a header that fails R530 item 1 ends it with BAD_COMMAND, and one with another check value, or a destination
that fails its check, with NOT_PERMITTED, and write no memory. -/
def Obligations.LoadsCheckThenAct : Prop :=
  ∀ (s : State) (uid : Nat) (k : Ticket), Shaped s →
    (servable s uid 0x12 = some k → k.stage = 0 →
      (∀ st, accessCheck s k.tarn (opW k 0) (opW k 1) = some st → ∃ s' k', exec (.microprogLoad uid) s = .next s' ∧
        ticketOf s' uid = some k' ∧ k'.faults = k.faults ++ [st]) ∧
      (accessCheck s k.tarn (opW k 0) (opW k 1) = none →
        (touchesHold s (opW k 0) (opW k 1) = true → exec (.microprogLoad uid) s = .next s) ∧
        (touchesHold s (opW k 0) (opW k 1) = false → poisoned s (opW k 0) (opW k 1) = true →
          ∃ s' k', exec (.microprogLoad uid) s = .next s' ∧ ticketOf s' uid = some k' ∧ k'.faults = k.faults ++ [.dataLost]) ∧
        (touchesHold s (opW k 0) (opW k 1) = false → poisoned s (opW k 0) (opW k 1) = false →
          ((microSteps (devRead s (opW k 0) (opW k 1))).all microStepOk = true →
            ∃ s' k', exec (.microprogLoad uid) s = .next s' ∧ ticketOf s' uid = some k' ∧ k'.stage = 1 ∧ k'.final = none ∧
              k'.plain = devRead s (opW k 0) (opW k 1)) ∧
          ((microSteps (devRead s (opW k 0) (opW k 1))).all microStepOk = false →
            ∃ s', exec (.microprogLoad uid) s = .next s' ∧ EndsWith s' uid .badCommand 0 0)))) ∧
    (servable s uid 0x11 = some k → isConf s k.tarn = false → k.stage = 0 → k.plain = [] → k.cursor = 0 → k.accepted = 0 →
      128 ≤ k.buf.length → ∀ key, k.key = some key →
      let p := pkgOf (k.buf.take 128)
      ((pkgFormOk (k.buf.take 128) = false ∨ opW k 1 ≠ pkgLen p) →
        ∃ s' k', exec (.modelLoad uid) s = .next s' ∧ ticketOf s' uid = some k' ∧ k'.faults = k.faults ++ [.badCommand] ∧
          s'.mem = s.mem) ∧
      (pkgFormOk (k.buf.take 128) = true → opW k 1 = pkgLen p →
        (p.kcv ≠ kcvOf 2 key.2.1 ∨ rangeCheck s k.tarn (opW k 2) p.plainLen ≠ none) →
        ∃ s' k', exec (.modelLoad uid) s = .next s' ∧ ticketOf s' uid = some k' ∧ k'.faults = k.faults ++ [.notPermitted] ∧
          s'.mem = s.mem) ∧
      ∀ pt, pkgFormOk (k.buf.take 128) = true → opW k 1 = pkgLen p → p.kcv = kcvOf 2 key.2.1 →
        rangeCheck s k.tarn (opW k 2) p.plainLen = none → touchesRetired s (opW k 2) p.plainLen = false →
        touchesHold s (opW k 2) p.plainLen = false →
        openChunks p (chunkKey p key.2.1) (cdiv p.plainLen (2 ^ p.log2) + 1) 0 (k.buf.drop 128) [] =
          (pt, [], cdiv p.plainLen (2 ^ p.log2), false) → pt.length = p.plainLen →
        ∃ s', exec (.modelLoad uid) s = .next s' ∧ EndsWith s' uid .ok p.plainLen 0 ∧
          s'.mem = (devWrite s (opW k 2) pt).mem ∧ s.tally.next < s'.tally.next)

/-- On a running device a seam either ends in FATAL or leaves a higher beat counter. Without a join waiting the counter goes up
by exactly one, and the bar position becomes 0 when the seam ends a bar and otherwise goes up by one. A join that waits takes
effect at the end of a bar: the next beat starts a bar, and its window is longer by the offset of the join. -/
def Obligations.SeamAdvancesTheBeat : Prop :=
  ∀ (s : State) (i : SeamIn), running s = true →
    ∃ s', exec (.seam i) s = .next s' ∧
      (s'.fatal = true ∨ (s.beat < s'.beat ∧
        (s.timing.join = none → s'.beat = s.beat + 1 ∧ s'.pos = if barEnd s then 0 else s.pos + 1) ∧
        ∀ off, s.timing.join = some off →
          if barEnd s then s'.pos = 0 ∧ s'.timing.join = none ∧ s'.timing.windowPs = 1000 * off
          else s'.beat = s.beat + 1 ∧ s'.pos = s.pos + 1 ∧ s'.timing.join = some off))

/-- On a running device: SPILL_STOP of a spill figure that has neither finished nor failed empties its slot, gives its ticket the fault OVERRUN and counts the
overrun in its record. With the firmware serving, THROTTLE_SET of a Tarn whose throttle is due throttles it, writes a Tally entry and queues an OVERRUN
advisory; THROTTLE_LIFT at a bar end, after a bar without an overrun that began after the throttle, lifts it. A slot whose figure is no spill, a Tarn not due and a bar with an
overrun are left as they are. -/
def Obligations.OverrunsAreStoppedAndThrottled : Prop :=
  ∀ (s : State), Shaped s → running s = true →
    (∀ (g : GroupIx) (f : FigRun), figOf s g = some f →
      (f.spilled = true → f.cycles = none → f.fault = none → ∀ k, ticketOf s f.uid = some k →
        ∃ s' k', exec (.spillStop g) s = .next s' ∧ figOf s' g = none ∧ ticketOf s' f.uid = some k' ∧
          k'.faults = k.faults ++ [.overrun] ∧ k'.ledger.overruns = min 65535 (k.ledger.overruns + 1) ∧
          k'.ledger.overrunSeen = true ∧ s.tally.next < s'.tally.next) ∧
      (f.spilled = false → exec (.spillStop g) s = .next s)) ∧
    (fwUp s = true → ∀ (t : TarnIx) (n : Tarn), tarnOf s t = some n →
      (n.throttled = false → n.throttleDue ≠ none → live s t = true →
        ∃ s' n' a, exec (.throttleSet t) s = .next s' ∧ tarnOf s' t = some n' ∧ n'.throttled = true ∧ n'.throttleBeat = s.beat ∧
          (fnOf s' t).advisories = (fnOf s t).advisories ++ [a] ∧ a.kind = 1 ∧ a.status = .overrun ∧ s.tally.next < s'.tally.next) ∧
      (n.throttleDue = none → exec (.throttleSet t) s = .next s) ∧
      (n.throttled = true → barEnd s = true → n.overThisBar = false → n.throttleBeat < s.bar.firstBeat →
        ∃ s' n', exec (.throttleLift t) s = .next s' ∧ tarnOf s' t = some n' ∧ n'.throttled = false ∧
          s.tally.next < s'.tally.next) ∧
      ((n.throttled = false ∨ barEnd s = false ∨ n.overThisBar = true) → exec (.throttleLift t) s = .next s))

/-- On a running device with the firmware serving: at a seam that ends a bar SCHEDULE_SWAP makes the shadow table active and writes a Tally entry; at
any other seam, or with no shadow table, it changes nothing. Nothing but the table, the shadow, the mark that step 6 is taken, and the Tally ever changes. -/
def Obligations.ScheduleSwapsAtBarEnd : Prop :=
  ∀ (s : State), ∃ s', exec .scheduleSwap s = .next s' ∧
    s' = { s with table := s'.table, shadow := s'.shadow, swapped := s'.swapped, tally := s'.tally } ∧
    (running s = true → fwUp s = true → ∀ tb, s.shadow = some tb → barEnd s = true →
      s'.table = tb ∧ s'.shadow = none ∧ barEnd s' = true ∧ s.tally.next < s'.tally.next) ∧
    ((s.shadow = none ∨ barEnd s = false) → s' = s)

/-- On a running device where a phase of a management set is due: if it passes its checks, the map gets the next generation and this beat as its
effective beat, every Tarn it creates lives from this beat, every Tarn it destroys is no longer live and holds nothing, every Tarn it keeps has its new resources and its old
creation beat, and every resource it takes is SCRUBBING; a phase with a table alone makes that table the shadow. If it fails, map, table, shadow and schedule stay and the set is FAILED
with that status. With no phase due nothing changes. -/
def Obligations.MapChangesApplyAsAWhole : Prop :=
  ∀ (s : State), Shaped s → running s = true →
    (∀ (c : ChangeSet) (ph : Phase) (m : PMap) (k : Instr), dueAt s s.beat (barEnd s) = some (c, ph) → c.mgmt = true →
      ph.map = some m → (k = .mapChangeApply ∨ k = .phaseApply) →
      (phaseCheck s c ph = none →
        ∃ s', exec k s = .next s' ∧ s'.map.gen = s.map.gen + 1 ∧ s'.map.effective = s.beat ∧
          (∀ t, t ∈ created s.map.entries m.entries → live s' t = true ∧ (entryOf s' t).createBeat = s.beat) ∧
          (∀ t, t ∈ destroyed s.map.entries m.entries → live s' t = false ∧ tarnOf s' t = none) ∧
          (∀ t, live s t = true → (m.entries.getD t {}).state = 1 →
            entryOf s' t = { m.entries.getD t {} with createBeat := (entryOf s t).createBeat }) ∧
          ∀ r, r ∈ takenRes s.map.entries m.entries → statOf s' r = .scrubbing) ∧
      (∀ st, phaseCheck s c ph = some st →
        ∃ s' c', exec k s = .next s' ∧ s'.map = s.map ∧ s'.table = s.table ∧ s'.shadow = s.shadow ∧ c' ∈ s'.sets ∧
          c'.id = c.id ∧ c'.state = .failed ∧ c'.status = st)) ∧
    (∀ (c : ChangeSet) (ph : Phase) (tb : SchedTable), dueAt s s.beat (barEnd s) = some (c, ph) → c.mgmt = true → ph.map = none →
      ph.table = some tb → tb ≠ s.table → phaseCheck s c ph = none →
      ∃ s', exec .phaseApply s = .next s' ∧ s'.shadow = some tb ∧ s'.map = s.map) ∧
    (dueAt s s.beat (barEnd s) = none → exec .mapChangeApply s = .next s ∧ exec .phaseApply s = .next s)

/-- On a running device: where a host set (its phase holds no map and no table) of an existing Tarn is due, HOST_SET_APPLY puts
each micro-program of the set in effect (the last for a number), makes every one of the 512 slots it names REVOKED, and the set
is applied at this beat; a set that no longer fits the step budget, or whose Tarn is gone, fails with NOT_PERMITTED and changes
no slot and no program; with no host set due it changes nothing. PHASE_TIMEOUT fails with TIMEOUT every set whose phase 2 has
not come within 256 bars, so that none is left, and keeps every set whose ID is that of no such set, the partition map and the
tables. -/
def Obligations.HostSetsAndTimeoutsApply : Prop :=
  ∀ (s : State), Shaped s → running s = true →
    (∀ (c : ChangeSet) (ph : Phase), dueAt s s.beat (barEnd s) = some (c, ph) → c.mgmt = false →
      (∀ (t : TarnIx) (n : Tarn), c.tarn = some t → tarnOf s t = some n → stepsWith n c.progs ≤ 4096 → ph.map = none → ph.table = none →
        ∃ s' n', exec .hostSetApply s = .next s' ∧ tarnOf s' t = some n' ∧
          (∀ i, i ∈ c.revokes → i < 512 → (slotOf s' i).state = .revoked) ∧
          (∀ fn steps, assocGet fn (c.progs.foldl (fun l p => assocPut p.1 p.2 l) []) = some steps →
            assocGet fn n'.progs = some (microSteps (progBytes steps))) ∧
          s'.map = s.map ∧ s'.table = s.table ∧ ∃ c', c' ∈ s'.sets ∧ c'.id = c.id ∧ c'.applied = c.applied + 1) ∧
      ((∀ (t : TarnIx) (n : Tarn), c.tarn = some t → tarnOf s t = some n → 4096 < stepsWith n c.progs) →
        ∃ s' c', exec .hostSetApply s = .next s' ∧ s'.keys = s.keys ∧ s'.tarns = s.tarns ∧ c' ∈ s'.sets ∧ c'.id = c.id ∧
          c'.state = .failed ∧ c'.status = .notPermitted)) ∧
    ((∀ (c : ChangeSet) (ph : Phase), dueAt s s.beat (barEnd s) = some (c, ph) → c.mgmt = true) → exec .hostSetApply s = .next s) ∧
    ∃ s', exec .phaseTimeout s = .next s' ∧ s'.map = s.map ∧ s'.table = s.table ∧ s'.shadow = s.shadow ∧
      (∀ c ∈ s'.sets, phaseExpired c = false) ∧
      (∀ c ∈ s.sets, phaseExpired c = true → ∃ c' ∈ s'.sets, c'.id = c.id ∧ c'.state = .failed ∧ c'.status = .timeout) ∧
      ∀ c ∈ s.sets, (∀ x ∈ s.sets, phaseExpired x = true → x.id ≠ c.id) → c ∈ s'.sets

/-- On a running device RULE_CHANGE_DRAINED gives every rule change that has no drained beat, whose effective beat is past and
that has nothing outstanding, this beat as its drained beat, with a Tally entry for a WHAT of 1 to 6, and leaves a change whose
effective beat is this one or later as it is. Once beats run, SCRUB_COMPLETE of a resource being scrubbed takes it out of the
scrubs, marks it as done, and clears what it held: a memory unit reads as zero and holds no poison while every other byte stays;
a Tarn's key slots are EMPTY; a Tarn's function holds no session and no bounce area; a tile group's scratchpads keep nothing; a
link holds no part of a record, and at an INTAKE port no key; and memory changes for no other resource than a memory unit. For a
resource that is not being scrubbed it changes nothing. -/
def Obligations.RuleChangesDrainAndScrubsEnd : Prop :=
  (∀ (s : State), running s = true →
    ∃ s', exec .ruleChangeDrained s = .next s' ∧
      (∀ r : RuleChange, s.rules.find? (fun x => x.id == r.id) = some r → r.d = none →
        (r.e < s.beat → ruleOutstanding s r = false →
          (∃ r' ∈ s'.rules, r'.id = r.id ∧ r'.e = r.e ∧ r'.d = some s.beat) ∧
          (1 ≤ r.what → r.what ≤ 6 → s.tally.next < s'.tally.next)) ∧
        (s.beat ≤ r.e → r ∈ s'.rules)) ∧
      ((∀ r ∈ s.rules, s.beat ≤ r.e) → s' = s)) ∧
  ∀ (s : State) (r : Resource), Good s → s.board.running = true →
    (s.scrubs.any (fun x => x.1 == r) = true →
      ∃ s', exec (.scrubComplete r) s = .next s' ∧ statOf s' r = .scrubbed ∧ s'.scrubs.any (fun x => x.1 == r) = false ∧
        (∀ st u, r = .memUnit st u → (∀ key, keyUnit key = unitBit st u → cellGet s'.mem key = 0) ∧
          (∀ key, keyUnit key ≠ unitBit st u → cellGet s'.mem key = cellGet s.mem key) ∧
          ∀ w, keyUnit (32 * w) = unitBit st u → wordBad s'.poison w = false) ∧
        (∀ t, r = .keySlots t → ∀ i, (slotOf s i).tarn = some t → slotOf s' i = {}) ∧
        (∀ t, r = .tarnRecords t → (fnOf s' t).sessions = [] ∧ (fnOf s' t).bounce = none) ∧
        (∀ g, r = .tileGroup g → s'.spLeft.getD g [] = []) ∧
        (∀ n, r = .link n → (linkOf s' n).parts = [] ∧
          ((linkOf s n).mode = .intake → (linkOf s' n).tx = {} ∧ (linkOf s' n).rx = {})) ∧
        ((∀ st u, r ≠ .memUnit st u) → s'.mem = s.mem)) ∧
    (s.scrubs.any (fun x => x.1 == r) = false → exec (.scrubComplete r) s = .next s)

/-- On a running device: a BEAT flit accepted on the FABRIC link toward the leader, to a device that follows it, corrects the
current work window by its arrival less the link delay and CORRECTION, at most 20 ns either way with the rest left for later
windows, unless the window is one that a join lengthens; in holdover it does so, and holdover ends, where that offset is at most
50 ns, and otherwise holdover goes on; any other flit leaves the timing state as it is. An accepted DELAY_REQ on a FABRIC link
that is UP is answered with one flit of KIND 5 that carries t2 and t3; an accepted flit of KIND 5 from the upstream neighbour
sets the link's delay to ((t2 − t1) + (t4 − t3)) / 2 with the t2 and t3 it carries, and any other leaves the timing state.
DOMAIN_JOIN with an upstream neighbour, equal values and an offset of at most a bar keeps the join for the next bar boundary,
and otherwise does nothing. LEADER_LOSS of a leader that is not this device takes a follower in LINK timing into holdover,
unless this device leads then, leaves holdover as it is in the other timing modes, computes routes again, and without such a
leader does nothing. In PIN timing a pulse of 50 to 150 or 250 to 400 ns corrects the current window likewise and clears the
missed pulses, a bar pulse inside a bar asks for a join, and in holdover the pulse is only counted; any other width only ends
the count of valid pulses; two missed pulses or more than 200 ppm enter holdover; a full bar of valid pulses ends it. In another
timing mode these three do nothing. Before the first beat a bar pulse makes BEAT_IN valid. That any accepted mark within 50 ns
ends a follower's holdover is the model's deduction (log 88); that t2 and t3 stand as picoseconds is its choice (log 87). -/
def Obligations.TimingCommandsAct : Prop :=
  (∀ (s : State), Shaped s → running s = true →
    (∀ n flit p,
      ((linkOf s n).mode = .fabric → (flitIn s n flit).1 = true → bits (leNat (flit.take 8)) 3 0 = 3 →
        s.timing.mode = .link → s.timing.upstream = some n → s.timing.mismatch = false →
        let off := p - s.timing.linkDelay.getD n 0 - signed32 (field flit 18 4)
        (s.timing.holdover = false ∨ off.natAbs ≤ 50000 →
          ∃ s', exec (.beatFlit n flit p) s = .next s' ∧ s'.timing.holdover = false ∧
            (s.timing.windowPs.natAbs ≤ 20000 →
              s'.timing.windowPs = max (-20000) (min 20000 off) ∧ s'.timing.owedPs = off - max (-20000) (min 20000 off)) ∧
            (20000 < s.timing.windowPs.natAbs → s'.timing.windowPs = s.timing.windowPs ∧ s'.timing.owedPs = s.timing.owedPs)) ∧
        (s.timing.holdover = true → 50000 < off.natAbs →
          ∃ s', exec (.beatFlit n flit p) s = .next s' ∧ s'.timing.holdover = true ∧
            s'.timing.windowPs = s.timing.windowPs ∧ s'.timing.owedPs = s.timing.owedPs)) ∧
      ((linkOf s n).mode ≠ .fabric ∨ (flitIn s n flit).1 = false ∨ bits (leNat (flit.take 8)) 3 0 ≠ 3 ∨ s.timing.mode ≠ .link ∨
          s.timing.upstream ≠ some n ∨ s.timing.mismatch = true →
        ∃ s', exec (.beatFlit n flit p) s = .next s' ∧ s'.timing = s.timing)) ∧
    (∀ n flit t2 t3,
      ((linkOf s n).mode = .fabric → (linkOf s n).state = .up → (flitIn s n flit).1 = true → bits (leNat (flit.take 8)) 3 0 = 4 →
        ∃ s' f, exec (.delayReq n flit (t2, t3)) s = .next s' ∧ s'.outbox = s.outbox ++ [.link n f] ∧ bits (leNat (f.take 8)) 3 0 = 5 ∧
          field f 8 8 = (t2 % 2 ^ 64).toNat ∧ field f 16 8 = (t3 % 2 ^ 64).toNat ∧ s'.timing = s.timing) ∧
      ((linkOf s n).mode ≠ .fabric ∨ (linkOf s n).state ≠ .up ∨ (flitIn s n flit).1 = false ∨ bits (leNat (flit.take 8)) 3 0 ≠ 4 →
        ∃ s', exec (.delayReq n flit (t2, t3)) s = .next s' ∧ s'.outbox = s.outbox ∧ s'.timing = s.timing)) ∧
    (∀ n hd rest t1 t4, let flit : Bytes := hd ++ rest
      ((linkOf s n).mode = .fabric → (flitIn s n flit).1 = true → bits (leNat (flit.take 8)) 3 0 = 5 → s.timing.upstream = some n →
        ∃ s', exec (.delayResp n hd rest t1 t4) s = .next s' ∧
          s'.timing.linkDelay.getD n 0 = ((signed64 (field flit 8 8) - t1) + (t4 - signed64 (field flit 16 8))) / 2 ∧
          (∀ k : LinkIx, k ≠ n → s'.timing.linkDelay.getD k 0 = s.timing.linkDelay.getD k 0)) ∧
      ((linkOf s n).mode ≠ .fabric ∨ (flitIn s n flit).1 = false ∨ bits (leNat (flit.take 8)) 3 0 ≠ 5 ∨ s.timing.upstream ≠ some n →
        ∃ s', exec (.delayResp n hd rest t1 t4) s = .next s' ∧ s'.timing = s.timing)) ∧
    (∀ o, (s.timing.mode ≠ .internal → s.timing.upstream ≠ none → s.timing.mismatch = false → o ≤ barNs s →
        exec (.domainJoin o) s = .next { s with timing := { s.timing with join := some o } }) ∧
      (s.timing.mode = .internal ∨ s.timing.upstream = none ∨ s.timing.mismatch = true ∨ barNs s < o → exec (.domainJoin o) s = .next s)) ∧
    (s.timing.leader ≠ deviceSerial s → s.timing.leader ≠ [] →
      ∃ s', exec .leaderLoss s = .next s' ∧ s'.routesNext = computeRoutes s' ∧
        (s.timing.mode = .link → s.timing.mismatch = false → s'.timing.holdover = !isBeatLeader s') ∧
        (s.timing.mode ≠ .link → s'.timing.holdover = s.timing.holdover)) ∧
    (s.timing.leader = deviceSerial s ∨ s.timing.leader = [] → exec .leaderLoss s = .next s) ∧
    (s.timing.mode = .pin →
      (∀ w o, (50 ≤ w ∧ w ≤ 150 ∨ 250 ≤ w ∧ w ≤ 400) →
        ∃ s', exec (.beatInPulse w o) s = .next s' ∧ s'.timing.missed = 0 ∧ s'.timing.beatInValid = true ∧
          (s.timing.holdover = false →
            s'.timing.join = (if 250 ≤ w ∧ s.pos ≠ 0 then some (s.pos * s.table.beatUs * 1000) else s.timing.join) ∧
            (s.timing.windowPs.natAbs ≤ 20000 → s'.timing.windowPs = max (-20000) (min 20000 (1000 * o)) ∧
              s'.timing.owedPs = 1000 * o - max (-20000) (min 20000 (1000 * o)))) ∧
          (s.timing.holdover = true → s'.timing.validPulses = s.timing.validPulses + 1 ∧
            s'.timing.windowPs = s.timing.windowPs ∧ s'.timing.owedPs = s.timing.owedPs ∧ s'.timing.join = s.timing.join)) ∧
      (∀ w o, (w < 50 ∨ 150 < w ∧ w < 250 ∨ 400 < w) →
        exec (.beatInPulse w o) s = .next { s with timing := { s.timing with validPulses := 0 } }) ∧
      (∀ m e, (2 ≤ m ∨ 200 < e) → ∃ s', exec (.pinHoldover m e) s = .next s' ∧ s'.timing.holdover = true ∧ s'.timing.owedPs = 0) ∧
      (∀ m e, m < 2 → e ≤ 200 → exec (.pinHoldover m e) s = .next s) ∧
      (barBeats s ≤ s.timing.validPulses → ∃ s', exec .pinHoldoverExit s = .next s' ∧ s'.timing.holdover = false) ∧
      (s.timing.validPulses < barBeats s → exec .pinHoldoverExit s = .next s)) ∧
    (s.timing.mode ≠ .pin → (∀ w o, exec (.beatInPulse w o) s = .next s) ∧ (∀ m e, exec (.pinHoldover m e) s = .next s) ∧
      exec .pinHoldoverExit s = .next s)) ∧
  ∀ (s : State) (w : Nat) (o : Int), s.board.running = false → s.timing.mode = .pin → 250 ≤ w → w ≤ 400 →
    exec (.beatInPulse w o) s = .next { s with timing := { s.timing with beatInValid := true } }

/-- In every state, each of the eight timing commands answers a state that differs from the first at most in the timing state,
the links' send and receive state, the Tally, the routes that the next seam takes up, what has been sent and the counter of free
values; the beat counter, the bar position and memory stay. -/
def Obligations.TimingCommandsFrame : Prop :=
  ∀ (s : State) (n : LinkIx) (hd b : Bytes) (p t1 t2 t3 t4 : Ps) (o w m e : Nat) (d : Int) (c : Instr),
    (c = .beatFlit n b p ∨ c = .delayReq n b (t2, t3) ∨ c = .delayResp n hd b t1 t4 ∨ c = .domainJoin o ∨ c = .leaderLoss ∨
      c = .beatInPulse w d ∨ c = .pinHoldover m e ∨ c = .pinHoldoverExit) →
    ∃ s', exec c s = .next s' ∧
      s' = { s with
        timing := s'.timing, links := s'.links, tally := s'.tally, routesNext := s'.routesNext, outbox := s'.outbox, freeCtr := s'.freeCtr }

/-- On a running device: a DOWN link that may train enters TRAINING, with eight lanes where it had four, when its signal is
detected, and when its retry comes; a TRAINING link with lock and what UP asks for enters UP; one that is not UP 1 s after entry
goes DOWN and may retry 100 ms later. An UP link enters DRAINING when FEC lock is lost, when no HELLO came for a whole bar, when
the operator drains it, and at sixteen tag failures, which its live owner is told of; a DRAINING link goes DOWN after three bars
without a HELLO or without lock, or when its operator drain completes. Faulty lanes in both halves, or in one half where no
degraded mode is allowed, take a link DOWN and write the Tally; in one half, where the operator allows it and the firmware
serves, a link of eight lanes has four, and drains if it was UP, and one of four stays as it is. Where its condition does not
hold, each of these commands leaves the link's state, and all but the detections and the lane fault leave everything, as it was.
-/
def Obligations.LinkStatesMove : Prop :=
  ∀ (s : State) (n : LinkIx), Shaped s → running s = true →
    let l := linkOf s n
    let s0 := modLink s n fun l => { l with signal := true };
    ((mayTrain s0 n = true → ∃ s', exec (.linkSignalDetect n) s = .next s' ∧ (linkOf s' n).state = .training ∧ (linkOf s' n).signal = true ∧
        (linkOf s' n).lanes = if l.lanes = 4 then 8 else l.lanes) ∧
      (mayTrain s0 n = false → ∃ s', exec (.linkSignalDetect n) s = .next s' ∧ (linkOf s' n).state = l.state ∧ (linkOf s' n).signal = true)) ∧
    (mayTrain s n = true → ∃ s', exec (.trainingRetry n) s = .next s' ∧ (linkOf s' n).state = .training) ∧
    (mayTrain s n = false → exec (.trainingRetry n) s = .next s) ∧
    (upReady { l with fecLock := true } = true → ∃ s', exec (.linkTrained n) s = .next s' ∧ (linkOf s' n).state = .up) ∧
    (upReady { l with fecLock := true } = false → ∃ s', exec (.linkTrained n) s = .next s' ∧ (linkOf s' n).state = l.state ∧
      (linkOf s' n).fecLock = (l.state == .training || l.state == .draining || l.fecLock)) ∧
    (l.state = .training → l.trainUs + 1000000 ≤ s.timeUs →
      ∃ s', exec (.trainingTimeout n) s = .next s' ∧ (linkOf s' n).state = .down ∧ (linkOf s' n).retryUs = s.timeUs + 100000) ∧
    (l.state ≠ .training ∨ s.timeUs < l.trainUs + 1000000 → exec (.trainingTimeout n) s = .next s) ∧
    (∃ s', exec (.fecLockLoss n) s = .next s' ∧ (linkOf s' n).state = (if l.state = .up then LinkState.draining else l.state) ∧
      (linkOf s' n).fecLock = false) ∧
    (l.state = .up → (l.mode = .fabric ∨ l.mode = .edge) → 2 ≤ l.silentBars →
      ∃ s', exec (.helloTimeout n) s = .next s' ∧ (linkOf s' n).state = .draining) ∧
    (l.state ≠ .up ∨ (l.mode ≠ .fabric ∧ l.mode ≠ .edge) ∨ l.silentBars < 2 → exec (.helloTimeout n) s = .next s) ∧
    (l.state = .up → ∃ s', exec (.operatorDrain n false) s = .next s' ∧ (linkOf s' n).state = .draining ∧ (linkOf s' n).opDrain = true) ∧
    (l.state ≠ .up → exec (.operatorDrain n false) s = .next s) ∧
    (l.state = .draining → l.opDrain = true → ∃ s', exec (.operatorDrain n true) s = .next s' ∧ (linkOf s' n).state = .down) ∧
    (l.state ≠ .draining ∨ l.opDrain = false → exec (.operatorDrain n true) s = .next s) ∧
    (l.state = .up → linkTagged l = true → 16 ≤ l.tagFails →
      ∃ s', exec (.linkTagFailureLimit n) s = .next s' ∧ (linkOf s' n).state = .draining ∧
        ∀ t, linkOwner s n = some t → live s t = true →
          ∃ a, (fnOf s' t).advisories = (fnOf s t).advisories ++ [a] ∧ a.kind = 5 ∧ a.status = .unitFailed) ∧
    (l.state ≠ .up ∨ linkTagged l = false ∨ l.tagFails < 16 → exec (.linkTagFailureLimit n) s = .next s) ∧
    (l.state = .draining → 3 ≤ l.silentBars ∨ 3 ≤ l.lockBars →
      ∃ s', exec (.drainTimeout n) s = .next s' ∧ (linkOf s' n).state = .down) ∧
    (l.state ≠ .draining ∨ (l.silentBars < 3 ∧ l.lockBars < 3) → exec (.drainTimeout n) s = .next s) ∧
    ∀ lane : Fin 8,
      let h := faultyHalves (l.laneFaults ||| BitVec.ofNat 8 (2 ^ lane.val))
      (h = (true, true) ∨ s.gov.bounds.degradeMask.getLsbD n = false ∨ fwUp s = false →
        ∃ s', exec (.laneFault n lane) s = .next s' ∧ (linkOf s' n).state = .down ∧ s.tally.next < s'.tally.next) ∧
      (h ≠ (true, true) → s.gov.bounds.degradeMask.getLsbD n = true → fwUp s = true →
        ∃ s', exec (.laneFault n lane) s = .next s' ∧ (linkOf s' n).lanes = 4 ∧
          (linkOf s' n).state = if l.lanes ≠ 4 ∧ l.state = .up then .draining else l.state)

/-- For each of the eleven events that may move a link: if the link's state after differs from its state before, the Tally has
grown; none of them changes the route table in force, memory, the map or the beat counter. ROUTE_UPDATE computes the table that
the next seam takes up and changes nothing else. -/
def Obligations.LinkMovesAreRecorded : Prop :=
  (∀ (s : State) (n : LinkIx) (lane : Fin 8) (b : Bool) (flit : Bytes) (c : Instr),
    (c = .linkSignalDetect n ∨ c = .trainingRetry n ∨ c = .linkTrained n ∨ c = .trainingTimeout n ∨ c = .fecLockLoss n ∨
      c = .helloTimeout n ∨ c = .operatorDrain n b ∨ c = .linkTagFailureLimit n ∨ c = .drainTimeout n ∨ c = .laneFault n lane ∨
      c = .helloReceived n flit) →
    ∃ s', exec c s = .next s' ∧ s'.routes = s.routes ∧ s'.mem = s.mem ∧ s'.map = s.map ∧ s'.beat = s.beat ∧
      ((linkOf s' n).state ≠ (linkOf s n).state → s.tally.next < s'.tally.next)) ∧
  ∀ s : State, running s = true → exec .routeUpdate s = .next { s with routesNext := computeRoutes s }

/-- On a running device, for a flit that is accepted as a HELLO of version 1: from this device's own serial number the link is
marked as looped back; from another mode it is marked as mismatched; in both cases its state, peer and HELLO count are not
advanced. Otherwise the neighbour's data become the link's peer data and its silence ends. A flit that is not accepted, or is no
such HELLO, leaves the link's state and peer, and any flit at an INTAKE end in TRAINING marks it as mismatched. -/
def Obligations.HellosUpdateTheLink : Prop :=
  ∀ (s : State) (n : LinkIx) (flit : Bytes), Shaped s → running s = true →
    ((flitIn s n flit).1 = true → bits (leNat (flit.take 8)) 3 0 = 2 → field (slice flit 8 240) 0 2 = 1 →
      let p := helloOf (slice flit 8 240)
      (p.serial = deviceSerial s → ∃ s', exec (.helloReceived n flit) s = .next s' ∧ (linkOf s' n).loopback = true ∧
        (linkOf s' n).hellos = 0 ∧ (linkOf s' n).state = (linkOf s n).state ∧ (linkOf s' n).peer = (linkOf s n).peer) ∧
      (p.serial ≠ deviceSerial s → p.mode ≠ linkModeCode (linkOf s n).mode →
        ∃ s', exec (.helloReceived n flit) s = .next s' ∧ (linkOf s' n).modeMismatch = true ∧ (linkOf s' n).hellos = 0 ∧
          (linkOf s' n).state = (linkOf s n).state ∧ (linkOf s' n).peer = (linkOf s n).peer) ∧
      (p.serial ≠ deviceSerial s → p.mode = linkModeCode (linkOf s n).mode →
        ∃ s', exec (.helloReceived n flit) s = .next s' ∧ (linkOf s' n).peer = some p ∧ (linkOf s' n).silentBars = 0)) ∧
    ((flitIn s n flit).1 = false ∨ bits (leNat (flit.take 8)) 3 0 ≠ 2 ∨ field (slice flit 8 240) 0 2 ≠ 1 →
      ∃ s', exec (.helloReceived n flit) s = .next s' ∧ (linkOf s' n).state = (linkOf s n).state ∧
        (linkOf s' n).peer = (linkOf s n).peer) ∧
    ((linkOf s n).mode = .intake → (linkOf s n).state = .training →
      ∃ s', exec (.helloReceived n flit) s = .next s' ∧ (linkOf s' n).modeMismatch = true ∧ (linkOf s' n).state = .training)

/-- On a running device: on a FABRIC or EDGE link that is not DOWN a DATA flit that is right and has the expected SEQ moves the
expected SEQ on, and any other is discarded, with one NAK until the expected SEQ comes (none on an EDGE link whose session has
ended). With lock, a NAK, or an ACK that does not advance, sends every unacknowledged flit again and counts it, but a SEQ that
has been sent 8 times drains an UP link; a DRAINING link goes on. Without lock, with nothing unacknowledged or DOWN nothing is
sent again. The ACK deadline sends an ACK where flits are unacknowledged and the session goes on. The ACK of an accepted IDLE
flit takes the flits it covers out of the replay buffer. On a link of another mode or DOWN a DATA flit does nothing. -/
def Obligations.FlitsAreRetried : Prop :=
  ∀ (s : State) (n : LinkIx) (flit : Bytes), Shaped s → running s = true →
    let l := linkOf s n
    let h := leNat (flit.take 8)
    let sent : Nat := if sessionOver (linkOf (flitIn s n flit).2 n) = true then 0 else 1
    ((l.mode = .fabric ∨ l.mode = .edge) → l.state ≠ .down →
      ((flitIn s n flit).1 = true → bits h 3 0 = 1 → bits h 19 8 = l.expSeq →
        ∃ s', exec (.dataFlit n flit) s = .next s' ∧ (linkOf s' n).expSeq = (l.expSeq + 1) % 4096 ∧ (linkOf s' n).nakOut = false) ∧
      (((flitIn s n flit).1 = false ∨ bits h 3 0 = 1 ∧ bits h 19 8 ≠ l.expSeq) →
        (l.nakOut = false → ∃ s', exec (.dataFlit n flit) s = .next s' ∧ (linkOf s' n).nakOut = true ∧
          (linkOf s' n).expSeq = l.expSeq ∧ s'.outbox.length = s.outbox.length + sent) ∧
        (l.nakOut = true → ∃ s', exec (.dataFlit n flit) s = .next s' ∧ (linkOf s' n).expSeq = l.expSeq ∧
          s'.outbox = s.outbox))) ∧
    (((l.mode ≠ .fabric ∧ l.mode ≠ .edge) ∨ l.state = .down) → exec (.dataFlit n flit) s = .next s) ∧
    (l.replay ≠ [] → l.fecLock = true → l.state ≠ .down → (l.state ≠ .up ∨ ∀ x ∈ l.replay, x.2.2 < 8) →
      ∃ s', exec (.replayTimeout n) s = .next s' ∧ (linkOf s' n).replays = l.replays + 1 ∧ (linkOf s' n).state = l.state ∧
        (linkOf s' n).replay = l.replay.map (fun x => (x.1, x.2.1, x.2.2 + 1)) ∧
        (linkTagged l = false → s'.outbox.length = s.outbox.length + l.replay.length)) ∧
    ((∃ x ∈ l.replay, 8 ≤ x.2.2) → l.fecLock = true → l.state = .up →
      ∃ s', exec (.replayTimeout n) s = .next s' ∧ (linkOf s' n).state = .draining) ∧
    (l.replay = [] ∨ l.fecLock = false ∨ l.state = .down → exec (.replayTimeout n) s = .next s) ∧
    ((flitIn s n flit).1 = true → bits h 3 0 = 6 → (headerIn l flit).replay ≠ [] → l.fecLock = true →
      (l.state ≠ .up ∨ ∀ x ∈ l.replay, x.2.2 < 8) →
      ∃ s', exec (.nakReceived n flit) s = .next s' ∧ (linkOf s' n).replays = l.replays + 1) ∧
    (0 < l.unackedRx → sessionOver l = false → ∃ s', exec (.ackDeadline n) s = .next s' ∧ (linkOf s' n).unackedRx = 0 ∧
      s'.outbox.length = s.outbox.length + 1) ∧
    (l.unackedRx = 0 → exec (.ackDeadline n) s = .next s) ∧
    ((flitIn s n flit).1 = true → ∃ s' more, exec (.idleFlit n flit) s = .next s' ∧
      (linkOf s' n).replay = (headerIn l flit).replay ++ more ∧
      ∀ x ∈ (headerIn l flit).replay, x ∈ l.replay ∧
        ¬ (1 ≤ (bits h 31 20 + 4096 - x.1) % 4096 ∧ (bits h 31 20 + 4096 - x.1) % 4096 ≤ 1024))

/-- On a running device: a DATA flit with the expected SEQ that is a whole message of channel VC 1 joins the link's received
messages; for one addressed to this device the verdict of R345's checks, made then, is kept with it. For a request of the
operation at the head of a link's REQUEST channel, addressed to this device: one whose verdict is a refusal, or whose data have
another length than it says, is taken from the channel and answered with REFUSED, and changes no memory; otherwise one that
meets a stack in thermal hold waits, and any other is taken from the channel: a WRITE stores its data at its address, changes no
other byte and is answered with DONE, an ATOMIC is applied, a READ changes no memory and is answered with the data, or REFUSED
where they are poisoned. Where no request of the operation stands there, nothing happens. The first message for another device
leaves the link's messages; it is dropped when every route would make it cross more than four links, and otherwise goes out on
the onward link with HOPS raised; memory stays. That a READ of poisoned data is refused with DATA_LOST follows R238's bands. -/
def Obligations.RemoteRequestsAreServed : Prop :=
  ∀ (s : State) (n : LinkIx), Good s → running s = true →
    (∀ flit, ((linkOf s n).mode = .fabric ∨ (linkOf s n).mode = .edge) → (flitIn s n flit).1 = true →
      (let h := leNat (flit.take 8)
       bits h 3 0 = 1 ∧ bits h 19 8 = (linkOf s n).expSeq ∧ bits h 5 4 = 1 ∧ bit h 6 = true) →
      ((linkOf s n).partials.getD 1 { vc := 1, bytes := [] }).bytes = [] →
      ∃ s' m, exec (.dataFlit n flit) s = .next s' ∧ (linkOf s' n).inbox = (linkOf s n).inbox ++ [m] ∧ m.vc = 1 ∧
        m.bytes = slice flit 8 (bits (leNat (flit.take 8)) 55 48) ∧ m.stamp = s.beat ∧
        m.verdict = if (msgOf m.bytes).dest = s.timing.deviceNo.val then
          remoteCheck s n ⟨(msgOf m.bytes).destTarn % 8, Nat.mod_lt _ (by decide)⟩ m.bytes (msgOf m.bytes) else none) ∧
    (∀ c op, (c = .remoteWrite n ∧ op = 1 ∨ c = .remoteAtomic n ∧ op = 2 ∨ c = .remoteRead n ∧ op = 3) →
      ((∀ m, firstOf (linkOf s n) 1 = some m → (msgOf m.bytes).dest ≠ s.timing.deviceNo.val ∨ (msgOf m.bytes).op ≠ op) →
        exec c s = .next s) ∧
      (∀ m, firstOf (linkOf s n) 1 = some m → (msgOf m.bytes).dest = s.timing.deviceNo.val → (msgOf m.bytes).op = op →
        let h := msgOf m.bytes
        let data := m.bytes.drop 32
        let s1 := popMessage s n 1
        let len := if op = 3 then 0 else h.len
        (∀ st, (m.verdict = some st ∨ m.verdict = none ∧ data.length ≠ len ∧ st = .badCommand) →
          ∃ s', exec c s = .next s' ∧ s' = respond s1 n h 6 st [] ∧ s'.mem = s.mem ∧
            (linkOf s' n).inbox = (linkOf s n).inbox.erase m) ∧
        (m.verdict = none → data.length = len →
          (touchesHold s h.addr h.len = true → exec c s = .next s) ∧
          (touchesHold s h.addr h.len = false → ∃ s', exec c s = .next s' ∧ (linkOf s' n).inbox = (linkOf s n).inbox.erase m ∧
            (op = 1 → s' = respond (devWrite s1 h.addr data) n h 5 .ok [] ∧ s'.mem = (devWrite s h.addr data).mem ∧
              ∀ key, (∀ i, i < data.length → addrKey (h.addr + i) ≠ some key) → cellGet s'.mem key = cellGet s.mem key) ∧
            (op = 2 → s'.mem = (atomicApply s h.ty h.addr data).2.mem ∧
              ((atomicApply s h.ty h.addr data).1 = none → s' = respond (atomicApply s1 h.ty h.addr data).2 n h 5 .ok [])) ∧
            (op = 3 → s'.mem = s.mem ∧
              (poisoned s h.addr h.len = false → s' = respond s1 n h 4 .ok (devRead s h.addr h.len)) ∧
              (poisoned s h.addr h.len = true → s' = respond s1 n h 6 .dataLost [])))))) ∧
    ((linkOf s n).inbox.find? (fun m => byteAt m.bytes 1 != s.timing.deviceNo.val) = none → exec (.messageForward n) s = .next s) ∧
    ∀ m, (linkOf s n).inbox.find? (fun m => byteAt m.bytes 1 != s.timing.deviceNo.val) = some m →
      let s1 := modLink s n fun l => { l with inbox := l.inbox.erase m }
      let hops := byteAt m.bytes 3 % 16 + 1
      let edge := bit (byteAt m.bytes 3) 4 || (linkOf s n).mode == .edge
      ∃ s', exec (.messageForward n) s = .next s' ∧ (linkOf s' n).inbox = (linkOf s n).inbox.erase m ∧ s'.mem = s.mem ∧
        ((∀ r ∈ s.routes, r.dest = byteAt m.bytes 1 → 4 < hops + r.hops) → s'.outbox = s.outbox) ∧
        ∀ out, forwardLink s1 n (byteAt m.bytes 1) hops edge = some out →
          s' = sendMessage s1 out m.vc (codeRank (byteAt m.bytes 6))
            (m.bytes.set 3 (BitVec.ofNat 8 (hops + 16 * b2n (edge || (linkOf s1 out).mode == .edge))))

/-- On a running device, for a response at the head of a link's RESPONSE channel whose tag names an outstanding access of a Tarn
that the link serves: READ_DATA of a READ writes its data to the scratchpad of the tile that issued it and changes no device
memory; DONE and READ_DATA take the access off the outstanding list and the tile waits for it no longer; REFUSED takes it off
and gives its figure and ticket, or where the figure is gone its ticket, the carried status. A response that answers no such
access, or READ_DATA for another operation, only leaves the channel, and without a response of the kind nothing happens. An
access whose response is two bars late is taken off and gives TIMEOUT; before that, and for a tag with no access, nothing
changes. -/
def Obligations.RemoteAnswersReachTheTicket : Prop :=
  ∀ (s : State), Shaped s → running s = true →
    (∀ (n : LinkIx) (h : MsgHeader) (data : Bytes),
      (responseOf s n 4 = some (h, data) →
        (∀ m, answered s n h = some m → m.op = 3 →
          ∃ s', exec (.readData n) s = .next s' ∧ s'.remotes = s.remotes.filter (fun x => x.tag != m.tag) ∧ s'.mem = s.mem ∧
            ∀ f, figOf s m.group = some f → f.uid = m.uid → ∀ r, f.tiles[m.tile.val]? = some r →
              ∃ f' r', figOf s' m.group = some f' ∧ f'.tiles[m.tile.val]? = some r' ∧
                r'.scratch = (scrWrite (scrOf f m.tile r) m.spOff (data.take m.len)).cells ∧ m.tag ∉ r'.remote) ∧
        ((∀ m, answered s n h = some m → m.op ≠ 3) → exec (.readData n) s = .next (popMessage s n 2))) ∧
      (responseOf s n 5 = some (h, data) →
        (∀ m, answered s n h = some m →
          ∃ s', exec (.done n) s = .next s' ∧ s'.remotes = s.remotes.filter (fun x => x.tag != m.tag) ∧
            ∀ f, figOf s m.group = some f → ∀ r, f.tiles[m.tile.val]? = some r →
              ∃ f' r', figOf s' m.group = some f' ∧ f'.tiles[m.tile.val]? = some r' ∧ m.tag ∉ r'.remote) ∧
        (answered s n h = none → exec (.done n) s = .next (popMessage s n 2))) ∧
      (responseOf s n 6 = some (h, data) →
        (∀ m, answered s n h = some m →
          ∃ s', exec (.refused n) s = .next s' ∧ s'.remotes = s.remotes.filter (fun x => x.tag != m.tag) ∧
            (∀ f, figOf s m.group = some f → f.uid = m.uid →
              ∃ f', figOf s' m.group = some f' ∧ f'.fault = some (f.fault.getD (statusOfCode h.status))) ∧
            ∀ k, ticketOf s m.uid = some k → ∃ k', ticketOf s' m.uid = some k' ∧ k'.faults = k.faults ++ [statusOfCode h.status]) ∧
        (answered s n h = none → exec (.refused n) s = .next (popMessage s n 2)))) ∧
    (∀ n, (responseOf s n 4 = none → exec (.readData n) s = .next s) ∧ (responseOf s n 5 = none → exec (.done n) s = .next s) ∧
      (responseOf s n 6 = none → exec (.refused n) s = .next s)) ∧
    ∀ tag, (s.remotes.find? (fun m => m.tag == tag) = none → exec (.remoteResponseTimeout tag) s = .next s) ∧
      ∀ m, s.remotes.find? (fun m => m.tag == tag) = some m →
        (m.beat + 2 * barBeats s ≤ s.beat → ∃ s', exec (.remoteResponseTimeout tag) s = .next s' ∧
          s'.remotes = s.remotes.filter (fun x => x.tag != m.tag) ∧
          (∀ f, figOf s m.group = some f → f.uid = m.uid →
            ∃ f', figOf s' m.group = some f' ∧ f'.fault = some (f.fault.getD .timeout)) ∧
          ∀ k, ticketOf s m.uid = some k → ∃ k', ticketOf s' m.uid = some k' ∧ k'.faults = k.faults ++ [.timeout]) ∧
        (s.beat < m.beat + 2 * barBeats s → exec (.remoteResponseTimeout tag) s = .next s)

/-- On a running device: an agreement with a partner whose key is on the allow list and whose signature over both ephemeral keys
verifies marks the partner as good and sets the two directions' keys, and the link comes UP when nothing else is missing; with
any other partner the link is not good, does not come UP, or leaves UP where it was, and the failure is in the Tally. A renewal
at 2^48 transmissions does the same on an UP link and leaves it UP. In another mode or state neither changes anything. A key of
a tagged link whose counter has passed a multiple of 2^32 is replaced as often as multiples were passed, and one below, or of a
link without tags, is kept. -/
def Obligations.LinkKeysAreAgreedAndReplaced : Prop :=
  ∀ (s : State) (n : LinkIx) (p : LinkPartner), Shaped s → running s = true →
    let l := linkOf s n
    let eph := sec1 p384 (ecPub p384 (l.eph.getD (p384Key (drawEntropy s 56).1)))
    let good := (unSec1 p384 p.ephemeral).isSome && s.mgmt.allow.contains (sha384 p.signer) &&
      ecdsaVerify p.signer (sha384 (p.ephemeral ++ eph)) p.sig
    let agrees : Instr → Prop := fun c =>
      (good = true → ∃ s', exec c s = .next s' ∧ (linkOf s' n).partnerOk = true ∧
        (linkOf s' n).tx.key.length = 32 ∧ (linkOf s' n).rx.key.length = 32 ∧ s.tally.next < s'.tally.next ∧
        (linkOf s' n).state = (if upReady { l with partnerOk := true } = true then LinkState.up else l.state)) ∧
      (good = false → ∃ s', exec c s = .next s' ∧ (linkOf s' n).partnerOk = false ∧ s.tally.next < s'.tally.next ∧
        (linkOf s' n).state = (if l.state = .up then LinkState.down else l.state))
    let may := l.mode = .edge ∧ l.state = .training ∨ l.mode = .intake ∧ (l.state = .training ∨ l.state = .up)
    (may → agrees (.linkKeyAgreement n p)) ∧
    (¬ may → exec (.linkKeyAgreement n p) s = .next s) ∧
    (l.state = .up → sessionOver l = true → agrees (.linkSessionRenew n p)) ∧
    (l.state ≠ .up ∨ sessionOver l = false → exec (.linkSessionRenew n p) s = .next s) ∧
    (linkTagged l = true → (l.tx.epoch < l.tx.ctr / 2 ^ 32 ∨ l.rx.epoch < l.rx.ctr / 2 ^ 32) →
      ∃ s', exec (.linkKeyReplace n) s = .next s' ∧
        (linkOf s' n).tx.key = iter nextKey (l.tx.ctr / 2 ^ 32 - l.tx.epoch) l.tx.key ∧
        (linkOf s' n).rx.key = iter nextKey (l.rx.ctr / 2 ^ 32 - l.rx.epoch) l.rx.key ∧ s.tally.next < s'.tally.next) ∧
    (linkTagged l = false ∨ (l.tx.ctr / 2 ^ 32 ≤ l.tx.epoch ∧ l.rx.ctr / 2 ^ 32 ≤ l.rx.epoch) → exec (.linkKeyReplace n) s = .next s)

/-- On a running device: a frame whose FCS, header, counter or tag fails is counted as rejected and changes no round; at a
FABRIC or EDGE end in TRAINING it marks the link as mismatched. An accepted RECORD_PART at a link with an owner, while the
firmware serves: with no part of its record begun it takes one granted credit and begins one at OFFSET 0, and at another OFFSET
or with none granted is dropped; at the OFFSET that its partial record has come to it lengthens that by its data, which are held
until a lane works for the Tarn and then stand in the staging slot taken for it, where the last byte makes the record an arrived
one; at another OFFSET, not 0, the partial record is dropped and its slot is free. A frame of another type, on a link without an
owner, or while the firmware does not serve changes no round and no partial record. -/
def Obligations.IntakeRecordPartsAreJoined : Prop :=
  ∀ (s : State) (n : LinkIx) (frame : Bytes) (ok : Bool), Shaped s → running s = true →
    ((intakeIn s n frame ok).1 = none → ∃ s', exec (.recordPart n frame ok) s = .next s' ∧
      (linkOf s' n).rejected = (linkOf s n).rejected + 1 ∧ s'.tarns = s.tarns ∧
      ((linkOf s n).state = .training → ((linkOf s n).mode = .fabric ∨ (linkOf s n).mode = .edge) →
        (linkOf s' n).modeMismatch = true)) ∧
    ∀ (h data : Bytes), (intakeIn s n frame ok).1 = some (h, data) →
      let l := linkOf s n
      let rid := field h 0x0C 4
      let c := field h 0x10 4
      let off := field h 0x14 8
      (linkOwner s n = none ∨ byteAt h 1 ≠ 1 ∨ fwUp s = false →
        ∃ s', exec (.recordPart n frame ok) s = .next s' ∧ s'.tarns = s.tarns ∧ (linkOf s' n).parts = l.parts) ∧
      ∀ (t : TarnIx), linkOwner s n = some t → byteAt h 1 = 1 → fwUp s = true →
        (l.parts.find? (fun q => q.round == rid && q.contrib == c) = none →
          ((off ≠ 0 ∨ l.granted = 0) → ∃ s', exec (.recordPart n frame ok) s = .next s' ∧ (linkOf s' n).parts = l.parts ∧
            (linkOf s' n).granted = l.granted ∧ s'.tarns = s.tarns) ∧
          (off = 0 → 0 < l.granted → ∃ s', exec (.recordPart n frame ok) s = .next s' ∧ (linkOf s' n).granted + 1 = l.granted ∧
            (basinNow s t = false → (linkOf s' n).parts =
              l.parts ++ [{ round := rid, contrib := c, got := data.length, held := data, last := s.beat }]))) ∧
        ∀ q, l.parts.find? (fun q => q.round == rid && q.contrib == c) = some q →
          (off = q.got → basinNow s t = false → ∃ s', exec (.recordPart n frame ok) s = .next s' ∧ (linkOf s' n).parts =
            l.parts.map fun x => if x = q then { q with got := q.got + data.length, held := q.held ++ data, last := s.beat } else x) ∧
          (off = q.got → basinNow s t = true → imagesHeld s = false → q.held ++ data ≠ [] →
            ∀ i r x have_ b, q.slot = some i → slotActive s t rid i = true → roundOf s t rid = some r → r.slots[i]? = some x →
              x.state = .receiving have_ b →
              ∃ s' r' x', exec (.recordPart n frame ok) s = .next s' ∧ roundOf s' t rid = some r' ∧ r'.slots[i]? = some x' ∧
                x'.state = if (have_ ++ q.held ++ data).length < recLen r.plan then .receiving (have_ ++ q.held ++ data) s.beat
                  else .arrived (have_ ++ q.held ++ data)) ∧
          (off ≠ q.got → off ≠ 0 → ∃ s', exec (.recordPart n frame ok) s = .next s' ∧ (linkOf s' n).parts = l.parts.erase q ∧
            ∀ i r, q.slot = some i → roundOf s t rid = some r → i < r.slots.length →
              ∃ r', roundOf s' t rid = some r' ∧ r'.slots[i]? = some {})

/-- MEMORY_REQUEST of a tile whose next operation is a LOAD or a STORE, in a running figure: while a stack concerned is in
thermal hold, or the operation waits for the data of an earlier remote READ, nothing changes. Otherwise, when the first row
fails its check, the figure has that fault and no memory changes. With no request of the figure under way, a LOAD whose first
row is poisoned gives DATA_LOST; and when every row passes and no access that the rows share a byte with lacks an order, a LOAD
of unpoisoned rows puts their bytes at their scratchpad offsets and changes no memory, a STORE puts the scratchpad bytes at the
rows' addresses, and the tile goes on to its next operation. -/
def Obligations.LoadsAndStoresMoveRows : Prop :=
  ∀ (s : State) (g : GroupIx) (ti : TileIx) (f : FigRun) (r : TileRun) (w : List Nat) (rest : List (List Nat)), Good s →
    figuresRun s = true → figOf s g = some f → f.fault = none → f.cycles = none → f.tiles[ti.val]? = some r → r.ops = w :: rest →
    (opCode w = 1 ∨ opCode w = 2) →
    let rows := rowRanges ((resolveAddr f.args (ow w 1)).getD 0) (bits (ow w 3) 31 0) (bits (ow w 2) 63 32) (ow w 4)
    let off := fun i => bits (ow w 2) 21 0 + i * bits (ow w 5) 21 0
    (opHeld s f.args w = true ∨ awaitsRead s r w = true → exec (.memoryRequest g ti) s = .next s) ∧
    (opHeld s f.args w = false → awaitsRead s r w = false →
      (∀ x st, rows.head? = some x → accessCheck s f.tarn x.1 x.2 = some st →
        ∃ s' f', exec (.memoryRequest g ti) s = .next s' ∧ figOf s' g = some f' ∧ f'.fault = some st ∧ s'.mem = s.mem) ∧
      (f.flying = [] → opCode w = 1 →
        (∀ x, rows.head? = some x → accessCheck s f.tarn x.1 x.2 = none → poisoned s x.1 x.2 = true →
          ∃ s' f', exec (.memoryRequest g ti) s = .next s' ∧ figOf s' g = some f' ∧ f'.fault = some .dataLost ∧ s'.mem = s.mem) ∧
        ((∀ x ∈ rows, accessCheck s f.tarn x.1 x.2 = none ∧ poisoned s x.1 x.2 = false ∧
            ∀ key, some key ∈ rangeKeys x.1 x.2 → otherClash f ti accRead key = false ∧ overtaken f ti key = false) →
          ∃ s' f' r', exec (.memoryRequest g ti) s = .next s' ∧ s'.mem = s.mem ∧ figOf s' g = some f' ∧ f'.fault = none ∧
            f'.tiles[ti.val]? = some r' ∧ r'.ops = rest ∧
            r'.scratch = (rows.zipIdx.foldl (fun z x => scrWrite z (off x.2) (devRead s x.1.1 x.1.2)) (scrOf f ti r)).cells)) ∧
      (f.flying = [] → opCode w = 2 →
        (∀ x ∈ rows, accessCheck s f.tarn x.1 x.2 = none ∧ unordered f ti (accWrite, x.1, x.2) = false ∧
          ∀ key, some key ∈ rangeKeys x.1 x.2 → otherClash f ti accWrite key = false) →
        ∃ s' f' r', exec (.memoryRequest g ti) s = .next s' ∧ figOf s' g = some f' ∧ f'.fault = none ∧ f'.flying = [] ∧
          f'.tiles[ti.val]? = some r' ∧ r'.ops = rest ∧ r'.scratch = r.scratch ∧
          s'.mem = (rows.zipIdx.foldl (fun m x => devWrite m x.1.1 (scrBytes (scrOf f ti r) (off x.2) x.1.2)) s).mem))

/-- In a running figure, for a Reel command or an ATOMIC at the head of a tile's stream: with a stack concerned in thermal hold,
or data of an earlier remote READ outstanding, nothing changes. Otherwise a Reel command one of whose ranges fails its check
ends the figure with that status and changes no memory. With no request under way and an order for every access of the figure
that shares a byte with one of its own, one on a stack without a working Reel unit ends with UNIT_FAILED and changes no memory;
one whose sources hold a poisoned word ends it with DATA_LOST; and any other, where no other tile's access leaves a byte
undefined, leaves the destination holding the elements computed from the sources. An ATOMIC whose requests, which share no byte,
pass their checks and have an order adds its elements to memory in order; one whose first request meets poison ends with
DATA_LOST, and one whose first request fails its check with that status. -/
def Obligations.ReelAndAtomicRequestsUpdateMemory : Prop :=
  ∀ (s : State) (g : GroupIx) (ti : TileIx) (f : FigRun) (r : TileRun) (w : List Nat) (rest : List (List Nat)), Good s →
    figuresRun s = true → figOf s g = some f → f.fault = none → f.cycles = none → f.tiles[ti.val]? = some r → r.ops = w :: rest →
    (opHeld s f.args w = true ∨ awaitsRead s r w = true → (opCode w = 0x0A → exec (.reelCommand g ti) s = .next s) ∧
      (opCode w = 8 → exec (.atomicRequest g ti) s = .next s)) ∧
    (opHeld s f.args w = false → awaitsRead s r w = false →
    (opCode w = 0x0A →
      let c := w.drop 1
      let x := reelRanges c
      let op := bits (ow c 0) 7 0
      let ty := bits (ow c 0) 11 8
      let ew := (atomWidth ty).getD 1
      let elems := x.1.map fun a => (chunks ew (devRead s a.1 a.2)).map leNat
      let out := (upto (x.2.2 / ew)).map fun e => if op = 5 then chainElem ty (elems.map fun l => l.getD e 0) else
        reelElem op ty (bits (ow c 0) 15 13) (bit (ow c 0) 12) (bits (ow c 3) 31 0) (bits (ow c 3) 63 32)
          ((elems.getD 0 []).getD e 0) ((elems.getD 1 []).getD e 0)
      let clear := (∀ a ∈ x.1, ∀ key, some key ∈ rangeKeys a.1 a.2 → otherClash f ti accRead key = false) ∧
        ∀ key, some key ∈ rangeKeys x.2.1 x.2.2 → otherClash f ti accWrite key = false
      (∀ st, (x.1 ++ [x.2]).findSome? (fun a => accessCheck s f.tarn a.1 a.2) = some st →
        ∃ s' f', exec (.reelCommand g ti) s = .next s' ∧ figOf s' g = some f' ∧ f'.fault = some st ∧ s'.mem = s.mem) ∧
      (f.flying = [] → (∀ a ∈ x.1 ++ [x.2], accessCheck s f.tarn a.1 a.2 = none) →
        (∀ y ∈ reqAccesses (.reel c), unordered f ti y = false) →
        ((∃ p ∈ reelPositions c, stackReels s (p / 32) = false) →
          ∃ s' f', exec (.reelCommand g ti) s = .next s' ∧ figOf s' g = some f' ∧ f'.fault = some .unitFailed ∧ s'.mem = s.mem) ∧
        ((∀ p ∈ reelPositions c, stackReels s (p / 32) = true) →
          ((∀ a ∈ x.1, poisoned s a.1 a.2 = false) → clear → ∃ s' f', exec (.reelCommand g ti) s = .next s' ∧
            figOf s' g = some f' ∧ f'.fault = none ∧ s'.mem = (devWrite s x.2.1 (out.map (leBytes ew)).flatten).mem) ∧
          (∀ i a, i < x.2.2 / 32 → a ∈ x.1 → poisoned s (a.1 + 32 * i) 32 = true →
            ∃ s' f', exec (.reelCommand g ti) s = .next s' ∧ figOf s' g = some f' ∧ f'.fault = some .dataLost)))) ∧
    (opCode w = 8 →
      let ty := bits (ow w 0) 19 16
      let ew := (atomWidth ty).getD 1
      let kind := if atomFloat ty then accFloat else accRing
      let a := (resolveAddr f.args (ow w 1)).getD 0
      let reqs := (chunks 64 (scrBytes (scrOf f ti r) (bits (ow w 2) 21 0) (bits (ow w 2) 63 32))).zipIdx
      (∀ y st, reqs.head? = some y → accessCheck s f.tarn a y.1.length = some st →
        ∃ s' f', exec (.atomicRequest g ti) s = .next s' ∧ figOf s' g = some f' ∧ f'.fault = some st ∧ s'.mem = s.mem) ∧
      (f.flying = [] → (∀ y ∈ reqs, ∀ z ∈ reqs, y.2 ≠ z.2 → sharesByte (a + 64 * y.2) y.1.length (a + 64 * z.2) z.1.length = false) →
        (∀ y ∈ reqs, accessCheck s f.tarn (a + 64 * y.2) y.1.length = none ∧
          (∀ u ∈ rangeUnits (a + 64 * y.2) y.1.length, stackReels s (u / 32) = true) ∧
          unordered f ti (kind, a + 64 * y.2, y.1.length) = false ∧
          ∀ key, some key ∈ rangeKeys (a + 64 * y.2) y.1.length → otherClash f ti kind key = false) →
        ((∀ y ∈ reqs, poisoned s (a + 64 * y.2) y.1.length = false) → ∃ s' f' r', exec (.atomicRequest g ti) s = .next s' ∧
          figOf s' g = some f' ∧ f'.fault = none ∧ f'.tiles[ti.val]? = some r' ∧ r'.ops = rest ∧
          s'.mem = (reqs.foldl (fun m y => devWrite m (a + 64 * y.2)
            (atomBytes ty ew (devRead m (a + 64 * y.2) y.1.length) y.1)) s).mem) ∧
        (∀ y, reqs.head? = some y → poisoned s a y.1.length = true →
          ∃ s' f', exec (.atomicRequest g ti) s = .next s' ∧ figOf s' g = some f' ∧ f'.fault = some .dataLost))))

/-- FIGURE_FINISH of a running figure of eight tiles: with every stream at its END, no remote access unanswered and no request
under way, the figure is marked finished with the cycles counted, and memory is as before; with a remote access unanswered on
some tile, with a fault, or with requests under way that all wait for a stack in thermal hold, it is not. -/
def Obligations.FiguresFinish : Prop :=
  ∀ (s : State) (g : GroupIx) (f : FigRun) (c : Nat), Shaped s → figuresRun s = true → figOf s g = some f → f.cycles = none →
    f.tiles.length = 8 →
    (f.fault = none → (∀ r ∈ f.tiles, r.remote = [] ∧ (r.ops = [] ∨ ∃ w, r.ops = [w] ∧ opCode w = 0)) →
      (f.flying = [] → ∃ s' f', exec (.figureFinish g c) s = .next s' ∧ figOf s' g = some f' ∧ f'.cycles = some c ∧ f'.fault = none ∧
        s'.mem = s.mem) ∧
      (f.flying ≠ [] → (∀ x ∈ f.flying, reqHeld s x.2 = true) →
        ∃ s' f', exec (.figureFinish g c) s = .next s' ∧ figOf s' g = some f' ∧ f'.cycles = none ∧ f'.flying = f.flying ∧
          s'.mem = s.mem)) ∧
    ((∃ r ∈ f.tiles, r.remote ≠ []) ∨ f.fault ≠ none →
      ∃ s' f', exec (.figureFinish g c) s = .next s' ∧ figOf s' g = some f' ∧ f'.cycles = none)

/-- In every state the four figure commands answer a state that differs from the first at most in figures, tickets, memory,
poison, remote accesses, links, what has been sent, the Tally and the counters of free values and tags; the figures of other
slots are unchanged; and every byte of memory that no write, atomic request or Reel destination still in the figure's streams,
or under way, names is unchanged. -/
def Obligations.FigureCommandsFrame : Prop :=
  ∀ (s : State) (g : GroupIx) (ti : TileIx) (n : Nat) (c : Instr),
    (c = .figureFinish g n ∨ c = .memoryRequest g ti ∨ c = .reelCommand g ti ∨ c = .atomicRequest g ti) →
    ∃ s', exec c s = .next s' ∧
      s' = { s with figs := s'.figs, tickets := s'.tickets, mem := s'.mem, poison := s'.poison, remotes := s'.remotes,
                    nextTag := s'.nextTag, links := s'.links, outbox := s'.outbox, freeCtr := s'.freeCtr, tally := s'.tally } ∧
      (∀ j, j ≠ g.val → figOf s' j = figOf s j) ∧
      (figOf s g = none → s' = s) ∧
      ∀ f, figOf s g = some f → ∀ key,
        (∀ r ∈ f.tiles, ∀ w ∈ r.ops, ∀ x ∈ opAccesses f.args w, x.1 ≠ accRead →
          ∀ i, i < x.2.2 → addrKey (x.2.1 + i) ≠ some key) →
        (∀ q ∈ f.flying, ∀ x ∈ reqAccesses q.2, x.1 ≠ accRead → ∀ i, i < x.2.2 → addrKey (x.2.1 + i) ≠ some key) →
        cellGet s'.mem key = cellGet s.mem key

/-- On a running device whose firmware serves and that does not drain for an activation, for a queue pair of a Tarn that admits,
while the coming seam may still admit: when what the queue pair gives up next is a SUBMIT_GRAPH, it is taken and counts toward
the seam's admissions. An entry at the head of the ring is consumed and takes the next place in the posting order: one that
fails a check of R83 has its status there and no ticket; one with FENCE and entries before it waits and has no ticket yet; any
other becomes a ticket, QUEUED, admitted in this beat, with the entry's operands. A held FENCE entry whose turn has come becomes
its ticket in its place, or has there the status that its header decides. Nothing but the queue pair, tickets, ticket IDs, host
reads, the counts of admissions and what is sent changes. In every other case nothing changes. That the command runs ahead of
the seam is the model's choice (log 60). -/
def Obligations.SubmissionsAreAdmitted : Prop :=
  ∀ (s : State) (t : TarnIx) (q : QpIx), Shaped s →
    let p := qpOf s t q
    let may := running s && fwUp s && s.fw.drain.isNone && tarnAdmits s t && decide (0 < admitBudget s)
    ((may = false ∨ ∀ b, nextBytes s p = some b → (entryFields b).op ≠ 0x13) → exec (.submitGraph t q) s = .next s) ∧
    (may = true → ∀ b, nextBytes s p = some b → (entryFields b).op = 0x13 →
      let e := entryFields b
      let item : PostItem := { commandId := e.commandId, irqNow := e.irqNow }
      let held := e.fence && !p.order.isEmpty
      ∃ s', exec (.submitGraph t q) s = .next s' ∧ s'.admitted = s.admitted + 1 ∧
        s' = { s with fns := s'.fns, tickets := s'.tickets, nextUid := s'.nextUid, gens := s'.gens, bar := s'.bar,
                      outbox := s'.outbox, freeCtr := s'.freeCtr, admitted := s'.admitted } ∧
        (fenceDue s p = none → p.fetched.head? = some b ∧ (qpOf s' t q).sqHead = p.sqHead + 1 ∧
          (qpOf s' t q).fetched = p.fetched.tail ∧
          (∀ st, refusal s t (p.qclass == 1) e held = some st →
            (qpOf s' t q).order = p.order ++ [{ item with comp := some { status := st } }] ∧ s'.tickets = s.tickets) ∧
          (refusal s t (p.qclass == 1) e held = none → held = true →
            (qpOf s' t q).order = p.order ++ [{ item with fence := some b }] ∧ s'.tickets = s.tickets) ∧
          (refusal s t (p.qclass == 1) e held = none → held = false →
            (qpOf s' t q).order = p.order ++ [{ item with uid := some s.nextUid }])) ∧
        (fenceDue s p = some b → (qpOf s' t q).sqHead = p.sqHead ∧ (qpOf s' t q).fetched = p.fetched ∧
          (∀ st, graphCheck s t e = some st →
            (qpOf s' t q).order = { item with comp := some { status := st } } :: p.order.tail ∧ s'.tickets = s.tickets) ∧
          (graphCheck s t e = none → (qpOf s' t q).order = { item with uid := some s.nextUid } :: p.order.tail)) ∧
        ((fenceDue s p = none ∧ refusal s t (p.qclass == 1) e held = none ∧ held = false) ∨
            (fenceDue s p = some b ∧ graphCheck s t e = none) →
          s'.tickets.length = s.tickets.length + 1 ∧
          ∃ k ∈ s'.tickets, k.uid = s.nextUid ∧ k.op = 0x13 ∧ k.tarn = t ∧ k.ops = e.ops ∧ k.ledger.state = .queued ∧
            k.ledger.admitBeat = s.beat ∧ k.ledger.commitBeat = s.beat))

/-- For a ticket that may be served: CHANGE_SUBMIT of a set that passes the checks leaves it waiting for its seam and the ticket
running, one that fails ends with its status and is not kept, a buffer that cannot be opened fails the ticket with its status,
and one submitted before changes nothing. CHANGE_STATUS of a set that names the Tarn answers its status, and otherwise ends with
NOT_PERMITTED. BIST_RUN asks for the unit at the coming seam, once. For a ticket that may not be served none of them changes
anything. On a running device, when a test that runs ends with the fused signature its unit goes to its scrub with OK; with
another, or without one, with UNIT_FAILED, and the unit is to be retired; for a unit other than a tile that no such test runs on
nothing changes. -/
def Obligations.HostSetsAndTestsAreSubmitted : Prop :=
  ∀ (s : State) (uid : Nat),
    (servable s uid 0x02 = none → exec (.changeSubmit uid) s = .next s) ∧
    (servable s uid 0x03 = none → exec (.changeStatus uid) s = .next s) ∧
    (servable s uid 0x06 = none → exec (.bistRun uid) s = .next s) ∧
    (∀ k,
    (servable s uid 0x02 = some k →
      (k.stage ≠ 0 → exec (.changeSubmit uid) s = .next s) ∧
      (k.stage = 0 →
        (∀ st s1, plainOf s k 0 (opW k 1) k.buf = (.error st, s1) → ∃ s' k', exec (.changeSubmit uid) s = .next s' ∧
          ticketOf s' uid = some k' ∧ st ∈ k'.faults ∧ s'.sets = s.sets) ∧
        ∀ raw s1, plainOf s k 0 (opW k 1) k.buf = (.ok raw, s1) →
          ((submitHost s1 k.tarn k.uid raw (opW k 1)).1 = .ok →
            ∃ s' k', exec (.changeSubmit uid) s = .next s' ∧ ticketOf s' uid = some k' ∧ k'.stage = 1 ∧ k'.final = k.final ∧
              (∃ c ∈ s'.sets, c.uid = some uid ∧ c.state = .waiting ∧ c.id = s.nextSet) ∧ s'.map = s.map) ∧
          (∀ st, (submitHost s1 k.tarn k.uid raw (opW k 1)).1 = st → st ≠ .ok →
            ∃ s', exec (.changeSubmit uid) s = .next s' ∧ EndsWith s' uid st 0 0 ∧ s'.sets = s.sets))) ∧
    (servable s uid 0x03 = some k →
      ((∀ c, setById s (opW k 0) = some c → setNames c k.tarn = false) →
        ∃ s', exec (.changeStatus uid) s = .next s' ∧ EndsWith s' uid .notPermitted 0 0) ∧
      (∀ c, setById s (opW k 0) = some c → setNames c k.tarn = true →
        let out := fitUnits (bufCapacity s k (opW k 2)) 64 (setUnits s c)
        HostWritable s k out.flatten → ∃ s', exec (.changeStatus uid) s = .next s' ∧
          EndsWith s' uid (if out.length < (setUnits s c).length then .partialRead else .ok) c.applied
            (if c.applied = 0 then 0 else (c.phases.getD (c.applied - 1) {}).e))) ∧
    (servable s uid 0x06 = some k →
      (k.stage ≠ 0 → exec (.bistRun uid) s = .next s) ∧
      (k.stage = 0 → ∃ s' k', exec (.bistRun uid) s = .next s' ∧ ticketOf s' uid = some k' ∧ k'.stage = 1 ∧
        s'.pendRules = s.pendRules ++ [.test uid k.tarn (unitOfNum (opW k 0))]))) ∧
    ∀ (u : UnitId) (code : Nat), running s = true →
      (∀ (b : Bist), b ∈ s.bists → b.unit = u → b.code = code → b.stage = 2 →
        (∀ x ∈ s.bists, x.unit = u → x = b) →
        (∃ s', exec (.bistComplete u code (.signature (Config.bistExpected code u.kind.toNat))) s = .next s' ∧
          { b with stage := 3, status := .ok, sig := Config.bistExpected code u.kind.toNat,
                   expected := Config.bistExpected code u.kind.toNat } ∈ s'.bists ∧
          s'.units = s.units) ∧
        (∀ v, v ≠ Config.bistExpected code u.kind.toNat →
          ∃ s', exec (.bistComplete u code (.signature v)) s = .next s' ∧
            { b with stage := 3, status := .unitFailed, sig := v, expected := Config.bistExpected code u.kind.toNat } ∈ s'.bists ∧
            (u, 0) ∈ s'.units.failing) ∧
        ∃ s', exec (.bistComplete u code .cannotComplete) s = .next s' ∧
          { b with stage := 3, status := .unitFailed, sig := 0, expected := 0 } ∈ s'.bists ∧ (u, 0) ∈ s'.units.failing) ∧
      (u.kind ≠ kTile → (∀ b ∈ s.bists, b.unit = u → b.code = code → b.stage ≠ 2) → ∀ r, exec (.bistComplete u code r) s = .next s)

/-- For a ticket that may be served: ROUND_OPEN of a plan that fails item 1 of R248, or with a roster of another length, ends
with BAD_COMMAND, and of a plan and roster that pass every check adds the round, not yet OPEN, and asks for its hold.
ROUND_OPENED of a round whose images have been zeroed makes it OPEN in this beat with a Tally entry, and else does nothing.
CLOSE of an OPEN round that is due makes it CLOSED, and one that is not due does nothing. ROUND_CLOSE waits on an OPEN round,
with OP1 bit 0 asks for its close, of a closed round ends with the claims and the close beat, of an aborted one with
ROUND_ABORTED, and at a combine member with NOT_PERMITTED. ROUND_ABORT of a live round asks for the abort, of an aborted one
ends with OK and of another with NOT_PERMITTED. ROUND_STATUS and CERT_READ, when their answer may be written, end with the bytes
written. That a combine member is answered NOT_PERMITTED even for an aborted round is the model's choice (log 89). -/
def Obligations.RoundsOpenAndClose : Prop :=
  ∀ (s : State) (uid : Nat) (k : Ticket), Shaped s →
    (servable s uid 0x20 = some k → k.stage = 0 → ∀ raw s1, plainOf s k 0 (opW k 1) k.buf = (.ok raw, s1) →
      (planOf raw = none → ∃ s', exec (.roundOpen uid) s = .next s' ∧ EndsWith s' uid .badCommand 0 0) ∧
      (∀ p, planOf raw = some p → opW k 3 ≠ p.n * rosterEntry p.kex → (p.combined = false ∨ opW k 3 ≠ 0) →
        ∃ s', exec (.roundOpen uid) s = .next s' ∧ EndsWith s' uid .badCommand 0 0)) ∧
    (servable s uid 0x20 = some k → k.stage = 1 → ∀ p roster s1 n, planOf k.plain = some p → plainOf s k 2 (opW k 3) k.buf = (.ok roster, s1) →
      tarnOf s1 k.tarn = some n → planSigned k.authKeys k.plain = true → n.highestRound < p.roundId → n.highestRound ≠ 0xFFFFFFFF →
      sha384 roster = p.rosterDigest → opW k 3 ≠ 0 → regionOk s1 k.tarn n p roster.length = true →
      (headroomOk k.plain = true ∨ byteAt k.plain 6 ≠ 0) →
      (∀ x ∈ n.rounds, x.plan.roundId ≠ p.roundId) →
      ∃ s' r, exec (.roundOpen uid) s = .next s' ∧ roundOf s' k.tarn p.roundId = some r ∧ r.state = .opening ∧ r.plan = p ∧
        r.roster = chunks (rosterEntry p.kex) roster ∧ s'.pendRules = s1.pendRules ++ [.hold k.tarn p.roundId] ∧ s'.mem = s.mem) ∧
    (∀ (t : TarnIx) (id : BitVec 32) (r : Round), running s = true → roundOf s t id.toNat = some r →
      (r.state = .opening → r.slots ≠ [] → ∃ s' r', exec (.roundOpened t id) s = .next s' ∧ roundOf s' t id.toNat = some r' ∧
        r'.state = .isOpen ∧ r'.openBeat = s.beat ∧ s.tally.next < s'.tally.next) ∧
      (r.state ≠ .opening ∨ r.slots = [] → exec (.roundOpened t id) s = .next s) ∧
      (fwUp s = true → closeDue s t r = true → ∃ s' r', exec (.close t id) s = .next s' ∧ roundOf s' t id.toNat = some r' ∧
        r'.state = .closed ∧ r'.closeBeat = s.beat ∧ r'.accepted = r.accepted ∧ s.tally.next < s'.tally.next) ∧
      (fwUp s = false ∨ closeDue s t r = false → exec (.close t id) s = .next s)) ∧
    (∀ r, servable s uid 0x23 = some k → k.stage = 0 → roundOf s k.tarn (opW k 0) = some r →
      (r.isLeader = false → ∃ s', exec (.roundClose uid) s = .next s' ∧ EndsWith s' uid .notPermitted 0 0) ∧
      (r.isLeader = true → r.state = .isOpen →
        ∃ s' r' k', exec (.roundClose uid) s = .next s' ∧ roundOf s' k.tarn (opW k 0) = some r' ∧ r'.state = .isOpen ∧
          r'.closeAsked = (r.closeAsked || bit (opW k 1) 0) ∧ ticketOf s' uid = some k' ∧ k'.stage = 1 ∧ k'.final = none) ∧
      (r.isLeader = true → r.state = .closed →
        ∃ s', exec (.roundClose uid) s = .next s' ∧ EndsWith s' uid .ok (claimCount r) r.closeBeat) ∧
      (r.isLeader = true → (r.state = .unmasking ∨ r.state = .released ∨ r.state = .refused) →
        ∃ s', exec (.roundClose uid) s = .next s' ∧ EndsWith s' uid .ok r.accepted.length r.closeBeat) ∧
      (r.isLeader = true → r.state = .aborted →
        ∃ s', exec (.roundClose uid) s = .next s' ∧ EndsWith s' uid .roundAborted 0 r.endBeat)) ∧
    (∀ r, servable s uid 0x24 = some k → k.stage = 0 → roundOf s k.tarn (opW k 0) = some r →
      (rstateLive r.state = true → ∃ s' r', exec (.roundAbort uid) s = .next s' ∧ roundOf s' k.tarn (opW k 0) = some r' ∧
        r'.abortAsked = some .roundAborted) ∧
      (r.state = .aborted → ∃ s', exec (.roundAbort uid) s = .next s' ∧ EndsWith s' uid .ok 0 r.endBeat) ∧
      (rstateLive r.state = false → r.state ≠ .aborted → ∃ s', exec (.roundAbort uid) s = .next s' ∧ EndsWith s' uid .notPermitted 0 0)) ∧
    (∀ r, servable s uid 0x25 = some k → roundOf s k.tarn (opW k 0) = some r →
      let bm := bitmapOf r.accepted 0 r.plan.n
      let blocks := roundHeader r :: chunks 64 (padTo (roundUp bm.length 64) bm)
      let out := fitUnits (bufCapacity s k (opW k 2)) 64 blocks
      HostWritable s k out.flatten → ∃ s', exec (.roundStatus uid) s = .next s' ∧
        EndsWith s' uid (if out.length < blocks.length then .partialRead else .ok) (64 * out.length) 0) ∧
    ∀ r, servable s uid 0x26 = some k → roundOf s k.tarn (opW k 0) = some r →
      (r.state ≠ .released → r.state ≠ .refused →
        ∃ s', exec (.certRead uid) s = .next s' ∧ EndsWith s' uid .notPermitted 0 0) ∧
      (r.state = .released ∨ r.state = .refused →
        let out := fitUnits (bufCapacity s k (opW k 2)) 560 [r.cert]
        HostWritable s k out.flatten → ∃ s', exec (.certRead uid) s = .next s' ∧
          EndsWith s' uid (if out = [] then .partialRead else .ok) (560 * out.length) 0)

/-- On a running device whose firmware serves: CONTRIB_SUBMIT whose first record has arrived whole takes a staging slot and a
lane of an OPEN round, in whose image the record's vector then stands, when a lane works for the Tarn; without such a lane
nothing happens. RECORD_ARRIVAL of the oldest waiting record that names a round, in a beat in which its slot's lane works,
claims its contributor when its checks pass, moving to a free slot of that round where it stood in another's; one that fails
them frees the slot and claims nobody; any other slot stays as it is. FOLD_COMPLETE of a claimed record of a live round in such
a beat, with no stack in thermal hold, adds its staged words to the accumulator and its mirror, frees the slot and logs the
contributor, whose bit stays as it was until the seam. A record that has received nothing for STAGE_TIMEOUT beats is discarded.
With no record waiting RECORD_INTAKE_RESUME grants the INTAKE links the staging slots that are free beyond those granted. -/
def Obligations.RecordsAreClaimedAndFolded : Prop :=
  ∀ (s : State) (t : TarnIx) (id : BitVec 32) (r : Round) (n : Tarn), Shaped s → running s = true → fwUp s = true →
    tarnOf s t = some n → roundOf s t id.toNat = some r →
    (∀ uid k, ticketOf s uid = some k → k.op = 0x21 → k.tarn = t → ticketRuns k = true →
      (basinNow s t = false → exec (.contribSubmit uid) s = .next s) ∧
      (∀ i lane, basinNow s t = true → opW k 0 = id.toNat → k.stage = recLen r.plan →
        0 < opW k 2 → isConf s t = false → k.taken = k.plain.length → k.buf = [] → k.plain.length = k.stage → k.need = [] → k.dma = none →
        r.state = .isOpen → freeSlot s t r = some (i, lane) →
        ∃ s' r', exec (.contribSubmit uid) s = .next s' ∧ roundOf s' t id.toNat = some r' ∧
          r'.slots.getD i {} = { src := some (.ticket uid 0), lane, state := .arrived k.plain, seq := n.arrivals } ∧
          r'.lastActive = some s.beat ∧ s'.mem = (stageVector s r.plan i k.plain).mem)) ∧
    (∀ i b, (r.slots.getD i {}).state = .arrived b → i < r.slots.length →
      (slotActive s t id.toNat i = true → firstArrived s t id.toNat i = true →
        (recVerdict s t r.plan b = .ok → field b 4 4 = id.toNat →
          ∃ s' r', exec (.recordArrival t id i) s = .next s' ∧ roundOf s' t id.toNat = some r' ∧
            (r'.slots.getD i {}).state = .folding (field b 8 4) b ∧ r'.accepted = r.accepted ∧ s'.mem = s.mem) ∧
        (recVerdict s t r.plan b = .ok → field b 4 4 ≠ id.toNat → ∀ ry, roundOf s t (field b 4 4) = some ry →
          (freeSlot s t ry = none → exec (.recordArrival t id i) s = .next s) ∧
          ∀ j lane, freeSlot s t ry = some (j, lane) →
            ∃ s' r' ry', exec (.recordArrival t id i) s = .next s' ∧ roundOf s' t id.toNat = some r' ∧ (r'.slots.getD i {}).state = .free ∧
              roundOf s' t (field b 4 4) = some ry' ∧ (ry'.slots.getD j {}).state = .folding (field b 8 4) b ∧
              s'.mem = (stageVector s ry.plan j b).mem) ∧
        (recVerdict s t r.plan b ≠ .ok →
          ∃ s' r', exec (.recordArrival t id i) s = .next s' ∧ roundOf s' t id.toNat = some r' ∧
            (r'.slots.getD i {}).state = .free ∧ r'.accepted = r.accepted ∧ s'.mem = s.mem))) ∧
    (∀ i, slotActive s t id.toNat i = false ∨ firstArrived s t id.toNat i = false → exec (.recordArrival t id i) s = .next s) ∧
    (∀ i c b, (r.slots.getD i {}).state = .folding c b → i < r.slots.length → rstateLive r.state = true →
      slotActive s t id.toNat i = true → imagesHeld s = false →
      ∃ s' r', exec (.foldComplete t id i) s = .next s' ∧ roundOf s' t id.toNat = some r' ∧ (r'.slots.getD i {}).state = .free ∧
        r'.foldLog = r.foldLog ++ [(c, (r.slots.getD i {}).src)] ∧ r'.accepted = r.accepted ∧
        s'.mem = (imgAdd s r.plan false (stagedWords s r.plan i)).mem) ∧
    (∀ i, slotActive s t id.toNat i = false ∨ imagesHeld s = true ∨ rstateLive r.state = false ∨
        (∀ c b, (r.slots.getD i {}).state ≠ .folding c b) → exec (.foldComplete t id i) s = .next s) ∧
    (∀ i b last, (r.slots.getD i {}).state = .receiving b last → i < r.slots.length →
      (last + r.plan.stageTimeout ≤ s.beat → ∃ s' r', exec (.stageTimeout t id i) s = .next s' ∧ roundOf s' t id.toNat = some r' ∧
        (r'.slots.getD i {}).state = .free ∧ r'.accepted = r.accepted ∧ s'.mem = s.mem) ∧
      (s.beat < last + r.plan.stageTimeout → exec (.stageTimeout t id i) s = .next s)) ∧
    ((∀ k ∈ s.tickets, k.tarn = t → k.op ≠ 0x21) → partsOf s t = [] →
      (intakeLinks s t = [] → exec (.recordIntakeResume t) s = .next s) ∧
      ∀ l ls, intakeLinks s t = l :: ls →
        let free := (n.rounds.map fun r => if r.state == .isOpen then (r.slots.filter fun x => x.state == .free).length else 0).sum
        let room := min free (4096 * (lanesOf s t).length - inFlight s t)
        let out := ((l :: ls).map fun k => (linkOf s k).granted).sum
        (room ≤ out → exec (.recordIntakeResume t) s = .next s) ∧
        (out < room → ∃ s', exec (.recordIntakeResume t) s = .next s' ∧ (linkOf s' l).granted = (linkOf s l).granted + (room - out) ∧
          (sessionOver (linkOf s l) = false → s'.outbox.length = s.outbox.length + 1)))

/-- On a running device: SHARES_SUBMIT of no entries ends with OK, one of a CLOSED round or in a beat without a lane waits, and
else it begins to read its buffer. SHARE_ENTRY gives the first entry of the first SHARES_SUBMIT ticket the status of R304, and
accepts it exactly when that is OK; it waits while the round is CLOSED or VALIDATE jobs run, and without a lane.
REBUILD_COMPLETE takes the head of the rebuild queue; a limb outside its range bars the holders, and else the secret goes on to
VERIFY, or for a self seed to its derivation. A VALIDATE job that a core has started ends with the entry's status, flagging the
contributor when it is not OK; VERIFY of a matching key marks it rebuilt; a PAIR job hands a shared secret on, or flags the
survivor and fails every edge there. HKDF_COMPLETE makes the derived seed a correction. A job that is not started changes
nothing. MASK_CORRECTION_DONE in a BASIN beat with no stack in thermal hold adds or subtracts its expansion at image 0 and its
mirror and removes it, and else does nothing. -/
def Obligations.MasksAreRecovered : Prop :=
  ∀ (s : State) (t : TarnIx) (id : BitVec 32) (r : Round), Shaped s → running s = true → roundOf s t id.toNat = some r →
    (∀ uid k, ticketOf s uid = some k → k.op = 0x22 → k.tarn = t → ticketRuns k = true → opW k 0 = id.toNat → fwUp s = true →
      (opW k 2 = 0 → ∃ s', exec (.sharesSubmit uid) s = .next s' ∧ EndsWith s' uid .ok 0 0) ∧
      (opW k 2 ≠ 0 → (r.state = .closed ∨ basinNow s t = false) → exec (.sharesSubmit uid) s = .next s) ∧
      (opW k 2 ≠ 0 → r.state ≠ .closed → basinNow s t = true → k.stage = 0 →
        ∃ s' k', exec (.sharesSubmit uid) s = .next s' ∧ ticketOf s' uid = some k' ∧ k'.stage = 1)) ∧
    (fwUp s = false ∨ basinNow s t = false ∨ sharesWait (some r) = true ∨ roundTickets s t id.toNat 0x22 = [] →
      exec (.shareEntry t id) s = .next s) ∧
    (∀ k l, roundTickets s t id.toNat 0x22 = k :: l → (∀ x ∈ s.tickets, x.uid = k.uid → x = k) → fwUp s = true → basinNow s t = true →
      sharesWait (some r) = false → 96 ≤ k.plain.length →
      let e := k.plain.take 96
      let owner := field e 8 4
      let kind := byteAt e 2
      let st := shareVerdict (some r) id.toNat e
      ∃ s' k' r', exec (.shareEntry t id) s = .next s' ∧ ticketOf s' k.uid = some k' ∧
        k'.outcomes = k.outcomes ++ [(k.outcomes.length, st)] ∧ k'.plain = k.plain.drop 96 ∧
        roundOf s' t id.toNat = some r' ∧
        (st = .ok →
          (shareSetOf r' owner kind).shares = (shareSetOf r owner kind).shares ++
            [(field e 0x0C 4, field e 0x10 4, field e 0x20 32, field e 0x40 32)] ∧ assocGet owner r'.recovery ≠ none) ∧
        (st ≠ .ok → r'.shareSets = r.shareSets ∧ r'.recovery = r.recovery)) ∧
    (s.rebuilds = [] ∨ s.units.fieldFailed = true → exec .rebuildComplete s = .next s) ∧
    (∀ owner kind rest, s.rebuilds = (t, id.toNat, owner, kind) :: rest → s.units.fieldFailed = false →
      let sh := (shareSetOf r owner kind).shares
      let l0 := lagrange0 (sh.map fun h => (h.2.1, h.2.2.1))
      let l1 := lagrange0 (sh.map fun h => (h.2.1, h.2.2.2))
      ∃ s' r' n', exec .rebuildComplete s = .next s' ∧ s'.rebuilds = rest ∧ roundOf s' t id.toNat = some r' ∧ tarnOf s' t = some n' ∧
        (2 ^ 128 ≤ l0 ∨ 2 ^ 128 ≤ l1 →
          (shareSetOf r' owner kind).shares = [] ∧ ∀ h ∈ sh, h.1 ∈ (shareSetOf r' owner kind).barred) ∧
        (l0 < 2 ^ 128 → l1 < 2 ^ 128 →
          (∃ j ∈ n'.kae, j.round = id.toNat ∧ j.kind = (if kind = 0 then 1 else 3) ∧ j.owner = owner ∧
            j.secret = leBytes 16 l0 ++ leBytes 16 l1) ∧
          (kind ≠ 0 → (shareSetOf r' owner kind).rebuilt = true))) ∧
    (∀ x, (started s t false).find? (fun i => i.id == x) = none → exec (.kaeJobComplete t x) s = .next s) ∧
    (∀ j x, (started s t false).find? (fun i => i.id == x) = some j → j.round = id.toNat →
      ∃ s' r', exec (.kaeJobComplete t x) s = .next s' ∧ roundOf s' t id.toNat = some r' ∧
        (j.kind = 0 → r'.validating = r.validating - 1 ∧
          (validateEntry r.plan.kex (r.roster.getD j.owner []) ≠ .ok → j.owner ∈ r'.flagged)) ∧
        (j.kind = 1 → verifyKey r.plan.kex j.secret (r.roster.getD j.owner []) = .ok → (shareSetOf r' j.owner 0).rebuilt = true) ∧
        (j.kind = 2 → ∀ z, pairSecret r.plan.kex j.secret (r.roster.getD j.other []) = .ok z →
          ∃ n, tarnOf s' t = some n ∧ ∃ y ∈ n.kae, y.kind = 4 ∧ y.owner = j.owner ∧ y.other = j.other ∧ y.secret = z) ∧
        (j.kind = 2 → ∀ st, pairSecret r.plan.kex j.secret (r.roster.getD j.other []) = .error st →
          j.other ∈ r'.flagged ∧ ∀ i ∈ neighbours r.plan j.other, (min j.other i, max j.other i) ∈ r'.failedEdges)) ∧
    (∀ x, (started s t true).find? (fun i => i.id == x) = none → exec (.hkdfComplete t x) s = .next s) ∧
    (∀ j x, (started s t true).find? (fun i => i.id == x) = some j → j.round = id.toNat →
      ∃ s' r', exec (.hkdfComplete t x) s = .next s' ∧ roundOf s' t id.toNat = some r' ∧
        ∃ c, r'.corrections = r.corrections ++ [c] ∧ c.id = j.id ∧
          c.seed = if j.kind = 3 then selfKey r.plan j.secret j.owner else pairSeed r.plan j.secret j.owner j.other) ∧
    (∀ x, (r.corrections.find? (fun c => c.id == x) = none ∨ r.state ≠ .unmasking ∨ fwUp s = false ∨ basinNow s t = false ∨
      imagesHeld s = true) → exec (.maskCorrectionDone t id x) s = .next s) ∧
    ∀ x c, r.corrections.find? (fun c => c.id == x) = some c → r.state = .unmasking → fwUp s = true → basinNow s t = true →
      imagesHeld s = false →
      ∃ s' r', exec (.maskCorrectionDone t id x) s = .next s' ∧ roundOf s' t id.toNat = some r' ∧
        r'.corrections = r.corrections.filter (fun y => y.id != x) ∧
        s'.mem = (imgAdd s r.plan (!c.add) (prgWords r.plan c.seed)).mem

/-- On a running device: a leader's CLOSED round whose folds are all committed moves to REFUSED when fewer than the floor were
accepted, and to UNMASKING otherwise, and one that is not ready stays as it is; a member's such round sends its data to the
leader once, and stays as it is while no route leads there. A round whose corrections are done and whose region is held becomes
RELEASED in this beat, with a certificate, the request to lift its hold, and no byte of memory changed outside its mirror and
staging images; any other round is not released. An UNMASKING window that has ended aborts the round, and one that has not does
nothing. Once the images of a refused or aborted round are scrubbed they read as zero, all other bytes are as before, and the
lifting of the hold is asked for. -/
def Obligations.RoundsEnd : Prop :=
  ∀ (s : State) (t : TarnIx) (id : BitVec 32) (r : Round), Good s → running s = true → roundOf s t id.toNat = some r →
    let off := fun (key : Nat) => key % 2 ^ 30
    let start := fun (i : Nat) => r.plan.u0 * 2 ^ 25 + i * imageLen r.plan
    (r.isLeader = true → leaveReady s r = true →
      (r.accepted.length < cohortFloor s t r → ∃ s' r', exec (.roundLeaveClosed t id) s = .next s' ∧ roundOf s' t id.toNat = some r' ∧
        r'.state = .refused ∧ r'.endBeat = s.beat ∧ r'.floorApplied = cohortFloor s t r ∧ r'.shareSets = [] ∧ r'.cert ≠ [] ∧
        s.tally.next < s'.tally.next) ∧
      (cohortFloor s t r ≤ r.accepted.length → ∃ s' r', exec (.roundLeaveClosed t id) s = .next s' ∧
        roundOf s' t id.toNat = some r' ∧ r'.state = .unmasking ∧ r'.unmaskBeat = s.beat ∧ r'.floorApplied = cohortFloor s t r ∧
        s.tally.next < s'.tally.next)) ∧
    (r.isLeader = true → leaveReady s r = false → exec (.roundLeaveClosed t id) s = .next s) ∧
    (r.isLeader = false →
      let ready := r.state == .closed && r.foldLog.isEmpty && foldsDone r && r.abortAsked.isNone && r.dataSentBeat.isNone
      (ready = false → exec (.roundLeaveClosed t id) s = .next s) ∧
      (ready = true → ∀ lead me, r.members.head? = some lead → myMember s r = some me →
        (linkTo s t lead.serial = none → exec (.roundLeaveClosed t id) s = .next s) ∧
        ∀ n d, linkTo s t lead.serial = some (n, d) →
          ∃ s' r', exec (.roundLeaveClosed t id) s = .next s' ∧ roundOf s' t id.toNat = some r' ∧ r'.state = .closed ∧
            r'.dataSentBeat = some s.beat ∧ r'.dataLink = some n ∧ s'.mem = s.mem)) ∧
    (r.state = .unmasking → r.releasing = true → r.holdOn = true →
      ∃ s' r', exec (.roundRelease t id) s = .next s' ∧ roundOf s' t id.toNat = some r' ∧ r'.state = .released ∧
        r'.releaseBeat = s.beat ∧ r'.cert ≠ [] ∧ s'.pendRules = s.pendRules ++ [.release t id.toNat] ∧
        ∀ key, (off key < start 1 ∨ start (imageCount r.plan) ≤ off key) → cellGet s'.mem key = cellGet s.mem key) ∧
    (r.state ≠ .unmasking ∨ r.releasing = false → exec (.roundRelease t id) s = .next s) ∧
    (unmaskExpired s r = true → ∃ s' r', exec (.unmaskTimeout t id) s = .next s' ∧ roundOf s' t id.toNat = some r' ∧
      r'.state = .aborted ∧ r'.scrubbing = true ∧ r'.endBeat = s.beat ∧ s.tally.next < s'.tally.next) ∧
    (unmaskExpired s r = false → exec (.unmaskTimeout t id) s = .next s) ∧
    (r.scrubbing = true → (r.state = .refused ∨ r.state = .aborted) →
      ∃ s' r', exec (.roundRegionScrubbed t id) s = .next s' ∧ roundOf s' t id.toNat = some r' ∧ r'.scrubbing = false ∧
        s'.pendRules = s.pendRules ++ [.release t id.toNat] ∧
        ∀ key, cellGet s'.mem key =
          if start 0 ≤ off key ∧ off key < start (imageCount r.plan) then memUnlisted else cellGet s.mem key) ∧
    (r.scrubbing = false ∨ (r.state ≠ .refused ∧ r.state ≠ .aborted) → exec (.roundRegionScrubbed t id) s = .next s)

/-- COMBINE_ATTACH of a descriptor that breaks R279 ends with BAD_COMMAND, and one that does not fit the round with
NOT_PERMITTED; one that fits records the members with the confirmations that have come and this device's own, and ends with OK
at once when all have confirmed. A confirmation that waits on a link is taken, with both digests marks its member, and with
others changes nothing else. An attachment that is 3 bars late ends with TIMEOUT, and one that is not does nothing. The leader's
close, release and abort notices that wait on a link are taken and noted at a member. At the leader whole member data are taken
from the links, added once to image 0, and its mirror, and its bits to the bitmap, kept until the leader's own close if it is
still OPEN, and refused if they were counted; data 2 bars late count as missing. A member without news for 16 bars aborts. The
statuses of an unfit descriptor are the model's choice (log 89), and so are the forms of the notices (logs 55, 56). -/
def Obligations.CombinedRoundsAct : Prop :=
  ∀ (s : State) (t : TarnIx) (id : BitVec 32) (r : Round), Shaped s → running s = true → roundOf s t id.toNat = some r →
    (∀ uid k, servable s uid 0x27 = some k → k.stage ≠ 0 → exec (.combineAttach uid) s = .next s) ∧
    (∀ uid k raw s1, servable s uid 0x27 = some k → k.stage = 0 → k.tarn = t → opW k 0 = id.toNat → plainOf s k 1 (opW k 2) k.buf = (.ok raw, s1) →
      (descriptorOf r.plan raw = none → ∃ s', exec (.combineAttach uid) s = .next s' ∧ EndsWith s' uid .badCommand 0 0) ∧
      ∀ ms m, descriptorOf r.plan raw = some ms → ms.head? = some m →
        let fits := r.plan.combined && r.state == .isOpen && sha384 raw == r.plan.combineDigest &&
          (ms.any fun x => x.serial == deviceSerial s) && ((m.serial == deviceSerial s) == r.isLeader)
        let ms' := (if r.members = [] then ms else r.members).map fun x =>
          if x.serial == deviceSerial s || r.confirms.contains x.serial then { x with confirmed := true } else x
        (fits = false → ∃ s', exec (.combineAttach uid) s = .next s' ∧ EndsWith s' uid .notPermitted 0 0) ∧
        (fits = true → ∃ s' r', exec (.combineAttach uid) s = .next s' ∧ roundOf s' t id.toNat = some r' ∧ r'.attachBeat = s.beat ∧
          r'.members = ms' ∧
          (ms'.all (·.confirmed) = true → r'.attached = true ∧ EndsWith s' uid .ok ms'.length 0) ∧
          (ms'.all (·.confirmed) = false → r'.attached = r.attached ∧ r'.attachUid = some uid))) ∧
    (∀ i (p d : Bytes),
      (noteWaiting s 1 id.toNat p d ((r.members[i]?).map (·.serial)) = none → exec (.combineConfirm t id i p d) s = .next s) ∧
      ∀ x, noteWaiting s 1 id.toNat p d ((r.members[i]?).map (·.serial)) = some x →
        (r.plan.combined = false ∨ p ≠ r.plan.planDigest ∨ d ≠ r.plan.combineDigest →
          exec (.combineConfirm t id i p d) s = .next (takeMsg s x)) ∧
        (r.plan.combined = true → p = r.plan.planDigest → d = r.plan.combineDigest →
          ∃ s' r', exec (.combineConfirm t id i p d) s = .next s' ∧ roundOf s' t id.toNat = some r' ∧
            slice x.2.bytes 12 16 ∈ r'.confirms ∧
            r'.members = r.members.map (fun m => if m.serial == slice x.2.bytes 12 16 then { m with confirmed := true } else m) ∧
            (linkOf s' x.1).inbox = (linkOf s x.1).inbox.erase x.2)) ∧
    (∀ uid k, ticketOf s uid = some k → k.op = 0x27 → k.stage = 1 → ticketRuns k = true → k.tarn = t → opW k 0 = id.toNat →
      r.attachUid = some uid →
      (r.attachBeat + 3 * barBeats s ≤ s.beat → ∃ s' r', exec (.combineAttachTimeout uid) s = .next s' ∧
        EndsWith s' uid .timeout (r.members.filter (·.confirmed)).length 0 ∧
        roundOf s' t id.toNat = some r' ∧ r'.attachUid = none ∧ r'.attached = r.attached) ∧
      (s.beat < r.attachBeat + 3 * barBeats s → exec (.combineAttachTimeout uid) s = .next s)) ∧
    (let note := fun kind => noteWaiting s kind id.toNat r.plan.planDigest r.plan.combineDigest (r.members.head?.map (·.serial))
     (note 2 = none → exec (.leaderCloseMessage t id) s = .next s) ∧
     (note 3 = none → exec (.leaderReleaseMessage t id) s = .next s) ∧
     (note 4 = none → exec (.leaderAbortMessage t id) s = .next s) ∧
     (r.plan.combined = true → r.isLeader = false →
      (∀ x, note 2 = some x →
        exec (.leaderCloseMessage t id) s = .next (modRound (takeMsg s x) t id.toNat fun r => { r with leaderClose := true })) ∧
      (∀ x, note 3 = some x →
        exec (.leaderReleaseMessage t id) s = .next (modRound (takeMsg s x) t id.toNat fun r => { r with leaderRelease := true })) ∧
      (∀ x, note 4 = some x → rstateLive r.state = true →
        ∃ s' r', exec (.leaderAbortMessage t id) s = .next s' ∧ roundOf s' t id.toNat = some r' ∧
          r'.abortAsked = some .roundAborted ∧ (linkOf s' x.1).inbox = (linkOf s x.1).inbox.erase x.2))) ∧
    (orphanDue s r = true → ∃ s' r', exec (.memberOrphanAbort t id) s = .next s' ∧ roundOf s' t id.toNat = some r' ∧
      r'.state = .aborted) ∧
    (orphanDue s r = false → exec (.memberOrphanAbort t id) s = .next s) ∧
    (∀ i bitmap image, dataFrom s id.toNat (bitmap ++ image) = none → exec (.combineData t id i bitmap image) s = .next s) ∧
    ∀ i m, r.members[i]? = some m →
      (∀ (bitmap image : Bytes) (d : Nat), dataFrom s id.toNat (bitmap ++ image) = some d →
        let s0 := { s with links := s.links.map fun l => { l with inbox := l.inbox.filter fun m =>
          !(isDataFor s id.toNat m && (msgOf m.bytes).src == d) } }
        (m.received = true ∨ m.missing = true → exec (.combineData t id i bitmap image) s = .next s0) ∧
        (r.plan.combined = true → r.isLeader = true → r.attached = true → m.serial ≠ deviceSerial s → m.received = false → m.missing = false →
          image.length = r.plan.l * elemLen r.plan → bitmap.length = cdiv m.count 8 →
          (r.state = .isOpen → (∀ y ∈ r.memberData, y.1 ≠ i) → exec (.combineData t id i bitmap image) s =
            .next (modRound s0 t id.toNat fun r => { r with memberData := r.memberData ++ [(i, bitmap, image)] })) ∧
          (r.state = .closed → ∃ s' r', exec (.combineData t id i bitmap image) s = .next s' ∧ roundOf s' t id.toNat = some r' ∧
            s'.mem = (imgAdd s r.plan false (vecWords r.plan image)).mem ∧ s'.links = s0.links ∧
            r'.members[i]? = some { m with received := true } ∧
            ∀ c, c ∈ r'.accepted ↔ c ∈ r.accepted ∨ c ∈ bitsOf bitmap m.first m.count))) ∧
      (let late := r.plan.combined && r.isLeader && r.state == .closed && m.serial != deviceSerial s && !m.received && !m.missing &&
          decide (r.closeBeat + 2 * barBeats s ≤ s.beat)
       (late = true → ∃ s' r', exec (.memberMissing t id i) s = .next s' ∧ roundOf s' t id.toNat = some r' ∧
          r'.members[i]? = some { m with missing := true } ∧ r'.memberMissing = true ∧ s'.mem = s.mem) ∧
       (late = false → exec (.memberMissing t id i) s = .next s))

/-- In every state each Basin command answers a state that differs from the first at most in tickets, what the Tarns hold, the functions' sessions and advisories, memory and poison, links, what has been sent, the Tally, the requests for the
coming seam, the rebuild queue and the counter of free values; and a command that names a Tarn, but for RECORD_INTAKE_RESUME, changes what no other Tarn holds. -/
def Obligations.BasinCommandsFrame : Prop :=
  ∀ (s : State) (uid : Nat) (t : TarnIx) (id : BitVec 32) (i : Nat) (a b : Bytes) (c : Instr),
    let named := c = .roundOpened t id ∨ c = .recordArrival t id i ∨ c = .foldComplete t id i ∨ c = .stageTimeout t id i ∨
      c = .shareEntry t id ∨ c = .kaeJobComplete t i ∨ c = .hkdfComplete t i ∨
      c = .maskCorrectionDone t id i ∨ c = .close t id ∨ c = .roundLeaveClosed t id ∨ c = .roundRelease t id ∨
      c = .unmaskTimeout t id ∨ c = .roundRegionScrubbed t id ∨ c = .combineConfirm t id i a b ∨ c = .leaderCloseMessage t id ∨
      c = .leaderReleaseMessage t id ∨ c = .leaderAbortMessage t id ∨ c = .combineData t id i a b ∨ c = .memberMissing t id i ∨
      c = .memberOrphanAbort t id
    (named ∨ c = .recordIntakeResume t ∨ c = .roundOpen uid ∨ c = .contribSubmit uid ∨ c = .sharesSubmit uid ∨ c = .rebuildComplete ∨ c = .roundClose uid ∨
      c = .roundAbort uid ∨ c = .roundStatus uid ∨ c = .certRead uid ∨ c = .combineAttach uid ∨ c = .combineAttachTimeout uid) →
    ∃ s', exec c s = .next s' ∧
      s' = { s with tickets := s'.tickets, tarns := s'.tarns, fns := s'.fns, mem := s'.mem, poison := s'.poison, links := s'.links,
                    outbox := s'.outbox, tally := s'.tally, pendRules := s'.pendRules, rebuilds := s'.rebuilds,
                    freeCtr := s'.freeCtr } ∧
      (named → ∀ u, u ≠ t → tarnOf s' u = tarnOf s u)

/-- For every write of bytes at addresses of either view and every poisoned word: the word is clean afterwards exactly when the write covers all of its 32 bytes. -/
def Obligations.PartialWritesKeepPoison : Prop :=
  ∀ (s : State) (a : Nat) (bs : Bytes) (w : Nat), inViews a bs.length = true → wordBad s.poison w = true →
    (wordBad (devWrite s a bs).poison w = false ↔ ∀ i, i < 32 → some (32 * w + i) ∈ rangeKeys a bs.length)

/-- On a running device: a patrol read of a word of a channel that responds, visible, spare or device-private, counts it and
changes no byte of memory; a corrected word and an uncorrectable one are each counted, and an uncorrectable one is poisoned,
under its own address, under the address whose data a remap holds there, or as a word that no address names; a read of a channel
that does not respond, or past the channel's 36 slices, changes nothing. A row at 2,048 activations has the two rows on each
side refreshed. A CXL.mem access that is permitted and meets no stack in thermal hold reads the line's bytes with its poison, or
writes the line and no other byte, unless a channel of the line is retired, when it writes nothing; a write of another length is
an error; one to a stack in hold is kept with its beat of arrival; one that is not aligned or not permitted is an error. A CXL
snoop finds no line on a port that runs CXL, and is nothing on one that runs PCIe. No two addresses of one view name the same
byte, and the address of the channel-linear view that the equations give names the byte of the interleaved address. -/
def Obligations.MemoryPlaneActs : Prop :=
  ∀ (s : State), Good s → running s = true →
    (∀ (st : StackIx) (c : ChanIx) (o n : Nat), let ch := chanIx st c
      let counts := fun (s : State) => (assocGet (unitNum (mkUnit kChan ch)) s.units.counts).getD (0, 0)
      (o < 36 * 2 ^ 25 → s.units.chans.getD ch .lost ≠ .lost →
        ∃ s', exec (.patrolScrub st c o n) s = .next s' ∧ s'.mem = s.mem ∧ s'.patrol = s.patrol + 1 ∧
          (n = 0 → s' = { s with patrol := s.patrol + 1 }) ∧
          (n = 1 → counts s' = ((counts s).1 + 1, (counts s).2)) ∧
          (n ≤ 1 → s'.poison = s.poison ∧ s'.hiddenPoison = s.hiddenPoison) ∧
          (2 ≤ n → counts s' = ((counts s).1, (counts s).2 + 1) ∧
            (o < 2 ^ 30 → wordBad s'.poison ((ch * 2 ^ 30 + o) / 32) = true ∧ s'.hiddenPoison = s.hiddenPoison) ∧
            (∀ w, 2 ^ 30 ≤ o → o < 2 ^ 30 + 2 ^ 26 → remappedWord s ch o = some w →
              wordBad s'.poison w = true ∧ s'.hiddenPoison = s.hiddenPoison) ∧
            (2 ^ 30 ≤ o → (2 ^ 30 + 2 ^ 26 ≤ o ∨ remappedWord s ch o = none) → s'.poison = s.poison ∧ (ch, o) ∈ s'.hiddenPoison))) ∧
      (36 * 2 ^ 25 ≤ o ∨ s.units.chans.getD ch .lost = .lost → exec (.patrolScrub st c o n) s = .next s)) ∧
    (∀ (st : StackIx) (c : ChanIx) (row n : Nat),
      (2048 ≤ n → exec (.targetedRefresh st c row n) s = .next { s with dram := s.dram.modify st fun d =>
        { d with refreshed := ((if 2 ≤ row then [row - 2] else []) ++ (if 1 ≤ row then [row - 1] else []) ++ [row + 1, row + 2]).map fun x => (c.val, x) } }) ∧
      (n < 2048 → exec (.targetedRefresh st c row n) s = .next s)) ∧
    (∀ (p : Port) (t : TarnIx) (o a : Nat) (req : CxlReq), o % 64 = 0 → hdmAddr s t o = some a → hdmOk s p t a = true →
      (touchesHold s a 64 = true → exec (.cxlMemAccess p t o req) s =
        .next { s with cxlHeld := s.cxlHeld ++ [{ port := p, tarn := t, addr := a, req, stamp := s.beat }] }) ∧
      (touchesHold s a 64 = false →
        (req = .read → exec (.cxlMemAccess p t o req) s =
          .next (emit s (.cxl p true (poisoned s a 64 || touchesRetired s a 64) (devRead s a 64)))) ∧
        (∀ line : Bytes, req = .write line →
          (line.length ≠ 64 → exec (.cxlMemAccess p t o req) s = .next (emit s (.cxl p false false []))) ∧
          (line.length = 64 → touchesRetired s a 64 = true → exec (.cxlMemAccess p t o req) s = .next (emit s (.cxl p true false []))) ∧
          (line.length = 64 → touchesRetired s a 64 = false →
            ∃ s', exec (.cxlMemAccess p t o req) s = .next s' ∧ s'.outbox = s.outbox ++ [.cxl p true false []] ∧
              (∀ i, i < 64 → ∀ key, addrKey (a + i) = some key → cellGet s'.mem key = line.getD i 0) ∧
              ∀ key, (∀ i, i < 64 → addrKey (a + i) ≠ some key) → cellGet s'.mem key = cellGet s.mem key)))) ∧
    (∀ (p : Port) (t : TarnIx) (o : Nat) (req : CxlReq), o % 64 ≠ 0 ∨ (∀ a, hdmAddr s t o = some a → hdmOk s p t a = false) →
      exec (.cxlMemAccess p t o req) s = .next (emit s (.cxl p false false []))) ∧
    (∀ (p : Port) (l : Nat), ((portSt s p).cxl = true → exec (.cxlSnoop p l) s = .next (emit s (.snoopMiss p))) ∧
      ((portSt s p).cxl = false → exec (.cxlSnoop p l) s = .next s)) ∧
    (∀ a b, a < 2 ^ 38 → b < 2 ^ 38 → addrKey a = addrKey b → a = b) ∧
    ∀ a, a < 2 ^ 38 → let (i, c, co) := interleave a
      i < 8 ∧ c < 32 ∧ co < 2 ^ 30 ∧ addrKey a = addrKey (0x8000000000 + i * 2 ^ 35 + c * 2 ^ 30 + co)

/-- On a running device each fault of a unit in service is noted for the coming seam, and one of a unit that has left service
changes nothing: tiles, Reel units, lanes, KAE cores, the field unit and control cores as failed, a channel that stops
responding as lost, a unit whose error rate passes its bound as to be retired, unless RETIRE_MODE is 1, which only writes a
GOVERNOR entry, once for each unit. A tile's fault ends the figure of its group that runs on that physical tile, and no figure
that does not. A copied channel is served from the spare area. A spare that is ready takes its tile's number. A firmware fault
and its restart are noted, and a restart during a drain loads the staged image. A fatal fault sets FATAL, stops every figure and
every host read, and is nothing on a device that is FATAL. -/
def Obligations.FailuresAreTaken : Prop :=
  ∀ (s : State), Shaped s → running s = true →
    (∀ tile : Fin 128, (s.units.tileFailed.getLsbD tile = false → ∃ s', exec (.tileFault tile) s = .next s' ∧
        (mkUnit kTile tile, 0) ∈ s'.units.failing ∧
        (∀ f, figOf s (tile / 8) = some f → f.cycles = none → f.fault = none → f.phys.contains (s.units.tileMap.getD tile 0) = true →
          ∃ f', figOf s' (tile / 8) = some f' ∧ f'.fault = some .unitFailed) ∧
        (∀ f, figOf s (tile / 8) = some f → f.phys.contains (s.units.tileMap.getD tile 0) = false → s'.figs = s.figs)) ∧
      (s.units.tileFailed.getLsbD tile = true → exec (.tileFault tile) s = .next s)) ∧
    (∀ (st : StackIx) (c : ChanIx), let ch := chanIx st c
      (s.units.chans.getD ch .lost = .working →
        (s.gov.bounds.retireMode ≠ 1 → ∃ s', exec (.channelRetire st c) s = .next s' ∧ (mkUnit kChan ch, 3) ∈ s'.units.failing) ∧
        (s.gov.bounds.retireMode = 1 → unitNum (mkUnit kChan ch) ∉ s.units.advised → ∃ s', exec (.channelRetire st c) s = .next s' ∧
          s'.units.failing = s.units.failing ∧ s.tally.next < s'.tally.next ∧ unitNum (mkUnit kChan ch) ∈ s'.units.advised) ∧
        (s.gov.bounds.retireMode = 1 → unitNum (mkUnit kChan ch) ∈ s.units.advised → exec (.channelRetire st c) s = .next s)) ∧
      (s.units.chans.getD ch .lost ≠ .working → exec (.channelRetire st c) s = .next s) ∧
      (s.units.chans.getD ch .lost = .copying → ∃ s', exec (.channelCopyDone st c) s = .next s' ∧
        s'.units.chans.getD ch .lost = .remapped ∧ s'.mem = s.mem ∧ s'.poison = s.poison) ∧
      (s.units.chans.getD ch .lost ≠ .copying → exec (.channelCopyDone st c) s = .next s) ∧
      (s.units.chans.getD ch .lost ≠ .lost → ∃ s', exec (.channelLost st c) s = .next s' ∧ (mkUnit kChan ch, 1) ∈ s'.units.failing) ∧
      (s.units.chans.getD ch .lost = .lost → exec (.channelLost st c) s = .next s) ∧
      (s.units.reelRetired.getLsbD ch = false → ∃ s', exec (.reelUnitFault st c) s = .next s' ∧
        (mkUnit kReel ch, 0) ∈ s'.units.failing) ∧
      (s.units.reelRetired.getLsbD ch = true → exec (.reelUnitFault st c) s = .next s)) ∧
    (∀ j : LaneIx, (s.units.laneRetired.getLsbD j = false → ∃ s', exec (.basinLaneFault j) s = .next s' ∧
        (mkUnit kLane j, 0) ∈ s'.units.failing) ∧
      (s.units.laneRetired.getLsbD j = true → exec (.basinLaneFault j) s = .next s)) ∧
    (∀ c : Fin 64, (s.units.kaeFailed.getLsbD c = false → ∃ s', exec (.kaeCoreFault c) s = .next s' ∧ (mkUnit kKae c, 0) ∈ s'.units.failing) ∧
      (s.units.kaeFailed.getLsbD c = true → exec (.kaeCoreFault c) s = .next s)) ∧
    (s.units.fieldFailed = false → ∃ s', exec .fieldUnitFault s = .next s' ∧ (mkUnit kField 0, 0) ∈ s'.units.failing) ∧
    (s.units.fieldFailed = true → exec .fieldUnitFault s = .next s) ∧
    (∀ c : Fin 8, (s.units.coreFailed.getLsbD c = false → ∃ s', exec (.controlCoreFault c) s = .next s' ∧
        (mkUnit kCore c, 0) ∈ s'.units.failing) ∧
      (s.units.coreFailed.getLsbD c = true → exec (.controlCoreFault c) s = .next s)) ∧
    (∀ u n b, unitExists u = true → errorBound s.gov.bounds u = some b →
      (b < n → unitGone s u = false → s.gov.bounds.retireMode ≠ 1 →
        ∃ s', exec (.errorRateRetire u n) s = .next s' ∧ (u, 3) ∈ s'.units.failing) ∧
      (n ≤ b ∨ unitGone s u = true ∨ s.gov.bounds.retireMode = 1 →
        ∃ s', exec (.errorRateRetire u n) s = .next s' ∧ s'.units.failing = s.units.failing ∧
          ∃ x, assocGet (unitNum u) s'.units.counts = some x ∧ x.1 = n)) ∧
    (∀ u n, unitExists u = false ∨ errorBound s.gov.bounds u = none → exec (.errorRateRetire u n) s = .next s) ∧
    (∀ (q : Fin 4),
      (∀ tile, fwUp s = true → s.units.spares.getD q .idle = .ready → s.units.spareFor.getD q none = some tile → tile < 128 →
        ∃ s', exec (.sparePlaced q) s = .next s' ∧ s'.units.spares.getD q .idle = .used ∧ s'.units.tileFailed.getLsbD tile = false ∧
          s'.units.tileMap.getD tile 0 = 33 * q + 32 ∧ s.tally.next < s'.tally.next) ∧
      (fwUp s = false ∨ s.units.spares.getD q .idle ≠ .ready ∨ s.units.spareFor.getD q none = none → exec (.sparePlaced q) s = .next s)) ∧
    (fwUp s = true → exec .firmwareFault s = .next { s with fw := { s.fw with faulty := true } }) ∧
    (fwUp s = false → exec .firmwareFault s = .next s) ∧
    (fwUp s = false → s.fw.restart = false →
      (s.fw.drain = none → exec .firmwareRestart s = .next { s with fw := { s.fw with restart := true } }) ∧
      (s.fw.drain.isSome = true → exec .firmwareRestart s = .next { s with fw := { s.fw with
        ctrl := { s.fw.ctrlNext with staged := false, marked := false }
        ctrlNext := { s.fw.ctrl with staged := false, marked := false }, drain := none, restart := true } })) ∧
    (fwUp s = true ∨ s.fw.restart = true → exec .firmwareRestart s = .next s) ∧
    (∃ s', exec .fatalFault s = .next s' ∧ s'.fatal = true ∧ (∀ g, figOf s' g = none) ∧ (∀ k ∈ s'.tickets, k.dma = none ∧ k.need = []) ∧
      s'.mem = s.mem ∧ s'.tally = s.tally ∧ exec .fatalFault s' = .next s')

/-- A TLS handshake with the key of an unrevoked anchor opens a session with its roles while fewer than four are open, and otherwise changes nothing; a session that ends is gone. For a request that the shared checks let go on: GET_NONCE issues 32 bytes that it keeps; TELEMETRY_READ answers the items named
or BAD_COMMAND; CHANGE_STATUS, LEDGER_READ, TALLY_READ and FW_STATUS answer what is held and change nothing; a debug read is DEBUG_LOCKED for a locked resource, NOT_PERMITTED while its switch is off, and else 64 bytes, of memory those of the unit. A locked test port selects BYPASS. -/
def Obligations.ManagementReadsAnswer : Prop :=
  ∀ (s : State) (r : GmpReq),
    (∀ (k : Nat) (key : Bytes), gmpServed s true = true →
      (s.mgmt.tls.length < 4 → k < 32 → anchorUnrevoked (anchorOf s k) = true → sha384 key = (anchorOf s k).digest →
        ∃ s', exec (.tlsHandshake k key true) s = .next s' ∧ s'.mgmt.tls = s.mgmt.tls ++ [(s.mgmt.nextTls, k, (anchorOf s k).roles)] ∧
          s' = { s with mgmt := s'.mgmt }) ∧
      (4 ≤ s.mgmt.tls.length ∨ anchorUnrevoked (anchorOf s k) = false ∨ sha384 key ≠ (anchorOf s k).digest →
        ∀ ok, exec (.tlsHandshake k key ok) s = .next s)) ∧
    (∀ n, ∃ s', exec (.tlsSessionEnd n) s = .next s' ∧ chanOpen s' (.port n) = false ∧ s' = { s with mgmt := s'.mgmt } ∧
      ∀ m, m ≠ n → chanOpen s' (.port m) = chanOpen s (.port m)) ∧
    (GmpOk s r anyRole false true false → ∃ s' n, exec (.getNonce r) s = .next s' ∧ Answered s s' r .ok n ∧ n.length = 32 ∧
      (n, s.beat) ∈ s'.mgmt.nonces ∧ s'.mgmt.nonces.length ≤ max 64 s.mgmt.nonces.length) ∧
    (∀ items : List Nat, GmpOk s r observe false true false →
      ((∀ i ∈ items, 1 ≤ i ∧ i ≤ 16) → exec (.telemetryRead r items) s =
        .next (gmpAnswer s r .ok (leBytes 8 s.mgmt.telemBeat ++ (items.map fun i => leBytes 1 i ++ telemValue s i).flatten))) ∧
      ((∃ i ∈ items, i = 0 ∨ 16 < i) → exec (.telemetryRead r items) s = .next (gmpAnswer s r .badCommand []))) ∧
    (∀ id, GmpOk s r observe false false false →
      (∀ c, setById s id = some c → exec (.gmpChangeStatus r id) s = .next (gmpAnswer s r .ok (setUnits s c).flatten)) ∧
      (setById s id = none → exec (.gmpChangeStatus r id) s = .next (gmpAnswer s r .notPermitted []))) ∧
    (∀ t sel max, GmpOk s r audit false false true →
      exec (.gmpLedgerRead r t sel max) s = .next (gmpAnswer s r (if max < (selectLedger s t sel).length then .partialRead else .ok)
        ((selectLedger s t sel).take max).flatten)) ∧
    (∀ first count, GmpOk s r audit false false true →
      exec (.gmpTallyRead r first count) s = .next (gmpAnswer s r .ok ((tallyRange s.tally first count).map tallyBytes).flatten)) ∧
    (GmpOk s r observe false true false → exec (.fwStatus r) s = .next (gmpAnswer s r .ok
      (bankBytes s.fw.kernel ++ bankBytes s.fw.kernelNext ++ bankBytes s.fw.ctrl ++ bankBytes s.fw.ctrlNext
        ++ leBytes 1 s.fuses.rollback))) ∧
    (∀ kind x o, GmpOk s r security false false false →
      (lockedRes s x = true → exec (.debugReadRequest r kind x o) s = .next (gmpAnswer s r .debugLocked [])) ∧
      (lockedRes s x = false → debugOn s.mgmt.switches kind = false →
        exec (.debugReadRequest r kind x o) s = .next (gmpAnswer s r .notPermitted [])) ∧
      (lockedRes s x = false → debugOn s.mgmt.switches kind = true →
        ∃ s' b, exec (.debugReadRequest r kind x o) s = .next s' ∧ Answered s s' r .ok b ∧ b.length = 64 ∧ s'.mem = s.mem ∧
          ∀ st u, x = .memUnit st u → kind = .readBack →
            b = devRead s (linAddr (32 * st + o / 2 ^ 25 % 32) (u * 2 ^ 25 + o % 2 ^ 25)) 64)) ∧
    ∀ i, s.board.mainPower = true →
      exec (.testPortInstruction i) s = .next (emit s (.testPort (match i with
        | .other c => if bit (debugDevice s) 0 then .other c else .bypass
        | x => x)))

/-- For a request that the shared checks let go on: CHANGE_SUBMIT keeps a set that passes the checks and answers its ID, answers
the status of one that fails, and BAD_COMMAND where its own fields are not legal; GOVERNOR_SET keeps its bounds for the coming
step 7, which answers OK and accepts them where they are legal, and answers BAD_COMMAND where not; BIST_RUN tests a free unit,
and is BAD_COMMAND, DEBUG_LOCKED or NOT_PERMITTED where it may not; a unit's retirement waits for the coming seam; a link is
enabled again; TIMING_SET, PORT_SET and NETWORK_SET take their settings, or are BAD_COMMAND; LINK_SET answers the status of a
change that may not be made and makes none, and else takes an allow list, a mode, for which the link goes DOWN, or a grant,
which waits for the coming step 5. TALLY_ACK raises the acknowledged SEQs and never lowers them; CHECKPOINT starts a signature,
waits for one in progress, or is ROOT_LOST. The end of a signature makes its entries readable. -/
def Obligations.ManagementSettingsAct : Prop :=
  ∀ (s : State) (r : GmpReq), Shaped s →
    (∀ force set, GmpOk s r operate (setHasMap set) false false →
      let legal : Prop := r.body = leBytes 1 (b2n force) ++ zeros 7 ++ set
      let x := submitMgmt (useNonce s r (setHasMap set)) set force (some (r.channel, r.requestId))
      (legal → x.1 = .ok → ∃ s' c, exec (.gmpChangeSubmit r force set) s = .next s' ∧ c ∈ s'.sets ∧ c.id = s.nextSet ∧ c.mgmt = true ∧
        c.forced = force ∧ c.state = .waiting ∧ s'.map = s.map ∧ s'.table = s.table ∧
        Answered s s' r (if c.phases.length = 2 then .staged else .ok) (setUnits x.2 c).flatten) ∧
      (legal → ∀ st, x.1 = st → st ≠ .ok → ∃ s', exec (.gmpChangeSubmit r force set) s = .next s' ∧ Answered s s' r st [] ∧ s'.sets = s.sets) ∧
      (¬ legal → ∃ s', exec (.gmpChangeSubmit r force set) s = .next s' ∧ Answered s s' r .badCommand [] ∧
        s' = { s with mgmt := s'.mgmt, outbox := s'.outbox })) ∧
    (∀ b, GmpOk s r operate false false false →
      exec (.governorSet r b) s = .next { s with gov := { s.gov with askedBounds := s.gov.askedBounds ++ [(r.channel, r.requestId, b)] } }) ∧
    (∀ b, s.gov.askedBounds = [(r.channel, r.requestId, b)] → chanOpen s r.channel = true →
      Answered s (acceptBounds s) r (if boundsOk s b then .ok else .badCommand) [] ∧
      (acceptBounds s).gov = { s.gov with askedBounds := [], pendingBounds := if boundsOk s b then [b] else [] }) ∧
    (∀ u code, GmpOk s r operate false false false →
      (testOk u code = false → exec (.gmpBistRun r u code) s = .next (gmpAnswer s r .badCommand [])) ∧
      (testOk u code = true → (∃ x ∈ bistRes u, lockedRes s x = true) → exec (.gmpBistRun r u code) s = .next (gmpAnswer s r .debugLocked [])) ∧
      (testOk u code = true → (∀ x ∈ bistRes u, lockedRes s x = false) →
        (bistFree s u = false → exec (.gmpBistRun r u code) s = .next (gmpAnswer s r .notPermitted [])) ∧
        (bistFree s u = true → ∃ s', exec (.gmpBistRun r u code) s = .next s' ∧ s'.outbox = s.outbox ∧
          s'.bists = s.bists ++ [{ unit := u, code, gmp := some (r.channel, r.requestId), stage := 2 }]))) ∧
    (∀ u, GmpOk s r operate false false false →
      let there : Prop := unitExists u = true ∧ 0 < u.kind.toNat ∧ u.kind.toNat ≤ 0x0B
      (there → unitGone s u = false → ∃ s', exec (.unitRetire r u) s = .next s' ∧ (u, 2) ∈ s'.units.failing ∧ Answered s s' r .ok []) ∧
      (there → unitGone s u = true → exec (.unitRetire r u) s = .next (gmpAnswer s r .ok [])) ∧
      (¬ there → exec (.unitRetire r u) s = .next (gmpAnswer s r .badCommand []))) ∧
    (∀ n, GmpOk s r operate false false false → ∃ s', exec (.linkReenable r n) s = .next s' ∧ (linkOf s' n).held = false ∧
      (linkOf s' n).flaps = [] ∧ (linkOf s' n).state = (linkOf s n).state ∧
      ((linkOf s n).state = .down → (linkOf s' n).lanes = 8 ∧ (linkOf s' n).laneFaults = 0) ∧
      ((linkOf s n).state ≠ .down → (linkOf s' n).lanes = (linkOf s n).lanes) ∧ Answered s s' r .ok []) ∧
    (∀ m d n p, GmpOk s r operate false false false → ∃ s', exec (.timingSet r m d n p) s = .next s' ∧ Answered s s' r .ok [] ∧
      s'.timing.mode = m ∧ s'.timing.domain = d ∧ s'.timing.deviceNo = n ∧ s'.timing.priority = p ∧
      s'.flash = { s.flash with mode := m, domain := d, deviceNo := n, priority := p } ∧ s'.beat = s.beat) ∧
    (∀ x8 l, GmpOk s r operate false false false →
      (l.length = 8 → exec (.portSet r x8 l) s = .next (gmpAnswer { s with flash := { s.flash with x8, assign := l } } r .ok [])) ∧
      (l.length ≠ 8 → exec (.portSet r x8 l) s = .next (gmpAnswer s r .badCommand []))) ∧
    (∀ items, GmpOk s r security true false false →
      let few : Prop := ((List.finRange 12).filter fun k => modeAfter s items k == .intake).length ≤ 4
      let waits := fun (x : PendRule) => ∃ s', exec (.linkSet r items) s = .next s' ∧
        s' = { s with mgmt := s'.mgmt, pendRules := s.pendRules ++ [x] } ∧ s'.mgmt.allow = s.mgmt.allow
      (∀ st, (items.findSome? (linkItemBad s) = some st ∨ (items.findSome? (linkItemBad s) = none ∧ ¬ few ∧ st = .notPermitted)) →
        ∃ s', exec (.linkSet r items) s = .next s' ∧ Answered s s' r st [] ∧ s' = { s with mgmt := s'.mgmt, outbox := s'.outbox } ∧
          s'.mgmt.allow = s.mgmt.allow) ∧
      (∀ ds, items = [.allowList ds] → few → (∀ d ∈ ds, List.length d = 48) →
        ∃ s', exec (.linkSet r items) s = .next s' ∧ s'.mgmt.allow = ds ∧ s'.links = s.links ∧ Answered s s' r .ok []) ∧
      (∀ n m, items = [.mode n m] → few → (m = (linkOf s n).mode ∨ carriesCombined s n = false) →
        ∃ s', exec (.linkSet r items) s = .next s' ∧ (linkOf s' n).mode = m ∧ (m = (linkOf s n).mode → s'.links = s.links) ∧
          (m ≠ (linkOf s n).mode → (linkOf s' n).state = .down) ∧ (∀ k, k ≠ n → linkOf s' k = linkOf s k) ∧ Answered s s' r .ok []) ∧
      (∀ t d x, items = [.grant t d x] → few → live s t = true → isConf s t = false →
        waits (.grant (some (r.channel, r.requestId)) t d x true)) ∧
      (∀ t d x, items = [.ungrant t d x] → few → live s t = true → waits (.grant (some (r.channel, r.requestId)) t d x false))) ∧
    (GmpOk s r (if r.channel == .board then anyRole else operate) false true false →
      ∀ b, (netOf r.body = some b → ∃ s', exec (.networkSet r b) s = .next s' ∧ s'.flash = { s.flash with net := some b } ∧ Answered s s' r .ok [] ∧
          s'.mgmt.tls = if netKey s.flash.net = netKey (some b) then s.mgmt.tls else []) ∧
        (netOf r.body ≠ some b → exec (.networkSet r b) s = .next (gmpAnswer s r .badCommand []))) ∧
    (∀ q, GmpOk s r audit true false false → ∃ s', exec (.tallyAck r q) s = .next s' ∧
      s'.tally = { s.tally with acked := max s.tally.acked (min (q + 1) s.tally.next) } ∧ Answered s s' r .ok []) ∧
    (GmpOk s r audit false false false →
      (rootOk s = false → exec (.checkpoint r) s = .next (gmpAnswer s r .rootLost [])) ∧
      (rootOk s = true → s.tally.signing = none → ∃ s', exec (.checkpoint r) s = .next s' ∧ s'.tally.signing.isSome = true ∧
        s.tally.next + 2 ≤ s'.tally.next ∧ s'.outbox = s.outbox) ∧
      (rootOk s = true → s.tally.signing ≠ none → ∃ s', exec (.checkpoint r) s = .next s' ∧ s'.tally = s.tally ∧
        s'.mgmt.cpWait = s.mgmt.cpWait ++ [(r.channel, r.requestId)])) ∧
    (running s = true →
      (s.tally.signing ≠ none → s.mgmt.cpWait = [] → ∃ s', exec .checkpointSigned s = .next s' ∧
        s'.tally = { s.tally with signing := none } ∧ tallyReadable s'.tally = s.tally.next) ∧
      (s.tally.signing ≠ none → s.mgmt.cpWait ≠ [] → ∃ s', exec .checkpointSigned s = .next s' ∧ s'.mgmt.cpWait = [] ∧
        (rootOk s = true → s'.tally.signing.isSome = true ∧ s.tally.next + 2 ≤ s'.tally.next ∧ s'.mgmt.cpGmp = s.mgmt.cpWait) ∧
        (rootOk s = false → s'.tally = { s.tally with signing := none } ∧ s'.mgmt.cpGmp = [])) ∧
      (s.tally.signing = none → exec .checkpointSigned s = .next s) ∧
      (checkpointDue s = true → rootOk s = true → s.tally.signing = none →
        ∃ s', exec .tallyCheckpointAuto s = .next s' ∧ s'.tally.signing.isSome = true ∧ s.tally.next + 2 ≤ s'.tally.next) ∧
      (checkpointDue s = false → exec .tallyCheckpointAuto s = .next s))

/-- For a request that the shared checks let go on, and whose refusals change nothing but the answer: TRUST_ADD burns the lowest
free anchor slot, without a signature only while the store is empty; TRUST_REMOVE revokes a slot, but never the last SECURITY
anchor; FLOOR_SET, AUTHORITY_SET and TAG_KEY_SET take effect for a Tarn that exists; a parent entry is assigned or freed with
its generation raised, and one at the last generation becomes SPENT; ROOT_BLOB_CREATE records its key check and answers a blob
of 112 bytes; DEBUG_SET sets the switches; a life-cycle transition that Table 11-7 lists burns its fuse, empties the key store
and makes a new root, or none when RETIRED, and every other is refused; REPROVISION makes a new root where there is none;
TAMPER_ARM burns its fuse before DEPLOYED. Which anchor slot is burnt (log 21) and the parent entries' refusals (log 43) are the
model's reading. -/
def Obligations.SecurityCommandsAct : Prop :=
  ∀ (s : State) (r : GmpReq), Shaped s →
    let no := fun (c : Instr) (st : Status) =>
      ∃ s', exec c s = .next s' ∧ Answered s s' r st [] ∧ s' = { s with mgmt := s'.mgmt, outbox := s'.outbox }
    (∀ (d : Bytes) roles, (GmpOk s r security true true false ∧ trustFree s r = false ∨ GmpOk s r anyRole false true false ∧ trustFree s r = true) →
      (∀ k, d.length = 48 → (upto 32).find? (fun k => !(anchorOf s k).burnt) = some k →
        ∃ s', exec (.trustAdd r d roles) s = .next s' ∧ Answered s s' r .ok (leBytes 1 k) ∧ (anchorOf s' k).burnt = true ∧
          (anchorOf s' k).revoked = false ∧ (anchorOf s' k).digest = d ∧ (anchorOf s' k).roles = roles ∧ ∀ j, j ≠ k → anchorOf s' j = anchorOf s j) ∧
      (d.length = 48 → (∀ k, k < 32 → (anchorOf s k).burnt = true) → no (.trustAdd r d roles) .counterExhausted) ∧
      (d.length ≠ 48 → no (.trustAdd r d roles) .badCommand)) ∧
    (∀ k, GmpOk s r security true true false →
      (k < 32 → (anchorOf s k).burnt = true →
        (∃ j, j < 32 ∧ j ≠ k ∧ anchorUnrevoked (anchorOf s j) = true ∧ (anchorOf s j).roles &&& security = security) →
        ∃ s', exec (.trustRemove r k) s = .next s' ∧ Answered s s' r .ok [] ∧ (anchorOf s' k).revoked = true ∧
          ∀ j, j ≠ k → anchorOf s' j = anchorOf s j) ∧
      (k < 32 → (anchorOf s k).burnt = false ∨
          (∀ j, j < 32 → j ≠ k → anchorUnrevoked (anchorOf s j) = true → (anchorOf s j).roles &&& security ≠ security) →
        no (.trustRemove r k) .notPermitted) ∧
      (32 ≤ k → no (.trustRemove r k) .badCommand)) ∧
    (GmpOk s r security true false false →
      (∀ t f, (∀ n, tarnOf s t = some n →
          (64 ≤ f → f ≤ 268435456 → ∃ s', exec (.floorSet r t f) s = .next s' ∧ Answered s s' r .ok [] ∧
            tarnOf s' t = some { n with opFloor := f } ∧ s.tally.next < s'.tally.next) ∧
          (f < 64 → no (.floorSet r t f) .notPermitted) ∧ (268435456 < f → no (.floorSet r t f) .badCommand)) ∧
        (tarnOf s t = none → no (.floorSet r t f) .notPermitted)) ∧
      (∀ t keys, (List.length keys ≤ 4 → (∀ k ∈ keys, List.length k = 97) →
          (∀ n, tarnOf s t = some n →
            ∃ s', exec (.authoritySet r t keys) s = .next s' ∧ Answered s s' r .ok [] ∧ tarnOf s' t = some { n with authKeys := keys }) ∧
          (tarnOf s t = none → no (.authoritySet r t keys) .notPermitted)) ∧
        (4 < List.length keys ∨ (∃ k ∈ keys, List.length k ≠ 97) → no (.authoritySet r t keys) .badCommand)) ∧
      (∀ t (e c : Bytes) (i g : Bytes), let form : Prop := e.length = 97 ∧ i.length = 12 ∧ c.length = 32 ∧ g.length = 16
        (∀ n k, form → tarnOf s t = some n → isConf s t = false → openTagKey s e i c g = some k →
          ∃ s', exec (.tagKeySet r t e i c g) s = .next s' ∧ Answered s s' r .ok [] ∧ tarnOf s' t = some { n with tagKey := some k }) ∧
        (form → tarnOf s t = none ∨ isConf s t = true ∨ openTagKey s e i c g = none → no (.tagKeySet r t e i c g) .notPermitted) ∧
        (¬ form → no (.tagKeySet r t e i c g) .badCommand)) ∧
      (∀ p t, 1 ≤ p → p ≤ 1023 →
        ((parentOf s p).state = 2 → no (.parentAssign r p t) .counterExhausted ∧ no (.parentFree r p) .counterExhausted) ∧
        ((parentOf s p).state ≠ 2 → let last : Prop := (parentOf s p).gen = 0xFFFFFFFF
          ((∃ i, 1 ≤ i ∧ i ≤ 1023 ∧ (parentOf s i).state = 0) → ∃ s', exec (.parentAssign r p t) s = .next s' ∧ s.tally.next < s'.tally.next ∧
            (¬ last → (parentOf s' p).state = 1 ∧ (parentOf s' p).owner.toNat = t.val ∧ (parentOf s' p).gen = (parentOf s p).gen + 1 ∧
              (parentOf s' p).kcvSet = false ∧ Answered s s' r .ok (leBytes 4 ((parentOf s p).gen.toNat + 1))) ∧
            (last → (parentOf s' p).state = 2 ∧ Answered s s' r .ok (zeros 4))) ∧
          ((∀ i, 1 ≤ i → i ≤ 1023 → (parentOf s i).state ≠ 0) → no (.parentAssign r p t) .notPermitted) ∧
          ∃ s', exec (.parentFree r p) s = .next s' ∧ s.tally.next < s'.tally.next ∧
            (¬ last → (parentOf s' p).state = 0 ∧ (parentOf s' p).gen = (parentOf s p).gen + 1 ∧
              Answered s s' r .ok (leBytes 4 ((parentOf s p).gen.toNat + 1))) ∧
            (last → (parentOf s' p).state = 2 ∧ Answered s s' r .ok (zeros 4)))) ∧
      (∀ p t, p = 0 ∨ 1023 < p → no (.parentAssign r p t) .badCommand ∧ no (.parentFree r p) .badCommand) ∧
      (∀ p u (l : Bytes), let form : Prop := 1 ≤ p ∧ p ≤ 1023 ∧ 1 ≤ u ∧ u ≤ 4 ∧ l.length = 16
        (¬ form → no (.rootBlobCreate r p u l) .badCommand) ∧
        (form → rootOk s = false → no (.rootBlobCreate r p u l) .rootLost) ∧
        (form → rootOk s = true → (parentOf s p).state ≠ 1 → no (.rootBlobCreate r p u l) .notPermitted) ∧
        (form → rootOk s = true → (parentOf s p).state = 1 → ∃ s' b, exec (.rootBlobCreate r p u l) s = .next s' ∧ Answered s s' r .ok b ∧
          b.length = 112 ∧ (parentOf s' p).kcvSet = true ∧ (parentOf s' p).gen = (parentOf s p).gen ∧ s'.keys = s.keys)) ∧
      (∀ sw, ∃ s', exec (.debugSet r sw) s = .next s' ∧ s'.mgmt.switches = sw ∧ s.tally.next < s'.tally.next ∧ Answered s s' r .ok []) ∧
      (∀ dst, let may : Prop := lifeNext (lifeOf s.fuses.lc) dst = true ∧ (∀ e ∈ s.map.entries, e.state ≠ 1) ∧
          (∀ x ∈ trackedResources, statOf s x ≠ .scrubbing) ∧ (dst = .deployed → storeEmpty s = false)
        (¬ may → no (.lifecycleSet r dst) .notPermitted) ∧
        (may → ∃ s', exec (.lifecycleSet r dst) s = .next s' ∧ lifeOf s'.fuses.lc = dst ∧ s'.keys = List.replicate 512 {} ∧
          s'.bbram.lcMirror.toNat = lifeCode dst ∧ (rootOk s' = true ↔ dst ≠ .retired) ∧ s.tally.next < s'.tally.next ∧
          s'.outbox.getLast? = some (.gmp r.channel r.requestId .ok []))) ∧
      (let may : Prop := rootOk s = false ∧ (lifeOf s.fuses.lc = .provisioned ∨ lifeOf s.fuses.lc = .deployed);
        (¬ may → no (.reprovision r) .notPermitted) ∧
        (may → ∃ s', exec (.reprovision r) s = .next s' ∧ rootOk s' = true ∧ s'.fuses = s.fuses ∧ s'.bbram.journal = List.replicate 16 {} ∧
          s'.bbram.root.length = 32 ∧ s.tally.next < s'.tally.next ∧ Answered s s' r .ok [])) ∧
      ∀ n : Fin 4, (lifeOf s.fuses.lc = .manufacture ∨ lifeOf s.fuses.lc = .provisioned →
          ∃ s', exec (.tamperArm r n) s = .next s' ∧ s'.fuses.tamperArm.getLsbD n = true ∧ Answered s s' r .ok []) ∧
        (lifeOf s.fuses.lc = .deployed ∨ lifeOf s.fuses.lc = .retired → no (.tamperArm r n) .notPermitted))

/-- For a request that the shared checks let go on: FW_STAGE begins a staging of an image of legal form, which empties the
inactive bank of its half and answers nothing yet, refuses a second staging of that half, and answers BAD_COMMAND for an image
of another form, which leaves no staged image of its half; when a staging ends, an image that passes R641 stands in the inactive
bank and is answered OK, and one that fails leaves the bank empty and is answered its status (one staging at a time, its end in
step 10, and its answer: log 45). FW_ACTIVATE refuses with nothing staged, marks the banks for the next reset when it names the
kernel, and otherwise starts a drain. The drain's end, with no ticket left or its bars passed, restarts the control firmware
from the staged bank, and nothing happens before. While the management plane serves commands, each PLDM command answers, moves
the update state only as R645 allows, and a sensor presents its telemetry item (PLDM's own layouts: log 52); while it does not
serve, none has an effect. -/
def Obligations.FirmwareAndSensorsAct : Prop :=
  ∀ (s : State) (r : GmpReq),
    let bank := fun (s : State) (half : Nat) => if half = 0 then s.fw.kernelNext else s.fw.ctrlNext
    let begins := fun (s' : State) (img : Bytes) (asker : Option (GmpChannel × Nat)) =>
      s'.outbox = s.outbox ∧ s'.fw.staging = s.fw.staging ++ [{ half := byteAt img 2, image := img, asker }] ∧
      (bank s' (byteAt img 2)).staged = false ∧ s'.fw.kernel = s.fw.kernel ∧ s'.fw.ctrl = s.fw.ctrl ∧
      bank s' (1 - byteAt img 2) = bank s (1 - byteAt img 2)
    let busy := fun (img : Bytes) => ∃ x ∈ s.fw.staging, x.half = byteAt img 2
    (∀ img, GmpOk s r operate false false false →
      (imageFormOk img = true → ¬ busy img → ∃ s', exec (.fwStage r img) s = .next s' ∧ begins s' img (some (r.channel, r.requestId))) ∧
      (imageFormOk img = true → busy img → exec (.fwStage r img) s = .next (gmpAnswer s r .notPermitted [])) ∧
      (imageFormOk img = false → ∃ s', exec (.fwStage r img) s = .next s' ∧ Answered s s' r .badCommand [] ∧
        (byteAt img 2 ≤ 1 → (bank s' (byteAt img 2)).staged = false) ∧ s'.fw.kernel = s.fw.kernel ∧ s'.fw.ctrl = s.fw.ctrl)) ∧
    (∀ x, s.fw.staging = [x] → x.half = byteAt x.image 2 → x.half ≤ 1 →
      (bank (endStages s) x.half).staged = (stageCheck s x.image == .ok) ∧ (endStages s).fw.staging = [] ∧
      s.tally.next < (endStages s).tally.next ∧ (endStages s).fw.kernel = s.fw.kernel ∧ (endStages s).fw.ctrl = s.fw.ctrl ∧
      (stageCheck s x.image = .ok → (bank (endStages s) x.half).svn = byteAt x.image 3 ∧
        (bank (endStages s) x.half).release.toNat = field x.image 4 4) ∧
      (∀ ch id, x.asker = some (ch, id) → chanOpen s ch = true → (endStages s).outbox = s.outbox ++ [.gmp ch id (stageCheck s x.image) []]) ∧
      (x.asker = none → (endStages s).outbox = s.outbox ++ [.pldm (if stageCheck s x.image = .ok then 0 else 1) []])) ∧
    (∀ k f d, GmpOk s r operate true false false →
      ((k = false ∧ f = false) ∨ 64 < d → ∃ s', exec (.fwActivate r k f d) s = .next s' ∧ Answered s s' r .badCommand [] ∧ s'.fw = s.fw) ∧
      ((k = true ∨ f = true) → d ≤ 64 →
        (activateBad s k f = true → ∃ s', exec (.fwActivate r k f d) s = .next s' ∧ Answered s s' r .notPermitted [] ∧ s'.fw = s.fw) ∧
        (activateBad s k f = false → k = true → ∃ s', exec (.fwActivate r k f d) s = .next s' ∧ Answered s s' r .ok [] ∧
          s'.fw.kernelNext.marked = true ∧ (f = true → s'.fw.ctrlNext.marked = true) ∧ s'.fw.kernel = s.fw.kernel ∧ s'.fw.ctrl = s.fw.ctrl ∧
          s'.fw.drain = s.fw.drain) ∧
        (activateBad s k f = false → k = false → ∃ s', exec (.fwActivate r k f d) s = .next s' ∧ s'.outbox = s.outbox ∧
          s'.fw.drain = some d ∧ s'.fw.drainGmp = s.fw.drainGmp ++ [(r.channel, r.requestId)]))) ∧
    (running s = true → fwUp s = true →
      (s.fw.drain = some 0 ∨ (s.fw.drain ≠ none ∧ s.tickets = []) →
        ∃ s', exec .firmwareDrainEnd s = .next s' ∧ s'.fw.ctrl.release = s.fw.ctrlNext.release ∧ s'.fw.down = some s.beat ∧
          s'.fw.drain = none ∧ s'.fw.restart = true ∧ s'.fw.faults = s.fw.faults) ∧
      (s.fw.drain = none ∨ (s.fw.drain ≠ some 0 ∧ s.tickets ≠ []) → exec .firmwareDrainEnd s = .next s)) ∧
    (gmpServed s false = true →
      let ok := fun (n : Nat) (b : Bytes) => pldmAnswer (pldmMove s n) 0 b
      let no := pldmAnswer s 1 []
      exec .queryDeviceIdentifiers s = .next (pldmAnswer s 0 [0x17, 0x1F]) ∧
      (∃ b, exec .getFirmwareParameters s = .next (pldmAnswer s 0 b) ∧ field b 2 4 = s.fw.kernel.release.toNat ∧
        field b 6 4 = s.fw.kernelNext.release.toNat ∧ field b 12 4 = s.fw.ctrl.release.toNat ∧ field b 16 4 = s.fw.ctrlNext.release.toNat) ∧
      exec .requestUpdate s = .next (if s.fw.pldm = 0 then ok 1 [] else no) ∧
      (∀ l, exec (.passComponentTable l) s = .next (if s.fw.pldm = 1 ∧ ∀ c ∈ l, c = 1 ∨ c = 2 then ok 2 [] else no)) ∧
      (∀ c img, let may : Prop := s.fw.pldm = 2 ∧ (c = 1 ∨ c = 2) ∧ byteAt img 2 + 1 = c
        (¬ may → exec (.updateComponent c img) s = .next no) ∧
        (may → (imageFormOk img = true → ¬ busy img → ∃ s', exec (.updateComponent c img) s = .next s' ∧ begins s' img none) ∧
          (imageFormOk img = false ∨ busy img → ∃ s', exec (.updateComponent c img) s = .next s' ∧ s'.outbox = s.outbox ++ [.pldm 1 []] ∧
            s'.fw.staging = s.fw.staging))) ∧
      exec .activateFirmware s = .next (if s.fw.pldm = 2 then ok 0 [] else no) ∧
      exec .getStatus s = .next (pldmAnswer s 0 (leBytes 1 s.fw.pldm)) ∧
      exec .cancelUpdateComponent s = .next (pldmAnswer s (if s.fw.pldm = 2 then 0 else 1) []) ∧
      exec .cancelUpdate s = .next (if s.fw.pldm = 0 then no else ok 0 []) ∧
      ∀ n, exec (.getSensorReading n) s = .next (if boardItem n = true ∧ n ≠ 0x0F then pldmAnswer s 0 (telemValue s n) else no) ∧
        exec (.getStateSensorReadings n) s = .next (if n = 0x0F then pldmAnswer s 0 (telemValue s n) else no)) ∧
    (gmpServed s false = false → ∀ (l : List Nat) (n : Nat) (img : Bytes), ∀ c ∈ ([.queryDeviceIdentifiers, .getFirmwareParameters,
      .requestUpdate, .passComponentTable l, .updateComponent n img, .activateFirmware, .getStatus, .cancelUpdateComponent, .cancelUpdate,
      .getSensorReading n, .getStateSensorReadings n] : List Instr), exec c s = .next s)

/-- For each GMP command and every state: when the plane serves it on an open channel and a shared check refuses it, its status
is the only effect; while it is not served it has none. In every case memory, the partition map, the schedule table, the
functions' registers and rings, the routes in force and the beat are as before, and so are figures and tickets, but for a
LINK_SET that changes a link's mode, since that takes the link DOWN and ends what waits on it (R378, R362). -/
def Obligations.ManagementCommandsFrame : Prop :=
  ∀ (s : State) (r : GmpReq) (items : List Nat) (id n m : Nat) (b1 b2 : Bool) (b3 b4 b5 b6 : Bytes) (g : Bounds) (u : UnitId)
    (l : LinkIx) (tm : TimingMode) (dm : BitVec 16) (dn : Fin 64) (pr : BitVec 8) (ps : List Port) (li : List LinkSetItem) (nb : NetBody)
    (t : TarnIx) (sel : LedgerSel) (roles : BitVec 4) (keys : List Bytes) (sw : DebugSwitch) (lc : LifeCycle) (i : Fin 4) (dk : DebugKind) (x : Resource) (c : Instr)
    (role : BitVec 4) (signed onBoard reads : Bool),
    (c, role, signed, onBoard, reads) ∈ ([
      (.getNonce r, anyRole, false, true, false), (.telemetryRead r items, observe, false, true, false),
      (.gmpChangeSubmit r b1 b3, operate, setHasMap b3, false, false), (.gmpChangeStatus r id, observe, false, false, false),
      (.governorSet r g, operate, false, false, false), (.gmpBistRun r u n, operate, false, false, false),
      (.unitRetire r u, operate, false, false, false), (.linkReenable r l, operate, false, false, false),
      (.timingSet r tm dm dn pr, operate, false, false, false), (.portSet r b1 ps, operate, false, false, false),
      (.linkSet r li, security, true, false, false),
      (.networkSet r nb, if r.channel == .board then anyRole else operate, false, true, false), (.debugReadRequest r dk x n, security, false, false, false),
      (.gmpLedgerRead r t sel n, audit, false, false, true), (.gmpTallyRead r n m, audit, false, false, true),
      (.tallyAck r n, audit, true, false, false), (.checkpoint r, audit, false, false, false),
      (.trustAdd r b3 roles, if trustFree s r then anyRole else security, !trustFree s r, true, false),
      (.trustRemove r n, security, true, true, false), (.floorSet r t n, security, true, false, false),
      (.authoritySet r t keys, security, true, false, false), (.tagKeySet r t b3 b4 b5 b6, security, true, false, false),
      (.parentAssign r n t, security, true, false, false), (.parentFree r n, security, true, false, false),
      (.rootBlobCreate r n m b3, security, true, false, false), (.debugSet r sw, security, true, false, false),
      (.lifecycleSet r lc, security, true, false, false), (.reprovision r, security, true, false, false),
      (.tamperArm r i, security, true, false, false), (.fwStage r b3, operate, false, false, false),
      (.fwActivate r b1 b2 n, operate, true, false, false), (.fwStatus r, observe, false, true, false)] :
        List (Instr × BitVec 4 × Bool × Bool × Bool)) →
    (gmpServed s reads = true → chanOpen s r.channel = true → ∀ st, gmpVerdict s r role signed onBoard = st → st ≠ .ok →
      exec c s = .next (emit s (.gmp r.channel r.requestId st []))) ∧
    (gmpServed s reads = false ∨ chanOpen s r.channel = false → exec c s = .next s) ∧
    ∃ s', exec c s = .next s' ∧ s'.mem = s.mem ∧ s'.poison = s.poison ∧ s'.map = s.map ∧ s'.table = s.table ∧ s'.fns = s.fns ∧
      s'.beat = s.beat ∧ s'.routes = s.routes ∧ s'.board = s.board ∧
      ((∀ a l mode, c = .linkSet r a → .mode l mode ∈ a → (linkOf s l).mode = mode) → s'.figs = s.figs ∧ s'.tickets = s.tickets)

/-- For a queue pair whose oldest consumed entry has an outcome: while the function issues requests and writes succeed, its
completion goes out as a write of bytes 0x04 to 0x1F and then one of bytes 0x00 to 0x03 at slot CQ_TAIL mod D, neither with
relaxed ordering, CQ_TAIL goes up by one and the entry leaves the order; a write that cannot be made sets ERROR with CAUSE 3,
the first cause staying, and withholds every later completion. Posting a queue pair takes entries only from the front of its
order and moves CQ_TAIL by no more than it takes. -/
def Obligations.CompletionsPostedInRingOrder : Prop :=
  ∀ (s : State) (t : TarnIx) (q : QpIx), Shaped s →
    (∀ (x : PostItem) (rest : List PostItem) (c : Comp) (fails : Bool), (qpOf s t q).order = x :: rest →
      let p := qpOf s t q
      let s' := postComp s t q x c fails
      (qpOf s' t q).order = rest ∧
      (p.withhold = false → fails = false → issues (fnOf s t) = true →
        (qpOf s' t q).cqTail = p.cqTail + 1 ∧ (qpOf s' t q).error = p.error ∧
        ∃ lo hi : Bytes, lo.length = 4 ∧ hi.length = 28 ∧ field lo 0 2 = x.commandId.toNat ∧ byteAt lo 2 = statusCode c.status ∧
          byteAt lo 3 % 2 = phaseBit (qpDepth p) p.cqTail ∧
          s'.outbox = s.outbox ++ [.hostWrite t (p.cqBase.toNat + 32 * (p.cqTail.toNat % qpDepth p) + 4) hi false (viaCache s t),
            .hostWrite t (p.cqBase.toNat + 32 * (p.cqTail.toNat % qpDepth p)) lo false (viaCache s t)]) ∧
      (p.withhold = false → (fails = true ∨ issues (fnOf s t) = false) →
        (qpOf s' t q).error = true ∧ (qpOf s' t q).cause = (if p.error then p.cause else 3) ∧ (qpOf s' t q).withhold = true ∧
        (qpOf s' t q).cqTail = p.cqTail ∧ s'.outbox = s.outbox) ∧
      (p.withhold = true → s'.outbox = s.outbox ∧ (qpOf s' t q).cqTail = p.cqTail)) ∧
    ∀ (may : PostItem → Bool) (fails : Bool) (n : Nat), ∃ k, k ≤ n ∧
      (qpOf (postQp may t q fails n s) t q).order = (qpOf s t q).order.drop k ∧
      ringDist (qpOf s t q).cqTail (qpOf (postQp may t q fails n s) t q).cqTail ≤ k ∧
      ∀ p, p ≠ q → qpOf (postQp may t q fails n s) t p = qpOf s t p

/-- With main power: PERST, a link-down and a stopped reference clock take a port's link down and reset the functions of Tarns
on a port in use, leaving memory and the map; the release of PERST_A_N after both have been low together brings in the kept port
mode. A link returns with its protocol only on a port in use and out of reset. Before the first beat configuration requests to a
function that is there get Retry Status, and from then on the register's value. Loss of SYS_CLK and a junction at 115 °C are
FATAL and stop the clocks, and below it nothing happens; a lost link clock takes its links DOWN, and no others. An armed tamper
signal zeroes the root and every key slot and, once beats run, is FATAL; an unarmed one does nothing. VBAT below 2.4 V is noted
absent, and from 2.5 V restored (which millivolts a report carries: log 50). -/
def Obligations.PortsClocksAndSuppliesAct : Prop :=
  ∀ (s : State), Shaped s → s.board.mainPower = true →
    (∀ (p : Port) (c : Instr), c = .perstAssert p ∨ c = .portLinkDown p ∨ c = .refclkStop p →
      ∃ s', exec c s = .next s' ∧ (portSt s' p).linkUp = false ∧ s'.mem = s.mem ∧ s'.map = s.map ∧ s'.keys = s.keys ∧ s'.tarns = s.tarns ∧
        (c = .perstAssert p → (portSt s' p).perst = true) ∧
        (s.board.running = true → portUsed s p = true → ∀ t, portOf s t = p →
          (fnOf s' t).sessions = [] ∧ (fnOf s' t).busMaster = false ∧ ∀ q, qpOf s' t q = {})) ∧
    (∀ p : Port, (portSt s p).perst = true → ∃ s', exec (.perstRelease p) s = .next s' ∧ (portSt s' p).perst = false ∧
      (p = .a → s.board.bothLow = true → s'.board.x8 = s.flash.x8 ∧ s'.board.assign = s.flash.assign ∧ s'.board.bothLow = false) ∧
      (p = .b ∨ s.board.bothLow = false → s' = { s with board := s'.board } ∧ s'.board.x8 = s.board.x8)) ∧
    (∀ p : Port, (portSt s p).perst = false → exec (.perstRelease p) s = .next s) ∧
    (∀ (p : Port) (proto : PortProto),
      (s.board.sysRst = false → portUsed s p = true → (portSt s p).perst = false →
        ∃ s', exec (.portLinkReturn ⟨p, proto⟩) s = .next s' ∧ (portSt s' p).linkUp = true ∧ (portSt s' p).cxl = (proto == .cxl) ∧
          (proto ≠ .cxl → (portSt s' p).cache = false) ∧ (∀ u, u ≠ p → portSt s' u = portSt s u) ∧
          s' = { s with board := { s.board with portA := s'.board.portA, portB := s'.board.portB } }) ∧
      (s.board.sysRst = true ∨ portUsed s p = false ∨ (portSt s p).perst = true → exec (.portLinkReturn ⟨p, proto⟩) s = .next s)) ∧
    (∀ f reg,
      (s.board.sysRst = false → funcThere s f = true →
        (s.board.running = false → exec (.configRetry ⟨f, reg⟩) s = .next (emit s (.retryStatus f))) ∧
        (s.board.running = true → exec (.configRetry ⟨f, reg⟩) s = .next (emit s (.configData f (configRead s f reg))))) ∧
      (s.board.sysRst = true ∨ funcThere s f = false → exec (.configRetry ⟨f, reg⟩) s = .next s)) ∧
    (s.board.sysRst = false → ∃ s', exec .sysClkStop s = .next s' ∧ s'.fatal = true ∧ s'.board.clocks = false ∧ s'.mem = s.mem) ∧
    (s.board.sysRst = true → exec .sysClkStop s = .next s) ∧
    (∀ tj : Int, (1150 ≤ tj → ∃ s', exec (.thermtrip tj) s = .next s' ∧ s'.fatal = true ∧ s'.board.thermtripN = false ∧
        s'.board.clocks = false ∧ s'.mem = s.mem) ∧ (tj < 1150 → exec (.thermtrip tj) s = .next s)) ∧
    (∀ (k : Fin 3) (n : LinkIx), running s = true → n.val / 4 = k.val →
      ∃ s', exec (.spwRefclkStop k) s = .next s' ∧ (linkOf s' n).state = .down ∧ (linkOf s' n).fecLock = false ∧
        ∀ m : LinkIx, m.val / 4 ≠ k.val → linkOf s' m = linkOf s m) ∧
    (∀ c, (tamperArmed s c = true → ∃ s', exec (.tamper c) s = .next s' ∧ s'.bbram.root = zeros 32 ∧ (∀ i, slotOf s' i = {}) ∧
        (∀ t, (fnOf s' t).sessions = []) ∧ s'.bbram.tamperCause = BitVec.ofNat 8 (tamperCode c) ∧
        (s.board.running = true → s'.fatal = true) ∧ s'.fuses = s.fuses) ∧
      (tamperArmed s c = false → exec (.tamper c) s = .next s)) ∧
    ∀ v, (v < 2400 → ∃ s', exec (.batteryAbsent v) s = .next s' ∧ s'.board.batteryAbsent = true ∧ s'.bbram = s.bbram ∧
        (running s = true → s.board.batteryAbsent = false → s.tally.next < s'.tally.next)) ∧
      (2400 ≤ v → exec (.batteryAbsent v) s = .next s) ∧
      (2500 ≤ v → s.board.batteryAbsent = true → ∃ s', exec (.batteryRestored v) s = .next s' ∧ s'.board.batteryAbsent = false ∧
        (running s = true → s.tally.next < s'.tally.next)) ∧
      (v < 2500 ∨ s.board.batteryAbsent = false → exec (.batteryRestored v) s = .next s)

/-- With main power, SYS_RESET and a brown-out leave no Tarn, every resource SCRUBBING, an empty Tally, the counter at 0 and no
FATAL, and keep BBRAM, fuses and boot flash, and a staging they interrupt leaves its bank as it was, empty; the release of
SYS_RST_N takes the timing and port settings of the boot flash, and is FATAL when a tamper signal came during the reset.
FIRST_BEAT of a device that may start runs beats, resolves every journal entry, writes its BOOT event, finds the root lost when
it is not present, and starts a scrub of every resource. Main power removed resets the device and, below 2.2 V of VBAT, blanks
BBRAM; while it is off a lost retention does. Main power applied holds it in reset. Where power, SYS_RST_N or the state of
start-up rule one of them out, it changes nothing. What a reset keeps of firmware and units (log 47), the order of the kernel's
steps (log 46) and a blank BBRAM (log 49) are the model's reading. -/
def Obligations.ResetsAndStart : Prop :=
  (∀ (s : State) (c : Instr), s.board.mainPower = true →
    (c = .sysReset ∨ (c = .brownOut ∧ s.board.sysRst = false) ∨ c = .mainPowerRemoved) →
    ∃ s', exec c s = .next s' ∧ (∀ t, tarnOf s' t = none ∧ live s' t = false) ∧ (∀ x ∈ mapResources, statOf s' x = .scrubbing) ∧
      s'.tally = {} ∧ s'.beat = 0 ∧ s'.pos = 0 ∧ s'.fatal = false ∧ s'.mem = [] ∧ s'.tickets = [] ∧ s'.keys = List.replicate 512 {} ∧
      s'.fuses = s.fuses ∧ s'.flash = s.flash ∧ s'.board.running = false ∧ s'.pending = s.pending ∧
      (c = .sysReset → s'.board.sysRst = true ∧ s'.board.brownOut = false ∧ s'.board.thermtripN = true) ∧
      (c = .brownOut → s'.board.brownOut = true) ∧ s'.fw.staging = [] ∧ s'.fw.kernelNext = s.fw.kernelNext ∧ s'.fw.ctrlNext = s.fw.ctrlNext ∧
      (c ≠ .mainPowerRemoved → s'.bbram = s.bbram) ∧
      (c = .mainPowerRemoved → s'.board.mainPower = false ∧ s'.bbram = if s.board.vbatMv < 2200 then blankBbram else s.bbram)) ∧
  (∀ s : State, s.board.mainPower = false →
    (∃ s', exec .mainPowerApplied s = .next s' ∧ s'.board.mainPower = true ∧ s'.board.sysRst = true ∧ s'.bbram = s.bbram ∧
      s' = { s with board := s'.board }) ∧
    ∃ s', exec .batteryRetentionLost s = .next s' ∧ s'.bbram = blankBbram ∧ s' = { s with bbram := s'.bbram, board := s'.board }) ∧
  (∀ s : State, s.board.mainPower = true → s.board.sysRst = true →
    ∃ s', exec .sysResetRelease s = .next s' ∧ s'.board.sysRst = false ∧ s'.timing.mode = s.flash.mode ∧
      s'.timing.deviceNo = s.flash.deviceNo ∧ s'.board.x8 = s.flash.x8 ∧
      (s.board.tamperLevel = [] → s'.fatal = s.fatal ∧ s'.bbram = s.bbram) ∧
      (s.board.tamperLevel ≠ [] → s'.fatal = true ∧ s'.bbram.root = zeros 32)) ∧
  (∀ s : State,
    (s.board.mainPower = false → ∀ c ∈ ([.sysReset, .brownOut, .mainPowerRemoved, .sysResetRelease, .firstBeat] : List Instr), exec c s = .next s) ∧
    (s.board.mainPower = true → exec .mainPowerApplied s = .next s ∧ exec .batteryRetentionLost s = .next s ∧
      (s.board.sysRst = true → exec .brownOut s = .next s) ∧ (s.board.sysRst = false → exec .sysResetRelease s = .next s)) ∧
    (s.board.sysRst = true ∨ s.board.brownOut = true ∨ s.board.running = true ∨ s.fatal = true ∨ s.board.clocks = false →
      exec .firstBeat s = .next s)) ∧
  ∀ s : State, Shaped s → s.board.mainPower = true → s.board.sysRst = false → s.board.brownOut = false → s.board.running = false →
    s.fatal = false → s.board.clocks = true →
    ∃ s', exec .firstBeat s = .next s' ∧ s'.board.running = true ∧ s'.beat = s.beat ∧ s'.pos = s.pos ∧
      (s'.fatal = true ↔ workingCores s = 0) ∧ s.tally.next + 7 ≤ s'.tally.next ∧ (∀ e ∈ s'.bbram.journal, e.jstate = 0) ∧
      (rootPresent s.bbram = false → rootOk s' = false) ∧
      (rootPresent s.bbram = true → lifeCode (lifeOf s.fuses.lc) ≤ s.bbram.lcMirror.toNat → rootOk s' = true) ∧
      ∀ x ∈ mapResources, (x, s.beat) ∈ s'.scrubs

/-- State.reset is Good; it has no Tarn and no ticket, every resource of the partition map is SCRUBBING, all 512 key slots are EMPTY, no queue pair is enabled, the beat counter and the bar position are 0, the Tally is empty and FATAL is 0. -/
def Obligations.ResetStateIsGood : Prop :=
  Good State.reset ∧ (∀ t, tarnOf State.reset t = none ∧ live State.reset t = false) ∧
    (∀ x ∈ mapResources, statOf State.reset x = .scrubbing) ∧ (∀ i, (slotOf State.reset i).state = .empty) ∧
    (∀ t q, (qpOf State.reset t q).enable = false ∧ (qpOf State.reset t q).error = false) ∧ State.reset.tickets = [] ∧
    State.reset.beat = 0 ∧ State.reset.pos = 0 ∧ State.reset.tally.next = 0 ∧ State.reset.fatal = false

/-- From every state in which each table has its full number of entries and memory is in canonical form, every step on every command answers a state in which they are so again. -/
def Obligations.GoodKeptByEveryStep : Prop :=
  ∀ s s' : State, Good s → step s = .next s' → Good s'

/-- In every state and for every step whose command is not SYS_RESET, BROWN_OUT or MAIN_POWER_REMOVED: the beat counter does not decrease, FATAL stays set once set, and the Tally's next SEQ does not decrease. -/
def Obligations.OnlyResetsGoBack : Prop :=
  ∀ s s' : State, step s = .next s' →
    (∀ c rest, s.pending = c :: rest → c ≠ .sysReset ∧ c ≠ .brownOut ∧ c ≠ .mainPowerRemoved) →
    s.beat ≤ s'.beat ∧ (s.fatal = true → s'.fatal = true) ∧ s.tally.next ≤ s'.tally.next

/-- The life-cycle state is RETIRED, DEPLOYED or PROVISIONED by the highest burnt fuse, and MANUFACTURE with none burnt. For every step from every state: each life-cycle fuse, tamper-arm fuse, burnt or revoked anchor and firmware revocation stays burnt, the anti-rollback count does not fall, keys and serial number stay, and the life-cycle state stays or makes one of the transitions MANUFACTURE to PROVISIONED, PROVISIONED to DEPLOYED or RETIRED, and DEPLOYED to RETIRED. -/
def Obligations.NoFuseIsEverCleared : Prop :=
  (∀ f : BitVec 3, lifeOf f = if f.getLsbD 2 then .retired else if f.getLsbD 1 then .deployed else if f.getLsbD 0 then .provisioned
    else .manufacture) ∧
  ∀ s s' : State, step s = .next s' →
    (∀ i, s.fuses.lc.getLsbD i = true → s'.fuses.lc.getLsbD i = true) ∧
    (∀ i, s.fuses.tamperArm.getLsbD i = true → s'.fuses.tamperArm.getLsbD i = true) ∧
    (∀ i, s.fuses.fwRevoked.getLsbD i = true → s'.fuses.fwRevoked.getLsbD i = true) ∧
    (∀ k, (anchorOf s k).burnt = true → (anchorOf s' k).burnt = true ∧ ((anchorOf s k).revoked = true → (anchorOf s' k).revoked = true) ∧
      (anchorOf s' k).digest = (anchorOf s k).digest ∧ (anchorOf s' k).roles = (anchorOf s k).roles) ∧
    s.fuses.rollback ≤ s'.fuses.rollback ∧ s'.fuses.fwKeys = s.fuses.fwKeys ∧ s'.fuses.serial = s.fuses.serial ∧
    (lifeOf s'.fuses.lc = lifeOf s.fuses.lc ∨
      (lifeOf s.fuses.lc = .manufacture ∧ lifeOf s'.fuses.lc = .provisioned) ∨
      (lifeOf s.fuses.lc = .provisioned ∧ lifeOf s'.fuses.lc = .deployed) ∨
      (lifeOf s.fuses.lc = .provisioned ∧ lifeOf s'.fuses.lc = .retired) ∨
      (lifeOf s.fuses.lc = .deployed ∧ lifeOf s'.fuses.lc = .retired))
end

