-- ==== Sys2Proof/Laws/Bits.lean ====
section
/-! SUPPORT. Laws of byte strings, fields and CRCs. -/

namespace Sys2Proof.Machine

@[simp] theorem length_leBytes (n v : Nat) : (leBytes n v).length = n := by
  induction n generalizing v with
  | zero => rfl
  | succ n ih => simp [leBytes, ih]

@[simp] theorem length_beBytes (n v : Nat) : (beBytes n v).length = n := by simp [beBytes]

@[simp] theorem length_zeros (n : Nat) : (zeros n).length = n := by simp [zeros]

@[simp] theorem length_padTo (n : Nat) (bs : Bytes) : (padTo n bs).length = n := by simp [padTo]; omega

/-- A little-endian number is read back as it was written, up to its width. -/
theorem leNat_leBytes (n v : Nat) : leNat (leBytes n v) = v % 256 ^ n := by
  induction n generalizing v with
  | zero => simp [leBytes, leNat, Nat.mod_one]
  | succ n ih =>
    have h : v % 256 ^ (n + 1) = v % 256 + 256 * (v / 256 % 256 ^ n) := by rw [pow_succ, Nat.mul_comm, Nat.mod_mul]
    simp only [leBytes, leNat, ih, BitVec.toNat_ofNat, h]

theorem leNat_lt (bs : Bytes) : leNat bs < 256 ^ bs.length := by
  induction bs with
  | nil => simp [leNat]
  | cons b bs ih =>
    simp only [leNat, List.length_cons, pow_succ]
    have := b.isLt
    omega

/-- A field of the second part of a string. -/
theorem slice_append_right (a b : Bytes) (n : Nat) : slice (a ++ b) a.length n = b.take n := by simp [slice]

/-- The whole of the second part of a string as a field. -/
theorem field_append_leBytes (a : Bytes) (n v : Nat) : field (a ++ leBytes n v) a.length n = v % 256 ^ n := by
  simp [field, slice_append_right, List.take_of_length_le, leNat_leBytes]

/-- `iter` keeps what its function keeps. -/
theorem iter_inv {α : Type} (p : α → Prop) (f : α → α) (h : ∀ a, p a → p (f a)) (n : Nat) (a : α) (ha : p a) : p (iter f n a) := by
  induction n generalizing a with
  | zero => exact ha
  | succ n ih => exact ih (f a) (h a ha)

/-- A CRC step keeps its width. -/
theorem crcByte_lt (w poly crc : Nat) (b : Byte) (hw : 8 ≤ w) (hp : poly < 2 ^ w) (hc : crc < 2 ^ w) : crcByte poly crc b < 2 ^ w := by
  refine iter_inv (· < 2 ^ w) _ (fun c h => ?_) 8 _ (Nat.xor_lt_two_pow hc (lt_of_lt_of_le b.isLt (Nat.pow_le_pow_right (by omega) hw)))
  have hs : c >>> 1 < 2 ^ w := lt_of_le_of_lt (Nat.shiftRight_le c 1) h
  show (if c.testBit 0 then (c >>> 1) ^^^ poly else c >>> 1) < 2 ^ w
  split
  · exact Nat.xor_lt_two_pow hs hp
  · exact hs

/-- CRC-64/XZ is a 64-bit number. -/
theorem crc64xz_lt (bs : Bytes) : crc64xz bs < 2 ^ 64 := by
  have h : ∀ (l : Bytes) (c : Nat), c < 2 ^ 64 → l.foldl (crcByte 0xC96C5795D7870F42) c < 2 ^ 64 := by
    intro l
    induction l with
    | nil => exact fun c hc => hc
    | cons b l ih => exact fun c hc => ih _ (crcByte_lt 64 _ c b (by omega) (by decide) hc)
  exact Nat.xor_lt_two_pow (h bs _ (by decide)) (by decide)

end Sys2Proof.Machine
end

