-- ==== Sys2Proof/Laws/Memory.lean ====
section
/-! SUPPORT. Laws of the device memory: its canonical form, kept by every operation that writes it, and reading after a write. -/

namespace Sys2Proof.Machine

/-- The canonical form: keys strictly rising, and no entry with the byte that an unlisted key reads as. -/
theorem memWf_iff (m : List Host.Cell) :
    memWf m = true ↔ m.Pairwise (fun a b => a.1 < b.1) ∧ ∀ c ∈ m, c.2 ≠ memUnlisted := by
  induction m with
  | nil => simp [memWf]
  | cons c l ih =>
    obtain ⟨k, v⟩ := c
    cases l with
    | nil => simp [memWf]
    | cons d l =>
      obtain ⟨k', v'⟩ := d
      simp only [memWf, Bool.and_eq_true, bne_iff_ne, ne_eq, decide_eq_true_eq, ih, List.pairwise_cons, List.mem_cons, forall_eq_or_imp]
      constructor
      · rintro ⟨⟨hv, hk⟩, ⟨hp, hl⟩, hv', hr⟩
        exact ⟨⟨⟨hk, fun a ha => lt_trans hk (hp a ha)⟩, hp, hl⟩, hv, hv', hr⟩
      · rintro ⟨⟨⟨hk, -⟩, hp, hl⟩, hv, hv', hr⟩
        exact ⟨⟨hv, hk⟩, ⟨hp, hl⟩, hv', hr⟩

/-- Every key of a memory after a write is the key written or was there before. -/
theorem mem_cellPut {m : List Host.Cell} {key : Nat} {v : Byte} {c : Host.Cell} (h : c ∈ cellPut m key v) :
    c = (key, v) ∧ v ≠ memUnlisted ∨ c ∈ m := by
  induction m with
  | nil =>
    simp only [cellPut] at h
    split at h <;> simp_all
  | cons d l ih =>
    obtain ⟨k, w⟩ := d
    simp only [cellPut] at h
    split at h
    · split at h <;> simp_all
    · split at h
      · split at h
        · exact .inr (List.mem_cons_of_mem _ h)
        · simp only [List.mem_cons] at h ⊢
          rcases h with h | h
          · exact .inl ⟨h, by simp_all⟩
          · exact .inr (.inr h)
      · simp only [List.mem_cons] at h ⊢
        rcases h with h | h
        · exact .inr (.inl h)
        · rcases ih h with h | h
          · exact .inl h
          · exact .inr (.inr h)

/-- A write keeps the canonical form. -/
theorem memWf_cellPut (m : List Host.Cell) (key : Nat) (v : Byte) (h : memWf m = true) : memWf (cellPut m key v) = true := by
  rw [memWf_iff] at h ⊢
  obtain ⟨hp, hv⟩ := h
  refine ⟨?_, fun c hc => ?_⟩
  · clear hv
    induction m with
    | nil =>
      simp only [cellPut]
      split <;> simp
    | cons d l ih =>
      obtain ⟨k, w⟩ := d
      rw [List.pairwise_cons] at hp
      simp only [cellPut]
      split
      · rename_i hk
        split
        · exact List.pairwise_cons.mpr hp
        · refine List.pairwise_cons.mpr ⟨fun a ha => ?_, List.pairwise_cons.mpr hp⟩
          rcases List.mem_cons.mp ha with rfl | ha
          · exact hk
          · exact lt_trans hk (hp.1 a ha)
      · rename_i hk
        split
        · rename_i hq
          have hq : k = key := by simpa using hq
          subst hq
          split
          · exact hp.2
          · exact List.pairwise_cons.mpr hp
        · rename_i hq
          have hq : k ≠ key := by simpa using hq
          refine List.pairwise_cons.mpr ⟨fun a ha => ?_, ih hp.2⟩
          rcases mem_cellPut ha with ⟨rfl, -⟩ | ha
          · exact lt_of_le_of_ne (Nat.le_of_not_lt hk) hq
          · exact hp.1 a ha
  · rcases mem_cellPut hc with ⟨rfl, h⟩ | h
    · exact h
    · exact hv c h

/-- Keeping some entries keeps the canonical form. -/
theorem memWf_filter (m : List Host.Cell) (p : Host.Cell → Bool) (h : memWf m = true) : memWf (m.filter p) = true := by
  rw [memWf_iff] at h ⊢
  exact ⟨h.1.sublist List.filter_sublist, fun c hc => h.2 c (List.mem_of_mem_filter hc)⟩

/-- A key below every entry reads as unlisted. -/
theorem cellGet_below {m : List Host.Cell} {key : Nat} (h : ∀ c ∈ m, key < c.1) : cellGet m key = memUnlisted := by
  cases m with
  | nil => rfl
  | cons c l =>
    obtain ⟨k, v⟩ := c
    have := h (k, v) List.mem_cons_self
    simp only [cellGet]
    rw [if_neg (by simpa using (Nat.ne_of_gt this)), if_pos this]

/-- The byte written is read back. -/
theorem cellGet_cellPut_same (m : List Host.Cell) (key : Nat) (v : Byte) (h : memWf m = true) : cellGet (cellPut m key v) key = v := by
  have hp := ((memWf_iff m).mp h).1
  clear h
  induction m with
  | nil =>
    simp only [cellPut]
    split <;> simp_all [cellGet]
  | cons d l ih =>
    obtain ⟨k, w⟩ := d
    rw [List.pairwise_cons] at hp
    simp only [cellPut]
    split
    · rename_i hk
      split
      · rename_i hv
        rw [show v = memUnlisted by simpa using hv]
        exact cellGet_below fun c hc => by
          rcases List.mem_cons.mp hc with rfl | hc
          · exact hk
          · exact lt_trans hk (hp.1 c hc)
      · simp [cellGet]
    · rename_i hk
      split
      · rename_i hq
        have hq : k = key := by simpa using hq
        subst hq
        split
        · rename_i hv
          rw [show v = memUnlisted by simpa using hv]
          exact cellGet_below hp.1
        · simp [cellGet]
      · rename_i hq
        have hq : k ≠ key := by simpa using hq
        rw [cellGet, if_neg (by simpa using hq), if_neg hk]
        exact ih hp.2

/-- A write leaves every other key as it was. -/
theorem cellGet_cellPut_other (m : List Host.Cell) (key j : Nat) (v : Byte) (h : memWf m = true) (hj : j ≠ key) :
    cellGet (cellPut m key v) j = cellGet m j := by
  have hp := ((memWf_iff m).mp h).1
  clear h
  induction m with
  | nil =>
    simp only [cellPut]
    split
    · rfl
    · simp only [cellGet]
      rw [if_neg (by simpa using Ne.symm hj)]
      split <;> rfl
  | cons d l ih =>
    obtain ⟨k, w⟩ := d
    rw [List.pairwise_cons] at hp
    simp only [cellPut]
    split
    · rename_i hk
      split
      · rfl
      · conv_lhs => rw [cellGet]
        rw [if_neg (by simpa using Ne.symm hj)]
        split
        · rename_i hjk
          exact (cellGet_below fun c hc => by
            rcases List.mem_cons.mp hc with rfl | hc
            · exact lt_trans hjk hk
            · exact lt_trans (lt_trans hjk hk) (hp.1 c hc)).symm
        · rfl
    · split
      · rename_i hq
        have hq : k = key := by simpa using hq
        subst hq
        split
        · conv_rhs => rw [cellGet]
          rw [if_neg (by simpa using Ne.symm hj)]
          split
          · rename_i hjk
            exact cellGet_below fun c hc => lt_trans hjk (hp.1 c hc)
          · rfl
        · have e : (k == j) = false := by simpa using Ne.symm hj
          simp [cellGet, e]
      · rw [cellGet, cellGet, ih hp.2]

/-- A run of writes keeps the canonical form. -/
theorem memWf_cellPuts (l : List (Option Nat × Byte)) (m : List Host.Cell) (h : memWf m = true) : memWf (cellPuts m l) = true := by
  induction l generalizing m with
  | nil => exact h
  | cons x l ih =>
    obtain ⟨k, v⟩ := x
    cases k with
    | none => exact ih m h
    | some k => exact ih _ (memWf_cellPut m k v h)

/-- A run of writes leaves every key that it does not name as it was. -/
theorem cellGet_cellPuts_other (l : List (Option Nat × Byte)) (m : List Host.Cell) (j : Nat) (h : memWf m = true)
    (hj : ∀ x ∈ l, x.1 ≠ some j) : cellGet (cellPuts m l) j = cellGet m j := by
  induction l generalizing m with
  | nil => rfl
  | cons x l ih =>
    obtain ⟨k, v⟩ := x
    have hl : ∀ x ∈ l, x.1 ≠ some j := fun x hx => hj x (List.mem_cons_of_mem _ hx)
    cases k with
    | none => exact ih m h hl
    | some k =>
      have hk : j ≠ k := fun e => hj (some k, v) List.mem_cons_self (by rw [e])
      exact (ih _ (memWf_cellPut m k v h) hl).trans (cellGet_cellPut_other m k j v h hk)

/-- Of a run of writes to keys that differ, the byte written to a key is read back. -/
theorem cellGet_cellPuts_same (l : List (Option Nat × Byte)) (m : List Host.Cell) (j : Nat) (v : Byte) (h : memWf m = true)
    (hn : (l.map (·.1)).Nodup) (hj : (some j, v) ∈ l) : cellGet (cellPuts m l) j = v := by
  induction l generalizing m with
  | nil => simp at hj
  | cons x l ih =>
    obtain ⟨k, w⟩ := x
    simp only [List.map_cons, List.nodup_cons] at hn
    rcases List.mem_cons.mp hj with e | hm
    · obtain ⟨rfl, rfl⟩ : k = some j ∧ w = v := by simpa [eq_comm] using e
      exact (cellGet_cellPuts_other l _ j (memWf_cellPut m j w h) fun x hx e =>
        hn.1 (List.mem_map.mpr ⟨x, hx, e⟩)).trans (cellGet_cellPut_same m j w h)
    · cases k with
      | none => exact ih m h hn.2 hm
      | some k => exact ih _ (memWf_cellPut m k w h) hn.2 hm

/-- A write at a device address keeps the canonical form. -/
theorem memWf_devWrite (s : State) (a : Nat) (bs : Bytes) (h : memWf s.mem = true) : memWf (devWrite s a bs).mem = true :=
  memWf_cellPuts _ _ h

/-- A write at a device address leaves every byte outside its range as it was. -/
theorem cellGet_devWrite_outside (s : State) (a : Nat) (bs : Bytes) (j : Nat) (h : memWf s.mem = true)
    (hj : some j ∉ rangeKeys a bs.length) : cellGet (devWrite s a bs).mem j = cellGet s.mem j :=
  cellGet_cellPuts_other _ _ _ h fun _ hx e => hj (e ▸ (List.of_mem_zip hx).1)

/-- Keeping the entries of some keys reads as before at those keys and as unlisted at the others. -/
theorem cellGet_filter (m : List Host.Cell) (p : Nat → Bool) (j : Nat) (h : memWf m = true) :
    cellGet (m.filter fun c => p c.1) j = if p j then cellGet m j else memUnlisted := by
  have hp := ((memWf_iff m).mp h).1
  clear h
  induction m with
  | nil => simp [cellGet]
  | cons d l ih =>
    obtain ⟨k, v⟩ := d
    rw [List.pairwise_cons] at hp
    by_cases hk : p k = true
    · rw [List.filter_cons_of_pos (by exact hk), cellGet, cellGet, ih hp.2]
      by_cases hjk : k = j
      · subst hjk; simp [hk]
      · simp only [beq_iff_eq, hjk, if_false]
        split
        · simp
        · rfl
    · rw [List.filter_cons_of_neg (by simpa using hk), ih hp.2]
      by_cases hpj : p j = true
      · have hjk : k ≠ j := fun e => hk (e ▸ hpj)
        simp only [hpj, if_true]
        rw [cellGet, if_neg (by simpa using hjk)]
        split
        · rename_i hlt
          exact cellGet_below fun c hc => lt_trans hlt (hp.1 c hc)
        · rfl
      · simp [hpj]

/-- Writing an element of an image keeps the canonical form. -/
theorem memWf_imgPut (p : Plan) (j : Nat) (m : List Host.Cell) (e v : Nat) (h : memWf m = true) : memWf (imgPut p j m e v) = true :=
  memWf_cellPuts _ _ h

/-- A fold of steps that each keep the canonical form keeps it. -/
theorem memWf_foldl {β : Type} (f : List Host.Cell → β → List Host.Cell) (hf : ∀ m x, memWf m = true → memWf (f m x) = true)
    (l : List β) (m : List Host.Cell) (h : memWf m = true) : memWf (l.foldl f m) = true := by
  induction l generalizing m with
  | nil => exact h
  | cons x l ih => exact ih _ (hf m x h)

/-- Adding a vector into one image keeps the canonical form. -/
theorem memWf_ringInto (p : Plan) (j : Nat) (sub : Bool) (words : List Nat) (m : List Host.Cell) (h : memWf m = true) :
    memWf (ringInto p j sub words m) = true :=
  memWf_foldl _ (fun _ _ => memWf_imgPut _ _ _ _ _) _ _ h

/-- Adding words to the accumulator and its mirror keeps the canonical form and changes nothing but memory. -/
theorem memWf_imgAdd (s : State) (p : Plan) (sub : Bool) (words : List Nat) (h : memWf s.mem = true) :
    memWf (imgAdd s p sub words).mem = true := by
  have h0 := memWf_ringInto p 0 sub words s.mem h
  unfold imgAdd
  dsimp only
  split
  · exact memWf_ringInto _ _ _ _ _ h0
  · exact h0
theorem imgAdd_frame (s : State) (p : Plan) (sub : Bool) (words : List Nat) :
    imgAdd s p sub words = { s with mem := (imgAdd s p sub words).mem } := rfl

/-- Staging a record's vector keeps the canonical form and changes nothing but memory. -/
theorem memWf_stageVector (s : State) (p : Plan) (i : Nat) (b : Bytes) (h : memWf s.mem = true) : memWf (stageVector s p i b).mem = true :=
  memWf_foldl _ (fun _ _ => memWf_imgPut _ _ _ _ _) _ _ h
theorem stageVector_frame (s : State) (p : Plan) (i : Nat) (b : Bytes) :
    stageVector s p i b = { s with mem := (stageVector s p i b).mem } := rfl

/-- Copying an image keeps the canonical form and changes nothing but memory and poison. -/
theorem memWf_copyImage (s : State) (len dst src : Nat) (h : memWf s.mem = true) : memWf (copyImage s len dst src).mem = true :=
  memWf_cellPuts _ _ h
theorem copyImage_frame (s : State) (len dst src : Nat) :
    copyImage s len dst src = { s with mem := (copyImage s len dst src).mem, poison := (copyImage s len dst src).poison } := rfl

/-- Zeroing images keeps the canonical form and changes nothing but memory and poison. -/
theorem memWf_zeroImages (s : State) (p : Plan) (a b : Nat) (h : memWf s.mem = true) : memWf (zeroImages s p a b).mem = true :=
  memWf_filter _ _ h
theorem zeroImages_frame (s : State) (p : Plan) (a b : Nat) :
    zeroImages s p a b = { s with mem := (zeroImages s p a b).mem, poison := (zeroImages s p a b).poison } := rfl
/-- After it the images read as unlisted, and every other byte as before. -/
theorem cellGet_zeroImages (s : State) (p : Plan) (a b j : Nat) (h : memWf s.mem = true) :
    cellGet (zeroImages s p a b).mem j =
      if p.u0 * 2 ^ 25 + a * imageLen p ≤ j % 2 ^ 30 ∧ j % 2 ^ 30 < p.u0 * 2 ^ 25 + b * imageLen p then memUnlisted
      else cellGet s.mem j := by
  have := cellGet_filter s.mem (fun k => !(decide (p.u0 * 2 ^ 25 + a * imageLen p ≤ k % 2 ^ 30)
    && decide (k % 2 ^ 30 < p.u0 * 2 ^ 25 + b * imageLen p))) j h
  refine this.trans ?_
  generalize p.u0 * 2 ^ 25 + a * imageLen p = lo
  generalize p.u0 * 2 ^ 25 + b * imageLen p = hi
  generalize j % 2 ^ 30 = x
  by_cases h1 : lo ≤ x <;> by_cases h2 : x < hi <;> simp [h1, h2]

/-- Memory at reset has the canonical form. -/
theorem memWf_reset : memWf State.reset.mem = true := rfl

end Sys2Proof.Machine
end

