-- ==== Sys2Proof/Laws/State.lean ====
section
/-! SUPPORT. What each update of the state leaves as it was, field by field: true by unfolding, so that no later proof opens a record
update. `simp` takes each conjunct as a lemma of its own. -/

namespace Sys2Proof.Machine

@[simp] theorem modFn_rest (s : State) (t : TarnIx) (g : FnRegs → FnRegs) : let s' := modFn s t g
    s'.pending = s.pending ∧ s'.outbox = s.outbox ∧ s'.beat = s.beat ∧ s'.pos = s.pos ∧ s'.timeUs = s.timeUs ∧ s'.table = s.table ∧
    s'.swapped = s.swapped ∧ s'.shadow = s.shadow ∧ s'.timing = s.timing ∧ s'.tickets = s.tickets ∧ s'.nextUid = s.nextUid ∧
    s'.gens = s.gens ∧ s'.figs = s.figs ∧ s'.map = s.map ∧ s'.tarns = s.tarns ∧ s'.tgStat = s.tgStat ∧ s'.laneStat = s.laneStat ∧
    s'.kaeStat = s.kaeStat ∧ s'.linkStat = s.linkStat ∧ s'.memStat = s.memStat ∧ s'.scrubs = s.scrubs ∧ s'.recStat = s.recStat ∧
    s'.dying = s.dying ∧ s'.confScrub = s.confScrub ∧ s'.rules = s.rules ∧ s'.pendRules = s.pendRules ∧ s'.nextRule = s.nextRule ∧
    s'.sets = s.sets ∧ s'.nextSet = s.nextSet ∧ s'.mem = s.mem ∧ s'.poison = s.poison ∧ s'.dram = s.dram ∧ s'.patrol = s.patrol ∧
    s'.rebuilds = s.rebuilds ∧ s'.links = s.links ∧ s'.routes = s.routes ∧ s'.routesNext = s.routesNext ∧ s'.remotes = s.remotes ∧
    s'.nextTag = s.nextTag ∧ s'.keys = s.keys ∧ s'.replaces = s.replaces ∧ s'.bbram = s.bbram ∧ s'.fuses = s.fuses ∧
    s'.rootState = s.rootState ∧ s'.tally = s.tally ∧ s'.bar = s.bar ∧ s'.units = s.units ∧ s'.bists = s.bists ∧ s'.fw = s.fw ∧
    s'.fatal = s.fatal ∧ s'.gov = s.gov ∧ s'.flash = s.flash ∧ s'.mgmt = s.mgmt ∧ s'.board = s.board ∧ s'.freeCtr = s.freeCtr ∧
    s'.admitted = s.admitted ∧ s'.spLeft = s.spLeft ∧ s'.cxlHeld = s.cxlHeld ∧ s'.hiddenPoison = s.hiddenPoison := by
  intro s'; and_intros <;> rfl

@[simp] theorem modQp_rest (s : State) (t : TarnIx) (q : QpIx) (g : Qp → Qp) : let s' := modQp s t q g
    s'.pending = s.pending ∧ s'.outbox = s.outbox ∧ s'.beat = s.beat ∧ s'.pos = s.pos ∧ s'.timeUs = s.timeUs ∧ s'.table = s.table ∧
    s'.swapped = s.swapped ∧ s'.shadow = s.shadow ∧ s'.timing = s.timing ∧ s'.tickets = s.tickets ∧ s'.nextUid = s.nextUid ∧
    s'.gens = s.gens ∧ s'.figs = s.figs ∧ s'.map = s.map ∧ s'.tarns = s.tarns ∧ s'.tgStat = s.tgStat ∧ s'.laneStat = s.laneStat ∧
    s'.kaeStat = s.kaeStat ∧ s'.linkStat = s.linkStat ∧ s'.memStat = s.memStat ∧ s'.scrubs = s.scrubs ∧ s'.recStat = s.recStat ∧
    s'.dying = s.dying ∧ s'.confScrub = s.confScrub ∧ s'.rules = s.rules ∧ s'.pendRules = s.pendRules ∧ s'.nextRule = s.nextRule ∧
    s'.sets = s.sets ∧ s'.nextSet = s.nextSet ∧ s'.mem = s.mem ∧ s'.poison = s.poison ∧ s'.dram = s.dram ∧ s'.patrol = s.patrol ∧
    s'.rebuilds = s.rebuilds ∧ s'.links = s.links ∧ s'.routes = s.routes ∧ s'.routesNext = s.routesNext ∧ s'.remotes = s.remotes ∧
    s'.nextTag = s.nextTag ∧ s'.keys = s.keys ∧ s'.replaces = s.replaces ∧ s'.bbram = s.bbram ∧ s'.fuses = s.fuses ∧
    s'.rootState = s.rootState ∧ s'.tally = s.tally ∧ s'.bar = s.bar ∧ s'.units = s.units ∧ s'.bists = s.bists ∧ s'.fw = s.fw ∧
    s'.fatal = s.fatal ∧ s'.gov = s.gov ∧ s'.flash = s.flash ∧ s'.mgmt = s.mgmt ∧ s'.board = s.board ∧ s'.freeCtr = s.freeCtr ∧
    s'.admitted = s.admitted ∧ s'.spLeft = s.spLeft ∧ s'.cxlHeld = s.cxlHeld ∧ s'.hiddenPoison = s.hiddenPoison := by
  intro s'; and_intros <;> rfl

@[simp] theorem modTarn_rest (s : State) (t : TarnIx) (g : Tarn → Tarn) : let s' := modTarn s t g
    s'.pending = s.pending ∧ s'.outbox = s.outbox ∧ s'.beat = s.beat ∧ s'.pos = s.pos ∧ s'.timeUs = s.timeUs ∧ s'.table = s.table ∧
    s'.swapped = s.swapped ∧ s'.shadow = s.shadow ∧ s'.timing = s.timing ∧ s'.fns = s.fns ∧ s'.tickets = s.tickets ∧
    s'.nextUid = s.nextUid ∧ s'.gens = s.gens ∧ s'.figs = s.figs ∧ s'.map = s.map ∧ s'.tgStat = s.tgStat ∧ s'.laneStat = s.laneStat ∧
    s'.kaeStat = s.kaeStat ∧ s'.linkStat = s.linkStat ∧ s'.memStat = s.memStat ∧ s'.scrubs = s.scrubs ∧ s'.recStat = s.recStat ∧
    s'.dying = s.dying ∧ s'.confScrub = s.confScrub ∧ s'.rules = s.rules ∧ s'.pendRules = s.pendRules ∧ s'.nextRule = s.nextRule ∧
    s'.sets = s.sets ∧ s'.nextSet = s.nextSet ∧ s'.mem = s.mem ∧ s'.poison = s.poison ∧ s'.dram = s.dram ∧ s'.patrol = s.patrol ∧
    s'.rebuilds = s.rebuilds ∧ s'.links = s.links ∧ s'.routes = s.routes ∧ s'.routesNext = s.routesNext ∧ s'.remotes = s.remotes ∧
    s'.nextTag = s.nextTag ∧ s'.keys = s.keys ∧ s'.replaces = s.replaces ∧ s'.bbram = s.bbram ∧ s'.fuses = s.fuses ∧
    s'.rootState = s.rootState ∧ s'.tally = s.tally ∧ s'.bar = s.bar ∧ s'.units = s.units ∧ s'.bists = s.bists ∧ s'.fw = s.fw ∧
    s'.fatal = s.fatal ∧ s'.gov = s.gov ∧ s'.flash = s.flash ∧ s'.mgmt = s.mgmt ∧ s'.board = s.board ∧ s'.freeCtr = s.freeCtr ∧
    s'.admitted = s.admitted ∧ s'.spLeft = s.spLeft ∧ s'.cxlHeld = s.cxlHeld ∧ s'.hiddenPoison = s.hiddenPoison := by
  intro s'; and_intros <;> rfl

@[simp] theorem modRound_rest (s : State) (t : TarnIx) (r : Nat) (g : Round → Round) : let s' := modRound s t r g
    s'.pending = s.pending ∧ s'.outbox = s.outbox ∧ s'.beat = s.beat ∧ s'.pos = s.pos ∧ s'.timeUs = s.timeUs ∧ s'.table = s.table ∧
    s'.swapped = s.swapped ∧ s'.shadow = s.shadow ∧ s'.timing = s.timing ∧ s'.fns = s.fns ∧ s'.tickets = s.tickets ∧
    s'.nextUid = s.nextUid ∧ s'.gens = s.gens ∧ s'.figs = s.figs ∧ s'.map = s.map ∧ s'.tgStat = s.tgStat ∧ s'.laneStat = s.laneStat ∧
    s'.kaeStat = s.kaeStat ∧ s'.linkStat = s.linkStat ∧ s'.memStat = s.memStat ∧ s'.scrubs = s.scrubs ∧ s'.recStat = s.recStat ∧
    s'.dying = s.dying ∧ s'.confScrub = s.confScrub ∧ s'.rules = s.rules ∧ s'.pendRules = s.pendRules ∧ s'.nextRule = s.nextRule ∧
    s'.sets = s.sets ∧ s'.nextSet = s.nextSet ∧ s'.mem = s.mem ∧ s'.poison = s.poison ∧ s'.dram = s.dram ∧ s'.patrol = s.patrol ∧
    s'.rebuilds = s.rebuilds ∧ s'.links = s.links ∧ s'.routes = s.routes ∧ s'.routesNext = s.routesNext ∧ s'.remotes = s.remotes ∧
    s'.nextTag = s.nextTag ∧ s'.keys = s.keys ∧ s'.replaces = s.replaces ∧ s'.bbram = s.bbram ∧ s'.fuses = s.fuses ∧
    s'.rootState = s.rootState ∧ s'.tally = s.tally ∧ s'.bar = s.bar ∧ s'.units = s.units ∧ s'.bists = s.bists ∧ s'.fw = s.fw ∧
    s'.fatal = s.fatal ∧ s'.gov = s.gov ∧ s'.flash = s.flash ∧ s'.mgmt = s.mgmt ∧ s'.board = s.board ∧ s'.freeCtr = s.freeCtr ∧
    s'.admitted = s.admitted ∧ s'.spLeft = s.spLeft ∧ s'.cxlHeld = s.cxlHeld ∧ s'.hiddenPoison = s.hiddenPoison := by
  intro s'; and_intros <;> rfl

@[simp] theorem modTicket_rest (s : State) (uid : Nat) (g : Ticket → Ticket) : let s' := modTicket s uid g
    s'.pending = s.pending ∧ s'.outbox = s.outbox ∧ s'.beat = s.beat ∧ s'.pos = s.pos ∧ s'.timeUs = s.timeUs ∧ s'.table = s.table ∧
    s'.swapped = s.swapped ∧ s'.shadow = s.shadow ∧ s'.timing = s.timing ∧ s'.fns = s.fns ∧ s'.nextUid = s.nextUid ∧ s'.gens = s.gens ∧
    s'.figs = s.figs ∧ s'.map = s.map ∧ s'.tarns = s.tarns ∧ s'.tgStat = s.tgStat ∧ s'.laneStat = s.laneStat ∧ s'.kaeStat = s.kaeStat ∧
    s'.linkStat = s.linkStat ∧ s'.memStat = s.memStat ∧ s'.scrubs = s.scrubs ∧ s'.recStat = s.recStat ∧ s'.dying = s.dying ∧
    s'.confScrub = s.confScrub ∧ s'.rules = s.rules ∧ s'.pendRules = s.pendRules ∧ s'.nextRule = s.nextRule ∧ s'.sets = s.sets ∧
    s'.nextSet = s.nextSet ∧ s'.mem = s.mem ∧ s'.poison = s.poison ∧ s'.dram = s.dram ∧ s'.patrol = s.patrol ∧ s'.rebuilds = s.rebuilds ∧
    s'.links = s.links ∧ s'.routes = s.routes ∧ s'.routesNext = s.routesNext ∧ s'.remotes = s.remotes ∧ s'.nextTag = s.nextTag ∧
    s'.keys = s.keys ∧ s'.replaces = s.replaces ∧ s'.bbram = s.bbram ∧ s'.fuses = s.fuses ∧ s'.rootState = s.rootState ∧
    s'.tally = s.tally ∧ s'.bar = s.bar ∧ s'.units = s.units ∧ s'.bists = s.bists ∧ s'.fw = s.fw ∧ s'.fatal = s.fatal ∧ s'.gov = s.gov ∧
    s'.flash = s.flash ∧ s'.mgmt = s.mgmt ∧ s'.board = s.board ∧ s'.freeCtr = s.freeCtr ∧ s'.admitted = s.admitted ∧ s'.spLeft = s.spLeft ∧
    s'.cxlHeld = s.cxlHeld ∧ s'.hiddenPoison = s.hiddenPoison := by
  intro s'; and_intros <;> rfl

@[simp] theorem finishTicket_rest (s : State) (uid r0 r1 : Nat) : let s' := finishTicket s uid r0 r1
    s'.pending = s.pending ∧ s'.outbox = s.outbox ∧ s'.beat = s.beat ∧ s'.pos = s.pos ∧ s'.timeUs = s.timeUs ∧ s'.table = s.table ∧
    s'.swapped = s.swapped ∧ s'.shadow = s.shadow ∧ s'.timing = s.timing ∧ s'.fns = s.fns ∧ s'.nextUid = s.nextUid ∧ s'.gens = s.gens ∧
    s'.figs = s.figs ∧ s'.map = s.map ∧ s'.tarns = s.tarns ∧ s'.tgStat = s.tgStat ∧ s'.laneStat = s.laneStat ∧ s'.kaeStat = s.kaeStat ∧
    s'.linkStat = s.linkStat ∧ s'.memStat = s.memStat ∧ s'.scrubs = s.scrubs ∧ s'.recStat = s.recStat ∧ s'.dying = s.dying ∧
    s'.confScrub = s.confScrub ∧ s'.rules = s.rules ∧ s'.pendRules = s.pendRules ∧ s'.nextRule = s.nextRule ∧ s'.sets = s.sets ∧
    s'.nextSet = s.nextSet ∧ s'.mem = s.mem ∧ s'.poison = s.poison ∧ s'.dram = s.dram ∧ s'.patrol = s.patrol ∧ s'.rebuilds = s.rebuilds ∧
    s'.links = s.links ∧ s'.routes = s.routes ∧ s'.routesNext = s.routesNext ∧ s'.remotes = s.remotes ∧ s'.nextTag = s.nextTag ∧
    s'.keys = s.keys ∧ s'.replaces = s.replaces ∧ s'.bbram = s.bbram ∧ s'.fuses = s.fuses ∧ s'.rootState = s.rootState ∧
    s'.tally = s.tally ∧ s'.bar = s.bar ∧ s'.units = s.units ∧ s'.bists = s.bists ∧ s'.fw = s.fw ∧ s'.fatal = s.fatal ∧ s'.gov = s.gov ∧
    s'.flash = s.flash ∧ s'.mgmt = s.mgmt ∧ s'.board = s.board ∧ s'.freeCtr = s.freeCtr ∧ s'.admitted = s.admitted ∧ s'.spLeft = s.spLeft ∧
    s'.cxlHeld = s.cxlHeld ∧ s'.hiddenPoison = s.hiddenPoison := by
  intro s'; and_intros <;> rfl

@[simp] theorem answerTicket_rest (s : State) (uid : Nat) (st : Status) (r0 r1 : Nat) : let s' := answerTicket s uid st r0 r1
    s'.pending = s.pending ∧ s'.outbox = s.outbox ∧ s'.beat = s.beat ∧ s'.pos = s.pos ∧ s'.timeUs = s.timeUs ∧ s'.table = s.table ∧
    s'.swapped = s.swapped ∧ s'.shadow = s.shadow ∧ s'.timing = s.timing ∧ s'.fns = s.fns ∧ s'.nextUid = s.nextUid ∧ s'.gens = s.gens ∧
    s'.figs = s.figs ∧ s'.map = s.map ∧ s'.tarns = s.tarns ∧ s'.tgStat = s.tgStat ∧ s'.laneStat = s.laneStat ∧ s'.kaeStat = s.kaeStat ∧
    s'.linkStat = s.linkStat ∧ s'.memStat = s.memStat ∧ s'.scrubs = s.scrubs ∧ s'.recStat = s.recStat ∧ s'.dying = s.dying ∧
    s'.confScrub = s.confScrub ∧ s'.rules = s.rules ∧ s'.pendRules = s.pendRules ∧ s'.nextRule = s.nextRule ∧ s'.sets = s.sets ∧
    s'.nextSet = s.nextSet ∧ s'.mem = s.mem ∧ s'.poison = s.poison ∧ s'.dram = s.dram ∧ s'.patrol = s.patrol ∧ s'.rebuilds = s.rebuilds ∧
    s'.links = s.links ∧ s'.routes = s.routes ∧ s'.routesNext = s.routesNext ∧ s'.remotes = s.remotes ∧ s'.nextTag = s.nextTag ∧
    s'.keys = s.keys ∧ s'.replaces = s.replaces ∧ s'.bbram = s.bbram ∧ s'.fuses = s.fuses ∧ s'.rootState = s.rootState ∧
    s'.tally = s.tally ∧ s'.bar = s.bar ∧ s'.units = s.units ∧ s'.bists = s.bists ∧ s'.fw = s.fw ∧ s'.fatal = s.fatal ∧ s'.gov = s.gov ∧
    s'.flash = s.flash ∧ s'.mgmt = s.mgmt ∧ s'.board = s.board ∧ s'.freeCtr = s.freeCtr ∧ s'.admitted = s.admitted ∧ s'.spLeft = s.spLeft ∧
    s'.cxlHeld = s.cxlHeld ∧ s'.hiddenPoison = s.hiddenPoison := by
  intro s'; and_intros <;> rfl

@[simp] theorem failTicket_rest (s : State) (uid : Nat) (st : Status) : let s' := failTicket s uid st
    s'.pending = s.pending ∧ s'.outbox = s.outbox ∧ s'.beat = s.beat ∧ s'.pos = s.pos ∧ s'.timeUs = s.timeUs ∧ s'.table = s.table ∧
    s'.swapped = s.swapped ∧ s'.shadow = s.shadow ∧ s'.timing = s.timing ∧ s'.fns = s.fns ∧ s'.nextUid = s.nextUid ∧ s'.gens = s.gens ∧
    s'.figs = s.figs ∧ s'.map = s.map ∧ s'.tarns = s.tarns ∧ s'.tgStat = s.tgStat ∧ s'.laneStat = s.laneStat ∧ s'.kaeStat = s.kaeStat ∧
    s'.linkStat = s.linkStat ∧ s'.memStat = s.memStat ∧ s'.scrubs = s.scrubs ∧ s'.recStat = s.recStat ∧ s'.dying = s.dying ∧
    s'.confScrub = s.confScrub ∧ s'.rules = s.rules ∧ s'.pendRules = s.pendRules ∧ s'.nextRule = s.nextRule ∧ s'.sets = s.sets ∧
    s'.nextSet = s.nextSet ∧ s'.mem = s.mem ∧ s'.poison = s.poison ∧ s'.dram = s.dram ∧ s'.patrol = s.patrol ∧ s'.rebuilds = s.rebuilds ∧
    s'.links = s.links ∧ s'.routes = s.routes ∧ s'.routesNext = s.routesNext ∧ s'.remotes = s.remotes ∧ s'.nextTag = s.nextTag ∧
    s'.keys = s.keys ∧ s'.replaces = s.replaces ∧ s'.bbram = s.bbram ∧ s'.fuses = s.fuses ∧ s'.rootState = s.rootState ∧
    s'.tally = s.tally ∧ s'.bar = s.bar ∧ s'.units = s.units ∧ s'.bists = s.bists ∧ s'.fw = s.fw ∧ s'.fatal = s.fatal ∧ s'.gov = s.gov ∧
    s'.flash = s.flash ∧ s'.mgmt = s.mgmt ∧ s'.board = s.board ∧ s'.freeCtr = s.freeCtr ∧ s'.admitted = s.admitted ∧ s'.spLeft = s.spLeft ∧
    s'.cxlHeld = s.cxlHeld ∧ s'.hiddenPoison = s.hiddenPoison := by
  intro s'; and_intros <;> rfl

@[simp] theorem modLink_rest (s : State) (n : LinkIx) (g : Link → Link) : let s' := modLink s n g
    s'.pending = s.pending ∧ s'.outbox = s.outbox ∧ s'.beat = s.beat ∧ s'.pos = s.pos ∧ s'.timeUs = s.timeUs ∧ s'.table = s.table ∧
    s'.swapped = s.swapped ∧ s'.shadow = s.shadow ∧ s'.timing = s.timing ∧ s'.fns = s.fns ∧ s'.tickets = s.tickets ∧
    s'.nextUid = s.nextUid ∧ s'.gens = s.gens ∧ s'.figs = s.figs ∧ s'.map = s.map ∧ s'.tarns = s.tarns ∧ s'.tgStat = s.tgStat ∧
    s'.laneStat = s.laneStat ∧ s'.kaeStat = s.kaeStat ∧ s'.linkStat = s.linkStat ∧ s'.memStat = s.memStat ∧ s'.scrubs = s.scrubs ∧
    s'.recStat = s.recStat ∧ s'.dying = s.dying ∧ s'.confScrub = s.confScrub ∧ s'.rules = s.rules ∧ s'.pendRules = s.pendRules ∧
    s'.nextRule = s.nextRule ∧ s'.sets = s.sets ∧ s'.nextSet = s.nextSet ∧ s'.mem = s.mem ∧ s'.poison = s.poison ∧ s'.dram = s.dram ∧
    s'.patrol = s.patrol ∧ s'.rebuilds = s.rebuilds ∧ s'.routes = s.routes ∧ s'.routesNext = s.routesNext ∧ s'.remotes = s.remotes ∧
    s'.nextTag = s.nextTag ∧ s'.keys = s.keys ∧ s'.replaces = s.replaces ∧ s'.bbram = s.bbram ∧ s'.fuses = s.fuses ∧
    s'.rootState = s.rootState ∧ s'.tally = s.tally ∧ s'.bar = s.bar ∧ s'.units = s.units ∧ s'.bists = s.bists ∧ s'.fw = s.fw ∧
    s'.fatal = s.fatal ∧ s'.gov = s.gov ∧ s'.flash = s.flash ∧ s'.mgmt = s.mgmt ∧ s'.board = s.board ∧ s'.freeCtr = s.freeCtr ∧
    s'.admitted = s.admitted ∧ s'.spLeft = s.spLeft ∧ s'.cxlHeld = s.cxlHeld ∧ s'.hiddenPoison = s.hiddenPoison := by
  intro s'; and_intros <;> rfl

@[simp] theorem modSlot_rest (s : State) (k : Nat) (g : KeySlot → KeySlot) : let s' := modSlot s k g
    s'.pending = s.pending ∧ s'.outbox = s.outbox ∧ s'.beat = s.beat ∧ s'.pos = s.pos ∧ s'.timeUs = s.timeUs ∧ s'.table = s.table ∧
    s'.swapped = s.swapped ∧ s'.shadow = s.shadow ∧ s'.timing = s.timing ∧ s'.fns = s.fns ∧ s'.tickets = s.tickets ∧
    s'.nextUid = s.nextUid ∧ s'.gens = s.gens ∧ s'.figs = s.figs ∧ s'.map = s.map ∧ s'.tarns = s.tarns ∧ s'.tgStat = s.tgStat ∧
    s'.laneStat = s.laneStat ∧ s'.kaeStat = s.kaeStat ∧ s'.linkStat = s.linkStat ∧ s'.memStat = s.memStat ∧ s'.scrubs = s.scrubs ∧
    s'.recStat = s.recStat ∧ s'.dying = s.dying ∧ s'.confScrub = s.confScrub ∧ s'.rules = s.rules ∧ s'.pendRules = s.pendRules ∧
    s'.nextRule = s.nextRule ∧ s'.sets = s.sets ∧ s'.nextSet = s.nextSet ∧ s'.mem = s.mem ∧ s'.poison = s.poison ∧ s'.dram = s.dram ∧
    s'.patrol = s.patrol ∧ s'.rebuilds = s.rebuilds ∧ s'.links = s.links ∧ s'.routes = s.routes ∧ s'.routesNext = s.routesNext ∧
    s'.remotes = s.remotes ∧ s'.nextTag = s.nextTag ∧ s'.replaces = s.replaces ∧ s'.bbram = s.bbram ∧ s'.fuses = s.fuses ∧
    s'.rootState = s.rootState ∧ s'.tally = s.tally ∧ s'.bar = s.bar ∧ s'.units = s.units ∧ s'.bists = s.bists ∧ s'.fw = s.fw ∧
    s'.fatal = s.fatal ∧ s'.gov = s.gov ∧ s'.flash = s.flash ∧ s'.mgmt = s.mgmt ∧ s'.board = s.board ∧ s'.freeCtr = s.freeCtr ∧
    s'.admitted = s.admitted ∧ s'.spLeft = s.spLeft ∧ s'.cxlHeld = s.cxlHeld ∧ s'.hiddenPoison = s.hiddenPoison := by
  intro s'; and_intros <;> rfl

@[simp] theorem setJournal_rest (s : State) (j : Nat) (g : JEntry → JEntry) : let s' := setJournal s j g
    s'.pending = s.pending ∧ s'.outbox = s.outbox ∧ s'.beat = s.beat ∧ s'.pos = s.pos ∧ s'.timeUs = s.timeUs ∧ s'.table = s.table ∧
    s'.swapped = s.swapped ∧ s'.shadow = s.shadow ∧ s'.timing = s.timing ∧ s'.fns = s.fns ∧ s'.tickets = s.tickets ∧
    s'.nextUid = s.nextUid ∧ s'.gens = s.gens ∧ s'.figs = s.figs ∧ s'.map = s.map ∧ s'.tarns = s.tarns ∧ s'.tgStat = s.tgStat ∧
    s'.laneStat = s.laneStat ∧ s'.kaeStat = s.kaeStat ∧ s'.linkStat = s.linkStat ∧ s'.memStat = s.memStat ∧ s'.scrubs = s.scrubs ∧
    s'.recStat = s.recStat ∧ s'.dying = s.dying ∧ s'.confScrub = s.confScrub ∧ s'.rules = s.rules ∧ s'.pendRules = s.pendRules ∧
    s'.nextRule = s.nextRule ∧ s'.sets = s.sets ∧ s'.nextSet = s.nextSet ∧ s'.mem = s.mem ∧ s'.poison = s.poison ∧ s'.dram = s.dram ∧
    s'.patrol = s.patrol ∧ s'.rebuilds = s.rebuilds ∧ s'.links = s.links ∧ s'.routes = s.routes ∧ s'.routesNext = s.routesNext ∧
    s'.remotes = s.remotes ∧ s'.nextTag = s.nextTag ∧ s'.keys = s.keys ∧ s'.replaces = s.replaces ∧ s'.fuses = s.fuses ∧
    s'.rootState = s.rootState ∧ s'.tally = s.tally ∧ s'.bar = s.bar ∧ s'.units = s.units ∧ s'.bists = s.bists ∧ s'.fw = s.fw ∧
    s'.fatal = s.fatal ∧ s'.gov = s.gov ∧ s'.flash = s.flash ∧ s'.mgmt = s.mgmt ∧ s'.board = s.board ∧ s'.freeCtr = s.freeCtr ∧
    s'.admitted = s.admitted ∧ s'.spLeft = s.spLeft ∧ s'.cxlHeld = s.cxlHeld ∧ s'.hiddenPoison = s.hiddenPoison := by
  intro s'; and_intros <;> rfl

@[simp] theorem modParent_rest (s : State) (p : Nat) (g : Parent → Parent) : let s' := modParent s p g
    s'.pending = s.pending ∧ s'.outbox = s.outbox ∧ s'.beat = s.beat ∧ s'.pos = s.pos ∧ s'.timeUs = s.timeUs ∧ s'.table = s.table ∧
    s'.swapped = s.swapped ∧ s'.shadow = s.shadow ∧ s'.timing = s.timing ∧ s'.fns = s.fns ∧ s'.tickets = s.tickets ∧
    s'.nextUid = s.nextUid ∧ s'.gens = s.gens ∧ s'.figs = s.figs ∧ s'.map = s.map ∧ s'.tarns = s.tarns ∧ s'.tgStat = s.tgStat ∧
    s'.laneStat = s.laneStat ∧ s'.kaeStat = s.kaeStat ∧ s'.linkStat = s.linkStat ∧ s'.memStat = s.memStat ∧ s'.scrubs = s.scrubs ∧
    s'.recStat = s.recStat ∧ s'.dying = s.dying ∧ s'.confScrub = s.confScrub ∧ s'.rules = s.rules ∧ s'.pendRules = s.pendRules ∧
    s'.nextRule = s.nextRule ∧ s'.sets = s.sets ∧ s'.nextSet = s.nextSet ∧ s'.mem = s.mem ∧ s'.poison = s.poison ∧ s'.dram = s.dram ∧
    s'.patrol = s.patrol ∧ s'.rebuilds = s.rebuilds ∧ s'.links = s.links ∧ s'.routes = s.routes ∧ s'.routesNext = s.routesNext ∧
    s'.remotes = s.remotes ∧ s'.nextTag = s.nextTag ∧ s'.keys = s.keys ∧ s'.replaces = s.replaces ∧ s'.fuses = s.fuses ∧
    s'.rootState = s.rootState ∧ s'.tally = s.tally ∧ s'.bar = s.bar ∧ s'.units = s.units ∧ s'.bists = s.bists ∧ s'.fw = s.fw ∧
    s'.fatal = s.fatal ∧ s'.gov = s.gov ∧ s'.flash = s.flash ∧ s'.mgmt = s.mgmt ∧ s'.board = s.board ∧ s'.freeCtr = s.freeCtr ∧
    s'.admitted = s.admitted ∧ s'.spLeft = s.spLeft ∧ s'.cxlHeld = s.cxlHeld ∧ s'.hiddenPoison = s.hiddenPoison := by
  intro s'; and_intros <;> rfl

@[simp] theorem modFig_rest (s : State) (i : Nat) (g : FigRun → FigRun) : let s' := modFig s i g
    s'.pending = s.pending ∧ s'.outbox = s.outbox ∧ s'.beat = s.beat ∧ s'.pos = s.pos ∧ s'.timeUs = s.timeUs ∧ s'.table = s.table ∧
    s'.swapped = s.swapped ∧ s'.shadow = s.shadow ∧ s'.timing = s.timing ∧ s'.fns = s.fns ∧ s'.tickets = s.tickets ∧
    s'.nextUid = s.nextUid ∧ s'.gens = s.gens ∧ s'.map = s.map ∧ s'.tarns = s.tarns ∧ s'.tgStat = s.tgStat ∧ s'.laneStat = s.laneStat ∧
    s'.kaeStat = s.kaeStat ∧ s'.linkStat = s.linkStat ∧ s'.memStat = s.memStat ∧ s'.scrubs = s.scrubs ∧ s'.recStat = s.recStat ∧
    s'.dying = s.dying ∧ s'.confScrub = s.confScrub ∧ s'.rules = s.rules ∧ s'.pendRules = s.pendRules ∧ s'.nextRule = s.nextRule ∧
    s'.sets = s.sets ∧ s'.nextSet = s.nextSet ∧ s'.mem = s.mem ∧ s'.poison = s.poison ∧ s'.dram = s.dram ∧ s'.patrol = s.patrol ∧
    s'.rebuilds = s.rebuilds ∧ s'.links = s.links ∧ s'.routes = s.routes ∧ s'.routesNext = s.routesNext ∧ s'.remotes = s.remotes ∧
    s'.nextTag = s.nextTag ∧ s'.keys = s.keys ∧ s'.replaces = s.replaces ∧ s'.bbram = s.bbram ∧ s'.fuses = s.fuses ∧
    s'.rootState = s.rootState ∧ s'.tally = s.tally ∧ s'.bar = s.bar ∧ s'.units = s.units ∧ s'.bists = s.bists ∧ s'.fw = s.fw ∧
    s'.fatal = s.fatal ∧ s'.gov = s.gov ∧ s'.flash = s.flash ∧ s'.mgmt = s.mgmt ∧ s'.board = s.board ∧ s'.freeCtr = s.freeCtr ∧
    s'.admitted = s.admitted ∧ s'.spLeft = s.spLeft ∧ s'.cxlHeld = s.cxlHeld ∧ s'.hiddenPoison = s.hiddenPoison := by
  intro s'; and_intros <;> rfl

@[simp] theorem modTile_rest (s : State) (i j : Nat) (g : TileRun → TileRun) : let s' := modTile s i j g
    s'.pending = s.pending ∧ s'.outbox = s.outbox ∧ s'.beat = s.beat ∧ s'.pos = s.pos ∧ s'.timeUs = s.timeUs ∧ s'.table = s.table ∧
    s'.swapped = s.swapped ∧ s'.shadow = s.shadow ∧ s'.timing = s.timing ∧ s'.fns = s.fns ∧ s'.tickets = s.tickets ∧
    s'.nextUid = s.nextUid ∧ s'.gens = s.gens ∧ s'.map = s.map ∧ s'.tarns = s.tarns ∧ s'.tgStat = s.tgStat ∧ s'.laneStat = s.laneStat ∧
    s'.kaeStat = s.kaeStat ∧ s'.linkStat = s.linkStat ∧ s'.memStat = s.memStat ∧ s'.scrubs = s.scrubs ∧ s'.recStat = s.recStat ∧
    s'.dying = s.dying ∧ s'.confScrub = s.confScrub ∧ s'.rules = s.rules ∧ s'.pendRules = s.pendRules ∧ s'.nextRule = s.nextRule ∧
    s'.sets = s.sets ∧ s'.nextSet = s.nextSet ∧ s'.mem = s.mem ∧ s'.poison = s.poison ∧ s'.dram = s.dram ∧ s'.patrol = s.patrol ∧
    s'.rebuilds = s.rebuilds ∧ s'.links = s.links ∧ s'.routes = s.routes ∧ s'.routesNext = s.routesNext ∧ s'.remotes = s.remotes ∧
    s'.nextTag = s.nextTag ∧ s'.keys = s.keys ∧ s'.replaces = s.replaces ∧ s'.bbram = s.bbram ∧ s'.fuses = s.fuses ∧
    s'.rootState = s.rootState ∧ s'.tally = s.tally ∧ s'.bar = s.bar ∧ s'.units = s.units ∧ s'.bists = s.bists ∧ s'.fw = s.fw ∧
    s'.fatal = s.fatal ∧ s'.gov = s.gov ∧ s'.flash = s.flash ∧ s'.mgmt = s.mgmt ∧ s'.board = s.board ∧ s'.freeCtr = s.freeCtr ∧
    s'.admitted = s.admitted ∧ s'.spLeft = s.spLeft ∧ s'.cxlHeld = s.cxlHeld ∧ s'.hiddenPoison = s.hiddenPoison := by
  intro s'; and_intros <;> rfl

@[simp] theorem modSet_rest (s : State) (i : Nat) (g : ChangeSet → ChangeSet) : let s' := modSet s i g
    s'.pending = s.pending ∧ s'.outbox = s.outbox ∧ s'.beat = s.beat ∧ s'.pos = s.pos ∧ s'.timeUs = s.timeUs ∧ s'.table = s.table ∧
    s'.swapped = s.swapped ∧ s'.shadow = s.shadow ∧ s'.timing = s.timing ∧ s'.fns = s.fns ∧ s'.tickets = s.tickets ∧
    s'.nextUid = s.nextUid ∧ s'.gens = s.gens ∧ s'.figs = s.figs ∧ s'.map = s.map ∧ s'.tarns = s.tarns ∧ s'.tgStat = s.tgStat ∧
    s'.laneStat = s.laneStat ∧ s'.kaeStat = s.kaeStat ∧ s'.linkStat = s.linkStat ∧ s'.memStat = s.memStat ∧ s'.scrubs = s.scrubs ∧
    s'.recStat = s.recStat ∧ s'.dying = s.dying ∧ s'.confScrub = s.confScrub ∧ s'.rules = s.rules ∧ s'.pendRules = s.pendRules ∧
    s'.nextRule = s.nextRule ∧ s'.nextSet = s.nextSet ∧ s'.mem = s.mem ∧ s'.poison = s.poison ∧ s'.dram = s.dram ∧ s'.patrol = s.patrol ∧
    s'.rebuilds = s.rebuilds ∧ s'.links = s.links ∧ s'.routes = s.routes ∧ s'.routesNext = s.routesNext ∧ s'.remotes = s.remotes ∧
    s'.nextTag = s.nextTag ∧ s'.keys = s.keys ∧ s'.replaces = s.replaces ∧ s'.bbram = s.bbram ∧ s'.fuses = s.fuses ∧
    s'.rootState = s.rootState ∧ s'.tally = s.tally ∧ s'.bar = s.bar ∧ s'.units = s.units ∧ s'.bists = s.bists ∧ s'.fw = s.fw ∧
    s'.fatal = s.fatal ∧ s'.gov = s.gov ∧ s'.flash = s.flash ∧ s'.mgmt = s.mgmt ∧ s'.board = s.board ∧ s'.freeCtr = s.freeCtr ∧
    s'.admitted = s.admitted ∧ s'.spLeft = s.spLeft ∧ s'.cxlHeld = s.cxlHeld ∧ s'.hiddenPoison = s.hiddenPoison := by
  intro s'; and_intros <;> rfl

@[simp] theorem modPort_rest (s : State) (p : Port) (g : PortSt → PortSt) : let s' := modPort s p g
    s'.pending = s.pending ∧ s'.outbox = s.outbox ∧ s'.beat = s.beat ∧ s'.pos = s.pos ∧ s'.timeUs = s.timeUs ∧ s'.table = s.table ∧
    s'.swapped = s.swapped ∧ s'.shadow = s.shadow ∧ s'.timing = s.timing ∧ s'.fns = s.fns ∧ s'.tickets = s.tickets ∧
    s'.nextUid = s.nextUid ∧ s'.gens = s.gens ∧ s'.figs = s.figs ∧ s'.map = s.map ∧ s'.tarns = s.tarns ∧ s'.tgStat = s.tgStat ∧
    s'.laneStat = s.laneStat ∧ s'.kaeStat = s.kaeStat ∧ s'.linkStat = s.linkStat ∧ s'.memStat = s.memStat ∧ s'.scrubs = s.scrubs ∧
    s'.recStat = s.recStat ∧ s'.dying = s.dying ∧ s'.confScrub = s.confScrub ∧ s'.rules = s.rules ∧ s'.pendRules = s.pendRules ∧
    s'.nextRule = s.nextRule ∧ s'.sets = s.sets ∧ s'.nextSet = s.nextSet ∧ s'.mem = s.mem ∧ s'.poison = s.poison ∧ s'.dram = s.dram ∧
    s'.patrol = s.patrol ∧ s'.rebuilds = s.rebuilds ∧ s'.links = s.links ∧ s'.routes = s.routes ∧ s'.routesNext = s.routesNext ∧
    s'.remotes = s.remotes ∧ s'.nextTag = s.nextTag ∧ s'.keys = s.keys ∧ s'.replaces = s.replaces ∧ s'.bbram = s.bbram ∧
    s'.fuses = s.fuses ∧ s'.rootState = s.rootState ∧ s'.tally = s.tally ∧ s'.bar = s.bar ∧ s'.units = s.units ∧ s'.bists = s.bists ∧
    s'.fw = s.fw ∧ s'.fatal = s.fatal ∧ s'.gov = s.gov ∧ s'.flash = s.flash ∧ s'.mgmt = s.mgmt ∧ s'.freeCtr = s.freeCtr ∧
    s'.admitted = s.admitted ∧ s'.spLeft = s.spLeft ∧ s'.cxlHeld = s.cxlHeld ∧ s'.hiddenPoison = s.hiddenPoison := by
  intro s'; and_intros <;> rfl

@[simp] theorem emit_rest (s : State) (o : Output) : let s' := emit s o
    s'.pending = s.pending ∧ s'.beat = s.beat ∧ s'.pos = s.pos ∧ s'.timeUs = s.timeUs ∧ s'.table = s.table ∧ s'.swapped = s.swapped ∧
    s'.shadow = s.shadow ∧ s'.timing = s.timing ∧ s'.fns = s.fns ∧ s'.tickets = s.tickets ∧ s'.nextUid = s.nextUid ∧ s'.gens = s.gens ∧
    s'.figs = s.figs ∧ s'.map = s.map ∧ s'.tarns = s.tarns ∧ s'.tgStat = s.tgStat ∧ s'.laneStat = s.laneStat ∧ s'.kaeStat = s.kaeStat ∧
    s'.linkStat = s.linkStat ∧ s'.memStat = s.memStat ∧ s'.scrubs = s.scrubs ∧ s'.recStat = s.recStat ∧ s'.dying = s.dying ∧
    s'.confScrub = s.confScrub ∧ s'.rules = s.rules ∧ s'.pendRules = s.pendRules ∧ s'.nextRule = s.nextRule ∧ s'.sets = s.sets ∧
    s'.nextSet = s.nextSet ∧ s'.mem = s.mem ∧ s'.poison = s.poison ∧ s'.dram = s.dram ∧ s'.patrol = s.patrol ∧ s'.rebuilds = s.rebuilds ∧
    s'.links = s.links ∧ s'.routes = s.routes ∧ s'.routesNext = s.routesNext ∧ s'.remotes = s.remotes ∧ s'.nextTag = s.nextTag ∧
    s'.keys = s.keys ∧ s'.replaces = s.replaces ∧ s'.bbram = s.bbram ∧ s'.fuses = s.fuses ∧ s'.rootState = s.rootState ∧
    s'.tally = s.tally ∧ s'.bar = s.bar ∧ s'.units = s.units ∧ s'.bists = s.bists ∧ s'.fw = s.fw ∧ s'.fatal = s.fatal ∧ s'.gov = s.gov ∧
    s'.flash = s.flash ∧ s'.mgmt = s.mgmt ∧ s'.board = s.board ∧ s'.freeCtr = s.freeCtr ∧ s'.admitted = s.admitted ∧ s'.spLeft = s.spLeft ∧
    s'.cxlHeld = s.cxlHeld ∧ s'.hiddenPoison = s.hiddenPoison := by
  intro s'; and_intros <;> rfl

@[simp] theorem writeEntry_rest (s : State) (t : TarnIx) (base d : Nat) (tail : BitVec 16) (e : Bytes × Bytes) : let s' := writeEntry s t base d tail e
    s'.pending = s.pending ∧ s'.beat = s.beat ∧ s'.pos = s.pos ∧ s'.timeUs = s.timeUs ∧ s'.table = s.table ∧ s'.swapped = s.swapped ∧
    s'.shadow = s.shadow ∧ s'.timing = s.timing ∧ s'.fns = s.fns ∧ s'.tickets = s.tickets ∧ s'.nextUid = s.nextUid ∧ s'.gens = s.gens ∧
    s'.figs = s.figs ∧ s'.map = s.map ∧ s'.tarns = s.tarns ∧ s'.tgStat = s.tgStat ∧ s'.laneStat = s.laneStat ∧ s'.kaeStat = s.kaeStat ∧
    s'.linkStat = s.linkStat ∧ s'.memStat = s.memStat ∧ s'.scrubs = s.scrubs ∧ s'.recStat = s.recStat ∧ s'.dying = s.dying ∧
    s'.confScrub = s.confScrub ∧ s'.rules = s.rules ∧ s'.pendRules = s.pendRules ∧ s'.nextRule = s.nextRule ∧ s'.sets = s.sets ∧
    s'.nextSet = s.nextSet ∧ s'.mem = s.mem ∧ s'.poison = s.poison ∧ s'.dram = s.dram ∧ s'.patrol = s.patrol ∧ s'.rebuilds = s.rebuilds ∧
    s'.links = s.links ∧ s'.routes = s.routes ∧ s'.routesNext = s.routesNext ∧ s'.remotes = s.remotes ∧ s'.nextTag = s.nextTag ∧
    s'.keys = s.keys ∧ s'.replaces = s.replaces ∧ s'.bbram = s.bbram ∧ s'.fuses = s.fuses ∧ s'.rootState = s.rootState ∧
    s'.tally = s.tally ∧ s'.bar = s.bar ∧ s'.units = s.units ∧ s'.bists = s.bists ∧ s'.fw = s.fw ∧ s'.fatal = s.fatal ∧ s'.gov = s.gov ∧
    s'.flash = s.flash ∧ s'.mgmt = s.mgmt ∧ s'.board = s.board ∧ s'.freeCtr = s.freeCtr ∧ s'.admitted = s.admitted ∧ s'.spLeft = s.spLeft ∧
    s'.cxlHeld = s.cxlHeld ∧ s'.hiddenPoison = s.hiddenPoison := by
  intro s'; and_intros <;> rfl

@[simp] theorem tally_rest (s : State) (kind n tarn : Nat) (firmware : Bool) (st : Status) (payload : Bytes) : let s' := tally s kind n tarn firmware st payload
    s'.pending = s.pending ∧ s'.outbox = s.outbox ∧ s'.beat = s.beat ∧ s'.pos = s.pos ∧ s'.timeUs = s.timeUs ∧ s'.table = s.table ∧
    s'.swapped = s.swapped ∧ s'.shadow = s.shadow ∧ s'.timing = s.timing ∧ s'.fns = s.fns ∧ s'.tickets = s.tickets ∧
    s'.nextUid = s.nextUid ∧ s'.gens = s.gens ∧ s'.figs = s.figs ∧ s'.map = s.map ∧ s'.tarns = s.tarns ∧ s'.tgStat = s.tgStat ∧
    s'.laneStat = s.laneStat ∧ s'.kaeStat = s.kaeStat ∧ s'.linkStat = s.linkStat ∧ s'.memStat = s.memStat ∧ s'.scrubs = s.scrubs ∧
    s'.recStat = s.recStat ∧ s'.dying = s.dying ∧ s'.confScrub = s.confScrub ∧ s'.rules = s.rules ∧ s'.pendRules = s.pendRules ∧
    s'.nextRule = s.nextRule ∧ s'.sets = s.sets ∧ s'.nextSet = s.nextSet ∧ s'.mem = s.mem ∧ s'.poison = s.poison ∧ s'.dram = s.dram ∧
    s'.patrol = s.patrol ∧ s'.rebuilds = s.rebuilds ∧ s'.links = s.links ∧ s'.routes = s.routes ∧ s'.routesNext = s.routesNext ∧
    s'.remotes = s.remotes ∧ s'.nextTag = s.nextTag ∧ s'.keys = s.keys ∧ s'.replaces = s.replaces ∧ s'.bbram = s.bbram ∧
    s'.fuses = s.fuses ∧ s'.rootState = s.rootState ∧ s'.bar = s.bar ∧ s'.units = s.units ∧ s'.bists = s.bists ∧ s'.fw = s.fw ∧
    s'.fatal = s.fatal ∧ s'.gov = s.gov ∧ s'.flash = s.flash ∧ s'.mgmt = s.mgmt ∧ s'.board = s.board ∧ s'.freeCtr = s.freeCtr ∧
    s'.admitted = s.admitted ∧ s'.spLeft = s.spLeft ∧ s'.cxlHeld = s.cxlHeld ∧ s'.hiddenPoison = s.hiddenPoison := by
  intro s'; and_intros <;> rfl

@[simp] theorem devWrite_rest (s : State) (a : Nat) (bs : Bytes) : let s' := devWrite s a bs
    s'.pending = s.pending ∧ s'.outbox = s.outbox ∧ s'.beat = s.beat ∧ s'.pos = s.pos ∧ s'.timeUs = s.timeUs ∧ s'.table = s.table ∧
    s'.swapped = s.swapped ∧ s'.shadow = s.shadow ∧ s'.timing = s.timing ∧ s'.fns = s.fns ∧ s'.tickets = s.tickets ∧
    s'.nextUid = s.nextUid ∧ s'.gens = s.gens ∧ s'.figs = s.figs ∧ s'.map = s.map ∧ s'.tarns = s.tarns ∧ s'.tgStat = s.tgStat ∧
    s'.laneStat = s.laneStat ∧ s'.kaeStat = s.kaeStat ∧ s'.linkStat = s.linkStat ∧ s'.memStat = s.memStat ∧ s'.scrubs = s.scrubs ∧
    s'.recStat = s.recStat ∧ s'.dying = s.dying ∧ s'.confScrub = s.confScrub ∧ s'.rules = s.rules ∧ s'.pendRules = s.pendRules ∧
    s'.nextRule = s.nextRule ∧ s'.sets = s.sets ∧ s'.nextSet = s.nextSet ∧ s'.dram = s.dram ∧ s'.patrol = s.patrol ∧
    s'.rebuilds = s.rebuilds ∧ s'.links = s.links ∧ s'.routes = s.routes ∧ s'.routesNext = s.routesNext ∧ s'.remotes = s.remotes ∧
    s'.nextTag = s.nextTag ∧ s'.keys = s.keys ∧ s'.replaces = s.replaces ∧ s'.bbram = s.bbram ∧ s'.fuses = s.fuses ∧
    s'.rootState = s.rootState ∧ s'.tally = s.tally ∧ s'.bar = s.bar ∧ s'.units = s.units ∧ s'.bists = s.bists ∧ s'.fw = s.fw ∧
    s'.fatal = s.fatal ∧ s'.gov = s.gov ∧ s'.flash = s.flash ∧ s'.mgmt = s.mgmt ∧ s'.board = s.board ∧ s'.freeCtr = s.freeCtr ∧
    s'.admitted = s.admitted ∧ s'.spLeft = s.spLeft ∧ s'.cxlHeld = s.cxlHeld ∧ s'.hiddenPoison = s.hiddenPoison := by
  intro s'; and_intros <;> rfl

@[simp] theorem markPoison_rest (s : State) (a len : Nat) : let s' := markPoison s a len
    s'.pending = s.pending ∧ s'.outbox = s.outbox ∧ s'.beat = s.beat ∧ s'.pos = s.pos ∧ s'.timeUs = s.timeUs ∧ s'.table = s.table ∧
    s'.swapped = s.swapped ∧ s'.shadow = s.shadow ∧ s'.timing = s.timing ∧ s'.fns = s.fns ∧ s'.tickets = s.tickets ∧
    s'.nextUid = s.nextUid ∧ s'.gens = s.gens ∧ s'.figs = s.figs ∧ s'.map = s.map ∧ s'.tarns = s.tarns ∧ s'.tgStat = s.tgStat ∧
    s'.laneStat = s.laneStat ∧ s'.kaeStat = s.kaeStat ∧ s'.linkStat = s.linkStat ∧ s'.memStat = s.memStat ∧ s'.scrubs = s.scrubs ∧
    s'.recStat = s.recStat ∧ s'.dying = s.dying ∧ s'.confScrub = s.confScrub ∧ s'.rules = s.rules ∧ s'.pendRules = s.pendRules ∧
    s'.nextRule = s.nextRule ∧ s'.sets = s.sets ∧ s'.nextSet = s.nextSet ∧ s'.mem = s.mem ∧ s'.dram = s.dram ∧ s'.patrol = s.patrol ∧
    s'.rebuilds = s.rebuilds ∧ s'.links = s.links ∧ s'.routes = s.routes ∧ s'.routesNext = s.routesNext ∧ s'.remotes = s.remotes ∧
    s'.nextTag = s.nextTag ∧ s'.keys = s.keys ∧ s'.replaces = s.replaces ∧ s'.bbram = s.bbram ∧ s'.fuses = s.fuses ∧
    s'.rootState = s.rootState ∧ s'.tally = s.tally ∧ s'.bar = s.bar ∧ s'.units = s.units ∧ s'.bists = s.bists ∧ s'.fw = s.fw ∧
    s'.fatal = s.fatal ∧ s'.gov = s.gov ∧ s'.flash = s.flash ∧ s'.mgmt = s.mgmt ∧ s'.board = s.board ∧ s'.freeCtr = s.freeCtr ∧
    s'.admitted = s.admitted ∧ s'.spLeft = s.spLeft ∧ s'.cxlHeld = s.cxlHeld ∧ s'.hiddenPoison = s.hiddenPoison := by
  intro s'; and_intros <;> rfl

end Sys2Proof.Machine
end

