-- ==== Sys2Proof/Laws/Ops.lean ====
section
/-! SUPPORT. Of each shared operation, what it does to what the accessors read, and its frame. -/

namespace Sys2Proof.Machine

/-! Tables by index -/

/-- An entry of a table after one entry was changed. -/
theorem getD_modify {α : Type} (l : List α) (i j : Nat) (g : α → α) (d : α) :
    (l.modify i g).getD j d = if i = j ∧ j < l.length then g (l.getD j d) else l.getD j d := by
  simp only [List.getD_eq_getElem?_getD, List.getElem?_modify]
  by_cases h : j < l.length
  · by_cases e : i = j <;> simp [h, e]
  · simp [h]

/-! Functions and queue pairs -/

@[simp] theorem length_modFn (s : State) (t : TarnIx) (g : FnRegs → FnRegs) : (modFn s t g).fns.length = s.fns.length := by simp [modFn]

/-- Changing one function's registers changes those, and no other function's. -/
theorem fnOf_modFn (s : State) (t u : TarnIx) (g : FnRegs → FnRegs) (h : s.fns.length = 8) :
    fnOf (modFn s t g) u = if t = u then g (fnOf s u) else fnOf s u := by
  simp only [fnOf, modFn, getD_modify, h, u.isLt, Fin.ext_iff, and_true]

/-- Changing one queue pair changes it, and no other of any function. -/
theorem qpOf_modQp (s : State) (t u : TarnIx) (q r : QpIx) (g : Qp → Qp) (h : s.fns.length = 8) (hq : (fnOf s t).qps.length = 64) :
    qpOf (modQp s t q g) u r = if t = u ∧ q = r then g (qpOf s u r) else qpOf s u r := by
  simp only [qpOf, modQp, fnOf_modFn _ _ _ _ h]
  by_cases e : t = u
  · subst e
    simp only [if_true, getD_modify, hq, r.isLt, and_true, true_and, Fin.ext_iff]
  · simp [e]

/-- Changing one queue pair changes nothing else of its function. -/
theorem fnOf_modQp (s : State) (t u : TarnIx) (q : QpIx) (g : Qp → Qp) (h : s.fns.length = 8) :
    fnOf (modQp s t q g) u = { fnOf s u with qps := (fnOf (modQp s t q g) u).qps } := by
  simp only [modQp, fnOf_modFn _ _ _ _ h]
  split <;> rfl

/-! Tarns and rounds -/

@[simp] theorem length_modTarn (s : State) (t : TarnIx) (g : Tarn → Tarn) : (modTarn s t g).tarns.length = s.tarns.length := by
  simp [modTarn]

/-- Changing what one Tarn holds changes that, when it exists, and what no other holds. -/
theorem tarnOf_modTarn (s : State) (t u : TarnIx) (g : Tarn → Tarn) :
    tarnOf (modTarn s t g) u = if t = u then (tarnOf s u).map g else tarnOf s u := by
  simp only [tarnOf, modTarn, getD_modify, Fin.ext_iff]
  by_cases e : t.val = u.val
  · by_cases h : u.val < s.tarns.length
    · simp [e, h]
    · simp [e, h, List.getD_eq_getElem?_getD]
  · simp [e]

/-- Of a round whose ID the change keeps, the change; every other round of every Tarn is as it was. -/
theorem roundOf_modRound (s : State) (t u : TarnIx) (r q : Nat) (g : Round → Round)
    (h : ∀ x : Round, x.plan.roundId = r → (g x).plan.roundId = r) :
    roundOf (modRound s t r g) u q = if t = u ∧ r = q then (roundOf s u q).map g else roundOf s u q := by
  simp only [roundOf, modRound, tarnOf_modTarn]
  by_cases e : t = u
  · subst e
    simp only [if_true, true_and]
    cases tarnOf s t with
    | none => simp
    | some n =>
      simp only [Option.map_some]
      induction n.rounds with
      | nil => simp
      | cons x l ih =>
        simp only [List.map_cons, List.find?_cons]
        by_cases hx : x.plan.roundId = r
        · by_cases hq : r = q
          · subst hq
            simp [hx, h x hx]
          · simp only [hx, beq_self_eq_true, if_true, h x hx, beq_iff_eq, hq, if_false] at ih ⊢
            have hb : (r == q) = false := by simpa using hq
            simpa [hb] using ih
        · have hb : (x.plan.roundId == r) = false := by simpa using hx
          simp only [hb, Bool.false_eq_true, if_false]
          by_cases hq : x.plan.roundId = q
          · have : r ≠ q := fun z => hx (hq.trans z.symm)
            simp [hq, this]
          · have hb : (x.plan.roundId == q) = false := by simpa using hq
            simpa [hb] using ih
  · simp [e]

/-! Tickets -/

@[simp] theorem length_modTicket (s : State) (uid : Nat) (g : Ticket → Ticket) : (modTicket s uid g).tickets.length = s.tickets.length := by
  simp [modTicket]

/-- Of a ticket whose serial number the change keeps, the change; every other ticket is as it was. -/
theorem ticketOf_modTicket (s : State) (uid u : Nat) (g : Ticket → Ticket) (h : ∀ k : Ticket, k.uid = uid → (g k).uid = uid) :
    ticketOf (modTicket s uid g) u = if uid = u then (ticketOf s u).map g else ticketOf s u := by
  simp only [ticketOf, modTicket]
  induction s.tickets with
  | nil => simp
  | cons k l ih =>
    simp only [List.map_cons, List.find?_cons]
    by_cases hk : k.uid = uid
    · by_cases hu : uid = u
      · subst hu
        simp [hk, h k hk]
      · have hb : (uid == u) = false := by simpa using hu
        simp only [hk, beq_self_eq_true, if_true, h k hk, hb]
        simpa [hu] using ih
    · have hb : (k.uid == uid) = false := by simpa using hk
      simp only [hb, Bool.false_eq_true, if_false]
      by_cases hu : k.uid = u
      · have : uid ≠ u := fun z => hk (hu.trans z.symm)
        simp [hu, this]
      · have hb : (k.uid == u) = false := by simpa using hu
        simpa [hb] using ih

/-- A ticket with a serial number has that number. -/
theorem uid_of_ticketOf {s : State} {uid : Nat} {k : Ticket} (h : ticketOf s uid = some k) : k.uid = uid := by
  simpa using List.find?_some h

/-- A ticket that may be served is in the table, of that opcode, runs, has its reads done, and the device serves commands. -/
theorem of_servable {s : State} {uid op : Nat} {k : Ticket} (h : servable s uid op = some k) :
    ticketOf s uid = some k ∧ k.uid = uid ∧ k.op = op ∧ ticketRuns k = true ∧ k.need = [] ∧ k.dma = none ∧ running s = true ∧ fwUp s = true := by
  simp only [servable] at h
  split at h
  · rename_i k' hk
    split at h
    · rename_i hc
      obtain rfl : k' = k := by simpa using h
      simp only [Bool.and_eq_true, beq_iff_eq, List.isEmpty_iff, Option.isNone_iff_eq_none] at hc
      obtain ⟨⟨⟨⟨⟨h1, h2⟩, h3⟩, h4⟩, h5⟩, h6⟩ := hc
      exact ⟨hk, uid_of_ticketOf hk, h1, h2, h3, h4, h5, h6⟩
    · simp at h
  · simp at h

/-- A running ticket that is finished has OK and its results as its outcome. -/
theorem ticketOf_finishTicket {s : State} {uid r0 r1 : Nat} {k : Ticket} (h : ticketOf s uid = some k) (hr : ticketRuns k = true) :
    ticketOf (finishTicket s uid r0 r1) uid = some { k with
      final := some { status := .ok, result0 := BitVec.ofNat 32 r0, result1 := BitVec.ofNat 64 r1 }, dirty := true } := by
  rw [finishTicket, ticketOf_modTicket _ _ _ _ (fun k hk => by split <;> exact hk)]
  simp [h, hr]

/-- A running ticket that is answered has its status and results as its outcome. -/
theorem ticketOf_answerTicket {s : State} {uid r0 r1 : Nat} {st : Status} {k : Ticket} (h : ticketOf s uid = some k)
    (hr : ticketRuns k = true) : ticketOf (answerTicket s uid st r0 r1) uid = some { k with
      final := some { status := st, result0 := BitVec.ofNat 32 r0, result1 := BitVec.ofNat 64 r1 }, dirty := true } := by
  rw [answerTicket, ticketOf_modTicket _ _ _ _ (fun k hk => by split <;> exact hk)]
  simp [h, hr]

/-- A ticket that fails has its status among its faults and no host read left. -/
theorem ticketOf_failTicket {s : State} {uid : Nat} {st : Status} {k : Ticket} (h : ticketOf s uid = some k) :
    ticketOf (failTicket s uid st) uid = some { k with faults := k.faults ++ [st], need := [], dma := none, dirty := true } := by
  have := ticketOf_modTicket s uid uid (fun k => { k with faults := k.faults ++ [st], need := [], dma := none, dirty := true })
    (fun _ hk => hk)
  simpa [failTicket, h] using this

/-! Links, key slots, figures -/

/-- Changing one link changes it, and no other. -/
theorem linkOf_modLink (s : State) (n m : LinkIx) (g : Link → Link) (h : s.links.length = 12) :
    linkOf (modLink s n g) m = if n = m then g (linkOf s m) else linkOf s m := by
  simp only [linkOf, modLink, getD_modify, h, m.isLt, Fin.ext_iff, and_true]

/-- Changing one key slot changes it, and no other. -/
theorem slotOf_modSlot (s : State) (i j : Nat) (g : KeySlot → KeySlot) (h : s.keys.length = 512) :
    slotOf (modSlot s i g) j = if i = j ∧ j < 512 then g (slotOf s j) else slotOf s j := by
  simp only [slotOf, modSlot, getD_modify, h]

/-- Changing one parent-table entry changes it, and no other. -/
theorem parentOf_modParent (s : State) (i j : Nat) (g : Parent → Parent) (h : s.bbram.parents.length = 1024) :
    parentOf (modParent s i g) j = if i = j ∧ j < 1024 then g (parentOf s j) else parentOf s j := by
  simp only [parentOf, modParent, getD_modify, h]

/-! The Tally -/

/-- An event's pieces take the next sequence numbers, one each. -/
theorem next_tallyPieces (beat kind tarn : Nat) (firmware : Bool) (st : Status) (ps : List Bytes) (y : Tally) :
    (tallyPieces beat kind tarn firmware st ps y).next = y.next + ps.length := by
  induction ps generalizing y with
  | nil => rfl
  | cons p ps ih => rw [tallyPieces, ih]; simp only [tallyPush, List.length_cons]; omega

/-- Making room never gives a sequence number back. -/
theorem next_tallyRoom (beat n : Nat) (y : Tally) : y.next ≤ (tallyRoom beat n y).next := by
  simp only [tallyRoom]
  split
  · exact le_refl _
  · split
    · exact le_refl _
    · simp [tallyPush, tallyDrop]

/-- An event of `n` entries takes at least `n` sequence numbers. -/
theorem next_tally (s : State) (kind n tarn : Nat) (firmware : Bool) (st : Status) (payload : Bytes) :
    s.tally.next + n ≤ (tally s kind n tarn firmware st payload).tally.next := by
  have := next_tallyRoom s.beat n s.tally
  simp only [tally, next_tallyPieces]
  simp only [tallyCut, upto, List.length_map, List.length_range]
  omega

/-! Frames of the other shared operations -/

theorem sendVector_frame (s : State) (t : TarnIx) (v : Nat) :
    sendVector s t v = { s with fns := (sendVector s t v).fns, outbox := (sendVector s t v).outbox } := by
  simp only [sendVector]; split <;> rfl

theorem advise_frame (s : State) (t : TarnIx) (a : Advisory) : advise s t a = { s with fns := (advise s t a).fns } := by
  simp only [advise]; split <;> rfl

theorem hostPut_frame (s : State) (t : TarnIx) (a : Nat) (bs : Bytes) : hostPut s t a bs = { s with outbox := (hostPut s t a bs).outbox } := by
  simp only [hostPut]; split <;> rfl

theorem ringPump_frame (s : State) (t : TarnIx) (q : QpIx) :
    ringPump s t q = { s with fns := (ringPump s t q).fns, outbox := (ringPump s t q).outbox } := by
  simp only [ringPump]; split <;> rfl

theorem pumpDma_frame (s : State) (stamp uid : Nat) :
    pumpDma s stamp uid = { s with tickets := (pumpDma s stamp uid).tickets, outbox := (pumpDma s stamp uid).outbox } := by
  simp only [pumpDma]
  repeat' first | rfl | split

theorem beginCheckpoint_frame (s : State) :
    beginCheckpoint s = { s with tally := (beginCheckpoint s).tally, freeCtr := (beginCheckpoint s).freeCtr } := by
  simp only [beginCheckpoint, signWith, tally]; split <;> rfl

theorem gmpReply_frame (s : State) (ch : GmpChannel) (req : Nat) (st : Status) (body : Bytes) :
    gmpReply s ch req st body = { s with outbox := (gmpReply s ch req st body).outbox } := by
  simp only [gmpReply]; split <;> rfl

theorem drawFree_frame (s : State) (n : Nat) : (drawFree s n).2 = { s with freeCtr := s.freeCtr + 1 } := rfl
theorem drawEntropy_frame (s : State) (n : Nat) : (drawEntropy s n).2 = { s with freeCtr := s.freeCtr + 1 } := rfl
theorem signWith_frame (s : State) (key : Nat) (msg : Bytes) : (signWith s key msg).2 = { s with freeCtr := s.freeCtr + 1 } := rfl

/-- A command runs its body on the ticket that may be served, and does nothing without one. -/
theorem serve_some {s : State} {uid op : Nat} {g : State → Ticket → State} {k : Ticket} (h : servable s uid op = some k) :
    serve s uid op g = g s k := by simp [serve, h]
theorem serve_none {s : State} {uid op : Nat} {g : State → Ticket → State} (h : servable s uid op = none) : serve s uid op g = s := by
  simp [serve, h]

end Sys2Proof.Machine
end

