-- ==== Sys2Proof/WellFormed.lean ====
section
/-! DEFINITION. Which commands are well formed: each operand fits the field, or has the length, that the spec gives it. A command that is
not well formed is one that no sender can express; the meanings are total and do not rely on this check. -/

namespace Sys2Proof

/-- One temperature for each of the 4 quadrants and the 8 stacks (R630, R229). -/
def seamInOk (i : SeamIn) : Bool := i.tj.length == 4 && i.tDram.length == 8

/-- A flit is 256 bytes (R340). -/
def flitOk (flit : Bytes) : Bool := flit.length == 256

/-- A host read carries at most 4,096 bytes, as R439 cuts it. -/
def dmaOk (r : DmaResult) : Bool :=
  match r with
  | .data bs => bs.length ≤ 4096
  | .unsupportedRequest => true
  | .completerAbort => true
  | .poisoned => true

/-- CXL.mem moves whole lines of 64 bytes (R239). -/
def cxlOk (r : CxlReq) : Bool :=
  match r with
  | .read => true
  | .write line => line.length == 64

/-- Public keys are 97 bytes, a signature is r then s, 96 bytes (R352). -/
def partnerOk (p : LinkPartner) : Bool := p.ephemeral.length == 97 && p.signer.length == 97 && p.sig.length == 96

/-- A GMP request has its 16-byte header (R617) and, if it carries one, a signed block with a nonce of 32 bytes, a one-byte anchor slot,
15 reserved bytes and a signature of 96 bytes (R618). -/
def reqOk (r : GmpReq) : Bool :=
  r.requestId < 4294967296 && r.header.length == 16 && match r.signedBlock with
  | none => true
  | some b => b.nonce.length == 32 && b.anchorSlot < 256 && b.reserved.length == 15 && b.sig.length == 96

/-- The bounds of Table 14-4 fit 32-bit fields. -/
def boundsOk (b : Bounds) : Bool :=
  [b.powerCap, b.clkMax, b.clkMin, b.tjTarget, b.dramOffset, b.qMin, b.retireMode, b.ceChannel, b.ueChannel, b.ceTile, b.ceEngine].all
    (· < 4294967296)

/-- A beat is a 64-bit number (R19). -/
def selOk (x : LedgerSel) : Bool :=
  match x with
  | .one _ => true
  | .live => true
  | .since beat => beat < 18446744073709551616

/-- Every operand of the command fits its field. -/
def Instr.wellFormed (i : Instr) : Bool :=
  match i with
  | .seam i => seamInOk i
  | .figureFinish _ _ => true
  | .spillStop _ => true
  | .throttleSet _ => true
  | .throttleLift _ => true
  | .scheduleSwap => true
  | .mapChangeApply => true
  | .ruleChangeDrained => true
  | .scrubComplete _ => true
  | .phaseApply => true
  | .phaseTimeout => true
  | .hostSetApply => true
  | .beatFlit _ flit _ => flitOk flit
  | .delayReq _ flit _ => flitOk flit
  | .delayResp _ header rest _ _ => header.length == 8 && flitOk (header ++ rest)
  | .domainJoin _ => true
  | .leaderLoss => true
  | .beatInPulse _ _ => true
  | .pinHoldover _ _ => true
  | .pinHoldoverExit => true
  | .sqDoorbell _ _ _ => true
  | .cqDoorbell _ _ _ => true
  | .qpEnable _ _ _ => true
  | .qpDisable _ _ _ => true
  | .advEnable _ _ => true
  | .advDisable _ _ => true
  | .advHeadWrite _ _ => true
  | .beatRead r => r.width == 4 || r.width == 8
  | .registerWrite _ _ width _ => width == 4 || width == 8
  | .flr _ => true
  | .busMasterEnable _ _ => true
  | .msixUnmask _ _ => true
  | .dmaCompletion _ r => dmaOk r
  | .completionTimeout _ => true
  | .perstAssert _ => true
  | .perstRelease _ => true
  | .portLinkDown _ => true
  | .configRetry _ => true
  | .rekeyDue _ _ => true
  | .sessionExhausted _ _ => true
  | .bounceTagFailureLimit _ _ => true
  | .doeDiscovery _ index => index < 256
  | .getVersion _ => true
  | .getCapabilities _ => true
  | .negotiateAlgorithms _ _ => true
  | .getDigests _ => true
  | .getCertificate _ slot offset length => slot < 8 && offset < 65536 && length < 65536
  | .challenge _ slot nonce => slot < 8 && nonce.length == 32
  | .getMeasurements _ index nonce => index < 256 && nonce.length == 32
  | .keyExchange _ _ _ exchangeData => exchangeData.length == 96
  | .finish _ _ _ => true
  | .keyUpdate _ _ => true
  | .endSession _ _ => true
  | .spdmUnsupported _ _ => true
  | .nop _ => true
  | .ledgerRead _ => true
  | .changeSubmit _ => true
  | .changeStatus _ => true
  | .tallyRead _ => true
  | .reportGet _ => true
  | .bistRun _ => true
  | .bistComplete _ code _ => code < 65536
  | .keyLoad _ => true
  | .keyUnload _ => true
  | .keyReplace _ => true
  | .keyReplaceCommit _ => true
  | .keyJournalIdle _ => true
  | .parentInvalidate _ => true
  | .copy _ => true
  | .modelLoad _ => true
  | .microprogLoad _ => true
  | .submitGraph _ _ => true
  | .bounceSetup _ => true
  | .roundOpen _ => true
  | .roundOpened _ _ => true
  | .contribSubmit _ => true
  | .recordArrival _ _ _ => true
  | .foldComplete _ _ _ => true
  | .stageTimeout _ _ _ => true
  | .recordIntakeResume _ => true
  | .sharesSubmit _ => true
  | .shareEntry _ _ => true
  | .rebuildComplete => true
  | .kaeJobComplete _ _ => true
  | .maskCorrectionDone _ _ _ => true
  | .roundClose _ => true
  | .close _ _ => true
  | .roundLeaveClosed _ _ => true
  | .roundRelease _ _ => true
  | .unmaskTimeout _ _ => true
  | .roundAbort _ => true
  | .roundRegionScrubbed _ _ => true
  | .roundStatus _ => true
  | .certRead _ => true
  | .combineAttach _ => true
  | .combineConfirm _ _ _ planDigest descDigest => planDigest.length == 48 && descDigest.length == 48
  | .combineAttachTimeout _ => true
  | .leaderCloseMessage _ _ => true
  | .combineData _ _ _ _ _ => true
  | .memberMissing _ _ _ => true
  | .memberOrphanAbort _ _ => true
  | .leaderAbortMessage _ _ => true
  | .memoryRequest _ _ => true
  | .reelCommand _ _ => true
  | .atomicRequest _ _ => true
  | .patrolScrub _ _ offset outcome => offset % 32 == 0 && offset < 1207959552 && outcome ≤ 2
  | .targetedRefresh _ _ _ _ => true
  | .cxlMemAccess _ _ offset req => offset % 64 == 0 && cxlOk req
  | .cxlSnoop _ _ => true
  | .linkSignalDetect _ => true
  | .linkTrained _ => true
  | .trainingTimeout _ => true
  | .trainingRetry _ => true
  | .helloReceived _ flit => flitOk flit
  | .helloTimeout _ => true
  | .fecLockLoss _ => true
  | .drainTimeout _ => true
  | .dataFlit _ flit => flitOk flit
  | .nakReceived _ flit => flitOk flit
  | .replayTimeout _ => true
  | .ackDeadline _ => true
  | .linkTagFailureLimit _ => true
  | .remoteWrite _ => true
  | .remoteAtomic _ => true
  | .remoteRead _ => true
  | .readData _ => true
  | .done _ => true
  | .refused _ => true
  | .messageForward _ => true
  | .remoteResponseTimeout _ => true
  | .linkKeyAgreement _ p => partnerOk p
  | .linkKeyReplace _ => true
  | .linkSessionRenew _ p => partnerOk p
  | .laneFault _ _ => true
  | .routeUpdate => true
  | .recordPart _ frame _ => frame.length ≤ 9212
  | .tileFault _ => true
  | .sparePlaced _ => true
  | .channelRetire _ _ => true
  | .channelCopyDone _ _ => true
  | .channelLost _ _ => true
  | .reelUnitFault _ _ => true
  | .basinLaneFault _ => true
  | .kaeCoreFault _ => true
  | .fieldUnitFault => true
  | .controlCoreFault _ => true
  | .firmwareFault => true
  | .firmwareRestart => true
  | .fatalFault => true
  | .errorRateRetire _ _ => true
  | .sysReset => true
  | .sysResetRelease => true
  | .firstBeat => true
  | .brownOut => true
  | .sysClkStop => true
  | .refclkStop _ => true
  | .spwRefclkStop _ => true
  | .thermtrip _ => true
  | .tamper _ => true
  | .batteryAbsent _ => true
  | .batteryRestored _ => true
  | .tallyCheckpointAuto => true
  | .checkpointSigned => true
  | .testPortInstruction _ => true
  | .tlsHandshake anchorSlot clientKey _ => anchorSlot < 32 && clientKey.length == 97
  | .getNonce req => reqOk req
  | .telemetryRead req items => reqOk req && items.all (· < 65536)
  | .gmpChangeSubmit req _ _ => reqOk req
  | .gmpChangeStatus req changeId => reqOk req && changeId < 4294967296
  | .governorSet req b => reqOk req && boundsOk b
  | .gmpBistRun req _ code => reqOk req && code < 65536
  | .unitRetire req _ => reqOk req
  | .linkReenable req _ => reqOk req
  | .timingSet req _ _ _ _ => reqOk req
  | .portSet req _ assign => reqOk req && assign.length == 8
  | .linkSet req _ => reqOk req
  | .networkSet req _ => reqOk req
  | .gmpLedgerRead req _ sel _ => reqOk req && selOk sel
  | .gmpTallyRead req first count => reqOk req && first < 18446744073709551616 && count < 4294967296
  | .tallyAck req seq => reqOk req && seq < 18446744073709551616
  | .checkpoint req => reqOk req
  | .trustAdd req _ _ => reqOk req
  | .trustRemove req slot => reqOk req && slot < 256
  | .floorSet req _ floor => reqOk req && floor < 4294967296
  | .authoritySet req _ _ => reqOk req
  | .tagKeySet req _ _ _ _ _ => reqOk req
  | .parentAssign req entry _ => reqOk req && entry < 65536
  | .parentFree req entry => reqOk req && entry < 65536
  | .rootBlobCreate req entry usage label => reqOk req && entry < 65536 && usage < 256 && label.length == 16
  | .debugSet req _ => reqOk req
  | .lifecycleSet req _ => reqOk req
  | .reprovision req => reqOk req
  | .tamperArm req _ => reqOk req
  | .fwStage req _ => reqOk req
  | .fwActivate req _ _ drainBars => reqOk req && drainBars < 256
  | .firmwareDrainEnd => true
  | .fwStatus req => reqOk req
  | .queryDeviceIdentifiers => true
  | .getFirmwareParameters => true
  | .requestUpdate => true
  | .passComponentTable components => components.all (· < 65536)
  | .updateComponent component _ => component < 65536
  | .activateFirmware => true
  | .getStatus => true
  | .cancelUpdateComponent => true
  | .cancelUpdate => true
  | .getSensorReading sensor => sensor < 65536
  | .getStateSensorReadings sensor => sensor < 65536
  | .operatorDrain _ _ => true
  | .idleFlit _ flit => flitOk flit
  | .leaderReleaseMessage _ _ => true
  | .tlsSessionEnd _ => true
  | .debugReadRequest req _ _ _ => reqOk req
  | .portLinkReturn _ => true
  | .hkdfComplete _ _ => true
  | .mainPowerApplied => true
  | .mainPowerRemoved => true
  | .batteryRetentionLost => true

end Sys2Proof
end

