-- ==== Sys2Proof/Tests/Slice0.lean ====
section
/-! SUPPORT. The model's own tests: ill-formed commands that the check refuses, a word of small checks of commands on small states, and for each
statement with hypotheses a state and operands that meet them. -/

namespace Sys2Proof.Tests

set_option Elab.async false

open Sys2Proof Sys2Proof.Machine

/-! Ill-formed commands -/

/-- Zero bytes. -/
def zb (n : Nat) : Bytes := List.replicate n 0

/-- The 16-byte header of a request whose body and signed block take `n` bytes (R617). -/
def hdr (signed : Bool) (n : Nat) : Bytes := [1, 0, if signed then 2 else 0, 0] ++ leBytes 4 n ++ zb 8

/-- A request without a signature over the board channel. -/
def req0 : GmpReq := ⟨.board, 1, hdr false 0, [], true, none⟩

/-- Bounds at reset. -/
def bounds0 : Bounds := State.reset.gov.bounds

theorem test_wf_seam_sensors : (Instr.seam ⟨[1, 2, 3], 0, zb 8 |>.map fun _ => 0, 0, [], [], true⟩).wellFormed = false ∧
    (Instr.seam ⟨[1, 2, 3, 4], 0, [0, 0], 0, [], [], true⟩).wellFormed = false := by decide +kernel
theorem test_wf_flits : (Instr.beatFlit 0 (zb 255) 0).wellFormed = false ∧ (Instr.helloReceived 0 (zb 257)).wellFormed = false ∧
    (Instr.dataFlit 0 []).wellFormed = false ∧ (Instr.nakReceived 0 (zb 8)).wellFormed = false ∧
    (Instr.idleFlit 0 (zb 240)).wellFormed = false ∧ (Instr.idleFlit 0 (zb 256)).wellFormed = true := by decide +kernel
theorem test_wf_registerWrite : (Instr.registerWrite (.tarn 0) (.bar0 0x1C) 2 0).wellFormed = false := by decide +kernel
theorem test_wf_dmaCompletion : (Instr.dmaCompletion (.ticket 0) (.data (zb 4097))).wellFormed = false := by decide +kernel
theorem test_wf_spdm : (Instr.doeDiscovery (.zero .a) 256).wellFormed = false ∧
    (Instr.getCertificate (.zero .a) 8 0 0).wellFormed = false ∧ (Instr.getCertificate (.zero .a) 0 65536 0).wellFormed = false ∧
    (Instr.getCertificate (.zero .a) 0 0 65536).wellFormed = false ∧ (Instr.challenge (.zero .a) 8 (zb 32)).wellFormed = false ∧
    (Instr.challenge (.zero .a) 0 (zb 31)).wellFormed = false ∧ (Instr.getMeasurements (.zero .a) 256 (zb 32)).wellFormed = false ∧
    (Instr.getMeasurements (.zero .a) 1 []).wellFormed = false ∧ (Instr.keyExchange (.tarn 0) 0 0 (zb 97)).wellFormed = false := by decide +kernel
theorem test_wf_bistComplete : (Instr.bistComplete ⟨1, 0⟩ 65536 .cannotComplete).wellFormed = false := by decide +kernel
theorem test_wf_combineConfirm : (Instr.combineConfirm 0 1 0 (zb 47) (zb 48)).wellFormed = false ∧
    (Instr.combineConfirm 0 1 0 (zb 48) (zb 49)).wellFormed = false := by decide +kernel
theorem test_wf_patrolScrub : (Instr.patrolScrub 0 0 16 0).wellFormed = false ∧ (Instr.patrolScrub 0 0 1207959552 0).wellFormed = false ∧
    (Instr.patrolScrub 0 0 0 3).wellFormed = false := by decide +kernel
theorem test_wf_cxl : (Instr.cxlMemAccess .a 0 32 .read).wellFormed = false ∧
    (Instr.cxlMemAccess .a 0 64 (.write (zb 63))).wellFormed = false := by decide +kernel
theorem test_wf_partner : (Instr.linkKeyAgreement 0 ⟨zb 96, zb 97, zb 96, []⟩).wellFormed = false ∧
    (Instr.linkKeyAgreement 0 ⟨zb 97, zb 96, zb 96, []⟩).wellFormed = false ∧
    (Instr.linkSessionRenew 0 ⟨zb 97, zb 97, zb 95, []⟩).wellFormed = false := by decide +kernel
theorem test_wf_recordPart : (Instr.recordPart 0 (zb 9213) true).wellFormed = false := by decide +kernel
theorem test_wf_tls : (Instr.tlsHandshake 32 (zb 97) true).wellFormed = false ∧ (Instr.tlsHandshake 0 (zb 96) true).wellFormed = false := by decide +kernel
theorem test_wf_request : (Instr.getNonce { req0 with requestId := 4294967296 }).wellFormed = false ∧
    (Instr.getNonce { req0 with header := zb 15 }).wellFormed = false ∧
    (Instr.tamperArm { req0 with signedBlock := some ⟨zb 31, 0, zb 15, zb 96⟩ } 0).wellFormed = false ∧
    (Instr.tamperArm { req0 with signedBlock := some ⟨zb 32, 256, zb 15, zb 96⟩ } 0).wellFormed = false ∧
    (Instr.tamperArm { req0 with signedBlock := some ⟨zb 32, 0, zb 14, zb 96⟩ } 0).wellFormed = false ∧
    (Instr.tamperArm { req0 with signedBlock := some ⟨zb 32, 0, zb 15, zb 95⟩ } 0).wellFormed = false ∧
    (Instr.getNonce req0).wellFormed = true := by decide +kernel
theorem test_wf_gmp_fields : (Instr.telemetryRead req0 [65536]).wellFormed = false ∧
    (Instr.gmpChangeStatus req0 4294967296).wellFormed = false ∧
    (Instr.governorSet req0 { bounds0 with powerCap := 4294967296 }).wellFormed = false ∧
    (Instr.gmpBistRun req0 ⟨1, 0⟩ 65536).wellFormed = false ∧ (Instr.portSet req0 true (List.replicate 7 .a)).wellFormed = false ∧
    (Instr.gmpLedgerRead req0 0 (.since 18446744073709551616) 0).wellFormed = false ∧
    (Instr.gmpTallyRead req0 18446744073709551616 0).wellFormed = false ∧ (Instr.gmpTallyRead req0 0 4294967296).wellFormed = false ∧
    (Instr.tallyAck req0 18446744073709551616).wellFormed = false ∧ (Instr.trustRemove req0 256).wellFormed = false ∧
    (Instr.floorSet req0 0 4294967296).wellFormed = false ∧ (Instr.parentAssign req0 65536 0).wellFormed = false ∧
    (Instr.parentFree req0 65536).wellFormed = false ∧ (Instr.rootBlobCreate req0 65536 1 (zb 16)).wellFormed = false ∧
    (Instr.rootBlobCreate req0 1 256 (zb 16)).wellFormed = false ∧ (Instr.rootBlobCreate req0 1 1 (zb 15)).wellFormed = false ∧
    (Instr.fwActivate req0 true true 256).wellFormed = false := by decide +kernel
theorem test_wf_network : (Instr.networkSet { req0 with header := zb 17 } ⟨0, 0, 0, 0, zb 16, zb 16, 0⟩).wellFormed = false ∧
    (Instr.networkSet req0 ⟨0, 0, 0, 0, zb 16, zb 16, 0⟩).wellFormed = true := by decide +kernel
theorem test_wf_pldm : (Instr.passComponentTable [65536]).wellFormed = false ∧ (Instr.updateComponent 65536 []).wellFormed = false ∧
    (Instr.getSensorReading 65536).wellFormed = false ∧ (Instr.getStateSensorReadings 65536).wellFormed = false := by decide +kernel

/-! A small running device -/

/-- The lengths that the spec gives the tables of a state, each beside the length it has. -/
def tableLengths (s : State) : List (Nat × Nat) :=
  [(s.fns.length, 8), (s.tarns.length, 8), (s.map.entries.length, 8), (s.figs.length, 16), (s.tgStat.length, 16), (s.laneStat.length, 16),
   (s.kaeStat.length, 8), (s.linkStat.length, 12), (s.memStat.length, 256), (s.recStat.length, 16), (s.links.length, 12),
   (s.keys.length, 512), (s.replaces.length, 16), (s.bbram.journal.length, 16), (s.bbram.parents.length, 1024),
   (s.fuses.anchors.length, 32), (s.dram.length, 8), (s.units.chans.length, 256), (s.units.spares.length, 4),
   (s.timing.linkDelay.length, 12)]

/-- The state has every table whole. -/
def shapedB (s : State) : Bool :=
  (tableLengths s).all (fun p => p.1 == p.2) && s.fns.all (fun f => f.qps.length == 64 && f.msix.length == 64)

theorem shaped_of {s : State} (h : shapedB s = true) : Shaped s := by
  simp only [shapedB, tableLengths, List.all_cons, List.all_nil, Bool.and_eq_true, beq_iff_eq, List.all_eq_true, and_true] at h
  obtain ⟨hl, hf⟩ := h
  constructor <;> first | exact hf | simp only [hl]

theorem good_of {s : State} (h : shapedB s = true) (m : memWf s.mem = true) : Good s := ⟨shaped_of h, m⟩

/-- Memory units of some bands in every stack. -/
def bandBits (m : Nat) : BitVec 256 := BitVec.ofNat 256 (((List.range 8).map fun i => m * 2 ^ (32 * i)).foldl (· + ·) 0)

/-- Partition-map entry of a standard Tarn. -/
def entryA : PEntry :=
  { state := 1, tileGroups := 3, lanes := 3, kaeGroups := 1, links := 7, quota := 16, keySlots := 8, memUnits := bandBits 3, expose := 1 }

/-- Partition-map entry of a confidential Tarn. -/
def entryB : PEntry := { state := 1, confidential := true, tileGroups := 4, quota := 16, keySlots := 8, memUnits := bandBits 4 }

/-- A function with Bus Master Enable. -/
def fnOn : FnRegs := { busMaster := true }

/-- A session of the confidential Tarn. -/
def sess : Session := { id := 5, established := true }

/-- A running device: beat 100 at bar position 3, Tarn 0 standard and Tarn 1 confidential with one session. -/
def w0 : State := { State.reset with
  beat := 100, pos := 3
  board := { State.reset.board with running := true, faultN := true }
  map := { gen := 3, effective := 2, entries := [entryA, entryB] ++ List.replicate 6 {} }
  tarns := [some {}, some {}] ++ List.replicate 6 none
  fns := [fnOn, { fnOn with sessions := [sess] }] ++ List.replicate 6 {}
  tgStat := List.replicate 16 .free, laneStat := List.replicate 16 .free, kaeStat := List.replicate 8 .free
  linkStat := List.replicate 12 .free, memStat := List.replicate 256 .free
  bar := { State.reset.bar with firstBeat := 97 } }

theorem w0_shaped : Shaped w0 := shaped_of (by decide +kernel)
theorem w0_good : Good w0 := good_of (by decide +kernel) (by decide)

/-- A ticket of a Tarn. -/
def tk (uid op : Nat) (t : TarnIx := 0) (ops : List (BitVec 64) := []) : Ticket :=
  { uid, tarn := t, op, ops, ledger := { ticketId := 7, commandId := 9, qp := 0, cls := .steady, admitBeat := 90, commitBeat := 90 } }

/-- The running device with one ticket. -/
def withTk (k : Ticket) : State := { w0 with tickets := [k] }

/-- Change function 0. -/
def withFn (g : FnRegs → FnRegs) : State := modFn w0 0 g

/-- Change queue pair 0 of function 0. -/
def withQp (g : Qp → Qp) : State := modQp w0 0 0 g

/-- A FABRIC flit with a header, an empty body and its CRC. -/
def flitT (h : Nat) (body : Bytes := zb 240) : Bytes := (leBytes 8 h ++ padTo 240 body) ++ leBytes 8 (crc64xz (leBytes 8 h ++ padTo 240 body))

theorem flitT_ok (s : State) (n : LinkIx) (h : Nat) (body : Bytes) (hm : (linkOf (replaceKeys s n) n).mode = .fabric)
    (hs : (linkOf (replaceKeys s n) n).state ≠ .down) : (flitIn s n (flitT h body)).1 = true := by
  have hl : (leBytes 8 h ++ padTo 240 body).length = 248 := by simp
  have ht : (flitT h body).take 0xF8 = leBytes 8 h ++ padTo 240 body := by
    rw [flitT, List.take_append_of_le_length (by omega), List.take_of_length_le (by omega)]
  have hc : field (flitT h body) 0xF8 8 = crc64xz (leBytes 8 h ++ padTo 240 body) := by
    have := field_append_leBytes (leBytes 8 h ++ padTo 240 body) 8 (crc64xz (leBytes 8 h ++ padTo 240 body))
    rw [hl] at this
    rw [flitT, this]
    exact Nat.mod_eq_of_lt (crc64xz_lt _)
  have h256 : (flitT h body).length = 256 := by simp [flitT]
  simp [flitIn, hm, hs, ht, hc, h256]

theorem flitT_header (h : Nat) (body : Bytes) : leNat ((flitT h body).take 8) = h % 2 ^ 64 := by
  rw [flitT, List.append_assoc, List.take_append_of_le_length (by simp), List.take_of_length_le (by simp), leNat_leBytes]
  rfl

theorem flitT_body (h : Nat) (body : Bytes) : slice (flitT h body) 8 240 = padTo 240 body := by
  have hl : (leBytes 8 h).length = 8 := by simp
  rw [slice, flitT, List.append_assoc, List.drop_append_of_le_length (by omega), List.drop_of_length_le (by omega), List.nil_append,
    List.take_append_of_le_length (by simp), List.take_of_length_le (by simp)]

/-! Witnesses: queue pairs, registers, host reads -/

theorem test_w_DoorbellWhileDisabledIgnored : (qpOf w0 0 63).enable = false := by decide +kernel

/-- Queue pair 0 enabled with depth 64, head 5. -/
def qpOn : State := withQp fun p => { p with enable := true, sqHead := 5, sqTail := 5, cqHead := 2, cqTail := 6 }

theorem test_w_QueuePairControlActs_state : Shaped qpOn ∧ qpOn.board.running = true ∧ live qpOn 0 = true ∧
    (qpOf qpOn 0 0).enable = true := ⟨shaped_of (by decide +kernel), by decide +kernel⟩
theorem test_w_QueuePairControlActs_tail : ringDist (qpOf qpOn 0 0).sqHead ((69 : BitVec 32).setWidth 16) ≤ qpDepth (qpOf qpOn 0 0) ∧
    qpDepth (qpOf qpOn 0 0) < ringDist (qpOf qpOn 0 0).sqHead ((70 : BitVec 32).setWidth 16) := by decide +kernel
theorem test_w_QueuePairControlActs_head :
    ringDist (qpOf qpOn 0 0).cqHead ((6 : BitVec 32).setWidth 16) ≤ ringDist (qpOf qpOn 0 0).cqHead (qpOf qpOn 0 0).cqTail ∧
    ringDist (qpOf qpOn 0 0).cqHead (qpOf qpOn 0 0).cqTail < ringDist (qpOf qpOn 0 0).cqHead ((7 : BitVec 32).setWidth 16) := by
  decide +kernel
theorem test_w_QueuePairControlActs_enable : qpActive (qpOf w0 0 0) = false ∧
    6 ≤ (0x26 : BitVec 32).toNat % 16 ∧ (0x26 : BitVec 32).toNat / 32 % 4 = 1 ∧ (0x4C : BitVec 32).toNat % 16 ≤ 12 ∧
    (0x4C : BitVec 32).toNat / 32 % 4 = 2 ∧ (0x25 : BitVec 32).toNat % 16 < 6 ∧ 12 < (0x2D : BitVec 32).toNat % 16 ∧
    (0x06 : BitVec 32).toNat / 32 % 4 = 0 ∧ (0x66 : BitVec 32).toNat / 32 % 4 = 3 := by decide +kernel
/-- Queue pair 0 with head 5 of a ring of 64: the tail 69 is one ring ahead and is taken, 70 is beyond it (R67, R100). -/
theorem test_sqDoorbell_bound :
    (∃ t, exec (.sqDoorbell 0 0 69) qpOn = .next t ∧ (qpOf t 0 0).sqTail = 69 ∧ (qpOf t 0 0).error = false) ∧
    ∃ t, exec (.sqDoorbell 0 0 70) qpOn = .next t ∧ (qpOf t 0 0).sqTail = 5 ∧ (qpOf t 0 0).cause = 1 :=
  ⟨⟨_, rfl, by decide +kernel⟩, ⟨_, rfl, by decide +kernel⟩⟩

theorem test_w_TarnRegistersAct : Shaped w0 ∧ w0.board.running = true ∧ (fnOf w0 0).advEnable = false ∧
    (fnOf (withFn fun f => { f with advEnable := true }) 0).advEnable = true ∧
    ringDist ((256 : BitVec 32).setWidth 16) (fnOf (withFn fun f => { f with advTail := 512 }) 0).advTail ≤ 256 ∧
    256 < ringDist ((255 : BitVec 32).setWidth 16) (fnOf (withFn fun f => { f with advTail := 512 }) 0).advTail ∧
    0x2400 ≤ (0x2400 : BitVec 19).toNat ∧ (0x3FFFF : BitVec 19).toNat < 0x40000 ∧ (fnOf w0 0).busMaster = true ∧
    ((fnOf (withFn fun f => { f with msix := { mask := false } :: f.msix.drop 1 }) 0).msix.getD (0 : Fin 64) {}).mask = false :=
  ⟨w0_shaped, by decide +kernel⟩
theorem test_w_RegisterCommandsTouchOneFunction : Instr.sqDoorbell 7 63 0 = .sqDoorbell 7 63 0 ∧ (1 : QpIx) ≠ 63 ∧ (0 : TarnIx) ≠ 7 := by
  decide +kernel

/-- A ticket with a host read to its buffer, or to device memory, outstanding. -/
def readTk (dev : Option Nat) : State := withTk { tk 4 0x21 with op := 0x10, dma := some ({ addr := 0x1000, len := 2, dev }, 90) }

theorem test_w_HostReadAnswersAct : Good (readTk none) ∧ Good (readTk (some 64)) ∧ running (readTk none) = true ∧
    (∃ k c, ticketOf (readTk none) 4 = some k ∧ k.dma = some (c, 90) ∧ ([1, 2] : Bytes).length = c.len ∧ c.dev = none ∧ k.op ≠ 0x21) ∧
    (∃ k c, ticketOf (readTk (some 64)) 4 = some k ∧ k.dma = some (c, 90) ∧ ([1, 2] : Bytes).length = c.len ∧ c.dev = some 64) ∧
    (qpOf (withQp fun p => { p with reading := 1 }) 0 0).reading ≠ 0 ∧ Good (withQp fun p => { p with reading := 1 }) :=
  ⟨good_of (by decide +kernel) (by decide), good_of (by decide +kernel) (by decide), by decide +kernel,
   ⟨_, _, rfl, rfl, by decide +kernel⟩, ⟨_, _, rfl, rfl, by decide +kernel⟩, by decide +kernel, good_of (by decide +kernel) (by decide)⟩

theorem test_w_SeamAdvancesTheBeat : running w0 = true ∧ w0.timing.join = none := by decide +kernel

/-- A figure in slot 0. -/
def fig0 (spilled : Bool) : FigRun :=
  { uid := 4, tarn := 0, cls := .steady, figIndex := 0, bound := 100, srSeed := 0, tiles := [], progs := [], args := [], audit := false, spilled }

/-- The running device with that figure and its ticket. -/
def withFig (f : FigRun) : State := { withTk (tk 4 0x13) with figs := some f :: List.replicate 15 none }

/-- Change what Tarn 0 holds. -/
def withTarn (g : Tarn → Tarn) : State := modTarn w0 0 g

theorem test_w_OverrunsAreStoppedAndThrottled_spill : Shaped (withFig (fig0 true)) ∧ running (withFig (fig0 true)) = true ∧
    (∃ f, figOf (withFig (fig0 true)) (0 : GroupIx) = some f ∧ f.spilled = true ∧ f.cycles = none ∧ f.fault = none ∧
      ∃ k, ticketOf (withFig (fig0 true)) f.uid = some k) ∧
    ∃ f, figOf (withFig (fig0 false)) (0 : GroupIx) = some f ∧ f.spilled = false :=
  ⟨shaped_of (by decide +kernel), by decide +kernel, ⟨_, rfl, rfl, rfl, rfl, _, rfl⟩, _, rfl, rfl⟩
theorem test_w_OverrunsAreStoppedAndThrottled_throttle : fwUp w0 = true ∧
    (∃ n, tarnOf (withTarn fun n => { n with throttleDue := some (7, 2) }) 0 = some n ∧ n.throttled = false ∧ n.throttleDue ≠ none ∧
      live (withTarn fun n => { n with throttleDue := some (7, 2) }) 0 = true) ∧
    (∃ n, tarnOf w0 0 = some n ∧ n.throttleDue = none ∧ n.throttled = false) ∧
    let e : State := { withTarn (fun n => { n with throttled := true, throttleBeat := 96 }) with pos := 15 }
    ∃ n, tarnOf e 0 = some n ∧ n.throttled = true ∧ barEnd e = true ∧ n.overThisBar = false ∧ n.throttleBeat < e.bar.firstBeat :=
  ⟨by decide +kernel, ⟨_, rfl, by decide +kernel⟩, ⟨_, rfl, by decide +kernel⟩, _, rfl, by decide +kernel⟩

theorem test_w_ScheduleSwapsAtBarEnd :
    let e : State := { w0 with pos := 15, shadow := some {} }
    running e = true ∧ fwUp e = true ∧ e.shadow = some {} ∧ barEnd e = true ∧ w0.shadow = none ∧ barEnd { e with pos := 14 } = false := by
  decide +kernel

/-! Witnesses: change sets, rule changes, timing, sessions, SPDM -/

/-- The next map: Tarn 0 keeps its resources but one tile group, Tarn 1 is destroyed, Tarn 2 is created. -/
def map2 : PMap :=
  { gen := 0, effective := 0, entries := [{ entryA with tileGroups := 1 }, {}, { entryA with tileGroups := 8, lanes := 4, kaeGroups := 2, links := 8, memUnits := bandBits 8, expose := 0 }] ++ List.replicate 5 {} }

/-- A state in which a management set of one phase is due. -/
def dueMap (m : Option PMap) (tb : Option SchedTable) : State :=
  { w0 with pos := 15, sets := [{ id := 4, mgmt := true, forced := true, phases := [{ map := m, table := tb, named := 0xFF }] }] }

theorem test_w_MapChangesApplyAsAWhole_ok : Shaped (dueMap (some map2) none) ∧ running (dueMap (some map2) none) = true ∧
    ∃ c ph m, dueAt (dueMap (some map2) none) 100 (barEnd (dueMap (some map2) none)) = some (c, ph) ∧ c.mgmt = true ∧ ph.map = some m ∧
      phaseCheck (dueMap (some map2) none) c ph = none ∧ created w0.map.entries m.entries = [2] ∧ destroyed w0.map.entries m.entries = [1] ∧
      Resource.tileGroup 1 ∈ takenRes w0.map.entries m.entries ∧ live w0 0 = true ∧ (m.entries.getD 0 {}).state = 1 :=
  ⟨shaped_of (by decide +kernel), by decide +kernel, _, _, _, rfl, rfl, rfl, by decide +kernel⟩
/-- The same map with no memory for the Tarn it creates. -/
def map3 : PMap := { map2 with entries := [entryA, entryB, { state := 1 }] ++ List.replicate 5 {} }
theorem test_w_MapChangesApplyAsAWhole_fails : Shaped (dueMap (some map3) none) ∧
    ∃ c ph m, dueAt (dueMap (some map3) none) 100 (barEnd (dueMap (some map3) none)) = some (c, ph) ∧ c.mgmt = true ∧ ph.map = some m ∧
      phaseCheck (dueMap (some map3) none) c ph = some .badCommand :=
  ⟨shaped_of (by decide +kernel), _, _, _, rfl, rfl, rfl, by decide +kernel⟩
theorem test_w_MapChangesApplyAsAWhole_table :
    let e := dueMap none (some { tableId := 9 })
    Shaped e ∧ running e = true ∧
    (∃ c ph tb, dueAt e 100 (barEnd e) = some (c, ph) ∧ c.mgmt = true ∧ ph.map = none ∧ ph.table = some tb ∧ tb ≠ e.table ∧
      phaseCheck e c ph = none) ∧ dueAt w0 100 (barEnd w0) = none :=
  ⟨shaped_of (by decide +kernel), by decide +kernel, ⟨_, _, _, rfl, rfl, rfl, rfl, by decide +kernel⟩, by decide +kernel⟩

/-- A state in which a host set of Tarn 0 is due: it revokes slot 3 and loads program 1. -/
def dueHost (steps : Nat) : State :=
  { w0 with sets := [{ id := 4, mgmt := false, tarn := some 0, uid := some 4, phases := [{}], revokes := [3], progs := [(1, List.replicate steps 0)] }] }
theorem test_w_HostSetsAndTimeoutsApply_host : Shaped (dueHost 4096) ∧ running (dueHost 4096) = true ∧
    (∃ c ph n, dueAt (dueHost 4096) 100 (barEnd (dueHost 4096)) = some (c, ph) ∧ c.mgmt = false ∧ c.tarn = some 0 ∧
      tarnOf (dueHost 4096) 0 = some n ∧ ph.map = none ∧ ph.table = none ∧ stepsWith n c.progs ≤ 4096 ∧ 3 ∈ c.revokes ∧
      ∃ l, assocGet 1 (c.progs.foldl (fun l p => assocPut p.1 p.2 l) []) = some l) ∧
    ∃ c ph n, dueAt (dueHost 4097) 100 (barEnd (dueHost 4097)) = some (c, ph) ∧ c.mgmt = false ∧ c.tarn = some 0 ∧
      tarnOf (dueHost 4097) 0 = some n ∧ ph.map = none ∧ ph.table = none ∧ 4096 < stepsWith n c.progs :=
  ⟨shaped_of (by decide +kernel), by decide +kernel,
   ⟨_, _, _, rfl, rfl, rfl, rfl, rfl, rfl, by decide +kernel, by decide +kernel, _, rfl⟩,
   _, _, _, rfl, rfl, rfl, rfl, rfl, rfl, by decide +kernel⟩
theorem test_w_HostSetsAndTimeoutsApply_expire :
    let e : State := { w0 with sets := [{ id := 4, mgmt := true, state := .between, phase1Bars := 256 },
      { id := 5, mgmt := true, state := .between, phase1Bars := 255 }] }
    Shaped e ∧ running e = true ∧ (e.sets.map (·.id)).Nodup ∧ (∃ c ∈ e.sets, phaseExpired c = true) ∧ ∃ c ∈ e.sets, phaseExpired c = false :=
  ⟨shaped_of (by decide +kernel), by decide +kernel⟩

/-- A rule change of the round-hold kind from beat `e`. -/
def rule1 (e : Nat) : RuleChange := { id := 1, what := 4, e, tarn := some 0 }
theorem test_w_RuleChangesDrainAndScrubsEnd_drain :
    let a : State := { w0 with rules := [rule1 99] }
    let b : State := { w0 with rules := [rule1 100] }
    running a = true ∧ (∃ r l, a.rules = r :: l ∧ r.d = none ∧ r.e < a.beat ∧ ruleOutstanding a r = false ∧ 1 ≤ r.what ∧ r.what ≤ 6) ∧
    running b = true ∧ ∀ r ∈ b.rules, b.beat ≤ r.e :=
  ⟨by decide +kernel, ⟨_, _, rfl, by decide +kernel⟩, by decide +kernel⟩
theorem test_w_RuleChangesDrainAndScrubsEnd_scrub :
    let a : State := { w0 with scrubs := [(.memUnit 0 1, 90), (.keySlots 1, 90)], keys := {} :: { tarn := some 1, state := .loaded } :: List.replicate 510 {} }
    Good a ∧ a.board.running = true ∧ a.scrubs.any (fun x => x.1 == .memUnit 0 1) = true ∧ a.scrubs.any (fun x => x.1 == .keySlots 1) = true ∧
      (slotOf a 1).tarn = some 1 ∧ a.scrubs.any (fun x => x.1 == .link 0) = false :=
  ⟨good_of (by decide +kernel) (by decide), by decide +kernel⟩

/-- A device that follows the leader on link 2. -/
def timed : State := { modLink w0 2 fun l => { l with mode := .fabric, state := .up } with
  timing := { w0.timing with mode := .link, upstream := some 2, leader := [1] } }
/-- A device in PIN timing, in holdover, after a bar of valid pulses. -/
def pinned : State := { w0 with timing := { w0.timing with mode := .pin, holdover := true, validPulses := 16 } }
theorem test_w_TimingCommandsAct_link : Shaped timed ∧ running timed = true ∧ (linkOf timed 2).mode = .fabric ∧
    (flitIn timed 2 (flitT 3)).1 = true ∧ bits (leNat ((flitT 3).take 8)) 3 0 = 3 ∧
    timed.timing.mode = .link ∧
    timed.timing.upstream = some 2 ∧ timed.timing.mismatch = false ∧ (linkOf timed 2).state = .up ∧ timed.timing.linkDelay.length = 12 ∧
    timed.timing.mode ≠ .internal ∧ timed.timing.upstream ≠ none ∧ 640000 ≤ barNs timed ∧ barNs timed < 640001 ∧
    timed.timing.leader ≠ deviceSerial timed ∧ timed.timing.leader ≠ [] :=
  ⟨shaped_of (by decide +kernel), by decide +kernel, by decide +kernel, flitT_ok _ _ _ _ (by decide +kernel) (by decide +kernel),
   by rw [flitT_header]; decide, by decide +kernel⟩
theorem test_w_TimingCommandsAct_pin : Shaped pinned ∧ running pinned = true ∧ pinned.timing.mode = .pin ∧
    barBeats pinned ≤ pinned.timing.validPulses ∧ (50 ≤ 150 ∧ 150 ≤ 150) ∧ (250 ≤ 400 ∧ 400 ≤ 400) ∧ 49 < 50 ∧ (150 < 151 ∧ 249 < 250) ∧ 400 < 401 :=
  ⟨shaped_of (by decide +kernel), by decide +kernel⟩

theorem test_w_FunctionResetLeavesTheTarn : Shaped w0 ∧ w0.board.running = true ∧ (1 : TarnIx) ≠ 0 := ⟨w0_shaped, by decide +kernel⟩

/-- The device with Tarn 1's one session changed. -/
def withSess (g : Session → Session) : State := modFn w0 1 fun f => { f with sessions := f.sessions.map g }
theorem test_w_SessionLimitsAct :
    (Shaped (withSess fun x => { x with d2hNext := 2 ^ 32 - 2 ^ 20 + 1 }) ∧
      ∃ x, sessionOf (withSess fun x => { x with d2hNext := 2 ^ 32 - 2 ^ 20 + 1 }) 1 5 = some x ∧
        live (withSess fun x => { x with d2hNext := 2 ^ 32 - 2 ^ 20 + 1 }) 1 = true ∧ rekeyReached x = true ∧ x.rekeyPosted = false) ∧
    (Shaped (withSess fun x => { x with d2hNext := 2 ^ 32 }) ∧
      ∃ x, sessionOf (withSess fun x => { x with d2hNext := 2 ^ 32 }) 1 5 = some x ∧ sessionSpent x = true) ∧
    (Shaped (withSess fun x => { x with tagFails := 16 }) ∧
      ∃ x, sessionOf (withSess fun x => { x with tagFails := 16 }) 1 5 = some x ∧ 16 ≤ x.tagFails) :=
  ⟨⟨shaped_of (by decide +kernel), _, rfl, by decide +kernel⟩, ⟨shaped_of (by decide +kernel), _, rfl, by decide +kernel⟩,
   shaped_of (by decide +kernel), _, rfl, by decide +kernel⟩

/-- A device whose function negotiated as said. -/
def withConn (c : SpdmConn) : State := modFn w0 1 fun f => { f with conn := c }
theorem test_w_SpdmRequestsAnswer : Shaped (withConn ⟨true, true, true⟩) ∧ running (withConn ⟨true, true, true⟩) = true ∧
    funcLive (withConn ⟨true, true, true⟩) (.tarn 1) = true ∧ funcLive w0 (.zero .b) = true ∧
    (connOf (withConn ⟨true, true, true⟩) (.tarn 1)).version = true ∧ (connOf (withConn ⟨true, true, true⟩) (.tarn 1)).caps = true ∧
    (connOf (withConn ⟨true, true, true⟩) (.tarn 1)).algs = true ∧ offerOk ⟨true, true, true, true, true, true⟩ = true ∧
    offerOk ⟨true, true, true, true, true, false⟩ = false ∧ running w0 = true ∧ live w0 7 = false :=
  ⟨shaped_of (by decide +kernel), by decide +kernel⟩
theorem test_w_SpdmRequestsAnswer_chain (s : State) (f : Func) : 0 < (spdmChain s f).length := by
  simp [spdmChain]

/-- The generator of P-384 as an exchange value. -/
def gPoint : Bytes := (sec1 p384 (ecPub p384 1)).drop 1
theorem test_w_SpdmSessionsAct_exchange :
    let a := modFn (withConn ⟨true, true, true⟩) 1 fun f => { f with sessions := [] }
    let b := modFn (withConn ⟨true, true, true⟩) 1 fun f => { f with sessions := [sess, { sess with id := 6 }] }
    Shaped a ∧ Shaped b ∧ running a = true ∧ isConf a 1 = true ∧ (connOf a (.tarn 1)).algs = true ∧
    (unSec1 p384 (leBytes 1 4 ++ gPoint)).isSome = true ∧ (fnOf a 1).sessions = [] ∧ isConf b 1 = true ∧ 2 ≤ establishedCount b 1 ∧
    (connOf b (.tarn 1)).algs = true :=
  ⟨shaped_of (by decide +kernel), shaped_of (by decide +kernel), by decide +kernel⟩
theorem test_w_SpdmSessionsAct_session :
    (∃ x, sessionOf w0 1 5 = some x ∧ x.established = true) ∧
    let a := withSess fun x => { x with established := false }
    Shaped a ∧ (∃ x, sessionOf a 1 5 = some x ∧ x.established = false) ∧ establishedCount a 1 < 2 ∧
    running w0 = true ∧ funcLive w0 (.tarn 0) = true ∧ confTarn w0 (.tarn 0) = none ∧ confTarn w0 (.zero .a) = none :=
  ⟨⟨_, rfl, rfl⟩, shaped_of (by decide +kernel), ⟨_, rfl, rfl⟩, by decide +kernel⟩

/-! Witnesses: read commands, key commands, copies, loads -/

/-- Host bytes of a ticket on a standard Tarn may be written. -/
theorem writable_standard (s : State) (k : Ticket) (bs : Bytes) (h : issues (fnOf s k.tarn) = true) (c : isConf s k.tarn = false) :
    HostWritable s k bs := ⟨h, fun x => by rw [c] at x; exact absurd x Bool.false_ne_true⟩

/-- A ticket that may be served. -/
abbrev Serves (s : State) (uid op : Nat) (k : Ticket) : Prop := servable s uid op = some k

theorem test_w_ReadCommandsAnswer_served : Shaped (withTk (tk 4 0x00)) ∧ Serves (withTk (tk 4 0x00)) 4 0x00 (tk 4 0x00) ∧
    Serves (withTk (tk 4 0x01)) 4 0x01 (tk 4 0x01) ∧ Serves (withTk (tk 4 0x04)) 4 0x04 (tk 4 0x04) ∧
    Serves (withTk (tk 4 0x05)) 4 0x05 (tk 4 0x05) ∧ isConf (withTk (tk 4 0x01)) 0 = false ∧
    (fnOf (withTk (tk 4 0x01)) 0).busMaster = true := ⟨shaped_of (by decide +kernel), rfl, rfl, rfl, rfl, by decide +kernel⟩
theorem test_w_ReadCommandsAnswer_writable (bs : Bytes) : HostWritable (withTk (tk 4 0x01)) (tk 4 0x01) bs ∧
    HostWritable (withTk (tk 4 0x04)) (tk 4 0x04) bs :=
  ⟨writable_standard _ _ _ (by decide +kernel) (by decide +kernel), writable_standard _ _ _ (by decide +kernel) (by decide +kernel)⟩
theorem test_w_ReadCommandsAnswer_report : ∃ nonce s1, plainOf (withTk (tk 4 0x05)) (tk 4 0x05) 0 32 (tk 4 0x05).buf = (.ok nonce, s1) ∧
    HostWritable s1 (tk 4 0x05) (report s1 (some 0) nonce).1 :=
  ⟨_, _, rfl, writable_standard _ _ _ (by decide +kernel) (by decide +kernel)⟩
theorem test_w_ReadCommandsAnswer_bounce :
    let k := tk 4 0x14 1 [0, 0, 5]
    Serves (withTk k) 4 0x14 k ∧ (∃ x, sessionOf (withTk k) k.tarn (BitVec.ofNat 32 (opW k 2)) = some x ∧ x.established = true) ∧
    isConf (withTk k) k.tarn = true ∧ opW k 2 < 2 ^ 32 ∧ Serves (withTk (tk 4 0x14)) 4 0x14 (tk 4 0x14) ∧
    isConf (withTk (tk 4 0x14)) 0 = false := ⟨rfl, ⟨_, rfl, rfl⟩, by decide +kernel⟩
/-- An entry of the Tally about Tarn 1. -/
def entry1 (payload : Bytes) : TallyEntry := ⟨3, 90, 0x51, 1, false, false, .ok, payload, zb 48⟩
theorem test_w_ReadCommandsAnswer_redacted : (entry1 [1]).tarn ≠ (0 : TarnIx).val ∧ (entry1 [1]).tarn ≠ 0xFF ∧ entry1 [1] ≠ entry1 [1, 0] ∧
    tallyBytes (entry1 [1]) = tallyBytes (entry1 [1, 0]) := by decide +kernel

/-- Key material, and its blob under the storage root, recorded by parent-table entry 5. -/
def mat : Bytes := zb 32
/-- The blob of `mat` for usage 1. -/
def blob5 : Bytes :=
  let h := rootBlobHeader 1 0 5 (kcvOf 1 mat) (zb 12) (zb 16)
  let c := gcmSeal (storageRoot w0) (zb 12) h mat
  h ++ c.1 ++ c.2
/-- The key that it loads. -/
def key5 : KeySlot := { state := .loaded, tarn := some 0, material := mat, usage := 1, recordId := 5, kcv := kcvOf 1 mat, label := zb 16 }
/-- The device with parent entry 5 ACTIVE for Tarn 0, and slot 3 loaded. -/
def withKeys (ks : List Ticket) : State := { w0 with
  tickets := ks
  keys := w0.keys.set 3 key5
  bbram := { w0.bbram with parents := w0.bbram.parents.set 5 { state := 1 } } }
/-- A key command's ticket with its blob in hand. -/
def keyTk (op : Nat) (slot : BitVec 64) : Ticket := { tk 4 op 0 [slot] with buf := blob5 }

theorem test_w_KeyCommandsAct_load :
    let a := withKeys [keyTk 0x08 0]
    Shaped a ∧ Serves a 4 0x08 (keyTk 0x08 0) ∧ keyTurn a (keyTk 0x08 0) = true ∧ rootOk a = true ∧
    rootOk { a with rootState := 1 } = false ∧ (∃ s1, plainOf a (keyTk 0x08 0) 0 112 (keyTk 0x08 0).buf = (.ok (blob5.take 112), s1) ∧
      (match checkBlob s1 0 (blob5.take 112) false (fun _ => true) with | .ok k => decide (k = key5) | .error _ => false) = true ∧
      (upto 480).find? (fun i => (slotOf s1 (i + 1)).state == .empty) = some 0) :=
  ⟨shaped_of (by decide +kernel), by decide +kernel, by decide +kernel, by decide +kernel, by decide +kernel, (withKeys [keyTk 0x08 0]),
   rfl, by decide +kernel, by decide +kernel⟩
theorem test_w_KeyCommandsAct_unload :
    let a := withKeys [keyTk 0x09 3]
    Serves a 4 0x09 (keyTk 0x09 3) ∧ (keyTk 0x09 3).stage = 0 ∧ slotPending a 3 = false ∧ slotHeld a 0 3 = true ∧ slotHeld a 0 4 = false ∧
    keyTurn a (keyTk 0x09 3) = true := ⟨rfl, rfl, by decide +kernel⟩
theorem test_w_KeyCommandsAct_replace :
    let a := withKeys [keyTk 0x0A 3]
    Serves a 4 0x0A (keyTk 0x0A 3) ∧ replaceTurn a (keyTk 0x0A 3) = true ∧ replaceRunning a (keyTk 0x0A 3) 3 = false ∧ slotHeld a 0 3 = true ∧
    (slotOf a 3).state = .loaded ∧ keyTurn a (keyTk 0x0A 3) = true ∧
    (upto 16).find? (fun j => (a.bbram.journal.getD j {}).jstate == 0 && (a.replaces.getD j none).isNone) = some 0 ∧
    (match checkBlob a 0 blob5 true (fun b => b.usage == 1 && b.owner == 0 && b.recordId == 5) with
      | .ok k => decide (k = key5) | .error _ => false) = true :=
  ⟨rfl, by decide +kernel⟩
theorem test_w_KeyCommandsAct_invalidate :
    let a := withKeys [tk 4 0x0B 0 [5]]
    Serves a 4 0x0B (tk 4 0x0B 0 [5]) ∧ parentCheck a 0 5 = none ∧ parentCheck a 0 6 = some .notPermitted ∧
    keyTurn a (tk 4 0x0B 0 [5]) = true := ⟨rfl, by decide +kernel⟩

/-- A pending replacement of slot 3 in journal entry 0. -/
def withReplace (state : BitVec 2) (k : KeySlot) (c : Option Nat) (p : BitVec 2) (tks : List Ticket := [tk 4 0x0A 0 [3]]) : State := { w0 with
  tickets := tks
  replaces := some { uid := 4, key := k, old := key5, commitBeat := c } :: List.replicate 15 none
  bbram := { w0.bbram with
    journal := { jstate := state, slot := 3, recordId := 5 } :: List.replicate 15 {}
    parents := w0.bbram.parents.set 5 { state := p } } }
theorem test_w_KeyReplacementCommitsInOrder :
    (Shaped (withReplace 1 key5 none 1) ∧ running (withReplace 1 key5 none 1) = true ∧
      (∃ r, (withReplace 1 key5 none 1).replaces.getD (0 : Fin 16) none = some r ∧ r.key.parentKind ≠ 1 ∧ r.key.recordId ≠ 0 ∧
        r.key.recordId < 1024 ∧ r.commitBeat = none ∧ ticketOf (withReplace 1 key5 none 1) r.uid = some (tk 4 0x0A 0 [3])) ∧
      ticketRuns (tk 4 0x0A 0 [3]) = true ∧ ticketOf (withReplace 1 key5 none 1 []) 4 = none ∧
      ((withReplace 1 key5 none 1).bbram.journal.getD (0 : Fin 16) {}).jstate = 1) ∧
    (let a := withReplace 1 { key5 with parentKind := 1, parentId := 5, parentGen := 1 } none 2
     Shaped a ∧ ∃ r, a.replaces.getD (0 : Fin 16) none = some r ∧ r.key.parentKind = 1 ∧ (parentOf a r.key.parentId).state = 2) ∧
    (let a := withReplace 1 { key5 with parentKind := 1, parentId := 5, parentGen := 1 } none 1
     ∃ r, a.replaces.getD (0 : Fin 16) none = some r ∧ (parentOf a r.key.parentId).state ≠ 2 ∧
       (parentOf a r.key.parentId).gen.toNat = r.key.parentGen) ∧
    (let a := withReplace 2 key5 (some 99) 1
     Shaped a ∧ ∃ r, a.replaces.getD (0 : Fin 16) none = some r ∧ r.commitBeat = some 99 ∧ 99 < a.beat ∧ keyBusy a 3 r.old.material 99 = false) ∧
    let a := withReplace 2 key5 (some 100) 1
    ∃ r, a.replaces.getD (0 : Fin 16) none = some r ∧ r.commitBeat = some 100 ∧ a.beat ≤ 100 :=
  ⟨⟨shaped_of (by decide +kernel), by decide +kernel, ⟨_, rfl, by decide +kernel⟩, by decide +kernel⟩,
   ⟨shaped_of (by decide +kernel), _, rfl, by decide +kernel⟩, ⟨_, rfl, by decide +kernel⟩,
   ⟨shaped_of (by decide +kernel), _, rfl, by decide +kernel⟩, _, rfl, by decide +kernel⟩

/-- A COPY of 64 bytes from device address 0 (or host) to 4096. -/
def copyTk (len flags : BitVec 64) : Ticket := tk 4 0x10 0 [0, 4096, len, flags]
theorem test_w_CopyMovesBytes_clear : Shaped (withTk (copyTk 64 0)) ∧ Serves (withTk (copyTk 64 0)) 4 0x10 (copyTk 64 0) ∧
    Serves (withTk (copyTk 0 0)) 4 0x10 (copyTk 0 0) ∧ opW (copyTk 0 0) 2 = 0 ∧
    Serves (withTk (copyTk 64 1)) 4 0x10 (copyTk 64 1) ∧ Serves (withTk (copyTk 64 2)) 4 0x10 (copyTk 64 2) ∧
    opW (copyTk 64 0) 2 ≠ 0 ∧ bits (opW (copyTk 64 0) 3) 10 2 = 0 ∧ bit (opW (copyTk 64 0) 3) 0 = false ∧ bit (opW (copyTk 64 0) 3) 1 = false ∧
    bit (opW (copyTk 64 1) 3) 0 = true ∧ bit (opW (copyTk 64 1) 3) 1 = false ∧ bit (opW (copyTk 64 2) 3) 1 = true ∧
    (match copySource (withTk (copyTk 64 0)) (copyTk 64 0) 64 with | .ok bs => decide (bs = zb 64) | .error _ => false) = true ∧
    accessCheck (withTk (copyTk 64 0)) 0 4096 64 = none ∧ isConf (withTk (copyTk 64 0)) 0 = false :=
  ⟨shaped_of (by decide +kernel), rfl, rfl, by decide +kernel, rfl, rfl, by decide +kernel⟩
theorem test_w_CopyMovesBytes_refused : let k := tk 4 0x10 0 [2 ^ 37, 4096, 64, 0]
    Serves (withTk k) 4 0x10 k ∧ (match copySource (withTk k) k 64 with | .ok _ => false | .error st => st == .notPermitted) = true ∧
    let p : State := { withTk (copyTk 64 0) with poison := [(0, 1)] }
    poisoned p 0 64 = true := ⟨rfl, by decide +kernel⟩
/-- A COPY with key slot 3. -/
def copyKey : Ticket := copyTk 64 12
/-- The device with slot 3 holding an ENCRYPT key. -/
def copyKeyed : State := { withKeys [copyKey] with keys := w0.keys.set 3 key5 }
theorem test_w_CopyMovesBytes_keyed : Shaped copyKeyed ∧ Serves copyKeyed 4 0x10 copyKey ∧ bits (opW copyKey 3) 10 2 = 3 ∧
    bit (opW copyKey 3) 11 = false ∧ copyKey.key = none ∧
    (match keyStart copyKeyed 0 3 1 with | .ok _ => true | .error _ => false) = true ∧
    accessCheck copyKeyed 0 4096 (128 + 64 + 16 * cdiv 64 (2 ^ 20)) = none :=
  ⟨shaped_of (by decide +kernel), rfl, by decide +kernel⟩

/-- A device with 8 bytes of program at address 0: step `w`. -/
def withProg (w : Nat) : State := devWrite (withTk (tk 4 0x12 0 [0, 8, 1])) 0 (leBytes 8 w)
theorem test_w_LoadsCheckThenAct_program : Shaped (withProg 2) ∧ Serves (withProg 2) 4 0x12 (tk 4 0x12 0 [0, 8, 1]) ∧
    (tk 4 0x12 0 [0, 8, 1]).stage = 0 ∧ accessCheck (withProg 2) 0 0 8 = none ∧ poisoned (withProg 2) 0 8 = false ∧
    (microSteps (devRead (withProg 2) 0 8)).all microStepOk = true ∧ (microSteps (devRead (withProg 0) 0 8)).all microStepOk = false :=
  ⟨shaped_of (by decide +kernel), by decide +kernel, rfl, by decide +kernel⟩
/-- A sealed model of 256 zero bytes under `mat`, and the ticket that loads it. -/
def model : Bytes := sealPackage mat (zb 32) (zb 256)
/-- The loading ticket with the whole package arrived. -/
def modelTk (len : BitVec 64) : Ticket := { tk 4 0x11 0 [0, len, 4096] with buf := model, key := some (3, mat, 90) }
theorem test_w_LoadsCheckThenAct_model :
    let k := modelTk 400
    let p := pkgOf (k.buf.take 128)
    Shaped (withTk k) ∧ Serves (withTk k) 4 0x11 k ∧ isConf (withTk k) 0 = false ∧ 128 ≤ k.buf.length ∧ k.plain = [] ∧ k.cursor = 0 ∧ k.accepted = 0 ∧
    pkgFormOk (k.buf.take 128) = true ∧ opW k 1 = pkgLen p ∧ opW (modelTk 401) 1 ≠ pkgLen p ∧ p.kcv = kcvOf 2 mat ∧
    rangeCheck (withTk k) 0 (opW k 2) p.plainLen = none ∧ accessCheck (withTk k) 0 (opW k 2) p.plainLen = none ∧
    openChunks p (chunkKey p mat) (cdiv p.plainLen (2 ^ p.log2) + 1) 0 (k.buf.drop 128) [] =
      (zb 256, [], cdiv p.plainLen (2 ^ p.log2), false) ∧ (zb 256).length = p.plainLen :=
  ⟨shaped_of (by decide +kernel), by decide +kernel⟩

/-! Witnesses: links -/

/-- The device with link 0 changed. -/
def withLink (g : Link → Link) : State := modLink w0 0 g

theorem test_w_LinkStatesMove_train : Shaped (withLink fun l => { l with mode := .fabric }) ∧
    mayTrain (modLink (withLink fun l => { l with mode := .fabric }) 0 fun l => { l with signal := true }) 0 = true ∧
    mayTrain (withLink fun l => { l with mode := .fabric, signal := true }) 0 = true ∧
    upReady { linkOf (withLink fun l => { l with mode := .fabric, state := .training, hellos := 2 }) 0 with fecLock := true } = true ∧
    (let a : State := { withLink (fun l => { l with state := .training }) with timeUs := 1000000 }
     Shaped a ∧ running a = true ∧ (linkOf a 0).state = .training ∧ (linkOf a 0).trainUs + 1000000 ≤ a.timeUs) :=
  ⟨shaped_of (by decide +kernel), by decide +kernel, by decide +kernel, by decide +kernel, shaped_of (by decide +kernel), by decide +kernel⟩
theorem test_w_LinkStatesMove_up :
    let a := withLink fun l => { l with mode := .edge, state := .up, silentBars := 2, tagFails := 16 }
    Shaped a ∧ running a = true ∧ (linkOf a 0).state = .up ∧ (linkOf a 0).mode = .edge ∧ 2 ≤ (linkOf a 0).silentBars ∧
    linkTagged (linkOf a 0) = true ∧ 16 ≤ (linkOf a 0).tagFails ∧ linkOwner a 0 = some 0 := ⟨shaped_of (by decide +kernel), by decide +kernel⟩
theorem test_w_LinkStatesMove_draining :
    let a := withLink fun l => { l with mode := .edge, state := .draining, silentBars := 4, opDrain := true }
    Shaped a ∧ (linkOf a 0).state = .draining ∧ 4 ≤ (linkOf a 0).silentBars ∧ (linkOf a 0).opDrain = true :=
  ⟨shaped_of (by decide +kernel), by decide +kernel⟩
theorem test_w_LinkStatesMove_lanes :
    let a := withLink fun l => { l with mode := .edge, state := .up, laneFaults := 1 }
    Shaped a ∧ faultyHalves ((linkOf a 0).laneFaults ||| BitVec.ofNat 8 (2 ^ 4)) = (true, true) ∧
    faultyHalves ((linkOf a 0).laneFaults ||| BitVec.ofNat 8 (2 ^ 3)) ≠ (true, true) ∧ fwUp a = true ∧
    a.gov.bounds.degradeMask.getLsbD 0 = true ∧ (linkOf a 0).lanes = 8 ∧ (linkOf a 0).state = .up :=
  ⟨shaped_of (by decide +kernel), by decide +kernel⟩
theorem test_w_LinkMovesAreRecorded : running w0 = true ∧
    ∃ t, exec (.linkSignalDetect 0) (withLink fun l => { l with mode := .fabric }) = .next t ∧
      (linkOf t 0).state ≠ (linkOf (withLink fun l => { l with mode := .fabric }) 0).state := ⟨by decide +kernel, _, rfl, by decide +kernel⟩

/-- A HELLO body of version 1: a link mode and a serial number that begins with a byte. -/
def helloB (mode serial : Nat) : Bytes := leBytes 2 1 ++ leBytes 1 mode ++ leBytes 1 2 ++ leBytes 1 serial ++ zb 15
/-- A FABRIC link that is UP. -/
def fabricUpS : State := withLink fun l => { l with mode := .fabric, state := .up }
theorem test_w_HellosUpdateTheLink : Shaped fabricUpS ∧ running fabricUpS = true ∧
    (∀ body, (flitIn fabricUpS 0 (flitT 2 body)).1 = true ∧ bits (leNat ((flitT 2 body).take 8)) 3 0 = 2) ∧
    field (slice (flitT 2 (helloB 0 0)) 8 240) 0 2 = 1 ∧ field (slice (flitT 2 (helloB 0 1)) 8 240) 0 2 = 1 ∧
    field (slice (flitT 2 (helloB 1 1)) 8 240) 0 2 = 1 ∧
    (helloOf (slice (flitT 2 (helloB 0 0)) 8 240)).serial = deviceSerial fabricUpS ∧
    ((helloOf (slice (flitT 2 (helloB 0 1)) 8 240)).serial ≠ deviceSerial fabricUpS ∧
      (helloOf (slice (flitT 2 (helloB 0 1)) 8 240)).mode = linkModeCode (linkOf fabricUpS 0).mode) ∧
    (helloOf (slice (flitT 2 (helloB 1 1)) 8 240)).mode ≠ linkModeCode (linkOf fabricUpS 0).mode := by
  refine ⟨shaped_of (by decide +kernel), by decide +kernel, fun b => ⟨flitT_ok _ _ _ _ (by decide +kernel) (by decide +kernel), ?_⟩, ?_⟩
  · rw [flitT_header]; decide
  · simp only [flitT_body]; decide +kernel

/-- A FABRIC link that is UP with two flits to be acknowledged, the first sent `n` times. -/
def replayS (n : Nat) : State :=
  withLink fun l => { l with mode := .fabric, state := .up, replay := [(5, zb 8, n), (6, zb 8, 1)], unackedRx := 1 }
theorem test_w_FlitsAreRetried : Shaped (replayS 7) ∧ running (replayS 7) = true ∧ (linkOf (replayS 7) 0).state = .up ∧
    ((flitIn (replayS 7) 0 (flitT 1)).1 = true ∧ bits (leNat ((flitT 1).take 8)) 3 0 = 1 ∧
      bits (leNat ((flitT 1).take 8)) 19 8 = (linkOf (replayS 7) 0).expSeq) ∧
    ((flitIn (replayS 7) 0 []).1 = false ∧ bits (leNat ((flitT 0x101).take 8)) 19 8 ≠ (linkOf (replayS 7) 0).expSeq ∧
      (linkOf (replayS 7) 0).nakOut = false) ∧
    ((linkOf (replayS 7) 0).replay ≠ [] ∧ (∀ x ∈ (linkOf (replayS 7) 0).replay, x.2.2 < 8) ∧
      ∃ x ∈ (linkOf (replayS 8) 0).replay, 8 ≤ x.2.2) ∧
    ((flitIn (replayS 7) 0 (flitT 6)).1 = true ∧ bits (leNat ((flitT 6).take 8)) 3 0 = 6 ∧ 0 < (linkOf (replayS 7) 0).unackedRx) := by
  refine ⟨shaped_of (by decide +kernel), by decide +kernel, by decide +kernel,
    ⟨flitT_ok _ _ _ _ (by decide +kernel) (by decide +kernel), ?_, ?_⟩, ⟨by decide +kernel, ?_, by decide +kernel⟩, by decide +kernel,
    flitT_ok _ _ _ _ (by decide +kernel) (by decide +kernel), ?_, by decide +kernel⟩ <;> rw [flitT_header] <;> decide +kernel
theorem test_w_FlitsAreRetried_nak : (headerIn (linkOf (replayS 7) 0) (leBytes 8 6 ++ zb 248)).replay ≠ [] := by decide +kernel

/-- A request or response of an operation with its data, for this device, from Tarn 2 of device 3. -/
def msgB (op len status : Nat) (data : Bytes) (ty : Nat := 0) : Bytes :=
  msgBytes { op, dest := 0, src := 3, hops := 0, destTarn := 0, srcTarn := 2, cls := 0, ty, addr := 0, len, tag := 7, status } ++ data
/-- A link of Tarn 0 with a request in its inbox, stamped and checked as it arrived: with a verdict, or none. -/
def inboxS (msg : Bytes) (verdict : Option Status) (hold : Bool) : State :=
  { withLink (fun l => { l with mode := .fabric, state := .up, inbox := [{ vc := 1, bytes := msg, stamp := 99, verdict }] }) with
    dram := { hold := hold } :: List.replicate 7 {} }
theorem test_w_RemoteRequestsAreServed :
    (∀ m ∈ [msgB 1 64 0 (zb 64), msgB 2 4 0 (zb 4) 0x20, msgB 3 64 0 [], msgB 1 64 0 (zb 60)],
      ∀ v ∈ [none, some Status.notPermitted], ∀ h, shapedB (inboxS m v h) = true ∧
      running (inboxS m v h) = true ∧ firstOf (linkOf (inboxS m v h) 0) 1 = some { vc := 1, bytes := m, stamp := 99, verdict := v } ∧
      (msgOf m).dest = (inboxS m v h).timing.deviceNo.val ∧ (msgOf m).op ≠ 4 ∧ touchesHold (inboxS m v h) 0 64 = h) ∧
    ((msgB 1 64 0 (zb 64)).drop 32).length = (msgOf (msgB 1 64 0 (zb 64))).len ∧
    ((msgB 2 4 0 (zb 4) 0x20).drop 32).length = (msgOf (msgB 2 4 0 (zb 4) 0x20)).len ∧
    ((msgB 3 64 0 []).drop 32).length = 0 ∧ ((msgB 1 64 0 (zb 60)).drop 32).length ≠ (msgOf (msgB 1 64 0 (zb 60))).len := by
  decide +kernel
/-- The device with Tarn 2 of device 3 granted access to Tarn 0, or not. -/
def grantS (granted : Bool) : State :=
  modTarn (withLink fun l => { l with mode := .fabric, state := .up }) 0 fun t => { t with grants := if granted then [(3, 2)] else [] }
/-- A request that arrives is checked then, against the grants and its length (R345). -/
theorem test_remoteCheck : ∀ m ∈ [msgB 1 64 0 (zb 64), msgB 3 64 0 []],
    remoteCheck (grantS true) 0 0 m (msgOf m) = none ∧ remoteCheck (grantS false) 0 0 m (msgOf m) = some .notPermitted := by
  decide +kernel
theorem test_w_RemoteRequestsAreServed_arrives :
    let h := 0x51 + 32 * 2 ^ 48
    let body := msgB 3 64 0 []
    Good (grantS true) ∧ (flitIn (grantS true) 0 (flitT h body)).1 = true ∧
    (let h := leNat ((flitT h body).take 8)
     bits h 3 0 = 1 ∧ bits h 19 8 = (linkOf (grantS true) 0).expSeq ∧ bits h 5 4 = 1 ∧ bit h 6 = true) ∧
    ((linkOf (grantS true) 0).partials.getD 1 { vc := 1, bytes := [] }).bytes = [] := by
  refine ⟨good_of (by decide +kernel) rfl, flitT_ok _ _ _ _ (by decide +kernel) (by decide +kernel), ?_, by decide +kernel⟩
  rw [flitT_header]; decide +kernel
/-- A request for device 9 that has made `hops` hops, at a device that knows a route of one hop there over link 1. -/
def passM (hops : Nat) : InMsg :=
  { vc := 1, bytes := msgBytes { op := 1, dest := 9, src := 3, hops, destTarn := 0, srcTarn := 2, cls := 0, ty := 0, addr := 0, len := 64, tag := 7, status := 0 } }
def passS (hops : Nat) : State :=
  { withLink (fun l => { l with mode := .fabric, state := .up, inbox := [passM hops] }) with
    routes := [{ dest := 9, link := 1, hops := 1, down := true, edge := false }]
    links := ({ mode := .fabric, state := .up, inbox := [passM hops] } : Link) :: ({ mode := .fabric, state := .up } : Link) :: w0.links.drop 2 }
theorem test_w_RemoteRequestsAreServed_forward :
    (∀ h ∈ [1, 3], shapedB (passS h) = true ∧ running (passS h) = true ∧
      (linkOf (passS h) 0).inbox.find? (fun x => byteAt x.bytes 1 != (passS h).timing.deviceNo.val) = some (passM h)) ∧
    (∀ r ∈ (passS 3).routes, r.dest = byteAt (passM 3).bytes 1 ∧ 4 < byteAt (passM 3).bytes 3 % 16 + 1 + r.hops) ∧
    forwardLink (modLink (passS 1) 0 fun l => { l with inbox := l.inbox.erase (passM 1) }) 0 9 (byteAt (passM 1).bytes 3 % 16 + 1)
      (bit (byteAt (passM 1).bytes 3) 4 || (linkOf (passS 1) 0).mode == .edge) = some 1 := by
  decide +kernel

/-- A figure that waits for a remote read, issued at a beat, with a response in the inbox. -/
def remoteS (resp : Bytes) (b : Nat) : State :=
  { withLink (fun l => { l with mode := .fabric, state := .up, inbox := [{ vc := 2, bytes := resp }] }) with
    tickets := [tk 4 0x13]
    figs := some { fig0 false with tiles := [{ remote := [7] }] } :: List.replicate 15 none
    remotes := [{ tag := 7, uid := 4, tarn := 0, group := 0, tile := 0, op := 3, link := 0, spOff := 0, len := 64, beat := b }] }
/-- The access that `remoteS` has outstanding. -/
def remoteM (b : Nat) : Remote := { tag := 7, uid := 4, tarn := 0, group := 0, tile := 0, op := 3, link := 0, spOff := 0, len := 64, beat := b }
theorem test_w_RemoteAnswersReachTheTicket :
    Shaped (remoteS (msgB 4 64 0 (zb 64)) 90) ∧ running (remoteS (msgB 4 64 0 (zb 64)) 90) = true ∧
    (∃ h data, responseOf (remoteS (msgB 4 64 0 (zb 64)) 90) 0 4 = some (h, data) ∧
      answered (remoteS (msgB 4 64 0 (zb 64)) 90) 0 h = some (remoteM 90) ∧
      ∃ f, figOf (remoteS (msgB 4 64 0 (zb 64)) 90) (0 : GroupIx) = some f ∧ f.uid = 4 ∧ ∃ r, f.tiles[(0 : TileIx).val]? = some r) ∧
    (∃ h data, responseOf (remoteS (msgB 5 0 0 []) 90) 0 5 = some (h, data) ∧ answered (remoteS (msgB 5 0 0 []) 90) 0 h = some (remoteM 90)) ∧
    (∃ h data, responseOf (remoteS (msgB 6 0 5 []) 90) 0 6 = some (h, data) ∧ answered (remoteS (msgB 6 0 5 []) 90) 0 h = some (remoteM 90)) ∧
    (let a : State := { remoteS (msgB 4 64 0 (zb 64)) 90 with remotes := [] }
     ∃ h data, responseOf a 0 4 = some (h, data) ∧ answered a 0 h = none) ∧
    responseOf (remoteS [] 90) 0 4 = none ∧ ticketOf (remoteS [] 90) 4 = some (tk 4 0x13) ∧
    (remoteS [] 68).remotes.find? (fun m => m.tag == 7) = some (remoteM 68) ∧ 68 + 2 * barBeats w0 ≤ w0.beat ∧
    w0.beat < 69 + 2 * barBeats w0 :=
  ⟨shaped_of (by decide +kernel), by decide +kernel, ⟨_, _, rfl, by decide +kernel, _, rfl, rfl, _, rfl⟩, ⟨_, _, rfl, by decide +kernel⟩,
   ⟨_, _, rfl, by decide +kernel⟩, ⟨_, _, rfl, by decide +kernel⟩, by decide +kernel⟩

/-- An EDGE link in a state, with an ephemeral key sent and its counters at `c`; the generator's key is on the allow list. -/
def edgeS (st : LinkState) (c : Nat) : State :=
  { withLink (fun l => { l with mode := .edge, state := st, eph := some 1, tx := { ctr := c }, rx := { ctr := c } }) with
    mgmt := { w0.mgmt with allow := [sha384 (sec1 p384 (ecPub p384 1))] } }
/-- A partner whose keys are the generator and whose signature is right. -/
def partnerG : LinkPartner :=
  let g := sec1 p384 (ecPub p384 1)
  { ephemeral := g, signer := g, sig := ecdsaSign 1 2 (sha384 (g ++ g)), identity := zb 16 }
theorem test_w_LinkKeysAreAgreedAndReplaced_good : Shaped (edgeS .training 0) ∧ running (edgeS .training 0) = true ∧
    (ownEphemeral (edgeS .training 0) 0).1 = 1 ∧ (ownEphemeral (edgeS .up (2 ^ 48)) 0).1 = 1 ∧
    ((unSec1 p384 partnerG.ephemeral).isSome && (edgeS .training 0).mgmt.allow.contains (sha384 partnerG.signer) &&
      ecdsaVerify partnerG.signer (sha384 (partnerG.ephemeral ++ sec1 p384 (ecPub p384 1))) partnerG.sig) = true :=
  ⟨shaped_of (by decide +kernel), by decide +kernel⟩
theorem test_w_LinkKeysAreAgreedAndReplaced_rest :
    (∃ p : LinkPartner, (unSec1 p384 p.ephemeral).isSome = false) ∧ (linkOf (edgeS .training 0) 0).mode = .edge ∧
    (linkOf (edgeS .training 0) 0).state = .training ∧
    (linkTagged (linkOf (edgeS .up (2 ^ 48)) 0) = true ∧ (linkOf (edgeS .up (2 ^ 48)) 0).state = .up ∧
      2 ^ 48 ≤ (linkOf (edgeS .up (2 ^ 48)) 0).tx.ctr) ∧
    ((linkOf (edgeS .up (2 ^ 32)) 0).tx.epoch < (linkOf (edgeS .up (2 ^ 32)) 0).tx.ctr / 2 ^ 32) ∧
    (linkOf (edgeS .up (2 ^ 32 - 1)) 0).tx.ctr / 2 ^ 32 ≤ (linkOf (edgeS .up (2 ^ 32 - 1)) 0).tx.epoch ∧
    (linkOf (edgeS .up (2 ^ 32 - 1)) 0).rx.ctr / 2 ^ 32 ≤ (linkOf (edgeS .up (2 ^ 32 - 1)) 0).rx.epoch :=
  ⟨⟨⟨[], [], [], []⟩, by decide +kernel⟩, by decide +kernel⟩

/-- An INTAKE link of Tarn 0 that is UP, with partial records and a granted credit as said. -/
def intakeS (parts : List IntakePart) (granted : Nat) : State :=
  withLink fun l => { l with mode := .intake, state := .up, partnerOk := true, parts, granted, rx := { key := zb 32, salt := zb 4 } }
/-- The header and data of a RECORD_PART of contributor 2 of round 1 at an offset. -/
def partHead (off : Nat) : Bytes :=
  leBytes 1 1 ++ leBytes 1 1 ++ zb 2 ++ leBytes 8 0 ++ leBytes 4 1 ++ leBytes 4 2 ++ leBytes 8 off ++ leBytes 2 16 ++ zb 2
/-- Its frame. -/
def partFrame (off : Nat) : Bytes :=
  let d := keyFor { key := zb 32, salt := zb 4 } 0
  zb 12 ++ beBytes 2 0x88B5 ++ partHead off ++ zb 16 ++ gmac d.key (gmacNonce d 0) (partHead off ++ zb 16)
/-- The partial record of that contributor, of which 16 bytes have come. -/
def part16 (slot : Option Nat) : IntakePart := { round := 1, contrib := 2, got := 16, held := zb 16, slot, last := 99 }
theorem test_w_IntakeRecordPartsAreJoined : Shaped (intakeS [] 1) ∧ running (intakeS [] 1) = true ∧ fwUp (intakeS [] 1) = true ∧
    (intakeIn (intakeS [] 1) 0 (partFrame 0) false).1 = none ∧
    (intakeIn (intakeS [] 1) 0 (partFrame 0) true).1 = some (partHead 0, zb 16) ∧
    (intakeIn (intakeS [] 0) 0 (partFrame 0) true).1 = some (partHead 0, zb 16) ∧
    (intakeIn (intakeS [part16 none] 0) 0 (partFrame 16) true).1 = some (partHead 16, zb 16) ∧
    (intakeIn (intakeS [part16 none] 0) 0 (partFrame 48) true).1 = some (partHead 48, zb 16) ∧
    linkOwner (intakeS [] 1) 0 = some 0 ∧ byteAt (partHead 0) 1 = 1 ∧ field (partHead 0) 0x14 8 = 0 ∧ field (partHead 16) 0x14 8 = 16 ∧
    field (partHead 48) 0x14 8 = 48 ∧
    (intakeS [part16 none] 0 |> fun s => (linkOf s 0).parts.find? fun q => q.round == field (partHead 16) 0x0C 4 && q.contrib == field (partHead 16) 0x10 4)
      = some (part16 none) := by
  refine ⟨shaped_of (by decide +kernel), ?_⟩
  decide +kernel
theorem test_w_IntakeRecordPartsAreJoined_mismatch :
    let s := withLink fun l => { l with mode := .fabric, state := .training }
    Shaped s ∧ running s = true ∧ (intakeIn s 0 (partFrame 0) true).1 = none := ⟨shaped_of (by decide +kernel), by decide +kernel⟩

/-! Witnesses: figures -/

/-- The orders of a range's bytes are defined. -/
def quietB (f : FigRun) (ti kind a n : Nat) : Bool :=
  (rangeKeys a n).all fun k => match k with
    | some key => !otherClash f ti kind key && !(kind == accRead && overtaken f ti key)
    | none => true

theorem quiet_of {f : FigRun} {ti kind a n : Nat} (h : quietB f ti kind a n = true) :
    ∀ key, some key ∈ rangeKeys a n → otherClash f ti kind key = false ∧ (kind = accRead → overtaken f ti key = false) := by
  intro key hk
  have := List.all_eq_true.mp h _ hk
  simp only [Bool.and_eq_true, Bool.not_eq_true', Bool.and_eq_false_iff, beq_eq_false_iff_ne, ne_eq] at this
  exact ⟨this.1, fun h => this.2.resolve_left (not_not_intro h)⟩

/-- A figure of eight tiles whose first tile has one operation before its END. -/
def figW (w : List Nat) : FigRun := { fig0 false with tiles := { ops := [w, [0]] } :: List.replicate 7 { ops := [[0]] } }
/-- It runs in slot 0. -/
def runS (w : List Nat) : State := withFig (figW w)
/-- What the statements about one operation of a figure ask of the state. -/
theorem runS_at (w : List Nat) (h : Good (runS w)) : Good (runS w) ∧ figOf (runS w) (0 : GroupIx) = some (figW w) ∧ (figW w).fault = none ∧
    (figW w).cycles = none ∧ (figW w).tiles[(0 : TileIx).val]? = some { ops := [w, [0]] } := ⟨h, rfl, rfl, rfl, rfl⟩

/-- LOAD or STORE of two rows of 4 bytes. -/
def rowsW (op a : Nat) : List Nat := [op, a, 4 * 2 ^ 32, 2, 64, 4, 0, 0]
/-- What the statements ask of the order of an operation of `f`: no request under way, no remote READ awaited. -/
abbrev Calm (s : State) (f : FigRun) (w : List Nat) : Prop := f.flying = [] ∧ awaitsRead s { ops := [w, [0]] } w = false
theorem test_w_LoadsAndStoresMoveRows : figuresRun (runS (rowsW 1 0)) = true ∧ opHeld (runS (rowsW 1 0)) [] (rowsW 1 0) = false ∧
    opCode (rowsW 1 0) = 1 ∧ opCode (rowsW 2 0) = 2 ∧ Calm (runS (rowsW 1 0)) (figW (rowsW 1 0)) (rowsW 1 0) ∧
    Calm (runS (rowsW 2 0)) (figW (rowsW 2 0)) (rowsW 2 0) ∧
    shapedB (runS (rowsW 1 0)) = true ∧ shapedB (runS (rowsW 2 0)) = true ∧ shapedB (runS (rowsW 1 (2 ^ 37))) = true ∧
    rowRanges ((resolveAddr [] (ow (rowsW 1 0) 1)).getD 0) (bits (ow (rowsW 1 0) 3) 31 0) (bits (ow (rowsW 1 0) 2) 63 32) (ow (rowsW 1 0) 4)
      = [(0, 4), (64, 4)] ∧
    (∀ x ∈ [(0, 4), (64, 4)], accessCheck (runS (rowsW 1 0)) 0 x.1 x.2 = none ∧ poisoned (runS (rowsW 1 0)) x.1 x.2 = false ∧
      quietB (figW (rowsW 1 0)) 0 accRead x.1 x.2 = true ∧ accessCheck (runS (rowsW 2 0)) 0 x.1 x.2 = none ∧
      unordered (figW (rowsW 2 0)) 0 (accWrite, x.1, x.2) = false ∧ quietB (figW (rowsW 2 0)) 0 accWrite x.1 x.2 = true) ∧
    accessCheck (runS (rowsW 1 (2 ^ 37))) 0 (2 ^ 37) 4 = some .notPermitted ∧
    poisoned { runS (rowsW 1 0) with poison := [(0, 1)] } 0 4 = true := by
  decide +kernel

/-- A Reel ADD of 64 bytes from offsets 0 and 64 to offset 128 of channel 0; `d` is the destination. -/
def reelW (d : Nat) : List Nat := [0x0A, 1, 64 * 2 ^ 32, d + 64 * 2 ^ 32, 0, 0, 0, 0]
/-- The same with every Reel unit of stack 0 retired, or with the first source word poisoned. -/
def reelS (d : Nat) (retired poison : Bool) : State :=
  { runS (reelW d) with
    units := { w0.units with reelRetired := if retired then BitVec.allOnes 256 else 0 }
    poison := if poison then [(0, 1)] else [] }
theorem test_w_ReelAndAtomicRequestsUpdateMemory_reel :
    (∀ r p, shapedB (reelS 128 r p) = true) ∧ shapedB (reelS (2 ^ 27) false false) = true ∧ figuresRun (reelS 128 false false) = true ∧
    opHeld (reelS 128 false false) [] (reelW 128) = false ∧ opCode (reelW 128) = 0x0A ∧
    Calm (reelS 128 false false) (figW (reelW 128)) (reelW 128) ∧ figOf (reelS 128 false false) (0 : GroupIx) = some (figW (reelW 128)) ∧
    (let x := reelRanges ((reelW 128).drop 1)
     (∀ a ∈ x.1 ++ [x.2], accessCheck (reelS 128 false false) 0 a.1 a.2 = none) ∧
     (∀ y ∈ reqAccesses (.reel ((reelW 128).drop 1)), unordered (figW (reelW 128)) 0 y = false) ∧
     (∀ p ∈ reelPositions ((reelW 128).drop 1), stackReels (reelS 128 false false) (p / 32) = true) ∧
     (∃ p ∈ reelPositions ((reelW 128).drop 1), stackReels (reelS 128 true false) (p / 32) = false) ∧
     (∀ a ∈ x.1, poisoned (reelS 128 false false) a.1 a.2 = false ∧ quietB (figW (reelW 128)) 0 accRead a.1 a.2 = true) ∧
     quietB (figW (reelW 128)) 0 accWrite x.2.1 x.2.2 = true ∧
     ∃ a ∈ x.1, 0 < x.2.2 / 32 ∧ poisoned (reelS 128 false true) (a.1 + 32 * 0) 32 = true) ∧
    (let x := reelRanges ((reelW (2 ^ 27)).drop 1)
     (x.1 ++ [x.2]).findSome? (fun a => accessCheck (reelS (2 ^ 27) false false) 0 a.1 a.2) = some .notPermitted) := by
  decide +kernel
/-- An ATOMIC of 128 bytes of FP32 from scratchpad offset 0 to address 0. -/
def atomW : List Nat := [8, 0, 128 * 2 ^ 32, 0, 0, 0, 0, 0]
theorem test_w_ReelAndAtomicRequestsUpdateMemory_atomic : shapedB (runS atomW) = true ∧ opCode atomW = 8 ∧
    opHeld (runS atomW) [] atomW = false ∧ Calm (runS atomW) (figW atomW) atomW ∧ sharesByte 0 64 64 64 = false ∧
    (∀ y ∈ [(0, 64), (64, 64)], accessCheck (runS atomW) 0 y.1 y.2 = none ∧
      (∀ u ∈ rangeUnits y.1 y.2, stackReels (runS atomW) (u / 32) = true) ∧ poisoned (runS atomW) y.1 y.2 = false ∧
      unordered (figW atomW) 0 (accFloat, y.1, y.2) = false ∧ quietB (figW atomW) 0 accFloat y.1 y.2 = true) ∧
    (resolveAddr [] (ow atomW 1)).getD 0 = 0 ∧
    ((chunks 64 (zb 128)).zipIdx.map fun y => (64 * y.2, y.1.length)) = [(0, 64), (64, 64)] ∧
    poisoned { runS atomW with poison := [(0, 1)] } 0 64 = true := by
  decide +kernel

/-- A figure all of whose tiles are at their END, with a store under way or none; the memory stacks are in hold or not. -/
def endS (flying : List (Nat × Req)) (hold : Bool) : State :=
  { withFig { fig0 false with tiles := List.replicate 8 { ops := [[0]] }, flying } with dram := { hold := hold } :: List.replicate 7 {} }
theorem test_w_FiguresFinish :
    let b := withFig { fig0 false with tiles := { remote := [7] } :: List.replicate 7 {} }
    let c := withFig { fig0 false with tiles := List.replicate 8 {}, fault := some .timeout }
    (∀ fl ∈ [[], [(0, Req.write 0 [1])]], ∀ h, shapedB (endS fl h) = true ∧ figuresRun (endS fl h) = true ∧
      figOf (endS fl h) (0 : GroupIx) = some { fig0 false with tiles := List.replicate 8 { ops := [[0]] }, flying := fl }) ∧
    reqHeld (endS [(0, .write 0 [1])] true) (.write 0 [1]) = true ∧
    shapedB b = true ∧ (∃ f, figOf b (0 : GroupIx) = some f ∧ f.cycles = none ∧ f.tiles.length = 8 ∧ ∃ r ∈ f.tiles, r.remote ≠ []) ∧
    shapedB c = true ∧ ∃ f, figOf c (0 : GroupIx) = some f ∧ f.cycles = none ∧ f.tiles.length = 8 ∧ f.fault ≠ none := by
  refine ⟨by decide +kernel, by decide +kernel, by decide +kernel, ⟨_, rfl, rfl, rfl, { remote := [7] }, by decide +kernel⟩, by decide +kernel,
    _, rfl, rfl, rfl, by decide +kernel⟩
theorem test_w_FigureCommandsFrame : (∃ f, figOf (runS (rowsW 2 0)) (0 : GroupIx) = some f ∧ ∀ r ∈ f.tiles, ∀ w ∈ r.ops,
    ∀ x ∈ opAccesses f.args w, x.1 ≠ accRead → ∀ i, i < x.2.2 → addrKey (x.2.1 + i) ≠ some 999) ∧ (1 : Nat) ≠ (0 : GroupIx).val ∧
    figOf w0 (0 : GroupIx) = none := ⟨⟨_, rfl, by decide +kernel⟩, by decide +kernel⟩

/-! Witnesses: admission, sets, rounds -/

/-- A SUBMIT_GRAPH entry of one figure and one stage at address 0; `f` is its flags. -/
def graphEntry (f : Nat) : Bytes := padTo 64 ([0x13, BitVec.ofNat 8 (2 + f), 9, 0] ++ zb 12 ++ leBytes 8 (1 + 2 ^ 32))
/-- A graph program header. -/
def graphHead : Bytes := padTo 64 (leBytes 4 1 ++ leBytes 4 1 ++ leBytes 8 1 ++ leBytes 8 64 ++ leBytes 8 192 ++ leBytes 8 192)
/-- Queue pair 0 enabled with that entry at its head; the program's header is in memory or is not. -/
def submitS (f : Nat) (prog : Bool) (order : List PostItem) : State :=
  let s := withQp fun p => { p with enable := true, fetched := [graphEntry f], order }
  if prog then devWrite s 0 graphHead else s
theorem test_w_SubmissionsAreAdmitted : ∀ x ∈ [(0, false, []), (0, true, []), (16, true, []), (16, true, [({ commandId := 8 } : PostItem)])],
    let s := submitS x.1 x.2.1 x.2.2
    let e := entryFields (graphEntry x.1)
    shapedB s = true ∧ running s = true ∧ fwUp s = true ∧ s.fw.drain = none ∧ tarnAdmits s 0 = true ∧ 0 < admitBudget s ∧
      nextBytes s (qpOf s 0 0) = some (graphEntry x.1) ∧ fenceDue s (qpOf s 0 0) = none ∧ e.op = 0x13 ∧ (qpOf s 0 0).order = x.2.2 ∧
      e.fence = bit x.1 4 ∧
      refusal s 0 ((qpOf s 0 0).qclass == 1) e (e.fence && !(qpOf s 0 0).order.isEmpty) = if x.2.1 then none else some .badCommand := by
  decide +kernel
/-- A held FENCE entry whose turn has come, with its header in memory or not. -/
theorem test_w_SubmissionsAreAdmitted_fence : ∀ prog,
    let s := submitS 16 prog [{ commandId := 9, fence := some (graphEntry 16) }]
    nextBytes s (qpOf s 0 0) = some (graphEntry 16) ∧ fenceDue s (qpOf s 0 0) = some (graphEntry 16) ∧
      graphCheck s 0 (entryFields (graphEntry 16)) = if prog then none else some .badCommand := by
  decide +kernel

/-- A change set of one KEY_REVOKE item that names no slot. -/
def setRaw : Bytes := padTo 96 (padTo 64 ([1, 0, 0, 1] ++ leBytes 4 96) ++ [0x10, 0, 0, 0] ++ leBytes 4 4)
/-- A CHANGE_SUBMIT ticket with the bytes of its buffer. -/
def setTk (b : Bytes) : Ticket := { tk 4 0x02 0 [0, 96] with buf := b }
theorem test_w_HostSetsAndTestsAreSubmitted_submit : ∀ b ∈ [setRaw, zb 96],
    servable (withTk (setTk b)) 4 0x02 = some (setTk b) ∧ (setTk b).stage = 0 ∧
    (plainOf (withTk (setTk b)) (setTk b) 0 (opW (setTk b) 1) (setTk b).buf).1.toOption = some b ∧
    (submitHost (withTk (setTk b)) 0 4 b 96).1 = if b = setRaw then .ok else .badCommand := by decide +kernel
/-- A change set that names a Tarn, or none, after its first phase. -/
def setDone (named : Bool) : ChangeSet :=
  { id := 6, mgmt := false, phases := [{ named := if named then 1 else 2, e := 99 }], state := .complete, applied := 1 }
theorem test_w_HostSetsAndTestsAreSubmitted_status : ∀ named : Bool,
    let k := tk 4 0x03 0 [6, 0, 128]
    let s : State := { withTk k with sets := [setDone named] }
    servable s 4 0x03 = some k ∧ setById s (opW k 0) = some (setDone named) ∧ setNames (setDone named) 0 = named ∧
    (fnOf s 0).busMaster = true ∧ isConf s 0 = false := by decide +kernel
theorem test_w_HostSetsAndTestsAreSubmitted_bist :
    let u : UnitId := ⟨1, 0⟩
    let b : Bist := { unit := u, code := 1, tarn := some 0, stage := 2 }
    let s : State := { w0 with bists := [b] }
    servable (withTk (tk 4 0x06 0 [0, 1])) 4 0x06 = some (tk 4 0x06 0 [0, 1]) ∧ running s = true ∧ b ∈ s.bists ∧ b.stage = 2 ∧
    ∀ x ∈ s.bists, x.unit = u → x = b := by decide +kernel

/-- A P-384 key pair's public key for tests: the key of the scalar 1. -/
def pub1 : Bytes := sec1 p384 (ecPub p384 1)
theorem plainOf_std {s : State} {k : Ticket} {o p : Nat} {raw : Bytes} (h : isConf s k.tarn = false) (hp : raw.length = p) :
    plainOf s k o p raw = (.ok raw, s) := by
  rw [plainOf, h, ← hp, List.take_length]; rfl
/-- A round plan of three contributors and one element, not signed. -/
def planHead : Bytes :=
  padTo 0x90 (padTo 0x60 (leBytes 2 1 ++ zb 6 ++ leBytes 4 1 ++ leBytes 4 3 ++ leBytes 4 1 ++ leBytes 4 2 ++ leBytes 8 1 ++ zb 4 ++
    leBytes 4 1 ++ leBytes 4 1 ++ zb 6 ++ leBytes 2 1 ++ leBytes 2 1 ++ leBytes 2 1 ++ leBytes 4 4) ++ sha384 (zb 96)) ++
  padTo 0x70 ((sha384 pub1).take 16) ++ leBytes 4 1
/-- The plan with its signature. -/
def planB : Bytes := planHead ++ ecdsaSign 1 2 (sha384 planHead)
def pl0 : Plan := (planOf planB).getD {}
theorem planB_some : planOf planB = some pl0 := by decide +kernel
/-- A ROUND_OPEN ticket at a stage with its plan and buffer. -/
def openTk (stage : Nat) (plain buf : Bytes) : Ticket := { tk 4 0x20 0 [0, 356, 0, 96] with stage, plain, buf, authKeys := [pub1] }
/-- Tarn 0 trusts that key. -/
def openS (k : Ticket) : State := { withTarn (fun n => { n with authKeys := [pub1] }) with tickets := [k] }
theorem planB_signed : planSigned [pub1] planB = true := by decide +kernel
theorem test_w_RoundsOpenAndClose_badPlan : Shaped (openS (openTk 0 [] (zb 356))) ∧
    servable (openS (openTk 0 [] (zb 356))) 4 0x20 = some (openTk 0 [] (zb 356)) ∧
    plainOf (openS (openTk 0 [] (zb 356))) (openTk 0 [] (zb 356)) 0 356 (zb 356) = (.ok (zb 356), openS (openTk 0 [] (zb 356))) ∧
    planOf (zb 356) = none :=
  ⟨shaped_of (by decide +kernel), by decide +kernel, plainOf_std (by decide +kernel) (by decide +kernel), by decide +kernel⟩
theorem test_w_RoundsOpenAndClose_open :
    let k := openTk 1 planB (zb 96)
    let s := openS k
    Shaped s ∧ servable s 4 0x20 = some k ∧ k.stage = 1 ∧ planOf k.plain = some pl0 ∧ plainOf s k 2 (opW k 3) k.buf = (.ok (zb 96), s) ∧
    tarnOf s k.tarn = some { authKeys := [pub1] } ∧ planSigned k.authKeys k.plain = true ∧ 0 < pl0.roundId ∧
    sha384 (zb 96) = pl0.rosterDigest ∧ opW k 3 ≠ 0 ∧ regionOk s k.tarn { authKeys := [pub1] } pl0 (zb 96).length = true ∧ headroomOk k.plain = true := by
  exact ⟨shaped_of (by decide +kernel), by decide +kernel, rfl, planB_some, plainOf_std (by decide +kernel) (by decide +kernel), rfl,
    planB_signed, by decide +kernel⟩

/-- A plan of three contributors, threshold 2. -/
def plan3 : Plan := { n := 3, offsets := [1], context := zb 32, planDigest := zb 48, rosterDigest := zb 48, combineDigest := zb 48 }
/-- Tarn 0 holds a round, in a beat in which its lanes have a BASIN slot. -/
def rdS (r : Round) (ks : List Ticket := []) : State :=
  { withTarn (fun n => { n with rounds := [r], opFloor := 64 }) with
    table := { w0.table with rows := List.replicate 16 { lane := List.replicate 16 .basin } }
    tickets := ks }
def rd (state : RState) (slots : List Slot := [{}]) : Round := { plan := plan3, state, slots, openBeat := 90, holdOn := true }
theorem rdS_at (r : Round) (h : r.plan.roundId = 1) : roundOf (rdS r) 0 1 = some r := by
  show List.find? (fun x => x.plan.roundId == 1) [r] = some r
  simp [h]
theorem test_w_RoundsOpenAndClose_opened : Shaped (rdS (rd .opening)) ∧ running (rdS (rd .opening)) = true ∧
    roundOf (rdS (rd .opening)) 0 (1 : BitVec 32).toNat = some (rd .opening) ∧ (rd .opening).slots ≠ [] ∧
    fwUp (rdS (rd .isOpen)) = true ∧ closeDue (rdS (rd .isOpen)) 0 (rd .isOpen) = true ∧
    closeDue (rdS { rd .isOpen with openBeat := 100 }) 0 { rd .isOpen with openBeat := 100 } = false :=
  ⟨shaped_of (by decide +kernel), by decide +kernel, rfl, by decide +kernel⟩
theorem test_w_RoundsOpenAndClose_tickets : ∀ x ∈ [(0x23, { rd .isOpen with isLeader := false }), (0x23, rd .isOpen), (0x23, rd .closed),
      (0x24, rd .unmasking), (0x25, rd .isOpen), (0x26, rd .isOpen), (0x26, { rd .released with cert := zb 560 })],
    servable (rdS x.2 [tk 4 x.1 0 [1, 1, 560]]) 4 x.1 = some (tk 4 x.1 0 [1, 1, 560]) ∧ (tk 4 x.1 0 [1, 1, 560]).stage = 0 ∧
    roundOf (rdS x.2 [tk 4 x.1 0 [1, 1, 560]]) 0 1 = some x.2 ∧ (fnOf (rdS x.2) 0).busMaster = true ∧ isConf (rdS x.2) 0 = false := by
  decide +kernel

/-- A record of contributor 2 with the element 5. -/
def recB : Bytes :=
  let v := padTo 64 [5, 0]
  padTo 64 (leBytes 2 1 ++ [0, 0] ++ leBytes 4 1 ++ leBytes 4 2 ++ leBytes 4 1 ++ leBytes 8 2 ++ leBytes 4 (crc32c (v.take 2))) ++ v
/-- A CONTRIB_SUBMIT ticket that has received one whole record. -/
def recTk : Ticket := { tk 4 0x21 0 [1, 0, 1, 128] with plain := recB, taken := 128, stage := 128 }
theorem test_w_RecordsAreClaimedAndFolded_base (r : Round) (ks : List Ticket)
    (h : (r, ks) ∈ [(rd .isOpen, [recTk]), (rd .isOpen [{ state := .arrived recB }], []), (rd .isOpen [{ state := .arrived (zb 128) }], []),
      (rd .isOpen [{ state := .folding 2 recB }], []), (rd .isOpen [{ state := .receiving [] 99 }], []),
      (rd .isOpen [{ state := .receiving [] 100 }], [])]) :
    Shaped (rdS r ks) ∧ running (rdS r ks) = true ∧ fwUp (rdS r ks) = true ∧ basinNow (rdS r ks) 0 = true ∧
      roundOf (rdS r ks) 0 (1 : BitVec 32).toNat = some r := by
  have : ∀ x ∈ [(rd .isOpen, [recTk]), (rd .isOpen [{ state := .arrived recB }], []), (rd .isOpen [{ state := .arrived (zb 128) }], []),
      (rd .isOpen [{ state := .folding 2 recB }], []), (rd .isOpen [{ state := .receiving [] 99 }], []),
      (rd .isOpen [{ state := .receiving [] 100 }], [])],
      shapedB (rdS x.1 x.2) = true ∧ running (rdS x.1 x.2) = true ∧ fwUp (rdS x.1 x.2) = true ∧ basinNow (rdS x.1 x.2) 0 = true ∧
      roundOf (rdS x.1 x.2) 0 (1 : BitVec 32).toNat = some x.1 := by decide +kernel
  exact ⟨shaped_of (this _ h).1, (this _ h).2⟩
theorem freeSlot_some {s : State} {t : TarnIx} {r : Round} {i : Nat} (h : imagesHeld s = false)
    (hf : findIx (fun (x : Slot) => x.state == .free) r.slots = some i) (hl : roomyLanes s t ≠ []) : ∃ j, freeSlot s t r = some (i, j) := by
  have := Nat.mod_lt (Config.laneChoice r.plan.roundId i) (List.length_pos_of_ne_nil hl)
  exact ⟨_, by simp only [freeSlot, h, hf, List.getElem?_eq_getElem this]; rfl⟩
theorem test_w_RecordsAreClaimedAndFolded_free : ∃ j, freeSlot (rdS (rd .isOpen) [recTk]) 0 (rd .isOpen) = some (0, j) :=
  freeSlot_some (by decide +kernel) (by decide +kernel) (by decide +kernel)
/-- A record of the Tarn's other round in a slot of round 1. -/
def twoS (slots : List Slot) : State :=
  modTarn (rdS (rd .isOpen [{ state := .arrived recB }])) 0 fun n => { n with
    rounds := [{ rd .isOpen [{ state := .arrived recB }] with plan := { plan3 with roundId := 2 } }, rd .isOpen slots] }
theorem test_w_RecordsAreClaimedAndFolded_clauses :
    (let s := rdS (rd .isOpen) [recTk]
     ticketOf s 4 = some recTk ∧ ticketRuns recTk = true ∧ opW recTk 0 = 1 ∧ recTk.stage = recLen plan3 ∧ 0 < opW recTk 2 ∧ isConf s 0 = false ∧
       recTk.taken = recTk.plain.length ∧ recTk.plain.length = recTk.stage ∧ recTk.buf = [] ∧ recTk.need = [] ∧ recTk.dma = none) ∧
    (∀ b ∈ [recB, zb 128], let s := rdS (rd .isOpen [{ state := .arrived b }])
      slotActive s 0 1 0 = true ∧ firstArrived s 0 1 0 = true) ∧
    recVerdict (rdS (rd .isOpen [{ state := .arrived recB }])) 0 plan3 recB = .ok ∧ field recB 4 4 = 1 ∧
    recVerdict (rdS (rd .isOpen [{ state := .arrived (zb 128) }])) 0 plan3 (zb 128) ≠ .ok ∧
    (slotActive (rdS (rd .isOpen [{ state := .folding 2 recB }])) 0 1 0 = true ∧ imagesHeld (rdS (rd .isOpen)) = false) ∧
    99 + plan3.stageTimeout ≤ w0.beat ∧ w0.beat < 100 + plan3.stageTimeout := by decide +kernel
theorem test_w_RecordsAreClaimedAndFolded_other :
    let s := twoS [{}]
    let r := { rd .isOpen [{ state := .arrived recB }] with plan := { plan3 with roundId := 2 } }
    Shaped s ∧ fwUp s = true ∧ roundOf s 0 2 = some r ∧ slotActive s 0 2 0 = true ∧ firstArrived s 0 2 0 = true ∧
      recVerdict s 0 r.plan recB = .ok ∧ field recB 4 4 ≠ 2 ∧ roundOf s 0 (field recB 4 4) = some (rd .isOpen) ∧
      freeSlot (twoS []) 0 (rd .isOpen []) = none := ⟨shaped_of (by decide +kernel), by decide +kernel⟩
/-- Tarn 0 has an INTAKE link that is up, with nothing granted. -/
def roundIntakeS : State :=
  { rdS (rd .isOpen) with links := (w0.links.modify 0 fun l => { l with mode := .intake, state := .up }) }
theorem test_w_RecordsAreClaimedAndFolded_resume : intakeLinks (rdS (rd .isOpen)) 0 = [] ∧ intakeLinks roundIntakeS 0 = [0] ∧
    partsOf roundIntakeS 0 = [] ∧ (linkOf roundIntakeS 0).granted < min 1 (4096 * (lanesOf roundIntakeS 0).length - inFlight roundIntakeS 0) ∧
    tarnOf roundIntakeS 0 = some { rounds := [rd .isOpen], opFloor := 64 } ∧ roundIntakeS.tickets = [] ∧
    sessionOver (linkOf roundIntakeS 0) = false := by decide +kernel
/-- A record that lies whole in its slot's image is folded: the element 5 is added to image 0 and to its mirror, 32 channels on (R252, R263). -/
theorem test_foldComplete_adds :
    let s := stageVector (rdS (rd .isOpen [{ state := .folding 2 recB }])) plan3 0 recB
    ∃ t, exec (.foldComplete 0 1 0) s = .next t ∧ cellGet t.mem 0 = 5 ∧ cellGet s.mem 0 = 0 :=
  ⟨_, rfl, by decide +kernel⟩

/-- A round of which contributor 0 was accepted and 1 was not; `x` is its entry's share. -/
def shareE (x : Nat) : Bytes :=
  padTo 96 (padTo 32 (leBytes 2 1 ++ [1, 0] ++ leBytes 4 1 ++ leBytes 4 0 ++ leBytes 4 1 ++ leBytes 4 x) ++ leBytes 32 7 ++ leBytes 32 8)
def rdU : Round := { rd .unmasking with accepted := [0, 1], roster := [zb 32, x25519 (leBytes 32 9) (leBytes 32 9), zb 32] }
def shareTk (x : Nat) : Ticket := { tk 4 0x22 0 [1, 0, 1, 96] with plain := shareE x }
theorem test_w_MasksAreRecovered_shares : Shaped (rdS rdU [shareTk 2]) ∧ Shaped (rdS rdU [shareTk 3]) ∧
    Shaped (rdS rdU [tk 4 0x22 0 [1]]) ∧
    (∀ x ∈ [2, 3], running (rdS rdU [shareTk x]) = true ∧ fwUp (rdS rdU [shareTk x]) = true ∧ basinNow (rdS rdU [shareTk x]) 0 = true ∧
      roundTickets (rdS rdU [shareTk x]) 0 1 0x22 = [shareTk x] ∧ sharesWait (some rdU) = false ∧ 96 ≤ (shareTk x).plain.length ∧
      isConf (rdS rdU [shareTk x]) 0 = false ∧ (fnOf (rdS rdU [shareTk x]) 0).busMaster = true ∧
      shareVerdict (some rdU) 1 ((shareTk x).plain.take 96) = if x = 2 then .ok else .invalidShare) ∧
    (let k := tk 4 0x22 0 [1]
     ticketOf (rdS rdU [k]) 4 = some k ∧ ticketRuns k = true ∧ opW k 0 = 1 ∧ opW k 2 = 0) :=
  ⟨shaped_of (by decide +kernel), shaped_of (by decide +kernel), shaped_of (by decide +kernel), by decide +kernel⟩
/-- Two shares on the line of constant term 2^128 + 1. -/
def bigSet : ShareSet := { owner := 0, kind := 1, shares := [(1, 2, 2 ^ 128 + 3, 0), (2, 3, 2 ^ 128 + 4, 0)] }
def rdJ : Round := { rdU with shareSets := [bigSet], corrections := [{ id := 5, add := true, seed := zb 32, owner := 0, other := 0 }] }
/-- Jobs waiting at the KAE cores and HKDF units of Tarn 0. -/
def jobS (j : KaeJob) : State :=
  { modTarn (rdS rdJ) 0 (fun n => { n with kae := [j] }) with rebuilds := [(0, 1, 0, 1)] }
theorem test_w_MasksAreRecovered_rebuild :
    let s := jobS ⟨3, 1, 0, 0, 0, []⟩
    Shaped s ∧ running s = true ∧ roundOf s 0 (1 : BitVec 32).toNat = some rdJ ∧ s.rebuilds = [(0, 1, 0, 1)] ∧ s.units.fieldFailed = false ∧
    2 ^ 128 ≤ lagrange0 ((shareSetOf rdJ 0 1).shares.map fun h => (h.2.1, h.2.2.1)) :=
  ⟨shaped_of (by decide +kernel), by decide +kernel⟩
theorem test_w_MasksAreRecovered_jobs :
    (∀ j ∈ ([⟨3, 1, 0, 0, 0, []⟩, ⟨3, 1, 1, 1, 0, leBytes 32 9⟩, ⟨3, 1, 2, 0, 1, leBytes 32 9⟩] : List KaeJob),
      (started (jobS j) 0 false).find? (fun i => i.id == 3) = some j) ∧
    (∀ j ∈ ([⟨3, 1, 3, 0, 0, zb 32⟩, ⟨3, 1, 4, 0, 1, zb 32⟩] : List KaeJob), (started (jobS j) 0 true).find? (fun i => i.id == 3) = some j) ∧
    validateEntry 0 (rdJ.roster.getD 0 []) ≠ .ok ∧ verifyKey 0 (leBytes 32 9) (rdJ.roster.getD 1 []) = .ok ∧
    (pairSecret 0 (leBytes 32 9) (rdJ.roster.getD 1 [])).toOption ≠ none := by decide +kernel
theorem test_w_MasksAreRecovered_wait : sharesWait (some rdU) = false ∧ sharesWait (some (rd .closed)) = true ∧
    roundTickets (rdS rdU) 0 1 0x22 = [] ∧ (rd .closed).state = .closed ∧ imagesHeld (rdS rdJ) = false := by decide +kernel
theorem test_w_MasksAreRecovered_correction : rdJ.corrections.find? (fun c => c.id == 5) ≠ none ∧ rdJ.state = .unmasking ∧
    fwUp (rdS rdJ) = true ∧ basinNow (rdS rdJ) 0 = true := by decide +kernel

/-! Witnesses: the end of rounds, combined rounds, memory, failures -/

/-- A round whose contributors 0 and 1 were accepted, in a state, with a plan. -/
def rdE (state : RState) (g : Round → Round := id) : Round := g { rd state with accepted := [0, 1] }
theorem test_w_RoundsEnd_base (r : Round) (h : r ∈ [rdE .closed, rdE .closed (fun r => { r with accepted := List.range 64, plan := { r.plan with n := 64 } }),
      rdE .unmasking (fun r => { r with releasing := true, unmaskBeat := 99 }), rdE .unmasking (fun r => { r with unmaskBeat := 100 }),
      rdE .refused (fun r => { r with scrubbing := true }), rdE .aborted (fun r => { r with scrubbing := true })]) :
    Good (rdS r) ∧ running (rdS r) = true ∧ roundOf (rdS r) 0 (1 : BitVec 32).toNat = some r := by
  have : ∀ r ∈ [rdE .closed, rdE .closed (fun r => { r with accepted := List.range 64, plan := { r.plan with n := 64 } }),
      rdE .unmasking (fun r => { r with releasing := true, unmaskBeat := 99 }), rdE .unmasking (fun r => { r with unmaskBeat := 100 }),
      rdE .refused (fun r => { r with scrubbing := true }), rdE .aborted (fun r => { r with scrubbing := true })],
      shapedB (rdS r) = true ∧ memWf (rdS r).mem = true ∧ running (rdS r) = true ∧ roundOf (rdS r) 0 (1 : BitVec 32).toNat = some r := by
    decide +kernel
  exact ⟨good_of (this _ h).1 (this _ h).2.1, (this _ h).2.2⟩
theorem test_w_RoundsEnd_clauses :
    (let r := rdE .closed; r.isLeader = true ∧ leaveReady (rdS r) r = true ∧ r.accepted.length < cohortFloor (rdS r) 0 r) ∧
    (let r := rdE .closed (fun r => { r with accepted := List.range 64, plan := { r.plan with n := 64 } })
     r.isLeader = true ∧ leaveReady (rdS r) r = true ∧ cohortFloor (rdS r) 0 r = r.accepted.length) ∧
    (let r := rdE .unmasking (fun r => { r with releasing := true, unmaskBeat := 99 })
     r.state = .unmasking ∧ r.holdOn = true ∧ unmaskExpired (rdS r) r = true) ∧
    (let r := rdE .unmasking (fun r => { r with unmaskBeat := 100 }); unmaskExpired (rdS r) r = false) ∧
    (let start := fun (i : Nat) => plan3.u0 * 2 ^ 25 + i * imageLen plan3
     start (imageCount plan3) ≤ 2 ^ 30 - 1 ∧ start 0 ≤ 0 ∧ 0 < start 1) := by decide +kernel

/-- A member's round whose leader is device 5, reached over the FABRIC link 1. -/
def leadS (route : Bool) : State × Round :=
  let lead : Bytes := List.replicate 16 3
  let r := rdE .closed fun r => { r with isLeader := false, members := [{ serial := lead, first := 0, count := 1 }, { serial := deviceSerial w0, first := 1, count := 2 }] }
  let n : Link := { mode := .fabric, state := .up, peer := some { serial := lead, deviceNo := 5 } }
  ({ rdS r with
      links := w0.links.set 1 n
      routes := if route then [{ dest := 5, link := 1, hops := 1, down := true, edge := false }] else [] }, r)
theorem test_w_RoundsEnd_member : ∀ route,
    let s := (leadS route).1
    let r := (leadS route).2
    shapedB s = true ∧ running s = true ∧ roundOf s 0 1 = some r ∧ r.isLeader = false ∧ r.state = .closed ∧ r.foldLog = [] ∧
      foldsDone r = true ∧ r.abortAsked = none ∧ r.dataSentBeat = none ∧ (myMember s r).isSome = true ∧
      (linkTo s 0 (List.replicate 16 3)).isSome = route := by decide +kernel

/-- A combined round's plan, with the digest of a descriptor. -/
def descB (s : Bytes) : Bytes :=
  padTo 16 (leBytes 2 1 ++ leBytes 2 2 ++ leBytes 4 1) ++ padTo 32 (s ++ leBytes 4 0 ++ leBytes 4 2) ++
    padTo 32 (List.replicate 16 1 ++ leBytes 4 2 ++ leBytes 4 1)
def planC : Plan := { plan3 with combined := true, combineDigest := sha384 (descB (deviceSerial w0)) }
def rdC (state : RState) (g : Round → Round := id) : Round := g { rd state with plan := planC }
def attTk (b : Bytes) : Ticket := { tk 4 0x27 0 [1, 0, 80] with buf := b }
def attS (r : Round) (b : Bytes) : State := rdS r [attTk b]
theorem test_w_CombinedRoundsAct_attach : ∀ b ∈ [zb 80, descB (deviceSerial w0)], ∀ r ∈ [rd .isOpen, rdC .isOpen],
    Shaped (attS r b) ∧ running (attS r b) = true ∧ roundOf (attS r b) 0 (1 : BitVec 32).toNat = some r ∧
    servable (attS r b) 4 0x27 = some (attTk b) ∧ opW (attTk b) 0 = 1 ∧ plainOf (attS r b) (attTk b) 1 80 b = (.ok b, attS r b) ∧
    (descriptorOf r.plan b).isSome = (b != zb 80) ∧
    ∀ ms, descriptorOf planC (descB (deviceSerial w0)) = some ms → sha384 (descB (deviceSerial w0)) = planC.combineDigest ∧
      (ms.head?.map (·.serial)) = some (deviceSerial (attS r b)) ∧ r.isLeader = true ∧ r.members = [] := by
  intro b hb r hr
  have h : ∀ b ∈ [zb 80, descB (deviceSerial w0)], ∀ r ∈ [rd .isOpen, rdC .isOpen],
      shapedB (attS r b) = true ∧ running (attS r b) = true ∧ roundOf (attS r b) 0 (1 : BitVec 32).toNat = some r ∧
      servable (attS r b) 4 0x27 = some (attTk b) ∧ opW (attTk b) 0 = 1 ∧ isConf (attS r b) (attTk b).tarn = false ∧ b.length = 80 ∧
      (descriptorOf r.plan b).isSome = (b != zb 80) ∧ r.isLeader = true ∧ r.members = [] ∧
      sha384 (descB (deviceSerial w0)) = planC.combineDigest ∧
      ((descriptorOf planC (descB (deviceSerial w0))).map fun ms => (ms.head?.map (·.serial))) = some (some (deviceSerial (attS r b))) := by
    decide +kernel
  obtain ⟨h1, h2, h3, h4, h5, h6, h7, h8, h9, h10, h11, h12⟩ := h b hb r hr
  exact ⟨shaped_of h1, h2, h3, h4, h5, plainOf_std h6 h7, h8, fun ms hm => ⟨h11, by simpa [hm] using h12, h9, h10⟩⟩
/-- Two members, of which the second is another device. -/
def mem2 : List Member := [{ serial := deviceSerial w0, first := 0, count := 2 }, { serial := List.replicate 16 1, first := 2, count := 1 }]
theorem test_w_CombinedRoundsAct_rest (r : Round) (h : r ∈ [rdC .isOpen (fun r => { r with isLeader := false, dataSentBeat := none }),
      rdC .closed (fun r => { r with isLeader := false, dataSentBeat := some 0 }),
      rdC .closed (fun r => { r with members := mem2, attached := true }),
      rdC .closed (fun r => { r with members := mem2.map fun m => { m with received := true }, attached := true })]) :
    Shaped (rdS r) ∧ running (rdS r) = true ∧ roundOf (rdS r) 0 (1 : BitVec 32).toNat = some r ∧ r.plan.combined = true := by
  have : ∀ r ∈ [rdC .isOpen (fun r => { r with isLeader := false, dataSentBeat := none }),
      rdC .closed (fun r => { r with isLeader := false, dataSentBeat := some 0 }),
      rdC .closed (fun r => { r with members := mem2, attached := true }),
      rdC .closed (fun r => { r with members := mem2.map fun m => { m with received := true }, attached := true })],
      shapedB (rdS r) = true ∧ running (rdS r) = true ∧ roundOf (rdS r) 0 (1 : BitVec 32).toNat = some r ∧ r.plan.combined = true := by
    decide +kernel
  exact ⟨shaped_of (this _ h).1, (this _ h).2⟩
/-- A message on link 1 for this device: a notice of the round of the second member, or member data. -/
def noteS (r : Round) (vc : Nat) (bytes : Bytes) : State :=
  { rdS r with links := w0.links.set 1 { mode := .fabric, state := .up, inbox := [{ vc, bytes }] } }
/-- A notice of a kind about round 1, with the plan's digests. -/
def noteB (kind : Nat) : Bytes :=
  linkMsg (rdS (rdC .isOpen)) kind 0 (leBytes 4 0 ++ leBytes 4 1 ++ List.replicate 16 1 ++ planC.planDigest ++ planC.combineDigest)
/-- Whole data of the second member: its bitmap and its image. -/
def dataMsg : Bytes :=
  msgBytes { op := 0x10, dest := 0, src := 3, hops := 0, destTarn := 0, srcTarn := 0, cls := 3, ty := 0, addr := 0, len := 3, tag := 1, status := 0 } ++ zb 3
theorem test_w_CombinedRoundsAct_clauses :
    (let r := rdC .isOpen (fun r => { r with isLeader := false, dataSentBeat := none })
     rstateLive r.state = true ∧ orphanDue (rdS r) r = false) ∧
    (let r := rdC .closed (fun r => { r with isLeader := false, dataSentBeat := some 0 })
     orphanDue { rdS r with beat := 16 * barBeats w0 } r = true ∧ orphanDue { rdS r with beat := 16 * barBeats w0 - 1 } r = false) ∧
    (let r := rdC .closed (fun r => { r with members := mem2, attached := true })
     (r.members[1]?.any fun m => m.serial != deviceSerial (rdS r) && !m.received && !m.missing && cdiv m.count 8 == 1) = true ∧
       2 = r.plan.l * elemLen r.plan ∧ r.closeBeat + 2 * barBeats (rdS r) ≤ (rdS r).beat) ∧
    (let k := { attTk [] with stage := 1 }
     let r := rdC .isOpen (fun r => { r with attachUid := some 4, attachBeat := 52 })
     ticketOf (rdS r [k]) 4 = some k ∧ ticketRuns k = true ∧ opW k 0 = 1 ∧ r.attachBeat + 3 * barBeats (rdS r) = (rdS r).beat) ∧
    (zb 48) ≠ planC.combineDigest := by decide +kernel
theorem test_w_CombinedRoundsAct_notices :
    let r := rdC .isOpen (fun r => { r with members := mem2.reverse, isLeader := false })
    (∀ k ∈ [1, 2, 3, 4], shapedB (noteS r 0 (noteB k)) = true ∧ roundOf (noteS r 0 (noteB k)) 0 1 = some r ∧
      noteWaiting (noteS r 0 (noteB k)) k 1 planC.planDigest planC.combineDigest (r.members.head?.map (·.serial)) =
        some (1, { vc := 0, bytes := noteB k })) ∧ noteWaiting (rdS r) 1 1 planC.planDigest planC.combineDigest none = none := by decide +kernel
theorem test_w_CombinedRoundsAct_data : ∀ st ∈ [RState.isOpen, .closed],
    let r := rdC st (fun r => { r with members := mem2, attached := true })
    shapedB (noteS r 3 dataMsg) = true ∧ roundOf (noteS r 3 dataMsg) 0 1 = some r ∧ dataFrom (noteS r 3 dataMsg) 1 (zb 1 ++ zb 2) = some 3 ∧
      dataFrom (rdS r) 1 (zb 1 ++ zb 2) = none ∧ r.memberData = [] := by decide +kernel
theorem test_w_BasinCommandsFrame : (Instr.close 0 1 : Instr) = .close 0 1 ∧ (1 : TarnIx) ≠ 0 := by decide

theorem test_w_PartialWritesKeepPoison : inViews 31 33 = true ∧ inViews 32 31 = true ∧ inViews 0 64 = true ∧ wordBad [(1, 2)] 1 = true ∧
    (∀ i < 32, some (32 * 1 + i) ∈ rangeKeys 31 33) ∧ ¬ (∀ i < 32, some (32 * 1 + i) ∈ rangeKeys 32 31) := by decide +kernel

/-- The running device, port a running CXL, with a stack in hold or none. -/
def holdS (hold : Bool) : State :=
  { w0 with board := { w0.board with portA := { w0.board.portA with cxl := true } }, dram := w0.dram.modify 0 fun d => { d with hold } }
theorem test_w_MemoryPlaneActs : Good (holdS true) ∧ Good (holdS false) ∧ (∀ h, running (holdS h) = true ∧ hdmAddr (holdS h) 0 0 = some 0 ∧
      hdmOk (holdS h) .a 0 0 = true ∧ touchesHold (holdS h) 0 64 = h ∧ touchesRetired (holdS h) 0 64 = false) ∧
    w0.units.chans.getD (chanIx 0 31) .lost ≠ .lost ∧ 2 ^ 30 + 2 ^ 26 < 36 * 2 ^ 25 ∧ hdmAddr (holdS false) 0 (2 ^ 33) = none ∧
    hdmOk (holdS false) .a 0 (2 ^ 36) = false ∧ hdmOk w0 .a 0 0 = false ∧ (portSt (holdS true) .a).cxl = true ∧ (portSt w0 .a).cxl = false :=
  ⟨good_of (by decide +kernel) rfl, good_of (by decide +kernel) rfl, by decide +kernel⟩
/-- Channel 0 remapped: the spare area of one of its stack's channels holds the data that its addresses name. -/
theorem test_w_MemoryPlaneActs_spare :
    let s := { w0 with units := { w0.units with chans := .remapped :: w0.units.chans.drop 1, remapped := [(0, 5, 9)] } }
    (remappedWord s 9 (2 ^ 30)).isSome = true ∧ remappedWord w0 9 (2 ^ 30) = none ∧ remappedWord s 9 (2 ^ 30 + 2 ^ 25) = none := by
  decide +kernel

/-- The running device with other units. -/
def withUnits (g : Units → Units) : State := { w0 with units := g w0.units }
theorem test_w_FailuresAreTaken : Shaped w0 ∧ running w0 = true ∧ fwUp w0 = true ∧ w0.units.tileFailed.getLsbD 127 = false ∧
    (∀ p ∈ [[], [w0.units.tileMap.getD 0 0]], let s := withFig { fig0 false with phys := p }
      shapedB s = true ∧ ∃ f, figOf s (0 : GroupIx) = some f ∧ f.cycles = none ∧ f.fault = none ∧
        f.phys.contains (s.units.tileMap.getD 0 0) = !p.isEmpty) ∧
    w0.units.chans.getD (chanIx 7 31) .lost = .working ∧ unitGone w0 (mkUnit kChan (chanIx 7 31)) = false ∧
    w0.gov.bounds.retireMode ≠ 1 ∧ w0.units.reelRetired.getLsbD (chanIx 7 31) = false ∧ w0.units.laneRetired.getLsbD 15 = false ∧
    w0.units.kaeFailed.getLsbD 63 = false ∧ w0.units.fieldFailed = false ∧ w0.units.coreFailed.getLsbD 7 = false ∧
    (∀ u ∈ [mkUnit kChan 255, mkUnit kTile 127, mkUnit kLane 15, mkUnit kKae 63], unitExists u = true ∧ unitGone w0 u = false ∧
      ∃ b, b < 1000000000 ∧ errorBound w0.gov.bounds u = some b) := by
  have plain : w0.units.chans.getD (chanIx 7 31) .lost = .working ∧ unitGone w0 (mkUnit kChan (chanIx 7 31)) = false ∧
      w0.gov.bounds.retireMode ≠ 1 ∧ w0.units.reelRetired.getLsbD (chanIx 7 31) = false ∧ w0.units.laneRetired.getLsbD 15 = false ∧
      w0.units.kaeFailed.getLsbD 63 = false ∧ w0.units.fieldFailed = false ∧ w0.units.coreFailed.getLsbD 7 = false := by decide +kernel
  obtain ⟨p1, p2, p3, p4, p5, p6, p7, p8⟩ := plain
  refine ⟨w0_shaped, by decide +kernel, by decide +kernel, by decide +kernel, fun p hp => ?_, p1, p2, p3, p4, p5, p6, p7, p8, fun u hu => ?_⟩
  · simp only [List.mem_cons, List.not_mem_nil, or_false] at hp
    rcases hp with rfl | rfl <;> exact ⟨by decide +kernel, _, rfl, by decide +kernel⟩
  simp only [List.mem_cons, List.not_mem_nil, or_false] at hu
  rcases hu with rfl | rfl | rfl | rfl <;> exact ⟨by decide +kernel, by decide +kernel, _, by decide +kernel, rfl⟩
theorem test_w_FailuresAreTaken_states :
    (let s : State := { w0 with gov := { w0.gov with bounds := { w0.gov.bounds with retireMode := 1 } } }
     Shaped s ∧ running s = true ∧ s.gov.bounds.retireMode = 1 ∧ unitNum (mkUnit kChan 0) ∉ s.units.advised) ∧
    (let s := withUnits fun u => { u with chans := .copying :: u.chans.drop 1 }
     Shaped s ∧ running s = true ∧ s.units.chans.getD (chanIx 0 0) .lost = .copying) ∧
    (let s := withUnits fun u => { u with spares := .ready :: u.spares.drop 1, spareFor := some 127 :: u.spareFor.drop 1 }
     Shaped s ∧ running s = true ∧ fwUp s = true ∧ s.units.spares.getD 0 .idle = .ready ∧ s.units.spareFor.getD 0 none = some 127) ∧
    (let s : State := { w0 with fw := { w0.fw with down := some 90, restart := false } }
     Shaped s ∧ running s = true ∧ fwUp s = false ∧ s.fw.restart = false) :=
  ⟨⟨shaped_of (by decide +kernel), by decide +kernel⟩, ⟨shaped_of (by decide +kernel), by decide +kernel⟩,
   ⟨shaped_of (by decide +kernel), by decide +kernel⟩, shaped_of (by decide +kernel), by decide +kernel⟩

/-! Witnesses: the management plane -/

/-- An unrevoked anchor with every role, whose key is `pub1`. -/
def anchor1 : Anchor := { burnt := true, digest := sha384 pub1, roles := 15, pub := pub1 }
/-- The running device with that anchor twice, a TLS session of slot 0 and an unused nonce. -/
def gs : State := { w0 with
  fuses := { w0.fuses with anchors := anchor1 :: anchor1 :: List.replicate 30 {}, fwKeys := pub1 :: List.replicate 3 (zb 97) }
  mgmt := { w0.mgmt with tls := [(0, 0, 15)], nonces := [(zb 32, 100)] } }
/-- A request over that session, signed with the key of scalar 1. -/
def gBlock0 : SignedBlock := ⟨zb 32, 0, zb 15, []⟩
def gReq0 : GmpReq := ⟨.port 0, 1, hdr true 144, [], true, none⟩
def gBlock : SignedBlock := { gBlock0 with sig := ecdsaSign 1 2 (sha384 (signedText gs gReq0 gBlock0)) }
def gReq : GmpReq := { gReq0 with signedBlock := some gBlock }
theorem gs_sig : ecdsaVerify pub1 (sha384 (signedText gs gReq gBlock)) gBlock.sig = true := by decide +kernel
/-- The shared checks let that request go on in every state with the same anchors, session, nonce, beat and device key. -/
theorem gs_ok {s : State} {role : BitVec 4} {signed onBoard reads : Bool} (ha : s.fuses.anchors = gs.fuses.anchors) (ht : s.mgmt.tls = gs.mgmt.tls)
    (hn : s.mgmt.nonces = gs.mgmt.nonces) (hb : s.beat = 100) (hd : s.fw.devicePub = gs.fw.devicePub)
    (hg : gmpServed s reads = true) : GmpOk s gReq role signed onBoard reads := by
  have a0 : anchorOf s 0 = anchor1 := by simp [anchorOf, ha, gs]
  have tx : signedText s gReq gBlock = signedText gs gReq gBlock := by simp [signedText, deviceIdDigest, hd]
  have nf : nonceFresh s (zb 32) = true := by simp [nonceFresh, hn, hb, gs]
  have ro : (15#4 &&& role) = role := by revert role; decide
  have so : signedOk s gReq role = true := by
    show (decide (gBlock.anchorSlot < 32) && (anchorOf s gBlock.anchorSlot).roles &&& role == role && nonceFresh s gBlock.nonce
      && anchorLive (anchorOf s gBlock.anchorSlot)
      && ecdsaVerify (anchorOf s gBlock.anchorSlot).pub (sha384 (signedText s gReq gBlock)) gBlock.sig) = true
    rw [show gBlock.anchorSlot = 0 from rfl, show gBlock.nonce = zb 32 from rfl, a0, nf, tx, show anchor1.pub = pub1 from rfl, gs_sig,
      show anchorLive anchor1 = true from by simp [anchorLive, anchor1], show anchor1.roles = 15#4 from rfl, ro]
    simp
  have hh : heldRoles s gReq.channel = 15#4 := by
    rw [show gReq.channel = .port 0 from rfl, heldRoles, ht]
    show (if (anchorOf s 0).revoked then (0 : BitVec 4) else 15) = 15
    rw [a0]; rfl
  refine ⟨hg, ?_, ?_⟩
  · rw [show gReq.channel = .port 0 from rfl, chanOpen, ht]; rfl
  · unfold gmpVerdict
    rw [hh, so, ro]
    simp [show headerOk gReq = true from by decide +kernel, show gReq.lengthOk = true from rfl, show gReq.signedBlock = some gBlock from rfl,
      show allZero gBlock.reserved = true from by decide +kernel, show gReq.channel = .port 0 from rfl]
theorem gs_shaped : Shaped gs := shaped_of (by decide +kernel)
theorem gs_base (role : BitVec 4) (signed onBoard reads : Bool) : GmpOk gs gReq role signed onBoard reads :=
  gs_ok rfl rfl rfl rfl rfl (by cases reads <;> decide +kernel)

/-- A change set of one SCHEDULE item: four rows of IDLE slots. -/
def schedRaw : Bytes :=
  padTo 64 ([1, 0, 0, 1] ++ leBytes 4 272) ++ padTo 16 ([2, 0, 0, 0] ++ leBytes 4 192) ++ padTo 192 (leBytes 2 1 ++ [4, 40] ++ zb 4 ++ [48])

/-- A request over that session without a signed block. -/
def plainReq (body : Bytes) : GmpReq := ⟨.port 0, 1, hdr false body.length, body, true, none⟩

theorem test_w_ManagementReadsAnswer_ok : (∀ role b, GmpOk gs gReq role false b false) ∧ GmpOk gs gReq audit false false true ∧
    GmpOk { gs with sets := [setDone true] } gReq observe false false false ∧
    GmpOk { gs with mgmt := { gs.mgmt with switches := ⟨true, true, true, true, true⟩ } } gReq security false false false :=
  ⟨fun _ _ => gs_base _ _ _ _, gs_base _ _ _ _, gs_ok rfl rfl rfl rfl rfl (by decide +kernel), gs_ok rfl rfl rfl rfl rfl (by decide +kernel)⟩
theorem test_w_ManagementReadsAnswer : gmpServed gs true = true ∧
    (gs.mgmt.tls.length < 4 ∧ anchorUnrevoked (anchorOf gs 0) = true ∧ sha384 pub1 = (anchorOf gs 0).digest) ∧
    (anchorUnrevoked (anchorOf gs 31) = false ∧ sha384 [] ≠ (anchorOf gs 0).digest) ∧
    (∃ i ∈ [17], i = 0 ∨ 16 < i) ∧ (∀ i ∈ [1, 16], 1 ≤ i ∧ i ≤ 16) ∧ setById gs 6 = none ∧
    setById { gs with sets := [setDone true] } 6 = some (setDone true) ∧ lockedRes gs (.tileGroup 2) = true ∧
    lockedRes gs (.memUnit 0 0) = false ∧ debugOn gs.mgmt.switches .readBack = false ∧
    debugOn ⟨true, true, true, true, true⟩ .readBack = true ∧ gs.board.mainPower = true ∧
    (let s : State := { gs with mgmt := { gs.mgmt with tls := List.replicate 4 (0, 0, 15) } }
     gmpServed s true = true ∧ 4 ≤ s.mgmt.tls.length) := by decide +kernel

/-- The body of a CHANGE_SUBMIT request (Table 14-2). -/
def setBody (set : Bytes) : Bytes := leBytes 1 0 ++ zb 7 ++ set
theorem test_w_ManagementSettingsAct_sets : Shaped gs ∧ (∀ b ∈ [schedRaw, zb 64], setHasMap b = false ∧
      gmpVerdict gs (plainReq (setBody b)) operate false false = .ok ∧ (plainReq (setBody b)).body = leBytes 1 (b2n false) ++ zeros 7 ++ b ∧
      ((submitMgmt (useNonce gs (plainReq (setBody b)) false) b false (some (.port 0, 1))).1 == .ok) = (b == schedRaw)) ∧
    GmpOk gs gReq operate (setHasMap schedRaw) false false ∧ gReq.body ≠ leBytes 1 0 ++ zeros 7 ++ schedRaw :=
  ⟨gs_shaped, by decide +kernel, gs_base _ _ _ _, by decide +kernel⟩
/-- The body of a NETWORK_SET request: IPv4 10.0.0.1/24 on VLAN 7 (Table 14-2a). -/
def netBody : Bytes := [1, 4, 24, 0] ++ padTo 16 [10, 0, 0, 1] ++ padTo 16 [10, 0, 0, 254] ++ leBytes 2 7 ++ zb 10
theorem test_w_ManagementSettingsAct_network : gmpVerdict gs (plainReq netBody) operate false true = .ok ∧ gmpServed gs false = true ∧
    chanOpen gs (plainReq netBody).channel = true ∧ netOf netBody = some ⟨1, 4, 24, 0, padTo 16 [10, 0, 0, 1], padTo 16 [10, 0, 0, 254], 7⟩ ∧
    netOf (netBody.set 2 33) = none ∧ netOf (netBody.set 0x26 1) = none ∧ netOf (netBody ++ [0]) = none ∧
    netKey gs.flash.net ≠ netKey (netOf netBody) := by decide +kernel
theorem test_w_ManagementSettingsAct_linkSet :
    (∀ l ∈ [[LinkSetItem.mode 3 .intake], [.mode 3 (linkOf gs 3).mode], [.grant 0 3 2], [.ungrant 0 3 2], [.allowList [zb 48]]],
      l.findSome? (linkItemBad gs) = none ∧ ((List.finRange 12).filter fun k => modeAfter gs l k == .intake).length ≤ 4) ∧
    carriesCombined gs 3 = false ∧ live gs 0 = true ∧ isConf gs 0 = false ∧
    ([LinkSetItem.grant 1 3 2].findSome? (linkItemBad gs)).isSome = true ∧
    ¬ ((List.finRange 12).filter fun k => modeAfter gs [.mode 0 .intake, .mode 1 .intake, .mode 2 .intake, .mode 3 .intake, .mode 4 .intake] k
      == .intake).length ≤ 4 := by decide +kernel
theorem test_w_ManagementSettingsAct_ok : GmpOk gs gReq operate false false false ∧ GmpOk gs gReq audit true false false ∧
    GmpOk gs gReq security true false false ∧ gReq.channel ≠ .board :=
  ⟨gs_base _ _ _ _, gs_base _ _ _ _, gs_base _ _ _ _, by decide +kernel⟩
theorem test_w_ManagementSettingsAct_rest :
    testOk ⟨1, 0⟩ 3 = false ∧ (testOk (mkUnit kTile 23) 1 = true ∧ ∃ x ∈ bistRes (mkUnit kTile 23), lockedRes gs x = true) ∧
    (testOk (mkUnit kTile 127) 1 = true ∧ (∀ x ∈ bistRes (mkUnit kTile 127), lockedRes gs x = false) ∧ bistFree gs (mkUnit kTile 127) = true) ∧
    (∀ u ∈ [mkUnit kTile 127, mkUnit kCore 7], unitExists u = true ∧ 0 < u.kind.toNat ∧ u.kind.toNat ≤ 0x0B ∧ unitGone gs u = false) ∧
    (linkOf gs 3).state = .down := by decide +kernel
/-- The bounds of Table 14-4 are taken at their ends and refused one beyond. -/
theorem test_boundsOk : Machine.boundsOk gs bounds0 = true ∧ Machine.boundsOk gs { bounds0 with powerCap := 299 } = false ∧
    Machine.boundsOk gs { bounds0 with powerCap := 951 } = false := by decide +kernel
theorem test_w_ManagementSettingsAct_bounds :
    let s : State := { gs with gov := { gs.gov with askedBounds := [(gReq.channel, gReq.requestId, bounds0)] } }
    Shaped s ∧ s.gov.askedBounds = [(gReq.channel, gReq.requestId, bounds0)] ∧ chanOpen s gReq.channel = true ∧ Machine.boundsOk s bounds0 = true :=
  ⟨shaped_of (by decide +kernel), rfl, by decide +kernel, by decide +kernel⟩
theorem test_w_ManagementSettingsAct_checkpoint :
    (rootOk gs = true ∧ gs.tally.signing = none ∧ running gs = true ∧ gs.mgmt.cpWait = [] ∧ checkpointDue gs = false) ∧
    (let s : State := { gs with rootState := 1 }; GmpOk s gReq audit false false false ∧ rootOk s = false) ∧
    (let s : State := { gs with tally := { gs.tally with signing := some 0, next := 2 } }
     GmpOk s gReq audit false false false ∧ rootOk s = true ∧ s.tally.signing ≠ none ∧ Shaped s) ∧
    (let s : State := { gs with tally := { gs.tally with sinceCp := 65536 } }
     Shaped s ∧ checkpointDue s = true ∧ checkpointDue { s with tally := { s.tally with sinceCp := 65535 } } = false) :=
  ⟨by decide +kernel, ⟨gs_ok rfl rfl rfl rfl rfl (by decide +kernel), by decide +kernel⟩,
   ⟨gs_ok rfl rfl rfl rfl rfl (by decide +kernel), by decide +kernel, by decide +kernel, shaped_of (by decide +kernel)⟩,
   shaped_of (by decide +kernel), by decide +kernel⟩

/-- A request without a signature over the board channel, to a device with no anchor. -/
theorem test_w_SecurityCommandsAct_trustFree : Shaped w0 ∧ GmpOk w0 req0 anyRole false true false ∧ trustFree w0 req0 = true ∧
    (upto 32).find? (fun k => !(anchorOf w0 k).burnt) = some 0 := ⟨w0_shaped, ⟨by decide +kernel, by decide +kernel, by decide +kernel⟩, by decide +kernel⟩
/-- A tag key sealed to the device's Alias key with the scalar 2. -/
def tagZ : Bytes := (((ecPub p384 1).bind fun q => ecdh p384 2 q).getD [])
def tagSeal : Bytes × Bytes := gcmSeal (hkdf384 [] tagZ (ascii "GZ8-TAGKEY-1") 32) (zb 12) [] (zb 32)
theorem test_w_SecurityCommandsAct_base : Shaped gs ∧ (∀ b, GmpOk gs gReq security true b false) ∧ 
    (∃ j, j < 32 ∧ j ≠ 0 ∧ anchorUnrevoked (anchorOf gs j) = true ∧ (anchorOf gs j).roles &&& security = security) ∧
    (∃ i, 1 ≤ i ∧ i ≤ 1023 ∧ (parentOf gs i).state = 0) ∧ trustFree gs gReq = false ∧
    (upto 32).find? (fun k => !(anchorOf gs k).burnt) = some 2 ∧ (anchorOf gs 0).burnt = true ∧ tarnOf gs 0 = some {} ∧ isConf gs 0 = false ∧ pub1.length = 97 ∧ tagSeal.1.length = 32 ∧ tagSeal.2.length = 16 ∧
    (sec1 p384 (ecPub p384 2)).length = 97 ∧ openTagKey gs (sec1 p384 (ecPub p384 2)) (zb 12) tagSeal.1 tagSeal.2 = some (zb 32) ∧
    (parentOf gs 1).state ≠ 2 ∧ (parentOf gs 1).gen.toNat + 1 < 0xFFFFFFFF ∧
    rootOk gs = true ∧ (∃ e ∈ gs.map.entries, e.state = 1) ∧ lifeOf gs.fuses.lc = .provisioned :=
  ⟨gs_shaped, fun _ => gs_base _ _ _ _, ⟨1, by decide +kernel⟩, ⟨1, by decide +kernel⟩, by decide +kernel⟩
/-- A parent-table entry in a state, at the device of `gs`. -/
def parS (st : BitVec 2) : State := { gs with bbram := { gs.bbram with parents := gs.bbram.parents.set 1023 { state := st } } }
/-- A root key lost; a life-cycle state; no Tarn. -/
def lostS : State := { gs with rootState := 1 }
def lcS (f : BitVec 3) : State := { gs with fuses := { gs.fuses with lc := f } }
def bareS : State :=
  { gs with map := { gs.map with entries := List.replicate 8 {} }, tarns := List.replicate 8 none, recStat := List.replicate 16 .free }
/-- Only slot 0 holds SECURITY. -/
def soleS : State :=
  { w0 with
    fuses := { w0.fuses with anchors := [anchor1] ++ List.replicate 31 {} }
    mgmt := gs.mgmt }
theorem test_w_SecurityCommandsAct_states :
    (Shaped (parS 2) ∧ GmpOk (parS 2) gReq security true false false ∧ (parentOf (parS 2) 1023).state = 2) ∧
    (Shaped (parS 1) ∧ GmpOk (parS 1) gReq security true false false ∧ (parentOf (parS 1) 1023).state = 1 ∧ rootOk (parS 1) = true) ∧
    (Shaped lostS ∧ GmpOk lostS gReq security true false false ∧ rootOk lostS = false ∧ lifeOf lostS.fuses.lc = .provisioned) ∧
    (∀ f, GmpOk (lcS f) gReq security true false false) ∧ Shaped (lcS 0) ∧ lifeOf (lcS 0).fuses.lc = .manufacture ∧
    lifeOf (lcS 3).fuses.lc = .deployed ∧ Shaped (lcS 3) ∧ lifeNext (lifeOf (lcS 3).fuses.lc) .deployed = false ∧
    (Shaped bareS ∧ GmpOk bareS gReq security true false false ∧ lifeNext (lifeOf bareS.fuses.lc) .deployed = true ∧
      lifeNext (lifeOf bareS.fuses.lc) .retired = true ∧ (∀ e ∈ bareS.map.entries, e.state ≠ 1) ∧
      (∀ x ∈ trackedResources, statOf bareS x ≠ .scrubbing) ∧ storeEmpty bareS = false) :=
  ⟨⟨shaped_of (by decide +kernel), gs_ok rfl rfl rfl rfl rfl (by decide +kernel), by decide +kernel⟩,
   ⟨shaped_of (by decide +kernel), gs_ok rfl rfl rfl rfl rfl (by decide +kernel), by decide +kernel⟩,
   ⟨shaped_of (by decide +kernel), gs_ok rfl rfl rfl rfl rfl (by decide +kernel), by decide +kernel⟩,
   fun _ => gs_ok rfl rfl rfl rfl rfl (show gmpServed gs false = true by decide +kernel),
   shaped_of (by decide +kernel), by decide +kernel, by decide +kernel, shaped_of (by decide +kernel), by decide +kernel,
   shaped_of (by decide +kernel), gs_ok rfl rfl rfl rfl rfl (by decide +kernel), by decide +kernel⟩
theorem test_w_SecurityCommandsAct_soleAnchor : Shaped soleS ∧ gmpServed soleS false = true ∧ chanOpen soleS gReq.channel = true ∧
    gmpVerdict soleS gReq security true true = .ok ∧ (anchorOf soleS 0).burnt = true ∧
    ∀ j, j < 32 → j ≠ 0 → anchorUnrevoked (anchorOf soleS j) = true → (anchorOf soleS j).roles &&& security ≠ security :=
  ⟨shaped_of (by decide +kernel), by decide +kernel⟩

/-- A kernel image of one body byte, signed with the fused key of scalar 1. -/
def imgHead : Bytes := padTo 0x70 (padTo 0x10 (leBytes 4 1 ++ zb 4 ++ leBytes 4 1) ++ sha384 [7] ++ sha384 pub1)
def img1 : Bytes := padTo 256 (imgHead ++ ecdsaSign 1 2 (sha384 imgHead)) ++ [7]
theorem test_w_FirmwareAndSensorsAct_stage : GmpOk gs gReq operate false false false ∧ byteAt img1 2 ≤ 1 ∧ imageFormOk img1 = true ∧
    byteAt (zb 256) 2 ≤ 1 ∧ imageFormOk (zb 256) = false ∧ gs.fw.staging = [] :=
  ⟨gs_base _ _ _ _, by decide +kernel⟩
/-- A staging of that image under way, asked for over that session (R640). -/
theorem test_w_FirmwareAndSensorsAct_endStages : ∀ img ∈ [img1, img1.set 256 8],
    let x : Staging := { half := 0, image := img, asker := some (gReq.channel, gReq.requestId) }
    let s : State := { gs with fw := { gs.fw with staging := [x] } }
    x.half = byteAt x.image 2 ∧ s.fw.staging = [x] ∧ chanOpen s gReq.channel = true ∧ (stageCheck s img == .ok) = (img == img1) := by
  decide +kernel
/-- Both inactive banks hold a staged image. -/
def stagedS : State :=
  { gs with fw := { gs.fw with kernelNext := { staged := true }, ctrlNext := { staged := true }, drain := some 0, pldm := 2 } }
theorem test_w_FirmwareAndSensorsAct_activate : GmpOk gs gReq operate true false false ∧ activateBad gs true false = true ∧
    GmpOk stagedS gReq operate true false false ∧ activateBad stagedS true true = false ∧ activateBad stagedS false true = false ∧
    running stagedS = true ∧ fwUp stagedS = true ∧ stagedS.fw.drain ≠ none ∧ stagedS.tickets = [] ∧ gmpServed stagedS false = true ∧
    stagedS.fw.pldm = 2 ∧ imageFormOk img1 = true ∧ byteAt img1 2 + 1 = 1 ∧ stagedS.fw.staging = [] ∧ boardItem 0x0F = true ∧ boardItem 0 = false :=
  ⟨gs_base _ _ _ _, by decide +kernel, gs_ok rfl rfl rfl rfl rfl (by decide +kernel), by decide +kernel⟩
theorem test_w_ManagementCommandsFrame :
    (gmpServed gs false = true ∧ chanOpen gs req0.channel = true ∧ gmpVerdict gs req0 security true false ≠ .ok) ∧
    chanOpen gs (GmpReq.channel { req0 with channel := .port 9 }) = false := by decide +kernel

/-! Witnesses: the clauses under which a command waits, or acts in a further way -/

/-- A state with memory stack 0 in thermal hold. -/
def held (s : State) : State := { s with dram := { hold := true } :: List.replicate 7 {} }
theorem test_w_QueuePairControlActs_active :
    let s := withQp fun p => { p with order := [{ commandId := 9 }] }
    Shaped s ∧ s.board.running = true ∧ (fnOf s 0).d3hot = false ∧ qpActive (qpOf s 0 0) = true ∧ (qpOf s 0 0).enable = false :=
  ⟨shaped_of (by decide +kernel), by decide +kernel⟩
theorem test_w_TarnRegistersAct_latch : (fnOf (withFn fun f => { f with beatLatch := some 7 }) 0).beatLatch = some 7 ∧
    (fnOf w0 0).beatLatch = none ∧ 0x3008 ≤ (0x3008 : BitVec 19).toNat ∧ (0x12 : BitVec 19).toNat % 4 ≠ 0 ∧ (3 : BitVec 64).toNat % 4 = 3 := by
  decide +kernel
theorem test_w_RegisterCommandsTouchOneFunction_still : State.reset.board.running = false ∧ (fnOf (withFn fun f => { f with d3hot := true }) 0).d3hot = true := by
  decide +kernel
theorem test_w_HostReadAnswersAct_hold : Good (held (readTk (some 64))) ∧ touchesHold (held (readTk (some 64))) 64 2 = true ∧
    touchesHold (readTk (some 64)) 64 2 = false ∧ (readTk none).timeUs + beatLen (readTk none) < 0 + ctoUs 0 ∧
    let s : State := { readTk none with timeUs := 50000 }
    Good s ∧ 0 + ctoUs (fnOf s 0).ctoEnc ≤ s.timeUs + beatLen s :=
  ⟨good_of (by decide +kernel) rfl, by decide +kernel, by decide +kernel, by decide +kernel, good_of (by decide +kernel) rfl, by decide +kernel⟩
theorem test_w_FunctionResetLeavesTheTarn_d3 :
    let s := withFn fun f => { f with d3hot := true }
    Shaped s ∧ (fnOf s 0).d3hot = true ∧ (4 : BitVec 64).toNat % 4 = 0 := ⟨shaped_of (by decide +kernel), by decide +kernel⟩
theorem test_w_SpdmRequestsAnswer_reach : doeReach w0 = true ∧ doeReach State.reset = false ∧
    doeReach { w0 with fw := { w0.fw with down := some 90, restart := false } } = false := by decide +kernel
theorem test_w_ReadCommandsAnswer_fails :
    let s := modFn (withTk (tk 4 0x04 0 [0, 8, 4096, 256])) 0 fun f => { f with busMaster := false }
    let e : State := { s with tally := { s.tally with entries := [entry1 [1]], next := 4 } }
    Serves e 4 0x04 (tk 4 0x04 0 [0, 8, 4096, 256]) ∧ issues (fnOf e 0) = false ∧
      (fitUnits (bufCapacity e (tk 4 0x04 0 [0, 8, 4096, 256]) 256) 128 ((tallyRange e.tally 0 8).map (tallyFor 0))).flatten ≠ [] := by
  decide +kernel
theorem test_w_CopyMovesBytes_held : copyHeld (held (withTk (copyTk 64 0))) (copyTk 64 0) = true ∧
    copyHeld (withTk (copyTk 64 0)) (copyTk 64 0) = false ∧ (copyTk 64 0).parked = none := by decide +kernel
theorem test_w_LoadsCheckThenAct_held : touchesHold (held (withProg 2)) 0 8 = true ∧ touchesHold (withProg 2) 0 8 = false ∧
    poisoned { withProg 2 with poison := [(0, 1)] } 0 8 = true := by decide +kernel
theorem test_w_SeamAdvancesTheBeat_join :
    let s : State := { w0 with timing := { w0.timing with join := some 7 } }
    running s = true ∧ s.timing.join = some 7 ∧ barEnd s = false ∧ barEnd { s with pos := 15 } = true := by decide +kernel
/-- Once applied, a phase 1 that is 256 bars old has its set fail, and one of 255 does not. -/
theorem test_w_HostSetsAndTimeoutsApply_ids : phaseExpired { id := 4, mgmt := true, state := .between, phase1Bars := 256 } = true ∧
    phaseExpired { id := 5, mgmt := true, state := .between, phase1Bars := 255 } = false := by decide +kernel
theorem test_w_RuleChangesDrainAndScrubsEnd_found :
    let s : State := { w0 with rules := [rule1 99], scrubs := [(.tileGroup 3, 90), (.link 4, 90), (.tarnRecords 1, 90)] }
    Good s ∧ s.rules.find? (fun x => x.id == 1) = some (rule1 99) ∧ (rule1 99).d = none ∧ (rule1 99).e < s.beat ∧
      ruleOutstanding s (rule1 99) = false ∧ s.scrubs.any (fun x => x.1 == .tileGroup 3) = true ∧
      s.scrubs.any (fun x => x.1 == .link 4) = true ∧ s.scrubs.any (fun x => x.1 == .tarnRecords 1) = true :=
  ⟨good_of (by decide +kernel) rfl, by decide +kernel⟩
/-- The follower in holdover, and in a window that a join lengthens. -/
theorem test_w_TimingCommandsAct_holdover : (∀ h, ∀ w ∈ [(20000 : Int), 20001],
      let s : State := { timed with timing := { timed.timing with holdover := h, windowPs := w } }
      shapedB s = true ∧ running s = true ∧ s.timing.mode = .link ∧ s.timing.upstream = some 2 ∧ s.timing.mismatch = false ∧
        s.timing.holdover = h ∧ s.timing.windowPs = w) ∧
    (50000 : Int).natAbs ≤ 50000 ∧ 50000 < (-50001 : Int).natAbs ∧
    (let s : State := { w0 with board := { w0.board with running := false }, timing := { w0.timing with mode := .pin } }
     s.board.running = false ∧ s.timing.mode = .pin) := by decide +kernel
theorem test_w_TimingCommandsAct_delay : (flitIn timed 2 (flitT 4)).1 = true ∧ bits (leNat ((flitT 4).take 8)) 3 0 = 4 ∧
    (flitIn timed 2 (flitT 5)).1 = true ∧ bits (leNat ((flitT 5).take 8)) 3 0 = 5 ∧
    ∃ hd rest : Bytes, hd.length = 8 ∧ flitT 5 = hd ++ rest := by
  refine ⟨flitT_ok _ _ _ _ (by decide +kernel) (by decide +kernel), ?_, flitT_ok _ _ _ _ (by decide +kernel) (by decide +kernel), ?_,
    leBytes 8 5, _, by decide, by rw [flitT, List.append_assoc]⟩ <;> rw [flitT_header] <;> decide
theorem test_w_LinkStatesMove_locks : ∀ x ∈ [(3, 0), (0, 3)],
    let a := withLink fun l => { l with mode := .intake, state := .draining, silentBars := x.1, lockBars := x.2 }
    shapedB a = true ∧ (linkOf a 0).state = .draining ∧ (3 ≤ (linkOf a 0).silentBars ∨ 3 ≤ (linkOf a 0).lockBars) := by decide +kernel
theorem test_w_HellosUpdateTheLink_intake :
    let a := withLink fun l => { l with mode := .intake, state := .training }
    Shaped a ∧ (linkOf a 0).mode = .intake ∧ (linkOf a 0).state = .training ∧ (flitIn a 0 []).1 = false :=
  ⟨shaped_of (by decide +kernel), by decide +kernel⟩
theorem test_w_FlitsAreRetried_lock : ∀ st ∈ [LinkState.up, .draining], ∀ lock,
    let a := modLink (replayS 7) 0 fun l => { l with state := st, fecLock := lock }
    shapedB a = true ∧ (linkOf a 0).replay ≠ [] ∧ (linkOf a 0).fecLock = lock ∧ (linkOf a 0).state = st ∧
      (∀ x ∈ (linkOf a 0).replay, x.2.2 < 8) ∧ linkTagged (linkOf a 0) = false ∧ sessionOver (linkOf a 0) = false := by decide +kernel
theorem test_w_LinkKeysAreAgreedAndReplaced_over : sessionOver (linkOf (edgeS .up (2 ^ 48)) 0) = true ∧
    sessionOver (linkOf (edgeS .up (2 ^ 48 - 1)) 0) = false := by decide +kernel
/-- A partial record of 64 bytes in staging slot 0 of the round, at an INTAKE link, and a round that receives it. -/
theorem test_w_IntakeRecordPartsAreJoined_slot :
    let q := part16 (some 0)
    let x : Slot := { src := some (.link 0), state := .receiving (zb 16) 99 }
    let s : State := { rdS (rd .isOpen [x]) with links := (intakeS [{ q with held := [] }] 0).links }
    Shaped s ∧ running s = true ∧ fwUp s = true ∧ basinNow s 0 = true ∧ imagesHeld s = false ∧ linkOwner s 0 = some 0 ∧
      slotActive s 0 1 0 = true ∧ roundOf s 0 1 = some (rd .isOpen [x]) ∧
      (intakeIn s 0 (partFrame 16) true).1 = some (partHead 16, zb 16) ∧ basinNow (intakeS [] 1) 0 = false :=
  ⟨shaped_of (by decide +kernel), by decide +kernel⟩

/-! Witnesses: posting, ports and supplies, resets, the invariants -/

theorem test_w_CompletionsPostedInRingOrder :
    (let s := withQp fun p => { p with order := [{ commandId := 9, comp := some { status := .ok } }] }
     Shaped s ∧ (qpOf s 0 0).order = [{ commandId := 9, comp := some { status := .ok } }] ∧ (qpOf s 0 0).withhold = false ∧ issues (fnOf s 0) = true) ∧
    issues { fnOn with d3hot := true } = false ∧
    (let s := withQp fun p => { p with order := [{ commandId := 9, comp := some { status := .ok } }], withhold := true, error := true, cause := 1 }
     Shaped s ∧ (qpOf s 0 0).withhold = true) ∧ (63 : QpIx) ≠ 0 :=
  ⟨⟨shaped_of (by decide +kernel), by decide +kernel⟩, by decide +kernel, ⟨shaped_of (by decide +kernel), by decide +kernel⟩, by decide⟩

/-- The running device with other board state. -/
def withBoard (g : Board → Board) : State := { w0 with board := g w0.board }
theorem test_w_PortsClocksAndSuppliesAct : Shaped w0 ∧
    (w0.board.mainPower = true ∧ w0.board.running = true ∧ portUsed w0 .a = true ∧ portOf w0 0 = .a ∧ w0.board.sysRst = false ∧
      running w0 = true ∧ w0.board.batteryAbsent = false ∧ funcThere w0 (.tarn 7) = true ∧ funcThere w0 (.zero .b) = portUsed w0 .b) ∧
    (let s := withBoard fun b => { b with portA := { b.portA with perst := false } }
     Shaped s ∧ (portSt s .a).perst = false ∧ portUsed s .a = true ∧ s.board.sysRst = false) ∧
    (let s := withBoard fun b => { b with portA := { b.portA with perst := true }, portB := { b.portB with perst := true }, bothLow := true }
     Shaped s ∧ s.board.mainPower = true ∧ (portSt s .a).perst = true ∧ (portSt s .b).perst = true ∧ s.board.bothLow = true) ∧
    (let s := withBoard fun b => { b with running := false, batteryAbsent := true }
     Shaped s ∧ s.board.mainPower = true ∧ s.board.sysRst = false ∧ s.board.running = false ∧ s.board.batteryAbsent = true) :=
  ⟨w0_shaped, by decide +kernel, ⟨shaped_of (by decide +kernel), by decide +kernel⟩, ⟨shaped_of (by decide +kernel), by decide +kernel⟩,
   shaped_of (by decide +kernel), by decide +kernel⟩
theorem test_w_PortsClocksAndSuppliesAct_tamper : ∀ c ∈ [TamperCause.switch 0, .switch 3],
    tamperArmed w0 c = false ∧ tamperArmed { w0 with fuses := { w0.fuses with tamperArm := 15 } } c = true := by decide +kernel

theorem test_w_ResetsAndStart : Shaped State.reset ∧
    (let s := withBoard fun b => { b with mainPower := false, vbatMv := 2199 }; s.board.mainPower = false) ∧
    (let s := withBoard fun b => { b with sysRst := true, tamperLevel := [.switch 0] }
     s.board.mainPower = true ∧ s.board.sysRst = true ∧ s.board.tamperLevel ≠ []) ∧
    (let s := withBoard fun b => { b with sysRst := true }; s.board.tamperLevel = []) ∧
    (w0.board.mainPower = true ∧ w0.board.sysRst = false) ∧
    (let s := State.reset
     s.board.mainPower = true ∧ s.board.brownOut = false ∧ s.board.running = false ∧ s.fatal = false ∧ s.board.clocks = true ∧
     rootPresent s.bbram = false) := ⟨shaped_of (by decide +kernel), by decide +kernel⟩
/-- BBRAM with a root key and its check value. -/
def rootB : Bbram :=
  let root := List.replicate 32 1
  { root, check := (sha384 (ascii "GZ8-ROOT-CHECK-1" ++ root)).take 16, lcMirror := 1 }
theorem test_w_ResetsAndStart_root :
    let s : State := { State.reset with bbram := rootB, board := { State.reset.board with sysRst := false } }
    Shaped s ∧ s.board.sysRst = false ∧ rootPresent s.bbram = true ∧ lifeCode (lifeOf s.fuses.lc) ≤ s.bbram.lcMirror.toNat ∧ 0 < workingCores s :=
  ⟨shaped_of (by decide +kernel), by decide +kernel⟩

/-- The running device with one command waiting, which notes a fault. -/
def waiting : State := { w0 with pending := [.fieldUnitFault] }
theorem test_w_step_invariants : Good waiting ∧ (∃ s', step waiting = .next s') ∧
    ∀ c rest, waiting.pending = c :: rest → c ≠ .sysReset ∧ c ≠ .brownOut ∧ c ≠ .mainPowerRemoved := by
  refine ⟨good_of (by decide +kernel) rfl, ⟨_, rfl⟩, fun c rest h => ?_⟩
  obtain ⟨rfl, -⟩ : c = .fieldUnitFault ∧ rest = [] := by
    simpa [waiting, eq_comm] using h
  decide
theorem test_w_GoodKeptByEveryStep : Good waiting ∧ ∃ s', step waiting = .next s' := ⟨test_w_step_invariants.1, test_w_step_invariants.2.1⟩
theorem test_w_OnlyResetsGoBack : (∃ s', step waiting = .next s') ∧
    ∀ c rest, waiting.pending = c :: rest → c ≠ .sysReset ∧ c ≠ .brownOut ∧ c ≠ .mainPowerRemoved := test_w_step_invariants.2
theorem test_w_NoFuseIsEverCleared : (∃ s', step waiting = .next s') ∧ w0.fuses.lc.getLsbD 0 = true := ⟨⟨_, rfl⟩, by decide⟩
theorem test_w_StepRunsFrontCommand : w0.pending = [] := rfl
theorem test_w_SpdmCommandsFrame : ∃ c : Instr, c = .getVersion (.zero .a) := ⟨_, rfl⟩
theorem test_w_ReadAndKeyCommandsFrame : (∃ c : Instr, c = .keyLoad 0) ∧ ∃ c : Instr, c = .nop 0 := ⟨⟨_, rfl⟩, _, rfl⟩
theorem test_w_TimingCommandsFrame : ∃ c : Instr, c = .leaderLoss := ⟨_, rfl⟩
/-- An empty queue leaves the state as it is (log 1). -/
theorem test_step_idle : step w0 = .next w0 := rfl

end Sys2Proof.Tests
end

section
/-! Of a Tarn function's registers, what each write and read does (R64, R65, R78, R96, R389, R391), and the statement about them. -/

namespace Sys2Proof.Machine

/-! Interrupts that pend and go out (R96) -/

/-- A message of the vector may go: the function issues requests and the vector is not masked (R96, R391). -/
def vectorOpen (f : FnRegs) (v : Nat) : Bool := issues f && !(f.msix.getD v {}).mask

/-- The vector is pending, and its message may go. -/
def vectorDue (f : FnRegs) (v : Nat) : Bool := f.msixPending.getLsbD v && issues f && !(f.msix.getD v {}).mask

theorem vectorDue_eq (f : FnRegs) (v : Nat) : vectorDue f v = (f.msixPending.getLsbD v && vectorOpen f v) := Bool.and_assoc ..

/-- The message of a vector. -/
def vectorMessage (t : TarnIx) (f : FnRegs) (v : Nat) : Output :=
  .msix t ((f.msix.getD v {}).addrHi.toNat * 2 ^ 32 + (f.msix.getD v {}).addrLo.toNat) (f.msix.getD v {}).data

/-- The registers with one pending bit cleared. -/
def clearPending (v : Nat) (f : FnRegs) : FnRegs := { f with msixPending := f.msixPending &&& ~~~ BitVec.ofNat 64 (2 ^ v) }

theorem getLsbD_clearPending (v u : Nat) (f : FnRegs) :
    (clearPending v f).msixPending.getLsbD u = (f.msixPending.getLsbD u && decide (u ≠ v)) := by
  by_cases hu : u < 64
  · have hbit : (BitVec.ofNat 64 (2 ^ v)).getLsbD u = decide (v = u) := by
      rw [BitVec.getLsbD_ofNat, Nat.testBit_two_pow, decide_eq_true hu, Bool.true_and]
    rw [clearPending, BitVec.getLsbD_and, BitVec.getLsbD_not, hbit]
    simp [hu, eq_comm]
  · simp [clearPending, BitVec.getLsbD_of_ge _ _ (Nat.le_of_not_lt hu)]

@[simp] theorem fnOf_emit (s : State) (o : Output) (u : TarnIx) : fnOf (emit s o) u = fnOf s u := rfl

/-- A vector that may go is sent. -/
theorem sendVector_of_open {s : State} {t : TarnIx} {v : Nat} (h : vectorOpen (fnOf s t) v = true) :
    sendVector s t v = emit s (vectorMessage t (fnOf s t) v) := if_pos h

/-- One vector's turn in flushing: sent and cleared when it is pending and may go. -/
def flushVector (t : TarnIx) (s : State) (v : Nat) : State :=
  if vectorDue (fnOf s t) v then sendVector (modFn s t (clearPending v)) t v else s

theorem flushPending_eq_foldl (s : State) (t : TarnIx) : flushPending s t = (List.range 64).foldl (flushVector t) s := rfl

/-- Where `s'` comes from `s` by flushing the vectors below `n` of one function: of these, each that is pending and may go has been sent, in
order, and its pending bit cleared; nothing else has changed. -/
structure FlushedBelow (n : Nat) (t : TarnIx) (s s' : State) : Prop where
  rest : s' = { s with fns := s'.fns, outbox := s'.outbox }
  tables : s'.fns.length = s.fns.length
  others : ∀ u, u ≠ t → fnOf s' u = fnOf s u
  regs : fnOf s' t = { fnOf s t with msixPending := (fnOf s' t).msixPending }
  pending : ∀ v, (fnOf s' t).msixPending.getLsbD v =
    ((fnOf s t).msixPending.getLsbD v && !(decide (v < n) && vectorOpen (fnOf s t) v))
  sent : s'.outbox = s.outbox ++ ((List.range n).filter (vectorDue (fnOf s t))).map (vectorMessage t (fnOf s t))

theorem FlushedBelow.zero (t : TarnIx) (s : State) : FlushedBelow 0 t s s where
  rest := rfl
  tables := rfl
  others _ _ := rfl
  regs := rfl
  pending := by simp
  sent := by simp

/-- Which vectors may go, and their messages, do not depend on the pending bits. -/
theorem FlushedBelow.open_eq {n : Nat} {t : TarnIx} {s s' : State} (h : FlushedBelow n t s s') (v : Nat) :
    vectorOpen (fnOf s' t) v = vectorOpen (fnOf s t) v := by rw [h.regs]; rfl
theorem FlushedBelow.message_eq {n : Nat} {t : TarnIx} {s s' : State} (h : FlushedBelow n t s s') :
    vectorMessage t (fnOf s' t) = vectorMessage t (fnOf s t) := by rw [h.regs]; rfl

/-- The turn of the next vector. -/
theorem FlushedBelow.succ {n : Nat} {t : TarnIx} {s s' : State} (hs : s.fns.length = 8) (h : FlushedBelow n t s s') :
    FlushedBelow (n + 1) t s (flushVector t s' n) := by
  have hdue : vectorDue (fnOf s' t) n = vectorDue (fnOf s t) n := by simp [vectorDue_eq, h.open_eq, h.pending]
  rw [flushVector, hdue]
  cases hgo : vectorDue (fnOf s t) n
  case false =>
    refine { h with pending := fun v => ?_, sent := by simp [h.sent, List.range_succ, hgo] }
    rw [if_neg Bool.false_ne_true, h.pending]
    rcases eq_or_ne v n with rfl | hne
    · simpa [vectorDue_eq] using hgo
    · simp only [(by omega : v < n + 1 ↔ v < n)]
  case true =>
    obtain ⟨-, hopen⟩ := Bool.and_eq_true_iff.mp ((vectorDue_eq _ _).symm.trans hgo)
    have hfn : ∀ u, fnOf (modFn s' t (clearPending n)) u = if t = u then clearPending n (fnOf s' u) else fnOf s' u :=
      fun u => fnOf_modFn s' t u _ (h.tables.trans hs)
    have hfnt : fnOf (modFn s' t (clearPending n)) t = clearPending n (fnOf s' t) := by simp [hfn]
    have hopen' : vectorOpen (fnOf (modFn s' t (clearPending n)) t) n = true := by
      rw [hfnt]; exact (h.open_eq n).trans hopen
    have hmsg : vectorMessage t (clearPending n (fnOf s' t)) = vectorMessage t (fnOf s t) := h.message_eq
    rw [if_pos rfl, sendVector_of_open hopen', hfnt, hmsg]
    exact
      { rest := by
          conv_lhs => rw [h.rest]
          rfl
        tables := by simpa [emit] using h.tables
        others := fun u hu => ((hfn u).trans (if_neg hu.symm)).trans (h.others u hu)
        regs := by
          rw [fnOf_emit, hfnt]
          conv_lhs => rw [h.regs]
          rfl
        pending := fun v => by
          rw [fnOf_emit, hfnt, getLsbD_clearPending, h.pending]
          rcases eq_or_ne v n with rfl | hne
          · simp [hopen]
          · simp [hne, (by omega : v < n + 1 ↔ v < n), -Order.lt_add_one_iff]
        sent := by simp [emit, h.sent, List.range_succ, hgo] }

/-- Flushing a function sends every pending message that may go, clears its pending bit, and changes nothing else (R96). -/
theorem flushPending_flushed (s : State) (t : TarnIx) (hs : s.fns.length = 8) : FlushedBelow 64 t s (flushPending s t) := by
  rw [flushPending_eq_foldl]
  have hall : ∀ n, FlushedBelow n t s ((List.range n).foldl (flushVector t) s) := by
    intro n
    induction n with
    | zero => exact .zero t s
    | succ n ih =>
      rw [List.range_succ, List.foldl_append]
      exact ih.succ hs
  exact hall 64

/-- After flushing, no vector that may go is pending. -/
theorem flushPending_open_clear {s : State} {t : TarnIx} (hs : s.fns.length = 8) (v : Fin 64) (h : vectorOpen (fnOf s t) v = true) :
    (fnOf (flushPending s t) t).msixPending.getLsbD v = false := by
  rw [(flushPending_flushed s t hs).pending, h]
  simp

/-- Flushing changes no register of the function but its pending bits. -/
theorem fnOf_flushPending {s : State} {t : TarnIx} (hs : s.fns.length = 8) :
    fnOf (flushPending s t) t = { fnOf s t with msixPending := (fnOf (flushPending s t) t).msixPending } :=
  (flushPending_flushed s t hs).regs

/-! Ring reads -/

/-- A ring read changes no register of a function but its queue pairs. -/
theorem fnOf_ringPump (s : State) (t u : TarnIx) (q : QpIx) (hs : s.fns.length = 8) :
    fnOf (ringPump s t q) u = { fnOf s u with qps := (fnOf (ringPump s t q) u).qps } := by
  simp only [ringPump]
  split
  · exact fnOf_modQp s t u q _ hs
  · rfl

theorem length_ringPump (s : State) (t : TarnIx) (q : QpIx) : (ringPump s t q).fns.length = s.fns.length := by
  simp only [ringPump]
  split
  · exact length_modFn s t _
  · rfl

/-- Nor do ring reads of several queue pairs. -/
theorem fnOf_foldl_ringPump (l : List QpIx) (s : State) (t u : TarnIx) (hs : s.fns.length = 8) :
    fnOf (l.foldl (fun s q => ringPump s t q) s) u =
      { fnOf s u with qps := (fnOf (l.foldl (fun s q => ringPump s t q) s) u).qps } := by
  induction l generalizing s with
  | nil => rfl
  | cons q l ih =>
    rw [List.foldl_cons, ih _ ((length_ringPump s t q).trans hs), fnOf_ringPump s t u q hs]

/-! Values written -/

/-- The low bits of a register's value written with a width that holds them. -/
theorem ofNat_toNat_mod (w : BitVec 64) (n k : Nat) (h : n ≤ k) : BitVec.ofNat n (w.toNat % 2 ^ k) = w.setWidth n := by
  apply BitVec.eq_of_toNat_eq
  simp [Nat.mod_mod_of_dvd _ (Nat.pow_dvd_pow 2 h)]

/-! Masks -/

/-- The registers with the mask of one vector written. -/
def withVectorMask (v : Nat) (m : Bool) (f : FnRegs) : FnRegs := { f with msix := f.msix.modify v fun e => { e with mask := m } }

theorem withVectorMask_mask (f : FnRegs) (x : Fin 64) (m : Bool) (hf : f.msix.length = 64) :
    ((withVectorMask x m f).msix.getD x {}).mask = m := by
  rw [withVectorMask, getD_modify, if_pos ⟨rfl, by omega⟩]

/-! What the register commands answer while the function's registers answer -/

theorem hostReach_of {s : State} {t : TarnIx} (hrun : s.board.running = true) (hd0 : (fnOf s t).d3hot = false) :
    hostReach s t = true := by simp [hostReach, hrun, hd0]

theorem exec_advEnable {s : State} {t : TarnIx} (h : hostReach s t = true) (v : BitVec 32) :
    exec (.advEnable t v) s = .next (writeAdvCtrl s t (v ||| 1).toNat) := congrArg _ (if_pos h)

theorem exec_advDisable {s : State} {t : TarnIx} (h : hostReach s t = true) (v : BitVec 32) :
    exec (.advDisable t v) s = .next (writeAdvCtrl s t (v &&& ~~~ 1#32).toNat) := congrArg _ (if_pos h)

theorem exec_advHeadWrite {s : State} {t : TarnIx} (h : hostReach s t = true) (v : BitVec 32) :
    exec (.advHeadWrite t v) s = .next (writeAdvHead s t (v.setWidth 16)) := congrArg _ (if_pos h)

theorem exec_beatRead {s : State} {t : TarnIx} (h : hostReach s t = true) (o : BitVec 19) (n : Nat) :
    exec (.beatRead ⟨t, o, n⟩) s =
      .next (emit (readEffect s t o.toNat n) (.readData t (readBar0 s t o.toNat n))) := congrArg _ (if_pos h)

theorem exec_registerWrite_bar0 {s : State} {t : TarnIx} (h : hostReach s t = true) (o : BitVec 19) (n : Nat) (w : BitVec 64) :
    exec (.registerWrite (.tarn t) (.bar0 o) n w) s = .next (writeBar0 s t o.toNat n (w.toNat % 2 ^ (8 * n))) :=
  congrArg _ (if_pos h)

theorem exec_registerWrite_config {s : State} (hrun : s.board.running = true) (t : TarnIx) (r : ConfigReg) (n : Nat) (w : BitVec 64) :
    exec (.registerWrite (.tarn t) (.config r) n w) s = .next (writeConfig s (.tarn t) r (w.toNat % 2 ^ (8 * n))) :=
  congrArg _ (if_pos (by simp [hrun, funcThere]))

theorem exec_msixUnmask {s : State} {t : TarnIx} (h : hostReach s t = true) (x : Fin 64) :
    exec (.msixUnmask t x) s = .next (flushPending (modFn s t (withVectorMask x false)) t) := congrArg _ (if_pos h)

/-- The registers with Bus Master Enable written. -/
def withBusMaster (on : Bool) (f : FnRegs) : FnRegs := { f with busMaster := on }

theorem exec_busMasterEnable_off {s : State} (hrun : s.board.running = true) (t : TarnIx) :
    exec (.busMasterEnable t false) s = .next (modFn s t (withBusMaster false)) := congrArg _ (if_pos hrun)

theorem exec_busMasterEnable_on {s : State} (hrun : s.board.running = true) (t : TarnIx) :
    exec (.busMasterEnable t true) s = .next ((List.finRange 64).foldl (fun s q => ringPump s t q)
      (flushPending (modFn s t (withBusMaster true)) t)) := by
  change execBusMasterEnable t true s = _
  rw [execBusMasterEnable, if_pos hrun, if_pos rfl]
  rfl

/-- Changing a function's registers, as that function reads them. -/
theorem fnOf_modFn_same {s : State} {t : TarnIx} (hs : s.fns.length = 8) (g : FnRegs → FnRegs) : fnOf (modFn s t g) t = g (fnOf s t) := by
  rw [fnOf_modFn s t t g hs, if_pos rfl]

section
variable {s : State} {t : TarnIx}

/-! Reads of BEAT (R65) -/

theorem beatRead_low (hs : s.fns.length = 8) (hreach : hostReach s t = true) :
    ∃ s', exec (.beatRead ⟨t, 0x10, 4⟩) s = .next s' ∧ s'.outbox = s.outbox ++ [.readData t (s.beat % 2 ^ 32)] ∧
      (fnOf s' t).beatLatch = some (BitVec.ofNat 32 (s.beat / 2 ^ 32)) :=
  ⟨_, exec_beatRead hreach _ _, rfl,
    congrArg FnRegs.beatLatch (fnOf_modFn_same hs fun f => { f with beatLatch := some (BitVec.ofNat 32 (s.beat / 2 ^ 32)) })⟩

/-- A 32-bit read of the upper half of BEAT has no effect beside its answer. -/
theorem beatRead_high (hreach : hostReach s t = true) :
    exec (.beatRead ⟨t, 0x14, 4⟩) s = .next (emit s (.readData t (beatUpper s (fnOf s t) % 2 ^ 32))) := exec_beatRead hreach _ _

theorem beatRead_high_latched (hreach : hostReach s t = true) (l : BitVec 32) (hl : (fnOf s t).beatLatch = some l) :
    exec (.beatRead ⟨t, 0x14, 4⟩) s = .next (emit s (.readData t l.toNat)) := by
  rw [beatRead_high hreach, beatUpper, hl]
  simp only [Nat.mod_eq_of_lt l.isLt]

theorem beatRead_high_live (hreach : hostReach s t = true) (hl : (fnOf s t).beatLatch = none) :
    exec (.beatRead ⟨t, 0x14, 4⟩) s = .next (emit s (.readData t (s.beat / 2 ^ 32 % 2 ^ 32))) := by
  rw [beatRead_high hreach, beatUpper, hl]

theorem beatRead_whole (hreach : hostReach s t = true) :
    exec (.beatRead ⟨t, 0x10, 8⟩) s = .next (emit s (.readData t (s.beat % 2 ^ 64))) := exec_beatRead hreach _ _

/-! Accesses that name no register (R9, R64) -/

/-- Past the pending-bit array nothing is read. -/
theorem bar0Word_beyond (s : State) (t : TarnIx) (o : Nat) (ho : 0x3008 ≤ o) : bar0Word s t o = 0 := by
  rw [bar0Word, if_neg (by omega), if_neg (by omega), if_neg (by omega), if_neg (by simp; omega), if_neg (by simp; omega)]

theorem readBar0_unlisted (s : State) (t : TarnIx) (o n : Nat) (h : 0x3008 ≤ o ∨ (n ≠ 4 ∧ n ≠ 8) ∨ o % n ≠ 0) :
    readBar0 s t o n = 0 := by
  unfold readBar0
  split
  case isTrue => rfl
  case isFalse hfits =>
    have ho : 0x3008 ≤ o := by
      rcases h with h | h | h
      · exact h
      · exact absurd (by simp [h]) hfits
      · exact absurd (by simp [h]) hfits
    have hbeat : (o == 0x10) = false := beq_false_of_ne (by omega)
    simp [bar0Word_beyond s t o ho, bar0Word_beyond s t (o + 4) (by omega), hbeat]

/-- Only a 32-bit read of the lower half of BEAT does more than answer. -/
theorem readEffect_unlisted (s : State) (t : TarnIx) (o n : Nat) (h : 0x3008 ≤ o ∨ (n ≠ 4 ∧ n ≠ 8) ∨ o % n ≠ 0) :
    readEffect s t o n = s := by
  refine if_neg fun hlow => ?_
  obtain ⟨rfl, rfl⟩ : o = 0x10 ∧ n = 4 := by simpa using hlow
  omega

theorem beatRead_unlisted (hreach : hostReach s t = true) (o : BitVec 19) (n : Nat)
    (h : 0x3008 ≤ o.toNat ∨ (n ≠ 4 ∧ n ≠ 8) ∨ o.toNat % n ≠ 0) :
    exec (.beatRead ⟨t, o, n⟩) s = .next (emit s (.readData t 0)) := by
  rw [exec_beatRead hreach, readBar0_unlisted s t _ _ h, readEffect_unlisted s t _ _ h]

/-- Between the MSI-X table and the doorbells a write of BAR0 changes nothing. -/
theorem writeBar0_gap (s : State) (t : TarnIx) (o n v : Nat) (hlo : 0x2400 ≤ o) (hhi : o < 0x40000) : writeBar0 s t o n v = s := by
  unfold writeBar0
  split
  · rfl
  · rw [if_neg (by omega), if_neg (by omega), if_neg (by omega), if_neg (by simp; omega)]

theorem registerWrite_gap (hreach : hostReach s t = true) (w : BitVec 64) (o : BitVec 19) (n : Nat) (hlo : 0x2400 ≤ o.toNat)
    (hhi : o.toNat < 0x40000) : exec (.registerWrite (.tarn t) (.bar0 o) n w) s = .next s := by
  rw [exec_registerWrite_bar0 hreach, writeBar0_gap s t _ _ _ hlo hhi]

end

/-! Writes of the advisory summary and mask -/

theorem writeBar0_advMask (s : State) (t : TarnIx) (v : Nat) :
    writeBar0 s t (0x1C : BitVec 19).toNat 4 v = modFn s t fun f => { f with advMask := BitVec.ofNat 6 v } := rfl

theorem writeBar0_advSummary (s : State) (t : TarnIx) (v : Nat) :
    writeBar0 s t (0x18 : BitVec 19).toNat 4 v =
      modFn s t fun f => { f with advSummary := f.advSummary &&& ~~~ BitVec.ofNat 6 v } := rfl

/-! The advisory ring's control (R78) -/

theorem advCtrl_enable (f : FnRegs) (v : Nat) : (advCtrl f v).advEnable = bit v 0 := by
  simp only [advCtrl]; split <;> rfl

/-- ADV_CTRL resets the ring when ENABLE goes from 0 to 1. -/
theorem advCtrl_starts {f : FnRegs} {v : Nat} (hv : bit v 0 = true) (hf : f.advEnable = false) :
    (advCtrl f v).advTail = 0 ∧ (advCtrl f v).advHead = 0 ∧ (advCtrl f v).advLost = 0 := by
  simp [advCtrl, hv, hf]

/-- Any other write of ADV_CTRL keeps the ring's indices. -/
theorem advCtrl_keeps {f : FnRegs} {v : Nat} (h : bit v 0 = false ∨ f.advEnable = true) :
    (advCtrl f v).advTail = f.advTail ∧ (advCtrl f v).advHead = f.advHead := by
  rcases h with h | h <;> simp [advCtrl, h]

theorem bit_zero_or_one (v : BitVec 32) : bit (v ||| 1).toNat 0 = true := by simp [bit]

theorem bit_zero_and_not_one (v : BitVec 32) : bit (v &&& ~~~ 1#32).toNat 0 = false := by
  change (v &&& ~~~ 1#32).getLsbD 0 = false
  simp

section
variable {s : State} {t : TarnIx} (hs : s.fns.length = 8)
include hs

theorem advEnable_acts (hreach : hostReach s t = true) (v : BitVec 32) :
    ∃ s', exec (.advEnable t v) s = .next s' ∧ (fnOf s' t).advEnable = true ∧
      ((fnOf s t).advEnable = false → (fnOf s' t).advTail = 0 ∧ (fnOf s' t).advHead = 0 ∧ (fnOf s' t).advLost = 0) ∧
      ((fnOf s t).advEnable = true → (fnOf s' t).advTail = (fnOf s t).advTail ∧ (fnOf s' t).advHead = (fnOf s t).advHead) := by
  refine ⟨_, exec_advEnable hreach v, ?_⟩
  rw [writeAdvCtrl, fnOf_modFn_same hs]
  have hbit := bit_zero_or_one v
  exact ⟨(advCtrl_enable _ _).trans hbit, advCtrl_starts hbit, fun h => advCtrl_keeps (.inr h)⟩

theorem advDisable_acts (hreach : hostReach s t = true) (v : BitVec 32) :
    ∃ s', exec (.advDisable t v) s = .next s' ∧ (fnOf s' t).advEnable = false ∧ (fnOf s' t).advTail = (fnOf s t).advTail := by
  refine ⟨_, exec_advDisable hreach v, ?_⟩
  rw [writeAdvCtrl, fnOf_modFn_same hs]
  have hbit := bit_zero_and_not_one v
  exact ⟨(advCtrl_enable _ _).trans hbit, (advCtrl_keeps (.inl hbit)).1⟩

theorem advHeadWrite_taken (hreach : hostReach s t = true) (v : BitVec 32)
    (h : ringDist (v.setWidth 16) (fnOf s t).advTail ≤ 256) :
    ∃ s', exec (.advHeadWrite t v) s = .next s' ∧ (fnOf s' t).advHead = v.setWidth 16 :=
  ⟨_, exec_advHeadWrite hreach v, by rw [writeAdvHead, fnOf_modFn_same hs, if_pos h]⟩

theorem advHeadWrite_ignored (hreach : hostReach s t = true) (v : BitVec 32)
    (h : 256 < ringDist (v.setWidth 16) (fnOf s t).advTail) :
    ∃ s', exec (.advHeadWrite t v) s = .next s' ∧ (fnOf s' t).advHead = (fnOf s t).advHead :=
  ⟨_, exec_advHeadWrite hreach v, by rw [writeAdvHead, fnOf_modFn_same hs, if_neg (Nat.not_le.mpr h)]⟩

/-! Advisory summary and mask, and configuration space -/

theorem registerWrite_advMask (hreach : hostReach s t = true) (w : BitVec 64) :
    ∃ s', exec (.registerWrite (.tarn t) (.bar0 0x1C) 4 w) s = .next s' ∧ (fnOf s' t).advMask = w.setWidth 6 := by
  refine ⟨_, exec_registerWrite_bar0 hreach _ _ _, ?_⟩
  rw [writeBar0_advMask, fnOf_modFn_same hs, ofNat_toNat_mod w 6 (8 * 4) (by decide)]

theorem registerWrite_advSummary (hreach : hostReach s t = true) (w : BitVec 64) :
    ∃ s', exec (.registerWrite (.tarn t) (.bar0 0x18) 4 w) s = .next s' ∧
      (fnOf s' t).advSummary = (fnOf s t).advSummary &&& ~~~ w.setWidth 6 := by
  refine ⟨_, exec_registerWrite_bar0 hreach _ _ _, ?_⟩
  rw [writeBar0_advSummary, fnOf_modFn_same hs, ofNat_toNat_mod w 6 (8 * 4) (by decide)]

theorem registerWrite_errorStatus (hrun : s.board.running = true) (w : BitVec 64) :
    ∃ s', exec (.registerWrite (.tarn t) (.config .errorStatus) 4 w) s = .next s' ∧
      (fnOf s' t).aer = (fnOf s t).aer &&& ~~~ w.setWidth 32 := by
  refine ⟨_, exec_registerWrite_config hrun t _ _ _, ?_⟩
  rw [writeConfig, fnOf_modFn_same hs, ofNat_toNat_mod w 32 (8 * 4) (by decide)]

theorem registerWrite_powerState_d3hot (hrun : s.board.running = true) (w : BitVec 64) (hw : w.toNat % 4 = 3) :
    ∃ s', exec (.registerWrite (.tarn t) (.config .powerState) 4 w) s = .next s' ∧ (fnOf s' t).d3hot = true := by
  refine ⟨_, exec_registerWrite_config hrun t _ _ _, ?_⟩
  have hd3 : (w.toNat % 2 ^ (8 * 4) % 4 == 3) = true := by
    rw [Nat.mod_mod_of_dvd _ (by decide : 4 ∣ 2 ^ (8 * 4)), hw]; rfl
  rw [writeConfig, if_pos hd3, fnOf_modFn_same hs]

/-! Unmasking and Bus Master Enable (R96, R391) -/

theorem msixUnmask_leaves_none_pending (hreach : hostReach s t = true) (x : Fin 64) (hmsix : (fnOf s t).msix.length = 64) :
    ∃ s', exec (.msixUnmask t x) s = .next s' ∧ ((fnOf s' t).msix.getD x {}).mask = false ∧
      ((fnOf s t).busMaster = true → (fnOf s' t).msixPending.getLsbD x = false) := by
  refine ⟨_, exec_msixUnmask hreach x, ?_⟩
  have hmask := withVectorMask_mask (fnOf s t) x false hmsix
  have hlen : (modFn s t (withVectorMask x false)).fns.length = 8 := (length_modFn s t _).trans hs
  have hfn := fnOf_modFn_same (t := t) hs (withVectorMask x false)
  constructor
  · rw [fnOf_flushPending hlen, hfn]
    exact hmask
  · intro hbm
    have hd0 : (fnOf s t).d3hot = false := by simpa using (Bool.and_eq_true_iff.mp hreach).2
    apply flushPending_open_clear hlen
    rw [hfn, vectorOpen, hmask]
    simp [issues, withVectorMask, hbm, hd0]

theorem busMasterEnable_off_acts (hrun : s.board.running = true) :
    ∃ s', exec (.busMasterEnable t false) s = .next s' ∧ (fnOf s' t).busMaster = false :=
  ⟨_, exec_busMasterEnable_off hrun t, by rw [fnOf_modFn_same hs, withBusMaster]⟩

theorem busMasterEnable_leaves_none_pending (hrun : s.board.running = true) (hd0 : (fnOf s t).d3hot = false) (x : Fin 64) :
    ∃ s', exec (.busMasterEnable t true) s = .next s' ∧ (fnOf s' t).busMaster = true ∧
      (((fnOf s t).msix.getD x {}).mask = false → (fnOf s' t).msixPending.getLsbD x = false) := by
  have hlen : (modFn s t (withBusMaster true)).fns.length = 8 := (length_modFn s t _).trans hs
  have hfn := fnOf_modFn_same (t := t) hs (withBusMaster true)
  have hflushed := flushPending_flushed _ t hlen
  refine ⟨_, exec_busMasterEnable_on hrun t, ?_⟩
  rw [fnOf_foldl_ringPump _ _ t t (hflushed.tables.trans hlen)]
  constructor
  · dsimp only
    rw [fnOf_flushPending hlen, hfn, withBusMaster]
  · intro hmask
    dsimp only
    apply flushPending_open_clear hlen
    rw [hfn, vectorOpen, withBusMaster, hmask]
    simp [issues, hd0]

end

theorem Shaped.fnOf_shaped {s : State} (h : Shaped s) (t : TarnIx) : FnShaped (fnOf s t) := by
  have ht : t.val < s.fns.length := by rw [h.fns]; exact t.isLt
  rw [fnOf, List.getD_eq_getElem _ _ ht]
  exact h.fn _ (List.getElem_mem ht)

end Sys2Proof.Machine

open Sys2Proof.Machine

/-- Settles O4: each clause by the lemma of its register; the two that send messages by `flushPending_flushed`. -/
theorem tarnRegistersAct : Obligations.TarnRegistersAct := by
  unfold Obligations.TarnRegistersAct
  intro s t v w x hshaped hrun hd0
  have hs := hshaped.fns
  have hreach := hostReach_of hrun hd0
  exact ⟨advEnable_acts hs hreach v, advDisable_acts hs hreach v, advHeadWrite_taken hs hreach v, advHeadWrite_ignored hs hreach v,
    beatRead_low hs hreach, beatRead_high_latched hreach, beatRead_high_live hreach, beatRead_whole hreach,
    beatRead_unlisted hreach, registerWrite_advMask hs hreach w, registerWrite_advSummary hs hreach w,
    registerWrite_gap hreach w, registerWrite_errorStatus hs hrun w, registerWrite_powerState_d3hot hs hrun w,
    msixUnmask_leaves_none_pending hs hreach x (hshaped.fnOf_shaped t).2, busMasterEnable_off_acts hs hrun,
    busMasterEnable_leaves_none_pending hs hrun hd0 x⟩
end

section
/-! The step and the state after reset. -/

namespace Sys2Proof.Machine

theorem statOf_reset_of_mem {x : Resource} (hx : x ∈ mapResources) : statOf State.reset x = .scrubbing := by
  have hunit (st : Fin 8) (u : Fin 32) : unitBit st u < 256 := by unfold unitBit; omega
  simp only [mapResources, List.mem_append, List.mem_map, List.mem_flatten] at hx
  obtain (((⟨g, -, rfl⟩ | ⟨j, -, rfl⟩) | ⟨g, -, rfl⟩) | ⟨n, -, rfl⟩) | ⟨l, ⟨st, -, rfl⟩, hl⟩ := hx
  · exact List.getD_replicate _ g.isLt
  · exact List.getD_replicate _ j.isLt
  · exact List.getD_replicate _ g.isLt
  · exact List.getD_replicate _ n.isLt
  · obtain ⟨u, -, rfl⟩ := List.mem_map.mp hl
    exact List.getD_replicate _ (hunit st u)

theorem shaped_reset : Shaped State.reset where
  fns := List.length_replicate
  fn f hf := by
    obtain ⟨-, rfl⟩ := List.mem_replicate.mp hf
    exact ⟨rfl, rfl⟩
  tarns := List.length_replicate
  entries := List.length_replicate
  figs := List.length_replicate
  tgStat := List.length_replicate
  laneStat := List.length_replicate
  kaeStat := List.length_replicate
  linkStat := List.length_replicate
  memStat := List.length_replicate
  recStat := List.length_replicate
  links := List.length_replicate
  keys := List.length_replicate
  replaces := List.length_replicate
  journal := List.length_replicate
  parents := List.length_replicate
  anchors := List.length_replicate
  dram := List.length_replicate
  chans := List.length_replicate
  spares := List.length_replicate
  delays := List.length_replicate

theorem fnOf_reset (t : TarnIx) : fnOf State.reset t = {} :=
   List.getD_replicate _ t.isLt
end Sys2Proof.Machine
open Sys2Proof.Machine

/-- Settles O1: `step` by the case of the queue. -/
theorem stepRunsFrontCommand : Obligations.StepRunsFrontCommand := by
  refine ⟨fun c rest s => rfl, fun s hs => ?_⟩
  unfold step
  rw [hs]

/-- Settles O57: every table of the reset state holds one value throughout. -/
theorem resetStateIsGood : Obligations.ResetStateIsGood := by
  refine ⟨⟨shaped_reset, memWf_reset⟩, fun t => ⟨?_, ?_⟩, fun x => statOf_reset_of_mem, fun i => ?_, fun t q => ?_, rfl, rfl, rfl, rfl, rfl⟩
  · exact List.getD_replicate _ t.isLt
  · have hentry : entryOf State.reset t = {} := List.getD_replicate _ t.isLt
    unfold live
    rw [hentry]
    rfl
  · have hslot : slotOf State.reset i = {} := by
      unfold slotOf
      rw [List.getD_eq_getElem?_getD]
      exact List.getElem?_getD_replicate_default_eq ..
    rw [hslot]
  · have hqp : qpOf State.reset t q = {} := by
      unfold qpOf
      rw [fnOf_reset]
      exact List.getD_replicate _ q.isLt
    rw [hqp]
    exact ⟨rfl, rfl⟩
end

section
/-! The schedule table taken up at a bar end (R45). -/

namespace Sys2Proof.Machine

theorem stepSchedule_of_none {s : State} (h : s.shadow = none) : stepSchedule s = s := by
  unfold stepSchedule
  rw [h]

theorem stepSchedule_of_not_barEnd {s : State} (h : barEnd s = false) : stepSchedule s = s := by
  unfold stepSchedule
  rw [h]
  split <;> rfl

theorem stepSchedule_of_barEnd {s : State} {tb : SchedTable} (hshadow : s.shadow = some tb) (h : barEnd s = true) :
    stepSchedule s = { swapTable { s with shadow := none } tb with swapped := some (beatLen s) } := by
  unfold stepSchedule
  rw [hshadow, h]
  rfl

theorem next_swapTable (s : State) (tb : SchedTable) : s.tally.next < (swapTable s tb).tally.next :=
  (Nat.lt_succ_self _).trans_le (next_tally { s with table := tb } 0x0021 1 anyTarn (fwUp s) .ok _)

/-- What the seam's step 6 may change. -/
theorem stepSchedule_rest (s : State) : let s' := stepSchedule s
    s' = { s with table := s'.table, shadow := s'.shadow, swapped := s'.swapped, tally := s'.tally } := by
  cases hshadow : s.shadow with
  | none => rw [stepSchedule_of_none hshadow]
  | some tb =>
    cases hend : barEnd s with
    | false => rw [stepSchedule_of_not_barEnd hend]
    | true =>
      rw [stepSchedule_of_barEnd hshadow hend]
      rfl

theorem exec_scheduleSwap {s : State} (hrun : running s = true) (hfw : fwUp s = true) :
    exec .scheduleSwap s = .next (stepSchedule s) := by
  simp [exec, execScheduleSwap, hrun, hfw]

theorem exec_scheduleSwap_idle {s : State} (h : (running s && fwUp s) = false) : exec .scheduleSwap s = .next s := by
  simp only [exec, execScheduleSwap, h]
  rfl

end Sys2Proof.Machine

open Sys2Proof.Machine

/-- Settles O20: by whether the firmware serves on a running device, then by the shadow table and the bar end. -/
theorem scheduleSwapsAtBarEnd : Obligations.ScheduleSwapsAtBarEnd := by
  intro s
  cases hserves : running s && fwUp s with
  | false =>
    refine ⟨s, exec_scheduleSwap_idle hserves, rfl, fun hrun hfw => ?_, fun _ => rfl⟩
    simp [hrun, hfw] at hserves
  | true =>
    obtain ⟨hrun, hfw⟩ := Bool.and_eq_true_iff.mp hserves
    refine ⟨stepSchedule s, exec_scheduleSwap hrun hfw, stepSchedule_rest s, fun _ _ tb hshadow hend => ?_, ?_⟩
    · rw [stepSchedule_of_barEnd hshadow hend]
      exact ⟨rfl, rfl, rfl, next_swapTable { s with shadow := none } tb⟩
    · rintro (hshadow | hend)
      · exact stepSchedule_of_none hshadow
      · exact stepSchedule_of_not_barEnd hend

end

section
/-! A spill stopped with an access under way. -/

namespace Sys2Proof.Machine

/-! The landing of a figure's only access under way -/

/-- What the landing of one access of the figure in a slot gives. -/
def landing (s : State) (g : Nat) (x : Nat × Req) : Option Status × State :=
  arrive (modFig (drawArrival s).2 g fun f => { f with flying := f.flying.erase x }) g x.1 x.2

section
variable {s : State} {g : Nat} {own : Nat → Bool} {force : Bool} {f : FigRun} {x : Nat × Req}

/-- The failure of an access faults the figure. -/
theorem landAll_of_single (hf : figOf s g = some f) (hflying : f.flying = [x]) (hcan : (own x.1 && (force || !reqHeld s x.2)) = true) :
    landAll s g own force = (landing s g x).1.elim (landing s g x).2 (figFault (landing s g x).2 g) := by
  have hcount : flyingCount s g = 1 := by simp [flyingCount, hf, hflying]
  have hone : landAll s g own force = landOne g own force s := by
    unfold landAll
    rw [hcount]
    rfl
  rw [hone]
  simp only [landOne, hf, hflying, List.filter_cons, List.filter_nil, hcan, if_true, List.length_singleton, Nat.mod_one,
    List.getElem?_cons_zero]
  unfold landing
  rcases arrive (modFig (drawArrival s).2 g fun f => { f with flying := f.flying.erase x }) g x.1 x.2 with ⟨_ | st, s'⟩ <;> rfl

end

/-- The ticket of a spilled figure. -/
def spillTicket : Ticket where
  uid := 0
  tarn := 0
  op := 0x18
  ops := []
  ledger := { ticketId := 0, commandId := 0, qp := 0, cls := .steady, admitBeat := 0, commitBeat := 0 }

/-- A spilled figure whose atomic request to a poisoned word is under way. -/
def spillFigure : FigRun where
  uid := 0
  tarn := 0
  cls := .steady
  figIndex := 0
  bound := 0
  srSeed := 0
  tiles := []
  progs := []
  args := []
  audit := false
  spilled := true
  flying := [(0, .atomic 0 linBase (zeros 4))]

/-- A running device with that figure in slot 0. -/
def spillState : State := { State.reset with
  board := { State.reset.board with running := true }
  tickets := [spillTicket]
  figs := some spillFigure :: List.replicate 15 none
  poison := [(0, 1)] }

theorem shaped_spillState : Shaped spillState := { shaped_reset with figs := by simp [spillState] }

/-- The state in which the stop lets the accesses under way land: the spill is counted and the ticket has its fault. -/
def stoppedSpill : State :=
  failTicket (countOverrun (noteOverrun spillState spillFigure (spillFigure.ran + windowCycles spillState) 2 0) spillFigure 0) 0 .overrun

theorem landAll_stoppedSpill : landAll stoppedSpill 0 (fun _ => true) true =
    figFault (landing stoppedSpill 0 (0, .atomic 0 linBase (zeros 4))).2 0 .dataLost := by
  have hfails : (landing stoppedSpill 0 (0, .atomic 0 linBase (zeros 4))).1 = some .dataLost := by decide +kernel
  rw [landAll_of_single (f := spillFigure) rfl rfl rfl, hfails]
  rfl

theorem faults_stopSpill_spillState :
    (ticketOf (stopSpill spillState 0) 0).map (·.faults) = some [.overrun, .dataLost] := by
  have hstop : stopSpill spillState 0 = leaveSlot stoppedSpill 0 := rfl
  rw [hstop]
  unfold leaveSlot
  rw [landAll_stoppedSpill]
  decide +kernel

end Sys2Proof.Machine
open Sys2Proof.Machine

/-- Refutes O19: the atomic request that the stop lets land meets poison, and its fault follows OVERRUN in the ticket. -/
theorem not_overrunsAreStoppedAndThrottled : ¬ Obligations.OverrunsAreStoppedAndThrottled := by
  intro h
  obtain ⟨hslots, -⟩ := h spillState shaped_spillState rfl
  obtain ⟨hstop, -⟩ := hslots 0 spillFigure rfl
  obtain ⟨s', k', hexec, -, hk', hfaults, -⟩ := hstop rfl rfl rfl spillTicket rfl
  obtain rfl : stopSpill spillState 0 = s' := Host.Outcome.next.inj hexec
  have h := faults_stopSpill_spillState
  rw [show spillFigure.uid = 0 from rfl] at hk'
  rw [hk', Option.map_some, hfaults] at h
  exact absurd h (by decide)
end

section
/-! A figure's write over memory that is not in canonical form. -/

namespace Sys2Proof.Machine

/-- A write of one zero byte at key 5, under way. -/
def zeroWrite : Nat × Req := (0, .write (linBase + 5) [0])

/-- A figure whose streams are done, with that write under way. -/
def endingFigure : FigRun where
  uid := 0
  tarn := 0
  cls := .steady
  figIndex := 0
  bound := 0
  srSeed := 0
  tiles := []
  progs := []
  args := []
  audit := false
  flying := [zeroWrite]

/-- A running device with that figure in slot 0, its memory listed in falling order: the entry of key 5 hides that of key 3. -/
def unsortedState : State := { State.reset with
  board := { State.reset.board with running := true }
  figs := some endingFigure :: List.replicate 15 none
  mem := [(5, 1), (3, 2)] }

theorem landAll_unsortedState : landAll unsortedState 0 (fun _ => true) = (landing unsortedState 0 zeroWrite).2 := by
  have hlands : (landing unsortedState 0 zeroWrite).1 = none := by decide +kernel
  rw [landAll_of_single (f := endingFigure) rfl rfl (by decide +kernel), hlands]
  rfl

theorem figEnd_of_landed {s : State} {g : GroupIx} {f : FigRun} (hf : figOf s g = some f) (hopen : (figEnded f && f.cycles.isNone) = true)
    (hlanded : landed (landAll s g fun _ => true) g (fun _ => true) = true) (n : Nat) :
    figEnd s g n = digestIfLast (modFig (landAll s g fun _ => true) g fun f => { f with cycles := some n }) f.uid := by
  simp only [figEnd, hf, hopen, hlanded, if_true]

/-- The write deletes the entry of key 5, and key 3 shows. -/
theorem cellGet_figEnd_unsortedState : cellGet (figEnd (figRunOn unsortedState 0) 0 0).mem 3 = 2 := by
  have hrun : figRunOn unsortedState 0 = unsortedState := rfl
  have hlanded : landed (landAll unsortedState 0 fun _ => true) 0 (fun _ => true) = true := by
    rw [landAll_unsortedState]
    decide +kernel
  rw [hrun, figEnd_of_landed (f := endingFigure) rfl rfl hlanded, Fin.val_zero, landAll_unsortedState]
  decide +kernel

end Sys2Proof.Machine
open Sys2Proof.Machine

/-- Refutes O37: over memory that is not in canonical form, a write of the unlisted value deletes an entry and so changes what another
key reads, which no operation names. -/
theorem not_figureCommandsFrame : ¬ Obligations.FigureCommandsFrame := by
  intro h
  obtain ⟨s', hexec, -, -, -, hmem⟩ := h unsortedState 0 0 0 (.figureFinish 0 0) (.inl rfl)
  obtain rfl : figEnd (figRunOn unsortedState 0) 0 0 = s' := Host.Outcome.next.inj hexec
  have hkey := hmem endingFigure rfl 3 (by simp [endingFigure]) (by decide +kernel)
  rw [cellGet_figEnd_unsortedState] at hkey
  exact absurd hkey (by decide)
end

section
/-!
The clock: what no command but the three resets turns back (R20, R541, R587, R668, R669, R672). The clock is read in the
product order, so `clock s₀ ≤ clock s` is the statement of OnlyResetsGoBack. One lemma per operation of the model says that
it keeps this bound; each is tagged for `bound`, which finds the bound of a composed operation from those of its parts.
-/

namespace Sys2Proof.Machine

/-- The beat counter, FATAL, and the Tally's next SEQ. -/
def clock (s : State) : ℕ × Bool × ℕ := (s.beat, s.fatal, s.tally.next)

theorem clock_le_iff (s s' : State) :
    clock s ≤ clock s' ↔ s.beat ≤ s'.beat ∧ (s.fatal = true → s'.fatal = true) ∧ s.tally.next ≤ s'.tally.next := Iff.rfl

/-- The state an outcome leaves: s itself when the machine stops. -/
def nextOf (s : State) : Host.Outcome State Fault Refusal → State
  | .next s' => s'
  | _ => s

variable {s₀ s : State}

/-! A record update that leaves the three fields, and the ways operations are composed -/

/-- An update of any other fields of the state. -/
@[bound] theorem le_clock_mk (h : clock s₀ ≤ clock s) (pending outbox pos timeUs table swapped shadow timing fns tickets nextUid gens
    admitted figs spLeft map tarns tgStat laneStat kaeStat linkStat memStat scrubs recStat dying confScrub rules pendRules nextRule
    sets nextSet mem poison dram cxlHeld patrol hiddenPoison rebuilds links routes routesNext remotes nextTag keys replaces bbram
    fuses rootState bar units bists fw gov flash mgmt board freeCtr) :
    clock s₀ ≤ clock ⟨pending, outbox, s.beat, pos, timeUs, table, swapped, shadow, timing, fns, tickets, nextUid, gens, admitted,
      figs, spLeft, map, tarns, tgStat, laneStat, kaeStat, linkStat, memStat, scrubs, recStat, dying, confScrub, rules, pendRules,
      nextRule, sets, nextSet, mem, poison, dram, cxlHeld, patrol, hiddenPoison, rebuilds, links, routes, routesNext, remotes,
      nextTag, keys, replaces, bbram, fuses, rootState, s.tally, bar, units, bists, fw, s.fatal, gov, flash, mgmt, board, freeCtr⟩ := h

@[bound] theorem le_clock_ite {c : Prop} [Decidable c] {a b : State} (ha : clock s₀ ≤ clock a) (hb : clock s₀ ≤ clock b) :
    clock s₀ ≤ clock (if c then a else b) := by split <;> assumption

@[bound] theorem le_clock_ite_fst {α : Type} {c : Prop} [Decidable c] {a b : State × α} (ha : clock s₀ ≤ clock a.1)
    (hb : clock s₀ ≤ clock b.1) : clock s₀ ≤ clock (if c then a else b).1 := by split <;> assumption

@[bound] theorem le_clock_ite_snd {α : Type} {c : Prop} [Decidable c] {a b : α × State} (ha : clock s₀ ≤ clock a.2)
    (hb : clock s₀ ≤ clock b.2) : clock s₀ ≤ clock (if c then a else b).2 := by split <;> assumption

@[bound] theorem le_clock_pair {α : Type} (a : α) (h : clock s₀ ≤ clock s) : clock s₀ ≤ clock (a, s).2 := h

theorem le_clock_of_fst {α : Type} {x : State × α} {b : α} (e : x = (s, b)) (h : clock s₀ ≤ clock x.1) : clock s₀ ≤ clock s := by
  subst e; exact h

theorem le_clock_of_snd {α : Type} {x : α × State} {b : α} (e : x = (b, s)) (h : clock s₀ ≤ clock x.2) : clock s₀ ≤ clock s := by
  subst e; exact h

@[bound] theorem le_clock_foldl {α : Type} {f : State → α → State} (hf : ∀ s x, clock s₀ ≤ clock s → clock s₀ ≤ clock (f s x))
    (l : List α) (h : clock s₀ ≤ clock s) : clock s₀ ≤ clock (l.foldl f s) := by
  induction l generalizing s with
  | nil => exact h
  | cons x l ih => exact ih (hf s x h)

theorem le_clock_foldl_snd {α β : Type} {f : β × State → α → β × State}
    (hf : ∀ x a, clock s₀ ≤ clock x.2 → clock s₀ ≤ clock (f x a).2) (l : List α) {x : β × State} (h : clock s₀ ≤ clock x.2) :
    clock s₀ ≤ clock (l.foldl f x).2 := by
  induction l generalizing x with
  | nil => exact h
  | cons a l ih => exact ih (hf x a h)

@[bound] theorem le_clock_iter {f : State → State} (hf : ∀ s, clock s₀ ≤ clock s → clock s₀ ≤ clock (f s)) (n : Nat)
    (h : clock s₀ ≤ clock s) : clock s₀ ≤ clock (iter f n s) := iter_inv (clock s₀ ≤ clock ·) f hf n s h

/-! The Tally's next SEQ only rises -/

@[bound] theorem le_clock_tally (h : clock s₀ ≤ clock s) (kind n tarn : Nat) (firmware : Bool) (st : Status) (payload : Bytes) :
    clock s₀ ≤ clock (tally s kind n tarn firmware st payload) :=
  h.trans ⟨le_rfl, le_rfl, (Nat.le_add_right _ _).trans (next_tally s kind n tarn firmware st payload)⟩

theorem le_clock_tallyNotes (h : clock s₀ ≤ clock s) {y : Tally} (hy : s.tally.next ≤ y.next) :
    clock s₀ ≤ clock { s with tally := y } := h.trans ((clock_le_iff ..).mpr ⟨le_rfl, id, hy⟩)

theorem le_clock_tallyRoom (h : clock s₀ ≤ clock s) (n : Nat) : clock s₀ ≤ clock { s with tally := tallyRoom s.beat n s.tally } :=
  le_clock_tallyNotes h (next_tallyRoom s.beat n s.tally)

end Sys2Proof.Machine
end

section
/-! The clock under the state operations that most commands share. -/

namespace Sys2Proof.Machine
variable {s₀ s : State}

@[bound] theorem le_clock_modFn (h : clock s₀ ≤ clock s) (t : TarnIx) (g : FnRegs → FnRegs) : clock s₀ ≤ clock (modFn s t g) := h
@[bound] theorem le_clock_modQp (h : clock s₀ ≤ clock s) (t : TarnIx) (q : QpIx) (g : Qp → Qp) : clock s₀ ≤ clock (modQp s t q g) := h
@[bound] theorem le_clock_modTarn (h : clock s₀ ≤ clock s) (t : TarnIx) (g : Tarn → Tarn) : clock s₀ ≤ clock (modTarn s t g) := h
@[bound] theorem le_clock_modTicket (h : clock s₀ ≤ clock s) (uid : Nat) (g : Ticket → Ticket) : clock s₀ ≤ clock (modTicket s uid g) := h
@[bound] theorem le_clock_modRound (h : clock s₀ ≤ clock s) (t : TarnIx) (r : Nat) (g : Round → Round) :
    clock s₀ ≤ clock (modRound s t r g) := h
@[bound] theorem le_clock_modLink (h : clock s₀ ≤ clock s) (n : LinkIx) (g : Link → Link) : clock s₀ ≤ clock (modLink s n g) := h
@[bound] theorem le_clock_modSlot (h : clock s₀ ≤ clock s) (k : Nat) (g : KeySlot → KeySlot) : clock s₀ ≤ clock (modSlot s k g) := h
@[bound] theorem le_clock_emit (h : clock s₀ ≤ clock s) (o : Output) : clock s₀ ≤ clock (emit s o) := h
@[bound] theorem le_clock_gmpReply (h : clock s₀ ≤ clock s) (ch : GmpChannel) (req : Nat) (st : Status) (body : Bytes) :
    clock s₀ ≤ clock (gmpReply s ch req st body) := by
  simp only [gmpReply]; bound
@[bound] theorem le_clock_pldmAnswer (h : clock s₀ ≤ clock s) (code : Nat) (body : Bytes) : clock s₀ ≤ clock (pldmAnswer s code body) := h
@[bound] theorem le_clock_drawEntropy (h : clock s₀ ≤ clock s) (n : Nat) : clock s₀ ≤ clock (drawEntropy s n).2 := h
@[bound] theorem le_clock_drawFree (h : clock s₀ ≤ clock s) (n : Nat) : clock s₀ ≤ clock (drawFree s n).2 := h
@[bound] theorem le_clock_signWith (h : clock s₀ ≤ clock s) (key : Nat) (msg : Bytes) : clock s₀ ≤ clock (signWith s key msg).2 := h
@[bound] theorem le_clock_tallyGovernor (h : clock s₀ ≤ clock s) (tarn action reason object old new : Nat) (st : Status) :
    clock s₀ ≤ clock (tallyGovernor s tarn action reason object old new st) := by
  simp only [tallyGovernor]; bound
@[bound] theorem le_clock_tallyGovernorOpen (h : clock s₀ ≤ clock s) (tarn action : Nat) :
    clock s₀ ≤ clock (tallyGovernorOpen s tarn action) := by
  simp only [tallyGovernorOpen]; bound
@[bound] theorem le_clock_tallyRetire (h : clock s₀ ≤ clock s) (reason : Nat) (st : Status) :
    clock s₀ ≤ clock (tallyRetire s reason st) := by
  simp only [tallyRetire]; bound
@[bound] theorem le_clock_tallyOverrun (h : clock s₀ ≤ clock s) (t : TarnIx) (ticketId : BitVec 32) (fig cycles bound action group : Nat) :
    clock s₀ ≤ clock (tallyOverrun s t ticketId fig cycles bound action group) := by
  simp only [tallyOverrun]; bound
@[bound] theorem le_clock_tallyFault (h : clock s₀ ≤ clock s) (tarn : Nat) (u : UnitId) (action addr : Nat) (ticketId : BitVec 32) :
    clock s₀ ≤ clock (tallyFault s tarn u action addr ticketId) := by
  simp only [tallyFault]; bound
@[bound] theorem le_clock_tallySession (h : clock s₀ ≤ clock s) (t event sid : Nat) (st : Status) :
    clock s₀ ≤ clock (tallySession s t event sid st) := by
  simp only [tallySession]; bound
@[bound] theorem le_clock_tallyLink (h : clock s₀ ≤ clock s) (n : LinkIx) (src dst : LinkState) (cause : Nat) :
    clock s₀ ≤ clock (tallyLink s n src dst cause) := by
  simp only [tallyLink]; bound
@[bound] theorem le_clock_tallyKeyEv (h : clock s₀ ≤ clock s) (t op slot : Nat) (k : KeySlot) (oldKcv : Bytes) (st : Status) :
    clock s₀ ≤ clock (tallyKeyEv s t op slot k oldKcv st) := by
  simp only [tallyKeyEv]; bound
@[bound] theorem le_clock_tallyNote (h : clock s₀ ≤ clock s) (t : TarnIx) (round code kind owner holder : Nat) (st : Status) :
    clock s₀ ≤ clock (tallyNote s t round code kind owner holder st) := by
  simp only [tallyNote]; bound
@[bound] theorem le_clock_tallyRule (h : clock s₀ ≤ clock s) (r : RuleChange) (d : Nat) :
    clock s₀ ≤ clock (tallyRule s r d) := by
  simp only [tallyRule]; bound
@[bound] theorem le_clock_tallySet (h : clock s₀ ≤ clock s) (t id event phase phases : Nat) (digest : Bytes) (st : Status) :
    clock s₀ ≤ clock (tallySet s t id event phase phases digest st) := by
  simp only [tallySet]; bound
@[bound] theorem le_clock_tallyDevice (h : clock s₀ ≤ clock s) (event cause : Nat) :
    clock s₀ ≤ clock (tallyDevice s event cause) := by
  simp only [tallyDevice]; bound
@[bound] theorem le_clock_beginCheckpoint (h : clock s₀ ≤ clock s) :
    clock s₀ ≤ clock (beginCheckpoint s) := by
  simp only [beginCheckpoint]
  refine le_clock_ite h (le_clock_tallyNotes ?_ le_rfl)
  exact le_clock_tally (le_clock_signWith (le_clock_tallyRoom h 2) ..) ..
@[bound] theorem le_clock_modPort (h : clock s₀ ≤ clock s) (p : Port) (g : PortSt → PortSt) : clock s₀ ≤ clock (modPort s p g) := h
@[bound] theorem le_clock_emitWrite (h : clock s₀ ≤ clock s) (t : TarnIx) (addr : Nat) (bs : Bytes) (relaxed : Bool) :
    clock s₀ ≤ clock (emitWrite s t addr bs relaxed) := h
@[bound] theorem le_clock_sendVector (h : clock s₀ ≤ clock s) (t : TarnIx) (v : Nat) :
    clock s₀ ≤ clock (sendVector s t v) := by
  simp only [sendVector]; bound
@[bound] theorem le_clock_flushPending (h : clock s₀ ≤ clock s) (t : TarnIx) :
    clock s₀ ≤ clock (flushPending s t) := by
  simp only [flushPending]; bound
@[bound] theorem le_clock_writeEntry (h : clock s₀ ≤ clock s) (t : TarnIx) (base d : Nat) (tail : BitVec 16) (e : Bytes × Bytes) :
    clock s₀ ≤ clock (writeEntry s t base d tail e) := h
@[bound] theorem le_clock_advise (h : clock s₀ ≤ clock s) (t : TarnIx) (a : Advisory) :
    clock s₀ ≤ clock (advise s t a) := by
  simp only [advise]; bound
@[bound] theorem le_clock_adviseUnit (h : clock s₀ ≤ clock s) (t : TarnIx) (u : UnitId) (ticketId : BitVec 32) :
    clock s₀ ≤ clock (adviseUnit s t u ticketId) := by
  simp only [adviseUnit]; bound
@[bound] theorem le_clock_adviseRound (h : clock s₀ ≤ clock s) (t : TarnIx) (r : Round) (code : Nat) (st : Status) :
    clock s₀ ≤ clock (adviseRound s t r code st) := by
  simp only [adviseRound]; bound
@[bound] theorem le_clock_finishTicket (h : clock s₀ ≤ clock s) (uid r0 r1 : Nat) : clock s₀ ≤ clock (finishTicket s uid r0 r1) := h
@[bound] theorem le_clock_answerTicket (h : clock s₀ ≤ clock s) (uid : Nat) (st : Status) (r0 r1 : Nat) :
    clock s₀ ≤ clock (answerTicket s uid st r0 r1) := h
@[bound] theorem le_clock_failTicket (h : clock s₀ ≤ clock s) (uid : Nat) (st : Status) : clock s₀ ≤ clock (failTicket s uid st) := h
@[bound] theorem le_clock_devWrite (h : clock s₀ ≤ clock s) (a : Nat) (bs : Bytes) : clock s₀ ≤ clock (devWrite s a bs) := h
@[bound] theorem le_clock_markPoison (h : clock s₀ ≤ clock s) (a len : Nat) : clock s₀ ≤ clock (markPoison s a len) := h
@[bound] theorem le_clock_pumpDma (h : clock s₀ ≤ clock s) (stamp uid : Nat) :
    clock s₀ ≤ clock (pumpDma s stamp uid) := by
  simp only [pumpDma]; bound
@[bound] theorem le_clock_landChunk (h : clock s₀ ≤ clock s) (stamp uid d : Nat) (bs : Bytes) :
    clock s₀ ≤ clock (landChunk s stamp uid d bs) := by
  simp only [landChunk]; bound
@[bound] theorem le_clock_hostPut (h : clock s₀ ≤ clock s) (t : TarnIx) (addr : Nat) (bs : Bytes) :
    clock s₀ ≤ clock (hostPut s t addr bs) := by
  simp only [hostPut]; bound
@[bound] theorem le_clock_ringPump (h : clock s₀ ≤ clock s) (t : TarnIx) (q : QpIx) :
    clock s₀ ≤ clock (ringPump s t q) := by
  simp only [ringPump]; bound

end Sys2Proof.Machine
end

section
/-! The clock under the bounce area and confidential operands. -/

namespace Sys2Proof.Machine
variable {s₀ s : State}

@[bound] theorem le_clock_modSession (h : clock s₀ ≤ clock s) (t : TarnIx) (id : BitVec 32) (g : Session → Session) :
    clock s₀ ≤ clock (modSession s t id g) := h
@[bound] theorem le_clock_postRekey (h : clock s₀ ≤ clock s) (t : TarnIx) (id : BitVec 32) :
    clock s₀ ≤ clock (postRekey s t id) := by
  simp only [postRekey]; bound
@[bound] theorem le_clock_openRecord (h : clock s₀ ≤ clock s) (k : Ticket) (operand need off : Nat) (r : Bytes) :
    clock s₀ ≤ clock (openRecord s k operand need off r).2 := by
  simp only [openRecord]
  split
  · exact h
  · refine le_clock_ite_snd h (le_clock_ite_snd h (le_clock_ite_snd h ?_))
    split
    · exact le_clock_modSession h ..
    · exact le_clock_modSession h ..
@[bound] theorem le_clock_openTransfer (h : clock s₀ ≤ clock s) (k : Ticket) (operand need fuel : Nat) (raw got : Bytes) :
    clock s₀ ≤ clock (openTransfer k operand need fuel raw got s).2 := by
  fun_induction openTransfer k operand need fuel raw got s with
  | case1 => exact h
  | case2 => exact h
  | case3 fuel raw got s _ n pt s' e ih => exact ih (le_clock_of_snd e (le_clock_openRecord h ..))
  | case4 => bound
@[bound] theorem le_clock_plainOf (h : clock s₀ ≤ clock s) (k : Ticket) (operand p : Nat) (raw : Bytes) :
    clock s₀ ≤ clock (plainOf s k operand p raw).2 := by
  simp only [plainOf]; bound
@[bound] theorem le_clock_openArrived (h :
    clock s₀ ≤ clock s) (k : Ticket) (operand need fuel : Nat) (raw : Bytes) (off : Nat) (got : Bytes) :
    clock s₀ ≤ clock (openArrived k operand need fuel raw off got s).2 := by
  fun_induction openArrived k operand need fuel raw off got s with
  | case1 => exact h
  | case2 => exact h
  | case3 fuel raw off got s n _ pt s' e ih => exact ih (le_clock_of_snd e (le_clock_openRecord h ..))
  | case4 fuel raw off got s n _ pt s' e => exact le_clock_of_snd e (le_clock_openRecord h ..)
@[bound] theorem le_clock_takePlain (h : clock s₀ ≤ clock s) (uid operand need : Nat) :
    clock s₀ ≤ clock (takePlain s uid operand need) := by
  simp only [takePlain]; bound
@[bound] theorem le_clock_emitRecord (h : clock s₀ ≤ clock s) (t : TarnIx) (addr : Nat) (bs : Bytes) :
    clock s₀ ≤ clock (emitRecord s t addr bs) := by
  simp only [emitRecord]; bound
@[bound] theorem le_clock_sealRecords (h : clock s₀ ≤ clock s) (k : Ticket) (operand flags : Nat) (x : Session) (addr total : Nat)
    (l : List (Bytes × Nat)) : clock s₀ ≤ clock (sealRecords k operand flags x addr total l s) := by
  fun_induction sealRecords k operand flags x addr total l s with
  | case1 => exact h
  | case2 s pt i rest seq off hd kv ct s' ih => exact ih (le_clock_emitRecord h ..)
@[bound] theorem le_clock_hostOut (h : clock s₀ ≤ clock s) (k : Ticket) (operand addr : Nat) (bs : Bytes) (flags : Nat) :
    clock s₀ ≤ clock (hostOut s k operand addr bs flags).2 := by
  fun_cases hostOut s k operand addr bs flags <;> bound
@[bound] theorem le_clock_endSessionTickets (h : clock s₀ ≤ clock s) (t : TarnIx) (id : BitVec 32) (st : Status) :
    clock s₀ ≤ clock (endSessionTickets s t id st) := h
@[bound] theorem le_clock_dropSession (h : clock s₀ ≤ clock s) (t : TarnIx) (id : BitVec 32) (st : Status) :
    clock s₀ ≤ clock (dropSession s t id st) := h
@[bound] theorem le_clock_fetchHost (h : clock s₀ ≤ clock s) (uid : Nat) (cs : List DmaChunk) :
    clock s₀ ≤ clock (fetchHost s uid cs) := by
  simp only [fetchHost]; bound

end Sys2Proof.Machine
end

section
/-! The clock under rule changes and the ring. -/

namespace Sys2Proof.Machine
variable {s₀ s : State}

@[bound] theorem le_clock_setStat (h : clock s₀ ≤ clock s) (r : Resource) (x : RStat) :
    clock s₀ ≤ clock (setStat s r x) := by
  simp only [setStat]; bound
@[bound] theorem le_clock_addRule (h : clock s₀ ≤ clock s) (r : RuleChange) : clock s₀ ≤ clock (addRule s r) := h
@[bound] theorem le_clock_scrubContent (h : clock s₀ ≤ clock s) (r : Resource) :
    clock s₀ ≤ clock (scrubContent s r) := by
  simp only [scrubContent]; bound
@[bound] theorem le_clock_startScrubs (h : clock s₀ ≤ clock s) (rs : List Resource) : clock s₀ ≤ clock (startScrubs s rs) := h
@[bound] theorem le_clock_scrubDone (h : clock s₀ ≤ clock s) (r : Resource) :
    clock s₀ ≤ clock (scrubDone s r) := by
  simp only [scrubDone]; bound
@[bound] theorem le_clock_freeScrubbed (h : clock s₀ ≤ clock s) :
    clock s₀ ≤ clock (freeScrubbed s) := by
  unfold freeScrubbed
  apply le_clock_foldl
  · bound
  · exact h
@[bound] theorem le_clock_settleDying (h : clock s₀ ≤ clock s) : clock s₀ ≤ clock (settleDying s) := h
@[bound] theorem le_clock_tallyDebug (h : clock s₀ ≤ clock s) (t event : Nat) :
    clock s₀ ≤ clock (tallyDebug s t event) := by
  simp only [tallyDebug]; bound
@[bound] theorem le_clock_endInstruments (h : clock s₀ ≤ clock s) (t : TarnIx) :
    clock s₀ ≤ clock (endInstruments s t) := by
  simp only [endInstruments]; bound
@[bound] theorem le_clock_takeRes (h : clock s₀ ≤ clock s) (r : Resource) : clock s₀ ≤ clock (takeRes s r) := by simp only [takeRes]; bound
@[bound] theorem le_clock_createTarn (h : clock s₀ ≤ clock s) (t : TarnIx) (e : PEntry) :
    clock s₀ ≤ clock (createTarn s t e) := by
  simp only [createTarn]; bound
@[bound] theorem le_clock_removeTarn (h : clock s₀ ≤ clock s) (t : TarnIx) :
    clock s₀ ≤ clock (removeTarn s t) := by
  simp only [removeTarn]; bound
@[bound] theorem le_clock_applyMap (h : clock s₀ ≤ clock s) (new : List PEntry) (changeId phase : Nat) :
    clock s₀ ≤ clock (applyMap s new changeId phase) := by
  simp only [applyMap]; bound
@[bound] theorem le_clock_execScrubComplete (h : clock s₀ ≤ clock s) (r : Resource) :
    clock s₀ ≤ clock (nextOf s (execScrubComplete r s)) := by
  simp only [execScrubComplete, nextOf]; bound

end Sys2Proof.Machine
end

section
/-! The clock under key slots, parents and the key commands. -/

namespace Sys2Proof.Machine
variable {s₀ s : State}

@[bound] theorem le_clock_modParent (h : clock s₀ ≤ clock s) (p : Nat) (g : Parent → Parent) : clock s₀ ≤ clock (modParent s p g) := h
@[bound] theorem le_clock_serveKeyLoad (h : clock s₀ ≤ clock s) (k : Ticket) :
    clock s₀ ≤ clock (serveKeyLoad s k) := by
  rcases e : plainOf s k 0 112 k.buf with ⟨st | raw, s'⟩
  all_goals
    have h' : clock s₀ ≤ clock s' := le_clock_of_snd e (by bound)
    simp only [serveKeyLoad, e]; bound
@[bound] theorem le_clock_serve {uid op : Nat} {g : State → Ticket → State} (hg : ∀ k, clock s₀ ≤ clock (g s k)) (h : clock s₀ ≤ clock s) :
    clock s₀ ≤ clock (serve s uid op g) := by
  simp only [serve]; bound
@[bound] theorem le_clock_serveKeyUnload (h : clock s₀ ≤ clock s) (k : Ticket) :
    clock s₀ ≤ clock (serveKeyUnload s k) := by
  simp only [serveKeyUnload]; bound
@[bound] theorem le_clock_serveKeyReplace (h : clock s₀ ≤ clock s) (k : Ticket) :
    clock s₀ ≤ clock (serveKeyReplace s k) := by
  rcases e : plainOf s k 1 112 k.buf with ⟨st | raw, s'⟩
  all_goals
    have h' : clock s₀ ≤ clock s' := le_clock_of_snd e (by bound)
    simp only [serveKeyReplace, e]; bound
@[bound] theorem le_clock_setJournal (h : clock s₀ ≤ clock s) (j : Nat) (g : JEntry → JEntry) : clock s₀ ≤ clock (setJournal s j g) := h
@[bound] theorem le_clock_dropReplace (h : clock s₀ ≤ clock s) (j : Nat) : clock s₀ ≤ clock (dropReplace s j) := h
@[bound] theorem le_clock_commitReplace (h : clock s₀ ≤ clock s) (j : Nat) :
    clock s₀ ≤ clock (commitReplace s j) := by
  simp only [commitReplace]; bound
@[bound] theorem le_clock_journalIdle (h : clock s₀ ≤ clock s) (j : Nat) :
    clock s₀ ≤ clock (journalIdle s j) := by
  simp only [journalIdle]; bound
@[bound] theorem le_clock_serveParentInvalidate (h : clock s₀ ≤ clock s) (k : Ticket) :
    clock s₀ ≤ clock (serveParentInvalidate s k) := by
  simp only [serveParentInvalidate]; bound
@[bound] theorem le_clock_revokeSlots (h :
    clock s₀ ≤ clock s) (t : TarnIx) (slots : List Nat) (uid : Option Nat) (changeId result0 : Nat) (empties : Bool) :
    clock s₀ ≤ clock (revokeSlots s t slots uid changeId result0 empties) := by
  simp only [revokeSlots]; bound
@[bound] theorem le_clock_applyInvalidate (h : clock s₀ ≤ clock s) (uid : Nat) (t : TarnIx) (p : Nat) :
    clock s₀ ≤ clock (applyInvalidate s uid t p) := by
  unfold applyInvalidate
  split
  · bound
  · apply le_clock_revokeSlots
    bound
@[bound] theorem le_clock_applyUnload (h : clock s₀ ≤ clock s) (uid : Nat) (t : TarnIx) (slot : Nat) :
    clock s₀ ≤ clock (applyUnload s uid t slot) := by
  simp only [applyUnload]; bound
@[bound] theorem le_clock_execKeyLoad (h : clock s₀ ≤ clock s) (uid : Nat) : clock s₀ ≤ clock (nextOf s (execKeyLoad uid s)) := by
  simp only [execKeyLoad, nextOf]; bound
@[bound] theorem le_clock_execKeyUnload (h : clock s₀ ≤ clock s) (uid : Nat) : clock s₀ ≤ clock (nextOf s (execKeyUnload uid s)) := by
  simp only [execKeyUnload, nextOf]; bound
@[bound] theorem le_clock_execKeyReplace (h : clock s₀ ≤ clock s) (uid : Nat) : clock s₀ ≤ clock (nextOf s (execKeyReplace uid s)) := by
  simp only [execKeyReplace, nextOf]; bound
@[bound] theorem le_clock_execKeyReplaceCommit (h : clock s₀ ≤ clock s) (j : Fin 16) :
    clock s₀ ≤ clock (nextOf s (execKeyReplaceCommit j s)) := by
  simp only [execKeyReplaceCommit, nextOf]; bound
@[bound] theorem le_clock_execKeyJournalIdle (h : clock s₀ ≤ clock s) (j : Fin 16) :
    clock s₀ ≤ clock (nextOf s (execKeyJournalIdle j s)) := by
  simp only [execKeyJournalIdle, nextOf]; bound
@[bound] theorem le_clock_execParentInvalidate (h : clock s₀ ≤ clock s) (uid : Nat) :
    clock s₀ ≤ clock (nextOf s (execParentInvalidate uid s)) := by
  simp only [execParentInvalidate, nextOf]; bound

end Sys2Proof.Machine
end

section
/-! The clock under REPORT_GET and BOUNCE_SETUP. -/

namespace Sys2Proof.Machine
variable {s₀ s : State}

@[bound] theorem le_clock_report (h : clock s₀ ≤ clock s) (t : Option TarnIx) (nonce : Bytes) : clock s₀ ≤ clock (report s t nonce).2 := h

end Sys2Proof.Machine
end

section
/-! The clock under the GCI record links. -/

namespace Sys2Proof.Machine
variable {s₀ s : State}

@[bound] theorem le_clock_readAnswer (h : clock s₀ ≤ clock s) (k : Ticket) (operand addr len unit : Nat) (l : List Bytes) (r1 : Nat) :
    clock s₀ ≤ clock (readAnswer s k operand addr len unit l r1) := by
  rcases e : hostOut s k operand addr (fitUnits (bufCapacity s k len) unit l).flatten with ⟨st | _, s'⟩
  all_goals
    have h' : clock s₀ ≤ clock s' := le_clock_of_snd e (by bound)
    simp only [readAnswer, e]; bound
@[bound] theorem le_clock_serveReport (h : clock s₀ ≤ clock s) (k : Ticket) :
    clock s₀ ≤ clock (serveReport s k) := by
  unfold serveReport
  split
  next st s₁ e =>
    have h₁ : clock s₀ ≤ clock s₁ := le_clock_of_snd e (le_clock_plainOf h ..)
    exact le_clock_failTicket h₁ ..
  next nonce s₁ e =>
    have h₁ : clock s₀ ≤ clock s₁ := le_clock_of_snd e (le_clock_plainOf h ..)
    dsimp only
    have h₂ := le_clock_report h₁ (some k.tarn) nonce
    split
    next st s₂ e' => exact le_clock_failTicket (le_clock_of_snd e' (le_clock_hostOut h₂ ..)) ..
    next s₂ e' => exact le_clock_finishTicket (le_clock_of_snd e' (le_clock_hostOut h₂ ..)) ..
@[bound] theorem le_clock_serveBounceSetup (h : clock s₀ ≤ clock s) (k : Ticket) :
    clock s₀ ≤ clock (serveBounceSetup s k) := by
  simp only [serveBounceSetup]; bound
@[bound] theorem le_clock_commitBounce (h : clock s₀ ≤ clock s) (k : Ticket) :
    clock s₀ ≤ clock (commitBounce s k) := by
  simp only [commitBounce]; bound
@[bound] theorem le_clock_execNop (h : clock s₀ ≤ clock s) (uid : Nat) : clock s₀ ≤ clock (nextOf s (execNop uid s)) := by
  simp only [execNop, nextOf]; bound
@[bound] theorem le_clock_execLedgerRead (h : clock s₀ ≤ clock s) (uid : Nat) : clock s₀ ≤ clock (nextOf s (execLedgerRead uid s)) := by
  simp only [execLedgerRead, nextOf]; bound
@[bound] theorem le_clock_execTallyRead (h : clock s₀ ≤ clock s) (uid : Nat) : clock s₀ ≤ clock (nextOf s (execTallyRead uid s)) := by
  simp only [execTallyRead, nextOf]; bound
@[bound] theorem le_clock_execReportGet (h : clock s₀ ≤ clock s) (uid : Nat) : clock s₀ ≤ clock (nextOf s (execReportGet uid s)) := by
  simp only [execReportGet, nextOf]; bound
@[bound] theorem le_clock_execBounceSetup (h : clock s₀ ≤ clock s) (uid : Nat) : clock s₀ ≤ clock (nextOf s (execBounceSetup uid s)) := by
  simp only [execBounceSetup, nextOf]; bound

end Sys2Proof.Machine
end

section
/-! The clock under sending and replaying flits. -/

namespace Sys2Proof.Machine
variable {s₀ s : State}

@[bound] theorem le_clock_replaceKeys (h : clock s₀ ≤ clock s) (n : LinkIx) :
    clock s₀ ≤ clock (replaceKeys s n) := by
  simp only [replaceKeys]; bound
@[bound] theorem le_clock_sendFlit (h : clock s₀ ≤ clock s) (n : LinkIx) (kind vc : Nat) (last : Bool) (seq : Nat) (body : Bytes) :
    clock s₀ ≤ clock (sendFlit s n kind vc last seq body) := by
  simp only [sendFlit]; bound
@[bound] theorem le_clock_resendAll (h : clock s₀ ≤ clock s) (n : LinkIx) :
    clock s₀ ≤ clock (resendAll s n) := by
  simp only [resendAll]; bound
theorem le_clock_sendOne (h : clock s₀ ≤ clock s) (n : LinkIx) {s' : State} (hs : sendOne s n = some s') : clock s₀ ≤ clock s' := by
  simp only [sendOne] at hs
  split at hs
  · cases hs
  · split at hs
    · cases hs
    · split at hs
      all_goals
        cases hs
        bound
@[bound] theorem le_clock_linkPumpAux (h : clock s₀ ≤ clock s) (n : LinkIx) (fuel : Nat) :
    clock s₀ ≤ clock (linkPumpAux n fuel s) := by
  induction fuel generalizing s with
  | zero => exact h
  | succ fuel ih =>
    rw [linkPumpAux]
    split
    · exact h
    · exact ih (le_clock_sendOne h n ‹_›)
@[bound] theorem le_clock_linkPump (h : clock s₀ ≤ clock s) (n : LinkIx) : clock s₀ ≤ clock (linkPump s n) := by simp only [linkPump]; bound
@[bound] theorem le_clock_sendMessage (h : clock s₀ ≤ clock s) (n : LinkIx) (vc rank : Nat) (msg : Bytes) :
    clock s₀ ≤ clock (sendMessage s n vc rank msg) := by
  simp only [sendMessage]; bound
@[bound] theorem le_clock_popMessage (h : clock s₀ ≤ clock s) (n : LinkIx) (vc : Nat) : clock s₀ ≤ clock (popMessage s n vc) := h
@[bound] theorem le_clock_sendTopo (h : clock s₀ ≤ clock s) (n : LinkIx) : clock s₀ ≤ clock (sendTopo s n) := by simp only [sendTopo]; bound

end Sys2Proof.Machine
end

section
/-! The clock under the Basin arithmetic. -/

namespace Sys2Proof.Machine
variable {s₀ s : State}

@[bound] theorem le_clock_imgAdd (h : clock s₀ ≤ clock s) (p : Plan) (sub : Bool) (words : List Nat) :
    clock s₀ ≤ clock (imgAdd s p sub words) := h
@[bound] theorem le_clock_stageVector (h : clock s₀ ≤ clock s) (p : Plan) (i : Nat) (b : Bytes) :
    clock s₀ ≤ clock (stageVector s p i b) := h
@[bound] theorem le_clock_copyImage (h : clock s₀ ≤ clock s) (len dst src : Nat) : clock s₀ ≤ clock (copyImage s len dst src) := h
@[bound] theorem le_clock_zeroImages (h : clock s₀ ≤ clock s) (p : Plan) (from_ upTo : Nat) :
    clock s₀ ≤ clock (zeroImages s p from_ upTo) := h
@[bound] theorem le_clock_modSlotOf (h : clock s₀ ≤ clock s) (t : TarnIx) (rid i : Nat) (x : Slot) :
    clock s₀ ≤ clock (modSlotOf s t rid i x) := h
@[bound] theorem le_clock_touchRound (h : clock s₀ ≤ clock s) (t : TarnIx) (rid : Nat) : clock s₀ ≤ clock (touchRound s t rid) := h
@[bound] theorem le_clock_clearSlot (h : clock s₀ ≤ clock s) (t : TarnIx) (rid i : Nat) (x : Slot) :
    clock s₀ ≤ clock (clearSlot s t rid i x) := by
  simp only [clearSlot]; bound
@[bound] theorem le_clock_fillSlot (h : clock s₀ ≤ clock s) (t : TarnIx) (rid i : Nat) (b : Bytes) :
    clock s₀ ≤ clock (fillSlot s t rid i b) := by
  simp only [fillSlot]; bound
@[bound] theorem le_clock_sendIntake (h : clock s₀ ≤ clock s) (n : LinkIx) (ty count : Nat) (data : Bytes) :
    clock s₀ ≤ clock (sendIntake s n ty count data) := by
  simp only [sendIntake]; bound
@[bound] theorem le_clock_grantCredits (h : clock s₀ ≤ clock s) (t : TarnIx) :
    clock s₀ ≤ clock (grantCredits s t) := by
  simp only [grantCredits]; bound
@[bound] theorem le_clock_sendOutcome (h : clock s₀ ≤ clock s) (n : LinkIx) (rid c : Nat) (st : Status) :
    clock s₀ ≤ clock (sendOutcome s n rid c st) := by
  simp only [sendOutcome]; bound

end Sys2Proof.Machine
end

section
/-! The clock under figures, their streams and landing accesses. -/

namespace Sys2Proof.Machine
variable {s₀ s : State}

@[bound] theorem le_clock_modFig (h : clock s₀ ≤ clock s) (g : Nat) (h : FigRun → FigRun) :
    clock s₀ ≤ clock (modFig s g h) := by
  simp only [modFig]; bound
@[bound] theorem le_clock_modTile (h : clock s₀ ≤ clock s) (g ti : Nat) (h : TileRun → TileRun) :
    clock s₀ ≤ clock (modTile s g ti h) := by
  simp only [modTile]; bound
@[bound] theorem le_clock_figFault (h : clock s₀ ≤ clock s) (g : Nat) (st : Status) :
    clock s₀ ≤ clock (figFault s g st) := by
  simp only [figFault]; bound
@[bound] theorem le_clock_settle (h : clock s₀ ≤ clock s) (bad : Nat → Bool) (a : Nat) (bs : Bytes) :
    clock s₀ ≤ clock (settle s bad a bs).2 := by
  simp only [settle]; bound
@[bound] theorem le_clock_noteAccess (h : clock s₀ ≤ clock s) (g ti kind a len : Nat) : clock s₀ ≤ clock (noteAccess s g ti kind a len) := h
@[bound] theorem le_clock_atomicApply (h : clock s₀ ≤ clock s) (ty a : Nat) (y : Bytes) :
    clock s₀ ≤ clock (atomicApply s ty a y).2 := by
  simp only [atomicApply]; bound
theorem le_clock_untilFault {α : Type} {f : State → α → Option Status × State}
    (hf : ∀ s x, clock s₀ ≤ clock s → clock s₀ ≤ clock (f s x).2) (l : List α) (h : clock s₀ ≤ clock s) :
    clock s₀ ≤ clock (untilFault f l s).2 := by
  induction l generalizing s with
  | nil => exact h
  | cons x l ih =>
    unfold untilFault
    split
    next s' e => exact ih (le_clock_of_snd e (hf s x h))
    · exact hf s x h
@[bound] theorem le_clock_reelApply (h : clock s₀ ≤ clock s) (f : FigRun) (ti : Nat) (c : List Nat) :
    clock s₀ ≤ clock (reelApply s f ti c).2 := by
  unfold reelApply
  dsimp only
  refine le_clock_ite_snd h (le_clock_pair _ ?_)
  refine le_clock_foldl (fun s i hs => le_clock_markPoison hs ..) _ ?_
  refine le_clock_devWrite (le_clock_settle ?_ ..) ..
  generalize (reelRanges c).1 = srcs
  have hread : ∀ (l : List (Nat × Nat)) (acc : List Bytes × State), clock s₀ ≤ clock acc.2 →
      clock s₀ ≤ clock (l.foldl (fun (acc : List Bytes × State) x =>
        (acc.1 ++ [(settle acc.2 (otherClash f ti accRead) x.1 (devRead acc.2 x.1 x.2)).1],
          (settle acc.2 (otherClash f ti accRead) x.1 (devRead acc.2 x.1 x.2)).2)) acc).2 := by
    intro l
    induction l with
    | nil => exact fun _ hacc => hacc
    | cons x l ih => exact fun acc hacc => ih _ (le_clock_settle hacc ..)
  exact hread srcs _ h
@[bound] theorem le_clock_arrive (h : clock s₀ ≤ clock s) (g ti : Nat) (q : Req) :
    clock s₀ ≤ clock (arrive s g ti q).2 := by
  unfold arrive
  split
  · exact h
  next f _ =>
    split
    · exact le_clock_devWrite (le_clock_settle h ..) ..
    next ty a y =>
      have happly := le_clock_atomicApply h ty a y
      split
      next st s' e => exact le_clock_pair (some st) (le_clock_of_snd e happly)
      next s' e => exact le_clock_pair none (le_clock_devWrite (le_clock_settle (le_clock_of_snd e happly) ..) ..)
    · exact le_clock_reelApply h ..
@[bound] theorem le_clock_drawArrival (h : clock s₀ ≤ clock s) : clock s₀ ≤ clock (drawArrival s).2 := h
@[bound] theorem le_clock_landOne (h : clock s₀ ≤ clock s) (g : Nat) (own : Nat → Bool) (force : Bool) :
    clock s₀ ≤ clock (landOne g own force s) := by
  unfold landOne
  split
  · exact h
  next f _ =>
    dsimp only
    split
    · exact h
    next x _ =>
      have harrive := le_clock_arrive (le_clock_modFig (le_clock_drawArrival h) g fun f => { f with flying := f.flying.erase x }) g x.1 x.2
      split
      next s' e => exact le_clock_of_snd e harrive
      next st s' e => exact le_clock_figFault (le_clock_of_snd e harrive) ..
@[bound] theorem le_clock_landAll (h : clock s₀ ≤ clock s) (g : Nat) (own : Nat → Bool) (force : Bool) :
    clock s₀ ≤ clock (landAll s g own force) := le_clock_iter (fun _ h => le_clock_landOne h ..) _ h
@[bound] theorem le_clock_landSome (h : clock s₀ ≤ clock s) (g : Nat) :
    clock s₀ ≤ clock (landSome s g) := by
  unfold landSome
  exact le_clock_ite h (le_clock_iter (fun _ h => le_clock_landOne h ..) _ (le_clock_drawArrival h))
@[bound] theorem le_clock_issue (h : clock s₀ ≤ clock s) (g ti : Nat) (q : Req) (f : FigRun) :
    clock s₀ ≤ clock (issue s g ti q f).2 := by
  have hnote : ∀ {s}, clock s₀ ≤ clock s →
      clock s₀ ≤ clock ((reqAccesses q).foldl (fun s (x : Nat × Nat × Nat) => noteAccess s g ti x.1 x.2.1 x.2.2) s) :=
    fun h => le_clock_foldl (fun _ _ h => le_clock_noteAccess h ..) _ h
  have hnow : ∀ {s}, clock s₀ ≤ clock s → clock s₀ ≤ clock (match arrive s g ti q with
      | (none, s) => (none, (reqAccesses q).foldl (fun s (x : Nat × Nat × Nat) => noteAccess s g ti x.1 x.2.1 x.2.2) s)
      | e => e).2 := by
    intro s h
    have harrive := le_clock_arrive h g ti q
    split
    next s' e => exact le_clock_pair none (hnote (le_clock_of_snd e harrive))
    · exact harrive
  unfold issue
  split
  · exact h
  · refine le_clock_ite_snd (le_clock_ite_snd (le_clock_pair none (hnote (le_clock_modFig ?_ ..))) (hnow ?_)) (hnow h)
    all_goals exact le_clock_drawArrival (le_clock_landSome h g)
@[bound] theorem le_clock_tileRead (h : clock s₀ ≤ clock s) (g ti a len : Nat) (f : FigRun) :
    clock s₀ ≤ clock (tileRead s g ti a len f).2 := by
  unfold tileRead
  split
  · exact h
  · exact le_clock_ite_snd (le_clock_landSome h g) (le_clock_noteAccess (le_clock_settle (le_clock_landSome h g) ..) ..)
@[bound] theorem le_clock_remoteIssue (h : clock s₀ ≤ clock s) (g : GroupIx) (ti : TileIx) (w : List Nat) (f : FigRun) (r : TileRun) :
    clock s₀ ≤ clock (remoteIssue s g ti w f r).2 := by
  simp only [remoteIssue]; bound
@[bound] theorem le_clock_outputRows (h : clock s₀ ≤ clock s) (g ti : Nat) (w : List Nat) (f : FigRun) (r : TileRun) :
    clock s₀ ≤ clock (outputRows s g ti w f r).2 := by
  refine le_clock_untilFault (fun s i hs => ?_) _ h
  generalize outRowBytes (scrOf f ti r) w r f.srSeed f.figIndex i = row
  have hrow : clock s₀ ≤ clock (if bit (ow w 1) 32
      then untilFault (fun s (x : Nat × Bytes) => issue s g ti (.atomic (bits (ow w 1) 2 0) ((outShape f.args w).1.1 + i * (outShape f.args w).1.2.2.2 + 64 * x.1) x.2) f)
        ((chunks 64 row.1).zipIdx.map fun x => (x.2, x.1)) s
      else if row.1.isEmpty then (none, s) else issue s g ti (.write ((outShape f.args w).1.1 + i * (outShape f.args w).1.2.2.2) row.1) f).2 :=
    le_clock_ite_snd (le_clock_untilFault (fun _ _ h => le_clock_issue h ..) _ hs) (le_clock_ite_snd hs (le_clock_issue hs ..))
  dsimp only
  split
  next s' e =>
    have hs' := le_clock_of_snd e hrow
    exact le_clock_ite_snd (le_clock_pair none hs') (le_clock_issue hs' ..)
  · exact hrow
@[bound] theorem le_clock_opDone {x : Option Status × State} (h : clock s₀ ≤ clock x.2) (g ti : Nat) :
    clock s₀ ≤ clock (opDone g ti x).1 := by
  unfold opDone
  split
  · exact le_clock_modTile h ..
  · exact le_clock_figFault h ..
@[bound] theorem le_clock_tileStep (h : clock s₀ ≤ clock s) (g : GroupIx) (ti : TileIx) : clock s₀ ≤ clock (tileStep s g ti).1 := by
  unfold tileStep
  split
  · exact h
  next f _ =>
    dsimp only
    split
    · exact h
    next w _ _ =>
      refine le_clock_ite_fst h ?_
      have hput : ∀ r', clock s₀ ≤ clock (opDone g ti (none, modTile s g ti fun _ => r')).1 :=
        fun r' => le_clock_opDone (le_clock_pair none (le_clock_modTile h ..)) ..
      split
      · refine le_clock_opDone (le_clock_untilFault (fun s x hs => ?_) _ h) ..
        have hread := le_clock_tileRead hs g ti x.1.1 x.1.2 f
        split
        next st s' e => exact le_clock_pair (some st) (le_clock_of_snd e hread)
        next bs s' e => exact le_clock_pair none (le_clock_modTile (le_clock_of_snd e hread) ..)
      · exact le_clock_opDone (le_clock_untilFault (fun s x hs => le_clock_issue hs ..) _ h) ..
      · exact hput _
      · exact le_clock_ite_fst (hput _) (le_clock_opDone (le_clock_outputRows h ..) ..)
      · exact hput _
      · exact hput _
      · exact hput _
      · exact le_clock_opDone (le_clock_untilFault (fun s x hs => le_clock_issue hs ..) _ h) ..
      · exact hput _
      · exact le_clock_opDone (le_clock_issue h ..) ..
      · exact le_clock_opDone (le_clock_remoteIssue h ..) ..
      · have hall : ∀ own, clock s₀ ≤ clock (landAll s g own) := fun own => le_clock_landAll h ..
        refine le_clock_ite_fst (le_clock_ite_fst (le_clock_ite_fst ?_ ?_) h) (le_clock_ite_fst (le_clock_ite_fst ?_ (hall _)) h)
        · refine le_clock_modFig (le_clock_landAll ?_ ..) ..
          exact h
        · refine le_clock_landAll ?_ ..
          exact h
        · exact le_clock_opDone (le_clock_pair none (le_clock_modFig (hall _) ..)) ..
      · exact hput _
@[bound] theorem le_clock_tileRunOn (h : clock s₀ ≤ clock s) (g : GroupIx) (ti : TileIx) (fuel : Nat) :
    clock s₀ ≤ clock (tileRunOn g ti fuel s) := by
  induction fuel generalizing s with
  | zero => exact h
  | succ fuel ih =>
    have hstep := le_clock_tileStep h g ti
    rw [tileRunOn]
    split
    next s' e => exact ih (le_clock_of_fst e hstep)
    next s' e => exact le_clock_of_fst e hstep
@[bound] theorem le_clock_figRunOn (h : clock s₀ ≤ clock s) (g : GroupIx) :
    clock s₀ ≤ clock (figRunOn s g) := by
  unfold figRunOn
  split
  · exact h
  · exact le_clock_iter (fun s h => le_clock_foldl (fun s ti h => le_clock_tileRunOn h ..) _ h) _ h
@[bound] theorem le_clock_digestIfLast (h : clock s₀ ≤ clock s) (uid : Nat) :
    clock s₀ ≤ clock (digestIfLast s uid) := by
  simp only [digestIfLast]; bound
@[bound] theorem le_clock_figEnd (h : clock s₀ ≤ clock s) (g : GroupIx) (cycles : Nat) :
    clock s₀ ≤ clock (figEnd s g cycles) := by
  unfold figEnd
  split
  · exact h
  · have hall := le_clock_landAll h g (fun _ => true) false
    exact le_clock_ite (le_clock_ite (le_clock_digestIfLast (le_clock_modFig hall ..) ..) hall) h
@[bound] theorem le_clock_leaveSlot (h : clock s₀ ≤ clock s) (g : Nat) :
    clock s₀ ≤ clock (leaveSlot s g) := by
  have hall := le_clock_landAll h g (fun _ => true) true
  unfold leaveSlot
  dsimp only
  split
  · exact hall
  · exact hall
@[bound] theorem le_clock_tileUpTo (h : clock s₀ ≤ clock s) (g : GroupIx) (ti : TileIx) (isKind : List Nat → Bool) (fuel : Nat) :
    clock s₀ ≤ clock (tileUpTo g ti isKind fuel s) := by
  induction fuel generalizing s with
  | zero => exact h
  | succ fuel ih =>
    have hstep := le_clock_tileStep h g ti
    rw [tileUpTo]
    split
    · exact h
    · split
      · exact h
      · split
        next s' e => exact le_clock_ite (le_clock_of_fst e hstep) (ih (le_clock_of_fst e hstep))
        next s' e => exact le_clock_of_fst e hstep
@[bound] theorem le_clock_nextOfKind (h : clock s₀ ≤ clock s) (g : GroupIx) (ti : TileIx) (isKind : List Nat → Bool) :
    clock s₀ ≤ clock (nextOfKind s g ti isKind) := by
  simp only [nextOfKind]; bound
@[bound] theorem le_clock_execFigureFinish (h : clock s₀ ≤ clock s) (g : GroupIx) (cycles : Nat) :
    clock s₀ ≤ clock (nextOf s (execFigureFinish g cycles s)) := by
  simp only [execFigureFinish, nextOf]; bound
@[bound] theorem le_clock_execMemoryRequest (h : clock s₀ ≤ clock s) (g : GroupIx) (tile : TileIx) :
    clock s₀ ≤ clock (nextOf s (execMemoryRequest g tile s)) := by
  simp only [execMemoryRequest, nextOf]; bound
@[bound] theorem le_clock_execReelCommand (h : clock s₀ ≤ clock s) (g : GroupIx) (tile : TileIx) :
    clock s₀ ≤ clock (nextOf s (execReelCommand g tile s)) := by
  simp only [execReelCommand, nextOf]; bound
@[bound] theorem le_clock_execAtomicRequest (h : clock s₀ ≤ clock s) (g : GroupIx) (tile : TileIx) :
    clock s₀ ≤ clock (nextOf s (execAtomicRequest g tile s)) := by
  simp only [execAtomicRequest, nextOf]; bound

end Sys2Proof.Machine
end

section
/-! The clock under COPY and the two loads. -/

namespace Sys2Proof.Machine
variable {s₀ s : State}

theorem le_clock_copyToDevice (h : clock s₀ ≤ clock s) (k : Ticket) (off : Nat) (bs : Bytes) {s' : State}
    (e : copyToDevice s k off bs = .ok s') : clock s₀ ≤ clock s' := by
  unfold copyToDevice at e
  dsimp only at e
  split at e
  · cases e
  · cases e
    exact le_clock_devWrite h ..
@[bound] theorem le_clock_copyFinish (h : clock s₀ ≤ clock s) (k : Ticket) (bs : Bytes) :
    clock s₀ ≤ clock (copyFinish s k bs) := by
  unfold copyFinish
  dsimp only
  have hout := le_clock_hostOut h k 1 (opW k 1) bs 0
  split
  · split
    next st s' e => exact le_clock_failTicket (le_clock_of_snd e hout) ..
    next s' e => exact le_clock_finishTicket (le_clock_modTicket (le_clock_of_snd e hout) ..) ..
  · split
    next => exact le_clock_failTicket h ..
    next s' e => exact le_clock_finishTicket (le_clock_modTicket (le_clock_copyToDevice h _ _ _ e) ..) ..
@[bound] theorem le_clock_copyDecrypt (h : clock s₀ ≤ clock s) (k : Ticket) (pkg material : Bytes) :
    clock s₀ ≤ clock (copyDecrypt s k pkg material) := by
  unfold copyDecrypt
  split
  · exact le_clock_failTicket h ..
  · refine le_clock_ite (le_clock_failTicket h ..) (le_clock_ite (le_clock_failTicket (le_clock_ite h ?_) ..) (le_clock_copyFinish h ..))
    split
    next => exact h
    next s' e => exact le_clock_modTicket (le_clock_copyToDevice h _ _ _ e) ..
@[bound] theorem le_clock_copyRun (h : clock s₀ ≤ clock s) (k : Ticket) (material : Option Bytes) :
    clock s₀ ≤ clock (copyRun s k material) := by
  unfold copyRun
  dsimp only
  split
  next m _ _ =>
    have hopen : ∀ total, clock s₀ ≤ clock (openTransfer k 0 total (cdiv total recPayload) k.buf [] s).2 :=
      fun _ => le_clock_openTransfer h ..
    refine le_clock_ite ?_ (le_clock_ite ?_ (le_clock_ite ?_ (le_clock_copyDecrypt h ..)))
    · bound
    · split
      · exact le_clock_fetchHost h ..
      · split
        next st s' e => exact le_clock_failTicket (le_clock_of_snd e (hopen _)) ..
        next pkg s' e => exact le_clock_copyDecrypt (le_clock_of_snd e (hopen _)) ..
      · exact h
    · bound
  · refine le_clock_ite ?_ (le_clock_ite (le_clock_finishTicket h ..) ?_)
    · bound
    · have htake := le_clock_takePlain h k.uid 0 (opW k 2)
      split
      · exact htake
      · refine le_clock_ite htake (le_clock_ite ?_ (le_clock_ite ?_ htake))
        · split
          next => exact le_clock_failTicket htake ..
          next s' e =>
            have hs' := le_clock_copyToDevice htake _ _ _ e
            bound
        · bound
@[bound] theorem le_clock_serveRunning {uid op : Nat} {g : State → Ticket → State} (hg : ∀ k, clock s₀ ≤ clock (g s k)) (h :
    clock s₀ ≤ clock s) :
    clock s₀ ≤ clock (serveRunning s uid op g) := by
  simp only [serveRunning]; bound
@[bound] theorem le_clock_withKey {g : State → Ticket → Bytes → State} (hg : ∀ s k m, clock s₀ ≤ clock s → clock s₀ ≤ clock (g s k m))
    (h : clock s₀ ≤ clock s) (k : Ticket) (slot usage : Nat) : clock s₀ ≤ clock (withKey s k slot usage g) := by
  unfold withKey
  split
  · exact hg _ _ _ h
  · split
    · exact le_clock_failTicket h ..
    · exact hg _ _ _ (le_clock_modTicket h ..)
@[bound] theorem le_clock_serveCopy (h : clock s₀ ≤ clock s) (k : Ticket) :
    clock s₀ ≤ clock (serveCopy s k) := by
  simp only [serveCopy]; bound
@[bound] theorem le_clock_modelChunks (h : clock s₀ ≤ clock s) (k : Ticket) (m h body : Bytes) :
    clock s₀ ≤ clock (modelChunks s k m h body) := by
  simp only [modelChunks]; bound
@[bound] theorem le_clock_serveModelLoad (h : clock s₀ ≤ clock s) (k : Ticket) :
    clock s₀ ≤ clock (serveModelLoad s k) := by
  simp only [serveModelLoad]; bound
@[bound] theorem le_clock_serveMicroprog (h : clock s₀ ≤ clock s) (k : Ticket) :
    clock s₀ ≤ clock (serveMicroprog s k) := by
  simp only [serveMicroprog]; bound
@[bound] theorem le_clock_installProg (h : clock s₀ ≤ clock s) (t : TarnIx) (fn : Nat) (b : Bytes) :
    clock s₀ ≤ clock (installProg s t fn b) := by
  simp only [installProg]; bound
@[bound] theorem le_clock_commitMicroprog (h : clock s₀ ≤ clock s) (k : Ticket) :
    clock s₀ ≤ clock (commitMicroprog s k) := by
  simp only [commitMicroprog]; bound
@[bound] theorem le_clock_execCopy (h : clock s₀ ≤ clock s) (uid : Nat) : clock s₀ ≤ clock (nextOf s (execCopy uid s)) := by
  simp only [execCopy, nextOf]; bound
@[bound] theorem le_clock_execModelLoad (h : clock s₀ ≤ clock s) (uid : Nat) : clock s₀ ≤ clock (nextOf s (execModelLoad uid s)) := by
  simp only [execModelLoad, nextOf]; bound
@[bound] theorem le_clock_execMicroprogLoad (h : clock s₀ ≤ clock s) (uid : Nat) :
    clock s₀ ≤ clock (nextOf s (execMicroprogLoad uid s)) := by
  simp only [execMicroprogLoad, nextOf]; bound

end Sys2Proof.Machine
end

section
/-! The clock under checks of operands at admission. -/

namespace Sys2Proof.Machine
variable {s₀ s : State}

@[bound] theorem le_clock_takeId (h : clock s₀ ≤ clock s) (ix : Nat) : clock s₀ ≤ clock (takeId s ix).2 := h
@[bound] theorem le_clock_createTicket (h : clock s₀ ≤ clock s) (t : TarnIx) (q : QpIx) (e : Entry) :
    clock s₀ ≤ clock (createTicket s t q e).2 := by
  simp only [createTicket]; bound

end Sys2Proof.Machine
end

section
/-! The clock under completions and fences. -/

namespace Sys2Proof.Machine
variable {s₀ s : State}

@[bound] theorem le_clock_sealRegion (h : clock s₀ ≤ clock s) (t : TarnIx) (a len : Nat) :
    clock s₀ ≤ clock (sealRegion s t a len) := by
  simp only [sealRegion]; bound
@[bound] theorem le_clock_beforeCommit (h : clock s₀ ≤ clock s) (k : Ticket) :
    clock s₀ ≤ clock (beforeCommit s k) := by
  simp only [beforeCommit]; bound
@[bound] theorem le_clock_commitTicket (h : clock s₀ ≤ clock s) (uid : Nat) :
    clock s₀ ≤ clock (commitTicket s uid) := by
  simp only [commitTicket]; bound
@[bound] theorem le_clock_commitTickets (h : clock s₀ ≤ clock s) : clock s₀ ≤ clock (commitTickets s) := by simp only [commitTickets]; bound
@[bound] theorem le_clock_releaseTicket (h : clock s₀ ≤ clock s) (uid : Nat) :
    clock s₀ ≤ clock (releaseTicket s uid) := by
  simp only [releaseTicket]; bound
@[bound] theorem le_clock_postComp (h : clock s₀ ≤ clock s) (t : TarnIx) (q : QpIx) (x : PostItem) (c : Comp) (fails : Bool) :
    clock s₀ ≤ clock (postComp s t q x c fails) := by
  simp only [postComp]; bound
@[bound] theorem le_clock_postQp (h : clock s₀ ≤ clock s) (may : PostItem → Bool) (t : TarnIx) (q : QpIx) (fails : Bool) (fuel : Nat) :
    clock s₀ ≤ clock (postQp may t q fails fuel s) := by
  induction fuel generalizing s with
  | zero => exact h
  | succ fuel ih =>
    unfold postQp
    split
    · exact h
    next x _ _ =>
      split
      · exact h
      next c _ =>
        apply ih
        split
        · exact le_clock_releaseTicket (le_clock_postComp h ..) ..
        · exact le_clock_postComp h ..
@[bound] theorem le_clock_postTarn (h : clock s₀ ≤ clock s) (cqFail : List (TarnIx × QpIx)) (t : TarnIx) (may : PostItem → Bool) :
    clock s₀ ≤ clock (postTarn s cqFail t may) := by
  unfold postTarn
  apply le_clock_foldl
  · exact fun s q h => le_clock_postQp h ..
  · exact h
@[bound] theorem le_clock_postAll (h : clock s₀ ≤ clock s) (cqFail : List (TarnIx × QpIx)) :
    clock s₀ ≤ clock (postAll s cqFail) := by
  unfold postAll
  apply le_clock_foldl
  · exact fun s uid h => le_clock_releaseTicket h uid
  · apply le_clock_foldl
    · exact fun s t h => le_clock_postTarn h ..
    · exact h
@[bound] theorem le_clock_raiseIrqs (h : clock s₀ ≤ clock s) (t : TarnIx) :
    clock s₀ ≤ clock (raiseIrqs s t) := by
  unfold raiseIrqs
  apply le_clock_foldl
  · exact fun s q h => le_clock_modQp h ..
  · apply le_clock_foldl
    · exact fun s v h => le_clock_sendVector h ..
    · exact h
@[bound] theorem le_clock_raiseAll (h : clock s₀ ≤ clock s) :
    clock s₀ ≤ clock (raiseAll s) := by
  unfold raiseAll
  apply le_clock_foldl
  · exact fun s t h => le_clock_raiseIrqs h t
  · exact h

end Sys2Proof.Machine
end

section
/-! The clock under rounds, their records and their release. -/

namespace Sys2Proof.Machine
variable {s₀ s : State}

@[bound] theorem le_clock_combineNote (h : clock s₀ ≤ clock s) (t : TarnIx) (r : Round) (kind : Nat) :
    clock s₀ ≤ clock (combineNote s t r kind) := by
  simp only [combineNote]; bound
@[bound] theorem le_clock_takeMsg (h : clock s₀ ≤ clock s) (x : LinkIx × InMsg) : clock s₀ ≤ clock (takeMsg s x) := h
@[bound] theorem le_clock_tallyMove (h : clock s₀ ≤ clock s) (t : TarnIx) (r : Round) (dst : RState) (st : Status) (certDigest : Bytes) :
    clock s₀ ≤ clock (tallyMove s t r dst st certDigest) := by
  simp only [tallyMove]; bound
@[bound] theorem le_clock_moveRound (h : clock s₀ ≤ clock s) (t : TarnIx) (rid : Nat) (dst : RState) (st : Status) (certDigest : Bytes) :
    clock s₀ ≤ clock (moveRound s t rid dst st certDigest) := by
  simp only [moveRound]; bound
@[bound] theorem le_clock_roundEvent (h : clock s₀ ≤ clock s) (t : TarnIx) (rid code : Nat) (st : Status) :
    clock s₀ ≤ clock (roundEvent s t rid code st) := by
  simp only [roundEvent]; bound
@[bound] theorem le_clock_retireRound (h : clock s₀ ≤ clock s) (t : TarnIx) (rid : Nat) : clock s₀ ≤ clock (retireRound s t rid) := h
@[bound] theorem le_clock_writeOutcomes (h : clock s₀ ≤ clock s) (k : Ticket) (unit : Nat) :
    clock s₀ ≤ clock (writeOutcomes s k unit).2 := by
  simp only [writeOutcomes]; bound
@[bound] theorem le_clock_entryOutcome (h : clock s₀ ≤ clock s) (uid m unit : Nat) (st : Status) :
    clock s₀ ≤ clock (entryOutcome s uid m unit st) := by
  simp only [entryOutcome]; bound
@[bound] theorem le_clock_recOutcome (h : clock s₀ ≤ clock s) (src : Option RecSource) (unit rid c : Nat) (st : Status) :
    clock s₀ ≤ clock (recOutcome s src unit rid c st) := by
  simp only [recOutcome]; bound
@[bound] theorem le_clock_openChecked (h : clock s₀ ≤ clock s) (k : Ticket) (raw : Bytes) (p : Plan) (roster : Bytes) :
    clock s₀ ≤ clock (openChecked s k raw p roster) := by
  simp only [openChecked]; bound
@[bound] theorem le_clock_serveRoundOpen (h : clock s₀ ≤ clock s) (k : Ticket) :
    clock s₀ ≤ clock (serveRoundOpen s k) := by
  have hplain : ∀ operand p, clock s₀ ≤ clock (plainOf s k operand p k.buf).2 := fun _ _ => le_clock_plainOf h ..
  unfold serveRoundOpen
  refine le_clock_ite ?_ (le_clock_ite ?_ h)
  · split
    next st s' e => exact le_clock_failTicket (le_clock_of_snd e (hplain ..)) ..
    next raw s' e =>
      have hs' := le_clock_of_snd e (hplain ..)
      bound
  · split
    next p roster s' _ e =>
      have hs' := le_clock_of_snd e (hplain ..)
      bound
    next st s' e => exact le_clock_failTicket (le_clock_of_snd e (hplain ..)) ..
    · exact h
@[bound] theorem le_clock_zeroRound (h : clock s₀ ≤ clock s) (t : TarnIx) (rid : Nat) :
    clock s₀ ≤ clock (zeroRound s t rid) := by
  simp only [zeroRound]; bound
@[bound] theorem le_clock_becomeOpen (h : clock s₀ ≤ clock s) (t : TarnIx) (rid : Nat) :
    clock s₀ ≤ clock (becomeOpen s t rid) := by
  simp only [becomeOpen]; bound
theorem le_clock_contribStep (h : clock s₀ ≤ clock s) (uid : Nat) {s' : State} (hs : contribStep s uid = some s') :
    clock s₀ ≤ clock s' := by
  simp only [contribStep] at hs
  repeat' split at hs
  all_goals cases hs
  all_goals bound
@[bound] theorem le_clock_contribSteps (h : clock s₀ ≤ clock s) (uid : Nat) (fuel : Nat) :
    clock s₀ ≤ clock (contribSteps uid fuel s) := by
  induction fuel generalizing s with
  | zero => exact h
  | succ fuel ih =>
    rw [contribSteps]
    split
    · exact h
    next s' e => exact ih (le_clock_contribStep h uid e)
@[bound] theorem le_clock_serveContrib (h : clock s₀ ≤ clock s) (k : Ticket) :
    clock s₀ ≤ clock (serveContrib s k) := by
  simp only [serveContrib]; bound
@[bound] theorem le_clock_arriveSlot (h : clock s₀ ≤ clock s) (t : TarnIx) (rid i : Nat) :
    clock s₀ ≤ clock (arriveSlot s t rid i) := by
  simp only [arriveSlot]; bound
@[bound] theorem le_clock_foldSlot (h : clock s₀ ≤ clock s) (t : TarnIx) (rid i : Nat) :
    clock s₀ ≤ clock (foldSlot s t rid i) := by
  simp only [foldSlot]; bound
@[bound] theorem le_clock_commitFolds (h : clock s₀ ≤ clock s) (t : TarnIx) (rid : Nat) :
    clock s₀ ≤ clock (commitFolds s t rid) := by
  simp only [commitFolds]; bound
@[bound] theorem le_clock_stageExpire (h : clock s₀ ≤ clock s) (t : TarnIx) (rid i : Nat) :
    clock s₀ ≤ clock (stageExpire s t rid i) := by
  simp only [stageExpire]; bound
@[bound] theorem le_clock_setPart (h : clock s₀ ≤ clock s) (n : LinkIx) (q q' : IntakePart) : clock s₀ ≤ clock (setPart s n q q') := h
@[bound] theorem le_clock_dropPart (h : clock s₀ ≤ clock s) (n : LinkIx) (q : IntakePart) : clock s₀ ≤ clock (dropPart s n q) := h
@[bound] theorem le_clock_streamPart (h : clock s₀ ≤ clock s) (n : LinkIx) (t : TarnIx) (q : IntakePart) (i : Nat) :
    clock s₀ ≤ clock (streamPart s n t q i) := by
  simp only [streamPart]; bound
@[bound] theorem le_clock_pumpPart (h : clock s₀ ≤ clock s) (t : TarnIx) (x : LinkIx × IntakePart) :
    clock s₀ ≤ clock (pumpPart s t x) := by
  simp only [pumpPart]; bound
@[bound] theorem le_clock_expirePart (h : clock s₀ ≤ clock s) (t : TarnIx) (x : LinkIx × IntakePart) :
    clock s₀ ≤ clock (expirePart s t x) := by
  simp only [expirePart]; bound
@[bound] theorem le_clock_pumpIntake (h : clock s₀ ≤ clock s) (t : TarnIx) :
    clock s₀ ≤ clock (pumpIntake s t) := by
  simp only [pumpIntake]; bound
@[bound] theorem le_clock_resumeIntake (h : clock s₀ ≤ clock s) (t : TarnIx) :
    clock s₀ ≤ clock (resumeIntake s t) := by
  simp only [resumeIntake]; bound
@[bound] theorem le_clock_dropParts (h : clock s₀ ≤ clock s) (t : TarnIx) (rid : Nat) (st : Status) :
    clock s₀ ≤ clock (dropParts s t rid st) := by
  simp only [dropParts]; bound
@[bound] theorem le_clock_discardReceiving (h : clock s₀ ≤ clock s) (t : TarnIx) (rid : Nat) (r : Round) (st : Status) :
    clock s₀ ≤ clock (discardReceiving s t rid r st) := by
  simp only [discardReceiving]; bound
@[bound] theorem le_clock_arriveAll (h : clock s₀ ≤ clock s) (t : TarnIx) (y : Nat) (all : Bool) :
    clock s₀ ≤ clock (arriveAll s t y all) := by
  simp only [arriveAll]; bound
@[bound] theorem le_clock_closeRound (h : clock s₀ ≤ clock s) (t : TarnIx) (rid : Nat) :
    clock s₀ ≤ clock (closeRound s t rid) := by
  unfold closeRound
  split
  · exact h
  apply le_clock_ite h
  extract_lets quiet arrived
  have harrived : clock s₀ ≤ clock arrived := le_clock_arriveAll h ..
  clear_value arrived
  split
  · exact harrived
  rename_i moved stamped _ r _
  extract_lets discarded told opened answered
  have hmoved : clock s₀ ≤ clock moved := le_clock_moveRound harrived ..
  have hstamped : clock s₀ ≤ clock stamped := le_clock_modRound hmoved ..
  clear_value stamped
  have htold : clock s₀ ≤ clock told := le_clock_roundEvent (le_clock_arriveAll (le_clock_discardReceiving hstamped ..) ..) ..
  clear_value told
  have hopened : clock s₀ ≤ clock opened := le_clock_ite (le_clock_tallyGovernorOpen htold ..) htold
  clear_value opened
  have hanswered : clock s₀ ≤ clock answered := by
    apply le_clock_foldl _ _ hopened
    exact fun s k h => le_clock_finishTicket h ..
  exact le_clock_ite (le_clock_combineNote hanswered ..) hanswered
@[bound] theorem le_clock_serveRoundClose (h : clock s₀ ≤ clock s) (k : Ticket) :
    clock s₀ ≤ clock (serveRoundClose s k) := by
  simp only [serveRoundClose]; bound
@[bound] theorem le_clock_certify (h : clock s₀ ≤ clock s) (t : TarnIx) (rid : Nat) (dst : RState) (st : Status) (sumDigest : Bytes) :
    clock s₀ ≤ clock (certify s t rid dst st sumDigest) := by
  simp only [certify]; bound
@[bound] theorem le_clock_eraseSecrets (h : clock s₀ ≤ clock s) (t : TarnIx) (rid : Nat) : clock s₀ ≤ clock (eraseSecrets s t rid) := h
@[bound] theorem le_clock_endRoundTickets (h : clock s₀ ≤ clock s) (t : TarnIx) (rid : Nat) (st : Status) :
    clock s₀ ≤ clock (endRoundTickets s t rid st) := by
  simp only [endRoundTickets]; bound
@[bound] theorem le_clock_dropSlots (h : clock s₀ ≤ clock s) (t : TarnIx) (rid : Nat) (st : Status) :
    clock s₀ ≤ clock (dropSlots s t rid st) := by
  simp only [dropSlots]; bound
@[bound] theorem le_clock_refuseRound (h : clock s₀ ≤ clock s) (t : TarnIx) (rid : Nat) (st : Status) :
    clock s₀ ≤ clock (refuseRound s t rid st) := by
  simp only [refuseRound]; bound
@[bound] theorem le_clock_abortRound (h : clock s₀ ≤ clock s) (t : TarnIx) (rid : Nat) (st : Status) :
    clock s₀ ≤ clock (abortRound s t rid st) := by
  simp only [abortRound]; bound
@[bound] theorem le_clock_releaseRound (h : clock s₀ ≤ clock s) (t : TarnIx) (rid : Nat) :
    clock s₀ ≤ clock (releaseRound s t rid) := by
  simp only [releaseRound]; bound
@[bound] theorem le_clock_regionScrubbed (h : clock s₀ ≤ clock s) (t : TarnIx) (rid : Nat) :
    clock s₀ ≤ clock (regionScrubbed s t rid) := by
  simp only [regionScrubbed]; bound
@[bound] theorem le_clock_serveRoundAbort (h : clock s₀ ≤ clock s) (k : Ticket) :
    clock s₀ ≤ clock (serveRoundAbort s k) := by
  simp only [serveRoundAbort]; bound
@[bound] theorem le_clock_serveRoundStatus (h : clock s₀ ≤ clock s) (k : Ticket) :
    clock s₀ ≤ clock (serveRoundStatus s k) := by
  unfold serveRoundStatus
  split
  · exact h
  next r _ =>
    dsimp only
    split
    next st s' e => exact le_clock_failTicket (le_clock_of_snd e (le_clock_hostOut h ..)) ..
    next s' e => exact le_clock_answerTicket (le_clock_of_snd e (le_clock_hostOut h ..)) ..
@[bound] theorem le_clock_serveCertRead (h : clock s₀ ≤ clock s) (k : Ticket) :
    clock s₀ ≤ clock (serveCertRead s k) := by
  unfold serveCertRead
  split
  · exact h
  next r _ =>
    refine le_clock_ite (le_clock_answerTicket h ..) ?_
    dsimp only
    split
    next st s' e => exact le_clock_failTicket (le_clock_of_snd e (le_clock_hostOut h ..)) ..
    next s' e => exact le_clock_answerTicket (le_clock_of_snd e (le_clock_hostOut h ..)) ..
@[bound] theorem le_clock_execRoundOpen (h : clock s₀ ≤ clock s) (uid : Nat) : clock s₀ ≤ clock (nextOf s (execRoundOpen uid s)) := by
  simp only [execRoundOpen, nextOf]; bound
@[bound] theorem le_clock_execRoundOpened (h : clock s₀ ≤ clock s) (t : TarnIx) (round : BitVec 32) :
    clock s₀ ≤ clock (nextOf s (execRoundOpened t round s)) := by
  simp only [execRoundOpened, nextOf]; bound
@[bound] theorem le_clock_execContribSubmit (h : clock s₀ ≤ clock s) (uid : Nat) :
    clock s₀ ≤ clock (nextOf s (execContribSubmit uid s)) := by
  simp only [execContribSubmit, nextOf]; bound
@[bound] theorem le_clock_execRecordArrival (h : clock s₀ ≤ clock s) (t : TarnIx) (round : BitVec 32) (slot : Nat) :
    clock s₀ ≤ clock (nextOf s (execRecordArrival t round slot s)) := by
  simp only [execRecordArrival, nextOf]; bound
@[bound] theorem le_clock_execFoldComplete (h : clock s₀ ≤ clock s) (t : TarnIx) (round : BitVec 32) (slot : Nat) :
    clock s₀ ≤ clock (nextOf s (execFoldComplete t round slot s)) := by
  simp only [execFoldComplete, nextOf]; bound
@[bound] theorem le_clock_execStageTimeout (h : clock s₀ ≤ clock s) (t : TarnIx) (round : BitVec 32) (slot : Nat) :
    clock s₀ ≤ clock (nextOf s (execStageTimeout t round slot s)) := by
  simp only [execStageTimeout, nextOf]; bound
@[bound] theorem le_clock_execRecordIntakeResume (h : clock s₀ ≤ clock s) (t : TarnIx) :
    clock s₀ ≤ clock (nextOf s (execRecordIntakeResume t s)) := by
  simp only [execRecordIntakeResume, nextOf]; bound
@[bound] theorem le_clock_execClose (h : clock s₀ ≤ clock s) (t : TarnIx) (round : BitVec 32) :
    clock s₀ ≤ clock (nextOf s (execClose t round s)) := by
  simp only [execClose, nextOf]; bound
@[bound] theorem le_clock_execRoundClose (h : clock s₀ ≤ clock s) (uid : Nat) : clock s₀ ≤ clock (nextOf s (execRoundClose uid s)) := by
  simp only [execRoundClose, nextOf]; bound
@[bound] theorem le_clock_execRoundRelease (h : clock s₀ ≤ clock s) (t : TarnIx) (round : BitVec 32) :
    clock s₀ ≤ clock (nextOf s (execRoundRelease t round s)) := by
  simp only [execRoundRelease, nextOf]; bound
@[bound] theorem le_clock_execRoundRegionScrubbed (h : clock s₀ ≤ clock s) (t : TarnIx) (round : BitVec 32) :
    clock s₀ ≤ clock (nextOf s (execRoundRegionScrubbed t round s)) := by
  simp only [execRoundRegionScrubbed, nextOf]; bound
@[bound] theorem le_clock_execRoundAbort (h : clock s₀ ≤ clock s) (uid : Nat) : clock s₀ ≤ clock (nextOf s (execRoundAbort uid s)) := by
  simp only [execRoundAbort, nextOf]; bound
@[bound] theorem le_clock_execUnmaskTimeout (h : clock s₀ ≤ clock s) (t : TarnIx) (round : BitVec 32) :
    clock s₀ ≤ clock (nextOf s (execUnmaskTimeout t round s)) := by
  simp only [execUnmaskTimeout, nextOf]; bound
@[bound] theorem le_clock_execRoundStatus (h : clock s₀ ≤ clock s) (uid : Nat) : clock s₀ ≤ clock (nextOf s (execRoundStatus uid s)) := by
  simp only [execRoundStatus, nextOf]; bound
@[bound] theorem le_clock_execCertRead (h : clock s₀ ≤ clock s) (uid : Nat) : clock s₀ ≤ clock (nextOf s (execCertRead uid s)) := by
  simp only [execCertRead, nextOf]; bound

end Sys2Proof.Machine
end

section
/-! The clock under change sets and the map. -/

namespace Sys2Proof.Machine
variable {s₀ s : State}

@[bound] theorem le_clock_swapTable (h : clock s₀ ≤ clock s) (tb : SchedTable) :
    clock s₀ ≤ clock (swapTable s tb) := by
  simp only [swapTable]; bound
@[bound] theorem le_clock_stepSchedule (h : clock s₀ ≤ clock s) : clock s₀ ≤ clock (stepSchedule s) := by simp only [stepSchedule]; bound
@[bound] theorem le_clock_acceptSet (h : clock s₀ ≤ clock s) (c : ChangeSet) :
    clock s₀ ≤ clock (acceptSet s c) := by
  unfold acceptSet
  dsimp only
  have hset :
    clock s₀ ≤ clock { s with sets := (s.sets ++ [{ c with id := s.nextSet }]).drop (s.sets.length + 1 - 256), nextSet := s.nextSet % 0xFFFF + 1 } :=
    le_clock_mk h ..
  exact le_clock_ite (le_clock_tallySet (le_clock_tallySet hset ..) ..) (le_clock_tallySet hset ..)
@[bound] theorem le_clock_refuseSet (h : clock s₀ ≤ clock s) (t : Nat) (digest : Bytes) (st : Status) :
    clock s₀ ≤ clock (refuseSet s t digest st) := by
  simp only [refuseSet]; bound
@[bound] theorem le_clock_submitHost (h : clock s₀ ≤ clock s) (t : TarnIx) (uid : Nat) (raw : Bytes) (len : Nat) :
    clock s₀ ≤ clock (submitHost s t uid raw len).2 := by
  unfold submitHost
  dsimp only
  split
  · exact le_clock_refuseSet h ..
  · refine le_clock_ite_snd (le_clock_refuseSet h ..) (le_clock_ite_snd (le_clock_refuseSet h ..) ?_)
    split
    · exact le_clock_ite_snd (le_clock_refuseSet h ..) (le_clock_acceptSet h ..)
    · exact le_clock_refuseSet h ..
@[bound] theorem le_clock_submitMgmt (h : clock s₀ ≤ clock s) (raw : Bytes) (force : Bool) (gmp : Option (GmpChannel × Nat)) :
    clock s₀ ≤ clock (submitMgmt s raw force gmp).2 := by
  simp only [submitMgmt]; bound
@[bound] theorem le_clock_modSet (h : clock s₀ ≤ clock s) (id : Nat) (g : ChangeSet → ChangeSet) : clock s₀ ≤ clock (modSet s id g) := h
@[bound] theorem le_clock_serveChangeStatus (h : clock s₀ ≤ clock s) (k : Ticket) :
    clock s₀ ≤ clock (serveChangeStatus s k) := by
  unfold serveChangeStatus
  split
  · exact le_clock_answerTicket h ..
  · refine le_clock_ite (le_clock_answerTicket h ..) ?_
    dsimp only
    split
    next st s' e => exact le_clock_failTicket (le_clock_of_snd e (le_clock_hostOut h ..)) ..
    next s' e => exact le_clock_answerTicket (le_clock_of_snd e (le_clock_hostOut h ..)) ..
@[bound] theorem le_clock_serveChangeSubmit (h : clock s₀ ≤ clock s) (k : Ticket) :
    clock s₀ ≤ clock (serveChangeSubmit s k) := by
  unfold serveChangeSubmit
  refine le_clock_ite h ?_
  have hplain := le_clock_plainOf h k 0 (opW k 1) k.buf
  split
  next st s' e => exact le_clock_failTicket (le_clock_of_snd e hplain) ..
  next raw s' e =>
    have hsubmit := le_clock_submitHost (le_clock_of_snd e hplain) k.tarn k.uid raw (opW k 1)
    split
    next s'' e' => exact le_clock_modTicket (le_clock_of_snd e' hsubmit) ..
    next st s'' _ e' => exact le_clock_answerTicket (le_clock_of_snd e' hsubmit) ..
@[bound] theorem le_clock_failPhase (h : clock s₀ ≤ clock s) (c : ChangeSet) (st : Status) :
    clock s₀ ≤ clock (failPhase s c st) := by
  simp only [failPhase]; bound
@[bound] theorem le_clock_forceAborts (h : clock s₀ ≤ clock s) (ph : Phase) :
    clock s₀ ≤ clock (forceAborts s ph) := by
  simp only [forceAborts]; bound
@[bound] theorem le_clock_endTarn (h : clock s₀ ≤ clock s) (t : TarnIx) :
    clock s₀ ≤ clock (endTarn s t) := by
  unfold endTarn
  apply le_clock_commitTickets
  apply le_clock_foldl
  · bound
  · exact h
@[bound] theorem le_clock_applyPhase (h : clock s₀ ≤ clock s) (c : ChangeSet) (ph : Phase) (breaks : Bool) :
    clock s₀ ≤ clock (applyPhase s c ph breaks) := by
  unfold applyPhase
  extract_lets n total mapped programmed shadowed counted st noted advised
  have hmapped : clock s₀ ≤ clock mapped := by unfold mapped; bound
  have hprogrammed : clock s₀ ≤ clock programmed := by unfold programmed; bound
  have hshadowed : clock s₀ ≤ clock shadowed := by unfold shadowed; bound
  have hcounted : clock s₀ ≤ clock counted := le_clock_modSet hshadowed ..
  have hadvised : clock s₀ ≤ clock advised := by unfold advised noted; bound
  bound
@[bound] theorem le_clock_takePhase (h : clock s₀ ≤ clock s) (c : ChangeSet) (ph : Phase) :
    clock s₀ ≤ clock (takePhase s c ph) := by
  unfold takePhase
  split
  · exact le_clock_failPhase h ..
  · apply le_clock_applyPhase
    apply le_clock_foldl
    · exact fun s t h => le_clock_postTarn (le_clock_endTarn h t) ..
    · exact le_clock_forceAborts h ph
@[bound] theorem le_clock_takeDue (h : clock s₀ ≤ clock s) (kind : ChangeSet → Phase → Bool) :
    clock s₀ ≤ clock (takeDue s kind) := by
  simp only [takeDue]; bound
@[bound] theorem le_clock_expirePhases (h : clock s₀ ≤ clock s) : clock s₀ ≤ clock (expirePhases s) := by simp only [expirePhases]; bound
@[bound] theorem le_clock_completeHostSet (h : clock s₀ ≤ clock s) (uid id e : Nat) :
    clock s₀ ≤ clock (completeHostSet s uid id e) := by
  unfold completeHostSet
  split
  next k c _ _ =>
    refine le_clock_ite h ?_
    split
    next st s' e => exact le_clock_failTicket (le_clock_of_snd e (le_clock_hostOut h ..)) ..
    next s' e => exact le_clock_finishTicket (le_clock_of_snd e (le_clock_hostOut h ..)) ..
  · exact h
@[bound] theorem le_clock_settleSets (h : clock s₀ ≤ clock s) : clock s₀ ≤ clock (settleSets s) := h
@[bound] theorem le_clock_drainEffect (h : clock s₀ ≤ clock s) (r : RuleChange) :
    clock s₀ ≤ clock (drainEffect s r) := by
  simp only [drainEffect]; bound
@[bound] theorem le_clock_drainRule (h : clock s₀ ≤ clock s) (id : Nat) :
    clock s₀ ≤ clock (drainRule s id) := by
  simp only [drainRule]; bound
@[bound] theorem le_clock_drainRules (h : clock s₀ ≤ clock s) : clock s₀ ≤ clock (drainRules s) := by simp only [drainRules]; bound
@[bound] theorem le_clock_closeRule (h : clock s₀ ≤ clock s) (r : RuleChange) :
    clock s₀ ≤ clock (closeRule s r) := by
  simp only [closeRule]; bound
@[bound] theorem le_clock_closeRules (h : clock s₀ ≤ clock s) : clock s₀ ≤ clock (closeRules s) := by simp only [closeRules]; bound
@[bound] theorem le_clock_execScheduleSwap (h : clock s₀ ≤ clock s) : clock s₀ ≤ clock (nextOf s (execScheduleSwap s)) := by
  simp only [execScheduleSwap, nextOf]; bound
@[bound] theorem le_clock_execChangeStatus (h : clock s₀ ≤ clock s) (uid : Nat) : clock s₀ ≤ clock (nextOf s (execChangeStatus uid s)) := by
  simp only [execChangeStatus, nextOf]; bound
@[bound] theorem le_clock_execChangeSubmit (h : clock s₀ ≤ clock s) (uid : Nat) : clock s₀ ≤ clock (nextOf s (execChangeSubmit uid s)) := by
  simp only [execChangeSubmit, nextOf]; bound
@[bound] theorem le_clock_execMapChangeApply (h : clock s₀ ≤ clock s) : clock s₀ ≤ clock (nextOf s (execMapChangeApply s)) := by
  simp only [execMapChangeApply, nextOf]; bound
@[bound] theorem le_clock_execPhaseApply (h : clock s₀ ≤ clock s) : clock s₀ ≤ clock (nextOf s (execPhaseApply s)) := by
  simp only [execPhaseApply, nextOf]; bound
@[bound] theorem le_clock_execHostSetApply (h : clock s₀ ≤ clock s) : clock s₀ ≤ clock (nextOf s (execHostSetApply s)) := by
  simp only [execHostSetApply, nextOf]; bound
@[bound] theorem le_clock_execPhaseTimeout (h : clock s₀ ≤ clock s) : clock s₀ ≤ clock (nextOf s (execPhaseTimeout s)) := by
  simp only [execPhaseTimeout, nextOf]; bound
@[bound] theorem le_clock_execRuleChangeDrained (h : clock s₀ ≤ clock s) : clock s₀ ≤ clock (nextOf s (execRuleChangeDrained s)) := by
  simp only [execRuleChangeDrained, nextOf]; bound

end Sys2Proof.Machine
end

section
/-! The clock under shares, rebuilds, KAE jobs and combining. -/

namespace Sys2Proof.Machine
variable {s₀ s : State}

@[bound] theorem le_clock_requireSecrets (h : clock s₀ ≤ clock s) (t : TarnIx) (rid : Nat) : clock s₀ ≤ clock (requireSecrets s t rid) := h
@[bound] theorem le_clock_addJob (h : clock s₀ ≤ clock s) (t : TarnIx) (rid kind owner other : Nat) (secret : Bytes) :
    clock s₀ ≤ clock (addJob s t rid kind owner other secret) := h
@[bound] theorem le_clock_dropJob (h : clock s₀ ≤ clock s) (t : TarnIx) (id : Nat) : clock s₀ ≤ clock (dropJob s t id) := h
@[bound] theorem le_clock_startUnmasking (h : clock s₀ ≤ clock s) (t : TarnIx) (rid : Nat) :
    clock s₀ ≤ clock (startUnmasking s t rid) := by
  simp only [startUnmasking]; bound
@[bound] theorem le_clock_sendCombineData (h : clock s₀ ≤ clock s) (t : TarnIx) (r : Round) :
    clock s₀ ≤ clock (sendCombineData s t r) := by
  simp only [sendCombineData]; bound
@[bound] theorem le_clock_dropData (h : clock s₀ ≤ clock s) (rid : Nat) : clock s₀ ≤ clock (dropData s rid) := h
@[bound] theorem le_clock_leaveClosed (h : clock s₀ ≤ clock s) (t : TarnIx) (rid : Nat) :
    clock s₀ ≤ clock (leaveClosed s t rid) := by
  simp only [leaveClosed]; bound
@[bound] theorem le_clock_putShares (h : clock s₀ ≤ clock s) (t : TarnIx) (rid owner kind : Nat) (g : ShareSet → ShareSet) :
    clock s₀ ≤ clock (putShares s t rid owner kind g) := h
@[bound] theorem le_clock_acceptShare (h : clock s₀ ≤ clock s) (t : TarnIx) (r : Round) (e : Bytes) :
    clock s₀ ≤ clock (acceptShare s t r e) := by
  simp only [acceptShare]; bound
@[bound] theorem le_clock_shareNext (h : clock s₀ ≤ clock s) (t : TarnIx) (rid : Nat) :
    clock s₀ ≤ clock (shareNext s t rid) := by
  simp only [shareNext]; bound
@[bound] theorem le_clock_serveShares (h : clock s₀ ≤ clock s) (k : Ticket) :
    clock s₀ ≤ clock (serveShares s k) := by
  simp only [serveShares]; bound
@[bound] theorem le_clock_countRebuild (h : clock s₀ ≤ clock s) (t : TarnIx) (rid kind : Nat) :
    clock s₀ ≤ clock (countRebuild s t rid kind) := h
@[bound] theorem le_clock_rebuildFails (h : clock s₀ ≤ clock s) (t : TarnIx) (rid owner kind : Nat) (st : Status) :
    clock s₀ ≤ clock (rebuildFails s t rid owner kind st) := by
  simp only [rebuildFails]; bound
@[bound] theorem le_clock_rebuildHead (h : clock s₀ ≤ clock s) : clock s₀ ≤ clock (rebuildHead s) := by simp only [rebuildHead]; bound
@[bound] theorem le_clock_settleSecret (h : clock s₀ ≤ clock s) (t : TarnIx) (rid owner kind : Nat) :
    clock s₀ ≤ clock (settleSecret s t rid owner kind) := by
  simp only [settleSecret]; bound
@[bound] theorem le_clock_flagEntry (h : clock s₀ ≤ clock s) (t : TarnIx) (rid i other : Nat) (st : Status) :
    clock s₀ ≤ clock (flagEntry s t rid i other st) := by
  simp only [flagEntry]; bound
@[bound] theorem le_clock_failEdge (h : clock s₀ ≤ clock s) (t : TarnIx) (rid i j : Nat) (st : Status) :
    clock s₀ ≤ clock (failEdge s t rid i j st) := by
  simp only [failEdge]; bound
@[bound] theorem le_clock_validateDone (h : clock s₀ ≤ clock s) (t : TarnIx) (r : Round) (j : KaeJob) :
    clock s₀ ≤ clock (validateDone s t r j) := by
  simp only [validateDone]; bound
@[bound] theorem le_clock_verifyDone (h : clock s₀ ≤ clock s) (t : TarnIx) (r : Round) (j : KaeJob) :
    clock s₀ ≤ clock (verifyDone s t r j) := by
  simp only [verifyDone]; bound
@[bound] theorem le_clock_pairDone (h : clock s₀ ≤ clock s) (t : TarnIx) (r : Round) (j : KaeJob) :
    clock s₀ ≤ clock (pairDone s t r j) := by
  simp only [pairDone]; bound
@[bound] theorem le_clock_jobDone (h : clock s₀ ≤ clock s) (t : TarnIx) (j : KaeJob) :
    clock s₀ ≤ clock (jobDone s t j) := by
  simp only [jobDone]; bound
@[bound] theorem le_clock_hkdfDone (h : clock s₀ ≤ clock s) (t : TarnIx) (j : KaeJob) :
    clock s₀ ≤ clock (hkdfDone s t j) := by
  simp only [hkdfDone]; bound
@[bound] theorem le_clock_correctImage (h : clock s₀ ≤ clock s) (t : TarnIx) (rid id : Nat) :
    clock s₀ ≤ clock (correctImage s t rid id) := by
  simp only [correctImage]; bound
@[bound] theorem le_clock_attachIfAll (h : clock s₀ ≤ clock s) (t : TarnIx) (rid : Nat) :
    clock s₀ ≤ clock (attachIfAll s t rid) := by
  simp only [attachIfAll]; bound
@[bound] theorem le_clock_serveAttach (h : clock s₀ ≤ clock s) (k : Ticket) :
    clock s₀ ≤ clock (serveAttach s k) := by
  have hplain := le_clock_plainOf h k 1 (opW k 2) k.buf
  unfold serveAttach
  split
  · exact h
  next st s' _ e => exact le_clock_failTicket (le_clock_of_snd e hplain) ..
  next r raw s' _ e =>
    have hs' := le_clock_of_snd e hplain
    bound
@[bound] theorem le_clock_confirmMember (h : clock s₀ ≤ clock s) (t : TarnIx) (rid : Nat) (serial : Bytes) :
    clock s₀ ≤ clock (confirmMember s t rid serial) := by
  simp only [confirmMember]; bound
@[bound] theorem le_clock_attachExpire (h : clock s₀ ≤ clock s) (uid : Nat) :
    clock s₀ ≤ clock (attachExpire s uid) := by
  simp only [attachExpire]; bound
@[bound] theorem le_clock_memberNote (h : clock s₀ ≤ clock s) (t : TarnIx) (rid kind : Nat) (g : Round → Round) :
    clock s₀ ≤ clock (memberNote s t rid kind g) := by
  simp only [memberNote]; bound
@[bound] theorem le_clock_addMember (h : clock s₀ ≤ clock s) (t : TarnIx) (rid i : Nat) (bitmap image : Bytes) :
    clock s₀ ≤ clock (addMember s t rid i bitmap image) := by
  simp only [addMember]; bound
@[bound] theorem le_clock_addEarly (h : clock s₀ ≤ clock s) (t : TarnIx) (rid : Nat) :
    clock s₀ ≤ clock (addEarly s t rid) := by
  simp only [addEarly]; bound
@[bound] theorem le_clock_missMember (h : clock s₀ ≤ clock s) (t : TarnIx) (rid i : Nat) :
    clock s₀ ≤ clock (missMember s t rid i) := by
  simp only [missMember]; bound
@[bound] theorem le_clock_roundStep (h : clock s₀ ≤ clock s) (t : TarnIx) (rid : Nat) :
    clock s₀ ≤ clock (roundStep s t rid) := by
  simp only [roundStep]; bound
@[bound] theorem le_clock_roundsStep (h : clock s₀ ≤ clock s) : clock s₀ ≤ clock (roundsStep s) := by simp only [roundsStep]; bound
@[bound] theorem le_clock_applyHold (h : clock s₀ ≤ clock s) (t : TarnIx) (rid : Nat) : clock s₀ ≤ clock (applyHold s t rid) := h
@[bound] theorem le_clock_applyRelease (h : clock s₀ ≤ clock s) (t : TarnIx) (rid : Nat) : clock s₀ ≤ clock (applyRelease s t rid) := h
@[bound] theorem le_clock_execRoundLeaveClosed (h : clock s₀ ≤ clock s) (t : TarnIx) (round : BitVec 32) :
    clock s₀ ≤ clock (nextOf s (execRoundLeaveClosed t round s)) := by
  simp only [execRoundLeaveClosed, nextOf]; bound
@[bound] theorem le_clock_execShareEntry (h : clock s₀ ≤ clock s) (t : TarnIx) (round : BitVec 32) :
    clock s₀ ≤ clock (nextOf s (execShareEntry t round s)) := by
  simp only [execShareEntry, nextOf]; bound
@[bound] theorem le_clock_execSharesSubmit (h : clock s₀ ≤ clock s) (uid : Nat) : clock s₀ ≤ clock (nextOf s (execSharesSubmit uid s)) := by
  simp only [execSharesSubmit, nextOf]; bound
@[bound] theorem le_clock_execRebuildComplete (h : clock s₀ ≤ clock s) : clock s₀ ≤ clock (nextOf s (execRebuildComplete s)) := by
  simp only [execRebuildComplete, nextOf]; bound
@[bound] theorem le_clock_execKaeJobComplete (h : clock s₀ ≤ clock s) (t : TarnIx) (job : Nat) :
    clock s₀ ≤ clock (nextOf s (execKaeJobComplete t job s)) := by
  simp only [execKaeJobComplete, nextOf]; bound
@[bound] theorem le_clock_execHkdfComplete (h : clock s₀ ≤ clock s) (t : TarnIx) (job : Nat) :
    clock s₀ ≤ clock (nextOf s (execHkdfComplete t job s)) := by
  simp only [execHkdfComplete, nextOf]; bound
@[bound] theorem le_clock_execMaskCorrectionDone (h : clock s₀ ≤ clock s) (t : TarnIx) (round : BitVec 32) (corr : Nat) :
    clock s₀ ≤ clock (nextOf s (execMaskCorrectionDone t round corr s)) := by
  simp only [execMaskCorrectionDone, nextOf]; bound
@[bound] theorem le_clock_execCombineAttach (h : clock s₀ ≤ clock s) (uid : Nat) :
    clock s₀ ≤ clock (nextOf s (execCombineAttach uid s)) := by
  simp only [execCombineAttach, nextOf]; bound
@[bound] theorem le_clock_execCombineConfirm (h : clock s₀ ≤ clock s) (t : TarnIx) (round : BitVec 32) (member : Nat) (planDigest descDigest : Bytes) :
    clock s₀ ≤ clock (nextOf s (execCombineConfirm t round member planDigest descDigest s)) := by
  simp only [execCombineConfirm, nextOf]; bound
@[bound] theorem le_clock_execCombineAttachTimeout (h : clock s₀ ≤ clock s) (uid : Nat) :
    clock s₀ ≤ clock (nextOf s (execCombineAttachTimeout uid s)) := by
  simp only [execCombineAttachTimeout, nextOf]; bound
@[bound] theorem le_clock_execLeaderCloseMessage (h : clock s₀ ≤ clock s) (t : TarnIx) (round : BitVec 32) :
    clock s₀ ≤ clock (nextOf s (execLeaderCloseMessage t round s)) := by
  simp only [execLeaderCloseMessage, nextOf]; bound
@[bound] theorem le_clock_execLeaderReleaseMessage (h : clock s₀ ≤ clock s) (t : TarnIx) (round : BitVec 32) :
    clock s₀ ≤ clock (nextOf s (execLeaderReleaseMessage t round s)) := by
  simp only [execLeaderReleaseMessage, nextOf]; bound
@[bound] theorem le_clock_execLeaderAbortMessage (h : clock s₀ ≤ clock s) (t : TarnIx) (round : BitVec 32) :
    clock s₀ ≤ clock (nextOf s (execLeaderAbortMessage t round s)) := by
  simp only [execLeaderAbortMessage, nextOf]; bound
@[bound] theorem le_clock_execCombineData (h : clock s₀ ≤ clock s) (t : TarnIx) (round : BitVec 32) (member : Nat) (bitmap image : Bytes) :
    clock s₀ ≤ clock (nextOf s (execCombineData t round member bitmap image s)) := by
  simp only [execCombineData, nextOf]; bound
@[bound] theorem le_clock_execMemberMissing (h : clock s₀ ≤ clock s) (t : TarnIx) (round : BitVec 32) (member : Nat) :
    clock s₀ ≤ clock (nextOf s (execMemberMissing t round member s)) := by
  simp only [execMemberMissing, nextOf]; bound
@[bound] theorem le_clock_execMemberOrphanAbort (h : clock s₀ ≤ clock s) (t : TarnIx) (round : BitVec 32) :
    clock s₀ ≤ clock (nextOf s (execMemberOrphanAbort t round s)) := by
  simp only [execMemberOrphanAbort, nextOf]; bound

end Sys2Proof.Machine
end

section
/-! The clock under timing and holdover. -/

namespace Sys2Proof.Machine
variable {s₀ s : State}

@[bound] theorem le_clock_tallyAlign (h : clock s₀ ≤ clock s) (action : Nat) (leader : Bytes) (old new : Nat) :
    clock s₀ ≤ clock (tallyAlign s action leader old new) := by
  simp only [tallyAlign]; bound
@[bound] theorem le_clock_enterHoldover (h : clock s₀ ≤ clock s) : clock s₀ ≤ clock (enterHoldover s) := by simp only [enterHoldover]; bound
@[bound] theorem le_clock_leaveHoldover (h : clock s₀ ≤ clock s) : clock s₀ ≤ clock (leaveHoldover s) := by simp only [leaveHoldover]; bound
@[bound] theorem le_clock_chooseLeader (h : clock s₀ ≤ clock s) : clock s₀ ≤ clock (chooseLeader s) := by simp only [chooseLeader]; bound
@[bound] theorem le_clock_correctPhase (h : clock s₀ ≤ clock s) (ps : Int) :
    clock s₀ ≤ clock (correctPhase s ps) := by
  simp only [correctPhase]; bound
@[bound] theorem le_clock_sendBeat (h : clock s₀ ≤ clock s) (n : LinkIx) (corr : Int) :
    clock s₀ ≤ clock (sendBeat s n corr) := by
  simp only [sendBeat]; bound
@[bound] theorem le_clock_takeBeat (h : clock s₀ ≤ clock s) (n : LinkIx) (flit : Bytes) (arrivalPs : Int) :
    clock s₀ ≤ clock (takeBeat s n flit arrivalPs) := by
  simp only [takeBeat]; bound
@[bound] theorem le_clock_applyJoin (h : clock s₀ ≤ clock s) :
    clock s₀ ≤ clock (applyJoin s) := by
  unfold applyJoin
  split
  · exact h
  next off _ =>
    extract_lets old new timing joined
    have hjoined : clock s₀ ≤ clock joined := h.trans ((clock_le_iff ..).mpr ⟨le_max_left .., id, le_rfl⟩)
    bound
@[bound] theorem le_clock_execDomainJoin (h : clock s₀ ≤ clock s) (offsetNs : Nat) :
    clock s₀ ≤ clock (nextOf s (execDomainJoin offsetNs s)) := by
  simp only [execDomainJoin, nextOf]; bound
@[bound] theorem le_clock_execLeaderLoss (h : clock s₀ ≤ clock s) : clock s₀ ≤ clock (nextOf s (execLeaderLoss s)) := by
  simp only [execLeaderLoss, nextOf]; bound
@[bound] theorem le_clock_execBeatInPulse (h : clock s₀ ≤ clock s) (widthNs : Nat) (offsetNs : Int) :
    clock s₀ ≤ clock (nextOf s (execBeatInPulse widthNs offsetNs s)) := by
  simp only [execBeatInPulse, nextOf]; bound
@[bound] theorem le_clock_execPinHoldover (h : clock s₀ ≤ clock s) (missed periodErrPpm : Nat) :
    clock s₀ ≤ clock (nextOf s (execPinHoldover missed periodErrPpm s)) := by
  simp only [execPinHoldover, nextOf]; bound
@[bound] theorem le_clock_execPinHoldoverExit (h : clock s₀ ≤ clock s) : clock s₀ ≤ clock (nextOf s (execPinHoldoverExit s)) := by
  simp only [execPinHoldoverExit, nextOf]; bound

end Sys2Proof.Machine
end

section
/-! The clock under links, flits and remote accesses. -/

namespace Sys2Proof.Machine
variable {s₀ s : State}

@[bound] theorem le_clock_failRemote (h : clock s₀ ≤ clock s) (m : Remote) (st : Status) :
    clock s₀ ≤ clock (failRemote s m st) := by
  simp only [failRemote]; bound
@[bound] theorem le_clock_endLinkMessages (h : clock s₀ ≤ clock s) (n : LinkIx) :
    clock s₀ ≤ clock (endLinkMessages s n) := by
  simp only [endLinkMessages]; bound
@[bound] theorem le_clock_resendData (h : clock s₀ ≤ clock s) (n : LinkIx) :
    clock s₀ ≤ clock (resendData s n) := by
  simp only [resendData]; bound
@[bound] theorem le_clock_sendEphemeral (h : clock s₀ ≤ clock s) (n : LinkIx) :
    clock s₀ ≤ clock (sendEphemeral s n) := by
  simp only [sendEphemeral]; bound
@[bound] theorem le_clock_linkMove (h : clock s₀ ≤ clock s) (n : LinkIx) (dst : LinkState) (cause : Nat) :
    clock s₀ ≤ clock (linkMove s n dst cause) := by
  simp only [linkMove]; bound
@[bound] theorem le_clock_linkDown (h : clock s₀ ≤ clock s) (n : LinkIx) (cause : Nat) :
    clock s₀ ≤ clock (linkDown s n cause) := by
  simp only [linkDown]; bound
@[bound] theorem le_clock_linkDrain (h : clock s₀ ≤ clock s) (n : LinkIx) (cause : Nat) :
    clock s₀ ≤ clock (linkDrain s n cause) := by
  simp only [linkDrain]; bound
@[bound] theorem le_clock_tryUp (h : clock s₀ ≤ clock s) (n : LinkIx) : clock s₀ ≤ clock (tryUp s n) := by simp only [tryUp]; bound
@[bound] theorem le_clock_helloExpire (h : clock s₀ ≤ clock s) (n : LinkIx) :
    clock s₀ ≤ clock (helloExpire s n) := by
  simp only [helloExpire]; bound
@[bound] theorem le_clock_drainExpire (h : clock s₀ ≤ clock s) (n : LinkIx) :
    clock s₀ ≤ clock (drainExpire s n) := by
  simp only [drainExpire]; bound
@[bound] theorem le_clock_loseLane (h : clock s₀ ≤ clock s) (n : LinkIx) (lane : Fin 8) :
    clock s₀ ≤ clock (loseLane s n lane) := by
  simp only [loseLane]; bound
@[bound] theorem le_clock_newRoutes (h : clock s₀ ≤ clock s) : clock s₀ ≤ clock (newRoutes s) := h
@[bound] theorem le_clock_flitIn (h : clock s₀ ≤ clock s) (n : LinkIx) (flit : Bytes) :
    clock s₀ ≤ clock (flitIn s n flit).2 := by
  have hkeys := le_clock_replaceKeys h n
  have hmod : ∀ g, clock s₀ ≤ clock (modLink (replaceKeys s n) n g) := fun g => le_clock_modLink hkeys n g
  have hmods : ∀ g g', clock s₀ ≤ clock (modLink (modLink (replaceKeys s n) n g) n g') := fun g g' => le_clock_modLink (hmod g) n g'
  unfold flitIn
  refine le_clock_ite_snd hkeys (le_clock_ite_snd (le_clock_ite_snd (hmod _) (le_clock_ite_snd ?_ (le_clock_ite_snd ?_
    (le_clock_ite_snd (hmods ..) (hmods ..))))) (le_clock_ite_snd (hmod _) hkeys))
  · exact le_clock_ite (hmods ..) (hmod _)
  · exact le_clock_ite (hmods ..) (hmod _)
@[bound] theorem le_clock_sendAck (h : clock s₀ ≤ clock s) (n : LinkIx) : clock s₀ ≤ clock (sendAck s n) := by simp only [sendAck]; bound
@[bound] theorem le_clock_takeTopo (h : clock s₀ ≤ clock s) (n : LinkIx) (b : Bytes) : clock s₀ ≤ clock (takeTopo s n b) := h
@[bound] theorem le_clock_acceptData (h : clock s₀ ≤ clock s) (n : LinkIx) (flit : Bytes) :
    clock s₀ ≤ clock (acceptData s n flit) := by
  simp only [acceptData]; bound
@[bound] theorem le_clock_replayAll (h : clock s₀ ≤ clock s) (n : LinkIx) :
    clock s₀ ≤ clock (replayAll s n) := by
  simp only [replayAll]; bound
@[bound] theorem le_clock_sendHello (h : clock s₀ ≤ clock s) (n : LinkIx) :
    clock s₀ ≤ clock (sendHello s n) := by
  simp only [sendHello]; bound
@[bound] theorem le_clock_takeHello (h : clock s₀ ≤ clock s) (n : LinkIx) (p : Peer) :
    clock s₀ ≤ clock (takeHello s n p) := by
  simp only [takeHello]; bound
@[bound] theorem le_clock_otherMode (h : clock s₀ ≤ clock s) (n : LinkIx) (here : LinkMode) : clock s₀ ≤ clock (otherMode s n here) := h
@[bound] theorem le_clock_respond (h : clock s₀ ≤ clock s) (n : LinkIx) (h : MsgHeader) (op : Nat) (st : Status) (data : Bytes) :
    clock s₀ ≤ clock (respond s n h op st data) := by
  simp only [respond]; bound
@[bound] theorem le_clock_remoteServe (h : clock s₀ ≤ clock s) (n : LinkIx) (op : Nat) :
    clock s₀ ≤ clock (remoteServe s n op) := by
  have hpop := le_clock_popMessage h n 1
  unfold remoteServe
  split
  · exact h
  next m _ =>
    apply le_clock_ite h
    split
    · exact le_clock_respond hpop ..
    · apply le_clock_ite h
      apply le_clock_ite (le_clock_respond (le_clock_devWrite hpop ..) ..)
      apply le_clock_ite
      · exact le_clock_ite (le_clock_respond hpop ..) (le_clock_respond hpop ..)
      · have hatomic := le_clock_atomicApply hpop (msgOf m.bytes).ty (msgOf m.bytes).addr (m.bytes.drop 32)
        split
        next s' e => exact le_clock_respond (le_clock_of_snd e hatomic) ..
        next st s' e => exact le_clock_respond (le_clock_of_snd e hatomic) ..
@[bound] theorem le_clock_remoteDone (h : clock s₀ ≤ clock s) (m : Remote) : clock s₀ ≤ clock (remoteDone s m) := h
@[bound] theorem le_clock_remoteExpire (h : clock s₀ ≤ clock s) (tag : BitVec 32) :
    clock s₀ ≤ clock (remoteExpire s tag) := by
  simp only [remoteExpire]; bound
@[bound] theorem le_clock_ownEphemeral (h : clock s₀ ≤ clock s) (n : LinkIx) :
    clock s₀ ≤ clock (ownEphemeral s n).2 := by
  simp only [ownEphemeral]; bound
@[bound] theorem le_clock_sendIdentity (h : clock s₀ ≤ clock s) (n : LinkIx) (sig : Bytes) :
    clock s₀ ≤ clock (sendIdentity s n sig) := by
  simp only [sendIdentity]; bound
@[bound] theorem le_clock_refusePartner (h : clock s₀ ≤ clock s) (n : LinkIx) :
    clock s₀ ≤ clock (refusePartner s n) := by
  simp only [refusePartner]; bound
@[bound] theorem le_clock_sendWaiting (h : clock s₀ ≤ clock s) (n : LinkIx) :
    clock s₀ ≤ clock (sendWaiting s n) := by
  simp only [sendWaiting]; bound
@[bound] theorem le_clock_agreeKeys (h : clock s₀ ≤ clock s) (n : LinkIx) (p : LinkPartner) :
    clock s₀ ≤ clock (agreeKeys s n p) := by
  simp only [agreeKeys]; bound
@[bound] theorem le_clock_intakeIn (h : clock s₀ ≤ clock s) (n : LinkIx) (frame : Bytes) (fcsOk : Bool) :
    clock s₀ ≤ clock (intakeIn s n frame fcsOk).2 := by
  unfold intakeIn
  dsimp only
  split
  · exact h
  · refine le_clock_ite_snd h (le_clock_ite_snd (le_clock_replaceKeys ?_ n) ?_)
    · exact le_clock_modLink h ..
    · exact le_clock_modLink h ..
@[bound] theorem le_clock_endPart (h : clock s₀ ≤ clock s) (n : LinkIx) (t : TarnIx) (q : IntakePart) (st : Status) :
    clock s₀ ≤ clock (endPart s n t q st) := by
  simp only [endPart]; bound
@[bound] theorem le_clock_addPart (h : clock s₀ ≤ clock s) (n : LinkIx) (t : TarnIx) (h data : Bytes) :
    clock s₀ ≤ clock (addPart s n t h data) := by
  simp only [addPart]; bound
@[bound] theorem le_clock_intakeOwned (h : clock s₀ ≤ clock s) (n : LinkIx) :
    clock s₀ ≤ clock (intakeOwned s n) := by
  simp only [intakeOwned]; bound
@[bound] theorem le_clock_linksBarEnd (h : clock s₀ ≤ clock s) :
    clock s₀ ≤ clock (linksBarEnd s) := by
  unfold linksBarEnd
  apply le_clock_foldl
  · bound
  · exact h
@[bound] theorem le_clock_linksBeatStart (h : clock s₀ ≤ clock s) :
    clock s₀ ≤ clock (linksBeatStart s) := by
  unfold linksBeatStart
  extract_lets led greeted
  have hled : clock s₀ ≤ clock led := by
    apply le_clock_ite _ h
    apply le_clock_foldl _ _ h
    exact fun s n h => le_clock_sendBeat h ..
  have hgreeted : clock s₀ ≤ clock greeted := by
    apply le_clock_foldl
    · exact fun s n h => le_clock_sendTopo h n
    · apply le_clock_foldl _ _ hled
      exact fun s n h => le_clock_sendHello h n
  apply le_clock_ite hled
  split
  · exact le_clock_ite (le_clock_sendFlit hgreeted ..) hgreeted
  · exact hgreeted
@[bound] theorem le_clock_remotesExpire (h : clock s₀ ≤ clock s) : clock s₀ ≤ clock (remotesExpire s) := by simp only [remotesExpire]; bound
@[bound] theorem le_clock_execLinkSignalDetect (h : clock s₀ ≤ clock s) (n : LinkIx) :
    clock s₀ ≤ clock (nextOf s (execLinkSignalDetect n s)) := by
  simp only [execLinkSignalDetect, nextOf]; bound
@[bound] theorem le_clock_execTrainingRetry (h : clock s₀ ≤ clock s) (n : LinkIx) :
    clock s₀ ≤ clock (nextOf s (execTrainingRetry n s)) := by
  simp only [execTrainingRetry, nextOf]; bound
@[bound] theorem le_clock_execLinkTrained (h : clock s₀ ≤ clock s) (n : LinkIx) : clock s₀ ≤ clock (nextOf s (execLinkTrained n s)) := by
  simp only [execLinkTrained, nextOf]; bound
@[bound] theorem le_clock_execTrainingTimeout (h : clock s₀ ≤ clock s) (n : LinkIx) :
    clock s₀ ≤ clock (nextOf s (execTrainingTimeout n s)) := by
  simp only [execTrainingTimeout, nextOf]; bound
@[bound] theorem le_clock_execFecLockLoss (h : clock s₀ ≤ clock s) (n : LinkIx) : clock s₀ ≤ clock (nextOf s (execFecLockLoss n s)) := by
  simp only [execFecLockLoss, nextOf]; bound
@[bound] theorem le_clock_execHelloTimeout (h : clock s₀ ≤ clock s) (n : LinkIx) : clock s₀ ≤ clock (nextOf s (execHelloTimeout n s)) := by
  simp only [execHelloTimeout, nextOf]; bound
@[bound] theorem le_clock_execDrainTimeout (h : clock s₀ ≤ clock s) (n : LinkIx) : clock s₀ ≤ clock (nextOf s (execDrainTimeout n s)) := by
  simp only [execDrainTimeout, nextOf]; bound
@[bound] theorem le_clock_execOperatorDrain (h : clock s₀ ≤ clock s) (n : LinkIx) (complete : Bool) :
    clock s₀ ≤ clock (nextOf s (execOperatorDrain n complete s)) := by
  simp only [execOperatorDrain, nextOf]; bound
@[bound] theorem le_clock_execLinkTagFailureLimit (h : clock s₀ ≤ clock s) (n : LinkIx) :
    clock s₀ ≤ clock (nextOf s (execLinkTagFailureLimit n s)) := by
  simp only [execLinkTagFailureLimit, nextOf]; bound
@[bound] theorem le_clock_execLaneFault (h : clock s₀ ≤ clock s) (n : LinkIx) (lane : Fin 8) :
    clock s₀ ≤ clock (nextOf s (execLaneFault n lane s)) := by
  simp only [execLaneFault, nextOf]; bound
@[bound] theorem le_clock_execRouteUpdate (h : clock s₀ ≤ clock s) : clock s₀ ≤ clock (nextOf s (execRouteUpdate s)) := by
  simp only [execRouteUpdate, nextOf]; bound
@[bound] theorem le_clock_execDataFlit (h : clock s₀ ≤ clock s) (n : LinkIx) (flit : Bytes) :
    clock s₀ ≤ clock (nextOf s (execDataFlit n flit s)) := by
  simp only [execDataFlit, nextOf]; bound
@[bound] theorem le_clock_execNakReceived (h : clock s₀ ≤ clock s) (n : LinkIx) (flit : Bytes) :
    clock s₀ ≤ clock (nextOf s (execNakReceived n flit s)) := by
  have hs := le_clock_flitIn h n flit
  simp only [execNakReceived, nextOf]
  exact le_clock_ite (le_clock_ite (le_clock_linkPump (le_clock_replayAll hs n) n) hs) h
@[bound] theorem le_clock_execReplayTimeout (h : clock s₀ ≤ clock s) (n : LinkIx) :
    clock s₀ ≤ clock (nextOf s (execReplayTimeout n s)) := by
  simp only [execReplayTimeout, nextOf]; bound
@[bound] theorem le_clock_execAckDeadline (h : clock s₀ ≤ clock s) (n : LinkIx) : clock s₀ ≤ clock (nextOf s (execAckDeadline n s)) := by
  simp only [execAckDeadline, nextOf]; bound
@[bound] theorem le_clock_execIdleFlit (h : clock s₀ ≤ clock s) (n : LinkIx) (flit : Bytes) :
    clock s₀ ≤ clock (nextOf s (execIdleFlit n flit s)) := by
  simp only [execIdleFlit, nextOf]; bound
@[bound] theorem le_clock_execBeatFlit (h : clock s₀ ≤ clock s) (n : LinkIx) (flit : Bytes) (arrivalPs : Ps) :
    clock s₀ ≤ clock (nextOf s (execBeatFlit n flit arrivalPs s)) := by
  simp only [execBeatFlit, nextOf]; bound
@[bound] theorem le_clock_execDelayReq (h : clock s₀ ≤ clock s) (n : LinkIx) (flit : Bytes) (stamps : Ps × Ps) :
    clock s₀ ≤ clock (nextOf s (execDelayReq n flit stamps s)) := by
  have hs := le_clock_flitIn h n flit
  simp only [execDelayReq, nextOf]
  exact le_clock_ite (le_clock_ite (le_clock_sendFlit hs ..) hs) h
@[bound] theorem le_clock_execDelayResp (h : clock s₀ ≤ clock s) (n : LinkIx) (header rest : Bytes) (t1 t4 : Ps) :
    clock s₀ ≤ clock (nextOf s (execDelayResp n header rest t1 t4 s)) := by
  simp only [execDelayResp, nextOf]; bound
@[bound] theorem le_clock_execHelloReceived (h : clock s₀ ≤ clock s) (n : LinkIx) (flit : Bytes) :
    clock s₀ ≤ clock (nextOf s (execHelloReceived n flit s)) := by
  simp only [execHelloReceived, nextOf]; bound
@[bound] theorem le_clock_execRemoteWrite (h : clock s₀ ≤ clock s) (n : LinkIx) : clock s₀ ≤ clock (nextOf s (execRemoteWrite n s)) := by
  simp only [execRemoteWrite, nextOf]; bound
@[bound] theorem le_clock_execRemoteAtomic (h : clock s₀ ≤ clock s) (n : LinkIx) : clock s₀ ≤ clock (nextOf s (execRemoteAtomic n s)) := by
  simp only [execRemoteAtomic, nextOf]; bound
@[bound] theorem le_clock_execRemoteRead (h : clock s₀ ≤ clock s) (n : LinkIx) : clock s₀ ≤ clock (nextOf s (execRemoteRead n s)) := by
  simp only [execRemoteRead, nextOf]; bound
@[bound] theorem le_clock_execReadData (h : clock s₀ ≤ clock s) (n : LinkIx) : clock s₀ ≤ clock (nextOf s (execReadData n s)) := by
  simp only [execReadData, nextOf]; bound
@[bound] theorem le_clock_execDone (h : clock s₀ ≤ clock s) (n : LinkIx) : clock s₀ ≤ clock (nextOf s (execDone n s)) := by
  simp only [execDone, nextOf]; bound
@[bound] theorem le_clock_execRefused (h : clock s₀ ≤ clock s) (n : LinkIx) : clock s₀ ≤ clock (nextOf s (execRefused n s)) := by
  simp only [execRefused, nextOf]; bound
@[bound] theorem le_clock_execRemoteResponseTimeout (h : clock s₀ ≤ clock s) (tag : BitVec 32) :
    clock s₀ ≤ clock (nextOf s (execRemoteResponseTimeout tag s)) := by
  simp only [execRemoteResponseTimeout, nextOf]; bound
@[bound] theorem le_clock_execMessageForward (h : clock s₀ ≤ clock s) (n : LinkIx) :
    clock s₀ ≤ clock (nextOf s (execMessageForward n s)) := by
  simp only [execMessageForward, nextOf]; bound
@[bound] theorem le_clock_execLinkKeyAgreement (h : clock s₀ ≤ clock s) (n : LinkIx) (p : LinkPartner) :
    clock s₀ ≤ clock (nextOf s (execLinkKeyAgreement n p s)) := by
  simp only [execLinkKeyAgreement, nextOf]; bound
@[bound] theorem le_clock_execLinkKeyReplace (h : clock s₀ ≤ clock s) (n : LinkIx) :
    clock s₀ ≤ clock (nextOf s (execLinkKeyReplace n s)) := by
  simp only [execLinkKeyReplace, nextOf]; bound
@[bound] theorem le_clock_execLinkSessionRenew (h : clock s₀ ≤ clock s) (n : LinkIx) (p : LinkPartner) :
    clock s₀ ≤ clock (nextOf s (execLinkSessionRenew n p s)) := by
  simp only [execLinkSessionRenew, nextOf]; bound
@[bound] theorem le_clock_execRecordPart (h : clock s₀ ≤ clock s) (n : LinkIx) (frame : Bytes) (fcsOk : Bool) :
    clock s₀ ≤ clock (nextOf s (execRecordPart n frame fcsOk s)) := by
  have hs := le_clock_intakeIn (le_clock_otherMode (le_clock_otherMode h n .fabric) n .edge) n frame fcsOk
  simp only [execRecordPart, nextOf]
  refine le_clock_ite ?_ h
  split
  next s' e => exact le_clock_modLink (le_clock_of_snd e hs) ..
  next head data s' e =>
    have hs' := le_clock_of_snd e hs
    split
    · exact le_clock_ite (le_clock_addPart hs' ..) hs'
    · exact hs'

end Sys2Proof.Machine
end

section
/-! The clock under units, repairs and scrubs. -/

namespace Sys2Proof.Machine
variable {s₀ s : State}

@[bound] theorem le_clock_noteUnit (h : clock s₀ ≤ clock s) (u : UnitId) (action : Nat) (ticketId : BitVec 32) :
    clock s₀ ≤ clock (noteUnit s u action ticketId) := by
  simp only [noteUnit]; bound
@[bound] theorem le_clock_reportUnit (h : clock s₀ ≤ clock s) (u : UnitId) (failed : Bool) :
    clock s₀ ≤ clock (reportUnit s u failed) := by
  simp only [reportUnit]; bound
@[bound] theorem le_clock_recoverTicket (h : clock s₀ ≤ clock s) (uid : Nat) :
    clock s₀ ≤ clock (recoverTicket s uid) := by
  simp only [recoverTicket]; bound
@[bound] theorem le_clock_killFigure (h : clock s₀ ≤ clock s) (g : Nat) (st : Status) :
    clock s₀ ≤ clock (killFigure s g st) := by
  simp only [killFigure]; bound
@[bound] theorem le_clock_retireRes (h : clock s₀ ≤ clock s) (r : Resource) :
    clock s₀ ≤ clock (retireRes s r) := by
  simp only [retireRes]; bound
@[bound] theorem le_clock_setTesting (h : clock s₀ ≤ clock s) (u : UnitId) (on : Bool) :
    clock s₀ ≤ clock (setTesting s u on) := by
  simp only [setTesting]; bound
@[bound] theorem le_clock_bistEnds (h : clock s₀ ≤ clock s) (u : UnitId) (st : Status) (sig expected : BitVec 32) :
    clock s₀ ≤ clock (bistEnds s u st sig expected) := by
  simp only [bistEnds]; bound
@[bound] theorem le_clock_failTest (h : clock s₀ ≤ clock s) (u : UnitId) : clock s₀ ≤ clock (failTest s u) := by simp only [failTest]; bound
@[bound] theorem le_clock_settleBist (h : clock s₀ ≤ clock s) (b : Bist) :
    clock s₀ ≤ clock (settleBist s b) := by
  simp only [settleBist]; bound
@[bound] theorem le_clock_settleBists (h : clock s₀ ≤ clock s) : clock s₀ ≤ clock (settleBists s) := by simp only [settleBists]; bound
@[bound] theorem le_clock_retireGroup (h : clock s₀ ≤ clock s) (g : GroupIx) :
    clock s₀ ≤ clock (retireGroup s g) := by
  simp only [retireGroup]; bound
@[bound] theorem le_clock_retireTile (h : clock s₀ ≤ clock s) (tile : Nat) (failed : Bool) :
    clock s₀ ≤ clock (retireTile s tile failed) := by
  simp only [retireTile]; bound
@[bound] theorem le_clock_stepSpares (h : clock s₀ ≤ clock s) : clock s₀ ≤ clock (stepSpares s) := h
@[bound] theorem le_clock_spareTest (h : clock s₀ ≤ clock s) (tile code : Nat) (pass : Bool) :
    clock s₀ ≤ clock (spareTest s tile code pass) := by
  simp only [spareTest]; bound
@[bound] theorem le_clock_placeSpare (h : clock s₀ ≤ clock s) (q : Nat) :
    clock s₀ ≤ clock (placeSpare s q) := by
  simp only [placeSpare]; bound
@[bound] theorem le_clock_poisonSlice (h : clock s₀ ≤ clock s) (ch u from_ : Nat) :
    clock s₀ ≤ clock (poisonSlice s ch u from_) := by
  simp only [poisonSlice]; bound
@[bound] theorem le_clock_retireMem (h : clock s₀ ≤ clock s) (k : Nat) (failed : Bool) :
    clock s₀ ≤ clock (retireMem s k failed) := by
  simp only [retireMem]; bound
@[bound] theorem le_clock_imageFails (h : clock s₀ ≤ clock s) (t : TarnIx) (rid : Nat) (staged : Bool) :
    clock s₀ ≤ clock (imageFails s t rid staged) := by
  simp only [imageFails]; bound
@[bound] theorem le_clock_imagesFail (h : clock s₀ ≤ clock s) (hit : Plan → Bool) (staged : Bool) :
    clock s₀ ≤ clock (imagesFail s hit staged) := by
  simp only [imagesFail]; bound
@[bound] theorem le_clock_rebuildImages (h : clock s₀ ≤ clock s) (ch : Nat) :
    clock s₀ ≤ clock (rebuildImages s ch) := by
  simp only [rebuildImages]; bound
@[bound] theorem le_clock_retireMems (h : clock s₀ ≤ clock s) (st : Nat) (us : List Nat) :
    clock s₀ ≤ clock (retireMems s st us) := by
  simp only [retireMems]; bound
@[bound] theorem le_clock_retireChan (h : clock s₀ ≤ clock s) (ch : Nat) (lost failed rate : Bool) :
    clock s₀ ≤ clock (retireChan s ch lost failed rate) := by
  unfold retireChan
  apply le_clock_ite h
  apply le_clock_ite
  · have hreported :
    clock s₀ ≤ clock (reportUnit { s with units := { s.units with chans := s.units.chans.set ch .lost } } (mkUnit kChan ch) true) :=
      le_clock_reportUnit (le_clock_mk h ..) ..
    apply le_clock_ite _ hreported
    split
    apply le_clock_imagesFail
    apply le_clock_foldl (fun s x h => le_clock_rebuildImages h x)
    apply le_clock_foldl (fun s x h => le_clock_poisonSlice h ..)
    apply le_clock_foldl (fun s x h => le_clock_poisonSlice h ..)
    exact le_clock_mk hreported ..
  · extract_lets st reported moved src shrunk src'
    have hreported : clock s₀ ≤ clock reported := le_clock_reportUnit (le_clock_mk (le_clock_failTest h ..) ..) ..
    split
    next placed left _ =>
      extract_lets refilled noted poisoned rebuilt retired
      have hnoted : clock s₀ ≤ clock noted := le_clock_noteUnit (le_clock_mk (le_clock_mk hreported ..) ..) ..
      have hpoisoned : clock s₀ ≤ clock poisoned := by
        apply le_clock_foldl (fun s x h => le_clock_poisonSlice h ..)
        exact hnoted
      have hrebuilt : clock s₀ ≤ clock rebuilt := by
        apply le_clock_ite _ hnoted
        apply le_clock_foldl (fun s x h => le_clock_rebuildImages h x)
        exact le_clock_noteUnit hpoisoned ..
      have hretired : clock s₀ ≤ clock retired := le_clock_retireMems hrebuilt ..
      exact le_clock_ite (le_clock_imagesFail hretired ..) hretired
@[bound] theorem le_clock_retireReel (h : clock s₀ ≤ clock s) (ch : Nat) (failed rate : Bool) :
    clock s₀ ≤ clock (retireReel s ch failed rate) := by
  unfold retireReel
  apply le_clock_ite h
  apply le_clock_ite
  · apply le_clock_imagesFail
    apply le_clock_reportUnit
    exact le_clock_mk h ..
  · apply le_clock_reportUnit
    exact le_clock_mk h ..
@[bound] theorem le_clock_dropLane (h : clock s₀ ≤ clock s) (t : TarnIx) (j : LaneIx) :
    clock s₀ ≤ clock (dropLane s t j) := by
  simp only [dropLane]; bound
@[bound] theorem le_clock_retireLane (h : clock s₀ ≤ clock s) (j : LaneIx) (failed : Bool) :
    clock s₀ ≤ clock (retireLane s j failed) := by
  simp only [retireLane]; bound
@[bound] theorem le_clock_retireKae (h : clock s₀ ≤ clock s) (c : Nat) (failed : Bool) :
    clock s₀ ≤ clock (retireKae s c failed) := by
  simp only [retireKae]; bound
@[bound] theorem le_clock_retireField (h : clock s₀ ≤ clock s) (failed : Bool) :
    clock s₀ ≤ clock (retireField s failed) := by
  simp only [retireField]; bound
@[bound] theorem le_clock_retireLink (h : clock s₀ ≤ clock s) (n : LinkIx) (failed : Bool) :
    clock s₀ ≤ clock (retireLink s n failed) := by
  simp only [retireLink]; bound
@[bound] theorem le_clock_setFatal (h : clock s₀ ≤ clock s) :
    clock s₀ ≤ clock (setFatal s) := by
  unfold setFatal
  split
  · exact h
  · exact h.trans ((clock_le_iff ..).mpr ⟨le_rfl, fun _ => rfl, le_rfl⟩)
@[bound] theorem le_clock_retireCore (h : clock s₀ ≤ clock s) (c : Nat) (failed : Bool) :
    clock s₀ ≤ clock (retireCore s c failed) := by
  simp only [retireCore]; bound
@[bound] theorem le_clock_retireUnit (h : clock s₀ ≤ clock s) (u : UnitId) (failed lost rate : Bool) :
    clock s₀ ≤ clock (retireUnit s u failed lost rate) := by
  unfold retireUnit
  extract_lets i
  split
  · exact le_clock_retireTile h ..
  · apply le_clock_foldl _ _ h
    exact fun s x h => le_clock_retireTile h ..
  · exact le_clock_retireChan h ..
  · exact le_clock_retireReel h ..
  · exact le_clock_imagesFail (le_clock_retireMem h ..) ..
  · exact le_clock_retireLane h ..
  · exact le_clock_retireKae h ..
  · exact le_clock_retireField h ..
  · exact le_clock_loseLane h ..
  · exact le_clock_retireLink h ..
  · exact le_clock_retireCore h ..
  · exact h
@[bound] theorem le_clock_queueUnit (h : clock s₀ ≤ clock s) (u : UnitId) (code : Nat) :
    clock s₀ ≤ clock (queueUnit s u code) := by
  simp only [queueUnit]; bound
@[bound] theorem le_clock_takeFailures (h : clock s₀ ≤ clock s) : clock s₀ ≤ clock (takeFailures s) := by simp only [takeFailures]; bound
@[bound] theorem le_clock_takeRetirements (h : clock s₀ ≤ clock s) (rates : Bool) :
    clock s₀ ≤ clock (takeRetirements s rates) := by
  simp only [takeRetirements]; bound

end Sys2Proof.Machine
end

section
/-! The clock under the governor. -/

namespace Sys2Proof.Machine
variable {s₀ s : State}

@[bound] theorem le_clock_applyBounds (h : clock s₀ ≤ clock s) (b : Bounds) :
    clock s₀ ≤ clock (applyBounds s b) := by
  simp only [applyBounds]; bound
@[bound] theorem le_clock_stepClock (h : clock s₀ ≤ clock s) (i : SeamIn) :
    clock s₀ ≤ clock (stepClock s i) := by
  simp only [stepClock]; bound
@[bound] theorem le_clock_acceptBounds (h : clock s₀ ≤ clock s) : clock s₀ ≤ clock (acceptBounds s) := by simp only [acceptBounds]; bound
@[bound] theorem le_clock_stepVoltage (h : clock s₀ ≤ clock s) : clock s₀ ≤ clock (stepVoltage s) := by simp only [stepVoltage]; bound
@[bound] theorem le_clock_lowerVoltage (h : clock s₀ ≤ clock s) (v : Nat) :
    clock s₀ ≤ clock (lowerVoltage s v) := by
  simp only [lowerVoltage]; bound
@[bound] theorem le_clock_hdmServe (h : clock s₀ ≤ clock s) (p : Port) (a : Nat) (req : CxlReq) :
    clock s₀ ≤ clock (hdmServe s p a req) := by
  simp only [hdmServe]; bound
@[bound] theorem le_clock_releaseParked (h : clock s₀ ≤ clock s) (uid : Nat) :
    clock s₀ ≤ clock (releaseParked s uid) := by
  simp only [releaseParked]; bound
@[bound] theorem le_clock_releaseHeld (h : clock s₀ ≤ clock s) : clock s₀ ≤ clock (releaseHeld s) := by simp only [releaseHeld]; bound
@[bound] theorem le_clock_stepStacks (h : clock s₀ ≤ clock s) (i : SeamIn) :
    clock s₀ ≤ clock (stepStacks s i) := by
  simp only [stepStacks]; bound
@[bound] theorem le_clock_setThrottle (h : clock s₀ ≤ clock s) (t : TarnIx) :
    clock s₀ ≤ clock (setThrottle s t) := by
  simp only [setThrottle]; bound
@[bound] theorem le_clock_liftThrottle (h : clock s₀ ≤ clock s) (t : TarnIx) :
    clock s₀ ≤ clock (liftThrottle s t) := by
  simp only [liftThrottle]; bound
@[bound] theorem le_clock_noteLending (h : clock s₀ ≤ clock s) : clock s₀ ≤ clock (noteLending s) := by simp only [noteLending]; bound
@[bound] theorem le_clock_stepGovernorDown (h : clock s₀ ≤ clock s) (i : SeamIn) :
    clock s₀ ≤ clock (stepGovernorDown s i) := by
  simp only [stepGovernorDown]; bound
@[bound] theorem le_clock_stepGovernor (h : clock s₀ ≤ clock s) (i : SeamIn) :
    clock s₀ ≤ clock (stepGovernor s i) := by
  unfold stepGovernor
  apply le_clock_takeRetirements
  apply le_clock_noteLending
  apply le_clock_foldl (fun s t h => le_clock_liftThrottle h t)
  apply le_clock_foldl (fun s t h => le_clock_setThrottle h t)
  apply le_clock_stepStacks
  apply le_clock_acceptBounds
  apply le_clock_stepVoltage
  apply le_clock_stepClock
  apply le_clock_mk
  exact le_clock_foldl (fun s b h => le_clock_applyBounds h b) _ h
@[bound] theorem le_clock_execThrottleSet (h : clock s₀ ≤ clock s) (t : TarnIx) : clock s₀ ≤ clock (nextOf s (execThrottleSet t s)) := by
  simp only [execThrottleSet, nextOf]; bound
@[bound] theorem le_clock_execThrottleLift (h : clock s₀ ≤ clock s) (t : TarnIx) : clock s₀ ≤ clock (nextOf s (execThrottleLift t s)) := by
  simp only [execThrottleLift, nextOf]; bound

end Sys2Proof.Machine
end

section
/-! The clock under admission and placement. -/

namespace Sys2Proof.Machine
variable {s₀ s : State}

@[bound] theorem le_clock_countAdmitted (h : clock s₀ ≤ clock s) (cls : Nat) : clock s₀ ≤ clock (countAdmitted s cls) := h
@[bound] theorem le_clock_consumeOne (h : clock s₀ ≤ clock s) (t : TarnIx) (q : QpIx) :
    clock s₀ ≤ clock (consumeOne s t q) := by
  simp only [consumeOne]; bound
@[bound] theorem le_clock_admitFence (h : clock s₀ ≤ clock s) (t : TarnIx) (q : QpIx) (b : Bytes) :
    clock s₀ ≤ clock (admitFence s t q b) := by
  simp only [admitFence]; bound
@[bound] theorem le_clock_takeNext (h : clock s₀ ≤ clock s) (t : TarnIx) (q : QpIx) :
    clock s₀ ≤ clock (takeNext s t q) := by
  simp only [takeNext]; bound
theorem le_clock_consumeQp {bs : Nat × State} (h : clock s₀ ≤ clock bs.2) (x : Pass) (t : TarnIx) (q : QpIx) (fuel : Nat) :
    clock s₀ ≤ clock (consumeQp x t q fuel bs).2 := by
  induction fuel generalizing bs with
  | zero => exact h
  | succ fuel ih =>
    obtain ⟨budget, s⟩ := bs
    unfold consumeQp
    split
    · split
      · exact ih (le_clock_takeNext h t q)
      · exact h
    · exact h
theorem le_clock_admitPass {bs : Nat × State} (h : clock s₀ ≤ clock bs.2) (ts : List TarnIx) (x : Pass) :
    clock s₀ ≤ clock (admitPass ts bs x).2 := by
  unfold admitPass
  apply le_clock_foldl_snd _ _ h
  intro bs t h
  apply le_clock_foldl_snd _ _ h
  exact fun bs q h => le_clock_consumeQp h ..
@[bound] theorem le_clock_stepAdmit (h : clock s₀ ≤ clock s) :
    clock s₀ ≤ clock (stepAdmit s) := by
  unfold stepAdmit
  apply le_clock_ite h
  apply le_clock_foldl
  · intro s t h
    apply le_clock_foldl _ _ h
    exact fun s q h => le_clock_ringPump h t q
  · exact le_clock_foldl_snd (fun bs x h => le_clock_admitPass h _ x) _ h
@[bound] theorem le_clock_takeFigure (h : clock s₀ ≤ clock s) (uid n : Nat) : clock s₀ ≤ clock (takeFigure s uid n) := h
@[bound] theorem le_clock_deferFigure (h : clock s₀ ≤ clock s) (f : FigRun) : clock s₀ ≤ clock (deferFigure s f) := h
theorem le_clock_pickFigure (h : clock s₀ ≤ clock s) (t : TarnIx) (cls : TClass) (l : List Nat) :
    clock s₀ ≤ clock (pickFigure t cls l s).2 := by
  induction l generalizing s with
  | nil => exact h
  | cons uid rest ih =>
    unfold pickFigure
    split
    · exact ih h
    next k _ =>
      apply le_clock_ite_snd (ih h)
      split
      · exact ih h
      · split
        · exact ih h
        · apply le_clock_ite_snd (ih h)
          split
          · exact le_clock_takeFigure h ..
          · exact ih (le_clock_failTicket h ..)
theorem le_clock_fillClass {ps : Plan9 × State} (h : clock s₀ ≤ clock ps.2) (cls : TClass) (v : List SlotView) (skip : Nat → Bool) :
    clock s₀ ≤ clock (fillClass cls v skip ps).2 := by
  refine le_clock_foldl_snd (fun ps x h => le_clock_ite_snd h ?_) _ h
  have hpick := le_clock_pickFigure h x.tarn cls (ps.2.tickets.map (·.uid))
  split
  next f s' e => exact le_clock_of_snd e hpick
  next s' e => exact le_clock_of_snd e hpick
theorem le_clock_fillLent {ps : Plan9 × State} (h : clock s₀ ≤ clock ps.2) (v : List SlotView) (skip : Nat → Bool) :
    clock s₀ ≤ clock (fillLent v skip ps).2 := by
  refine le_clock_foldl_snd (fun ps x h => le_clock_ite_snd h ?_) _ h
  have hpick := le_clock_pickFigure h x.tarn .steady (ps.2.tickets.map (·.uid))
  split
  next f s' e =>
    have hs' : clock s₀ ≤ clock s' := le_clock_of_snd e hpick
    exact le_clock_pair _ (le_clock_mk (le_clock_modTarn hs' ..) ..)
  next s' e => exact le_clock_of_snd e hpick
@[bound] theorem le_clock_noteMove (h : clock s₀ ≤ clock s) (f : FigRun) (action g : Nat) :
    clock s₀ ≤ clock (noteMove s f action g) := by
  simp only [noteMove]; bound
@[bound] theorem le_clock_deferIt (h : clock s₀ ≤ clock s) (f : FigRun) (g : Nat) :
    clock s₀ ≤ clock (deferIt s f g) := by
  simp only [deferIt]; bound
theorem le_clock_displace {x : Plan9 × Moved × State} (h : clock s₀ ≤ clock x.2.2) (v : List SlotView) (spill : Nat → Bool) (g : Nat) :
    clock s₀ ≤ clock (displace v spill x g).2.2 := by
  obtain ⟨pl, mv, s⟩ := x
  unfold displace
  dsimp only
  split
  · exact h
  · split
    · exact le_clock_deferIt h ..
    · apply le_clock_noteMove
      split
      · exact le_clock_deferIt h ..
      · exact le_clock_ite (le_clock_tallyOverrun h ..) h
@[bound] theorem le_clock_putPlan (h : clock s₀ ≤ clock s) (pl : Plan9) : clock s₀ ≤ clock (putPlan s pl) := h
@[bound] theorem le_clock_stepPlace (h : clock s₀ ≤ clock s) (lend : Bool) :
    clock s₀ ≤ clock (stepPlace s lend) := by
  unfold stepPlace
  extract_lets s₁ v held spill ps
  have h₁ : clock s₀ ≤ clock s₁ := le_clock_foldl (fun s q h => le_clock_placeSpare h q) _ h
  have hps : clock s₀ ≤ clock ps.2 := le_clock_fillClass (le_clock_fillClass h₁ ..) ..
  have hdisplaced : ∀ (l : List Nat) {x : Plan9 × Moved × State}, clock s₀ ≤ clock x.2.2 → clock s₀ ≤ clock (l.foldl (displace v spill) x).2.2 := by
    intro l
    induction l with
    | nil => exact fun h => h
    | cons g l ih => exact fun h => ih (le_clock_displace h v spill g)
  split
  next pl mv s₂ e =>
    have h₂ : clock s₀ ≤ clock s₂ := by
      have := hdisplaced held (x := (ps.1, [], ps.2)) hps
      rwa [e] at this
    apply le_clock_putPlan
    have hfilled : ∀ skip, clock s₀ ≤ clock (fillClass .steady v skip (fillClass .express v skip (pl, s₂))).2 :=
      fun skip => le_clock_fillClass (le_clock_fillClass h₂ ..) ..
    split
    · exact le_clock_fillLent (hfilled _) ..
    · exact hfilled _
@[bound] theorem le_clock_execSubmitGraph (h : clock s₀ ≤ clock s) (t : TarnIx) (q : QpIx) :
    clock s₀ ≤ clock (nextOf s (execSubmitGraph t q s)) := by
  simp only [execSubmitGraph, nextOf]; bound

end Sys2Proof.Machine
end

section
/-! The clock under telemetry. -/

namespace Sys2Proof.Machine
variable {s₀ s : State}

@[bound] theorem le_clock_telemStep (h : clock s₀ ≤ clock s) (atEnd : Bool) : clock s₀ ≤ clock (telemStep s atEnd) := h

end Sys2Proof.Machine
end

section
/-! The clock under the steps of a seam and the next beat. -/

namespace Sys2Proof.Machine
variable {s₀ s : State}

@[bound] theorem le_clock_countOverrun (h : clock s₀ ≤ clock s) (f : FigRun) (g : Nat) :
    clock s₀ ≤ clock (countOverrun s f g) := by
  simp only [countOverrun]; bound
@[bound] theorem le_clock_noteOverrun (h : clock s₀ ≤ clock s) (f : FigRun) (cycles action g : Nat) :
    clock s₀ ≤ clock (noteOverrun s f cycles action g) := by
  simp only [noteOverrun]; bound
@[bound] theorem le_clock_stopSpill (h : clock s₀ ≤ clock s) (g : Nat) : clock s₀ ≤ clock (stopSpill s g) := by simp only [stopSpill]; bound
@[bound] theorem le_clock_dropDead (h : clock s₀ ≤ clock s) :
    clock s₀ ≤ clock (dropDead s) := by
  unfold dropDead
  apply le_clock_foldl _ _ h
  intro s g h
  split
  · exact le_clock_ite (le_clock_leaveSlot h g) h
  · exact h
@[bound] theorem le_clock_closeSlot (h : clock s₀ ≤ clock s) (g : Nat) : clock s₀ ≤ clock (closeSlot s g) := by simp only [closeSlot]; bound
@[bound] theorem le_clock_stepClose (h : clock s₀ ≤ clock s) :
    clock s₀ ≤ clock (stepClose s) := by
  unfold stepClose
  apply le_clock_dropDead
  apply le_clock_foldl (fun s g h => le_clock_closeSlot h g)
  exact le_clock_dropDead (le_clock_takeFailures h)
@[bound] theorem le_clock_commitFigure (h : clock s₀ ≤ clock s) (g : Nat) :
    clock s₀ ≤ clock (commitFigure s g) := by
  simp only [commitFigure]; bound
@[bound] theorem le_clock_restartTicket (h : clock s₀ ≤ clock s) (uid : Nat) :
    clock s₀ ≤ clock (restartTicket s uid) := by
  simp only [restartTicket]; bound
@[bound] theorem le_clock_restartTickets (h : clock s₀ ≤ clock s) :
    clock s₀ ≤ clock (restartTickets s) := by
  unfold restartTickets
  apply le_clock_dropDead
  apply le_clock_commitTickets
  apply le_clock_foldl (fun s uid h => le_clock_restartTicket h uid)
  exact le_clock_commitTickets h
@[bound] theorem le_clock_prepareDue (h : clock s₀ ≤ clock s) (d : Due) :
    clock s₀ ≤ clock (prepareDue s d) := by
  unfold prepareDue
  split
  · split
    · exact le_clock_answerTicket h ..
    · exact h
  · apply le_clock_foldl (fun s t h => le_clock_endTarn h t)
    exact le_clock_forceAborts h d.phase
@[bound] theorem le_clock_stepCommit (h : clock s₀ ≤ clock s) (restart : Bool) :
    clock s₀ ≤ clock (stepCommit s restart).2 := by
  unfold stepCommit
  extract_lets committed forced rounds restarted loaded due prepared
  have hcommitted : clock s₀ ≤ clock committed := by
    apply le_clock_foldl _ _ h
    exact fun s g h => le_clock_commitFigure h g
  clear_value committed forced
  have hrounds : clock s₀ ≤ clock rounds := by
    unfold rounds
    apply le_clock_roundsStep
    split
    · exact le_clock_forceAborts hcommitted _
    · exact hcommitted
  clear_value rounds
  have hrestarted : clock s₀ ≤ clock restarted := le_clock_ite (le_clock_restartTickets hrounds) hrounds
  clear_value restarted
  have hloaded : clock s₀ ≤ clock loaded := by
    apply le_clock_foldl _ _ hrestarted
    exact fun s uid h => le_clock_commitTicket h uid
  clear_value loaded due
  apply le_clock_commitTickets
  unfold prepared
  split
  · exact le_clock_prepareDue hloaded _
  · exact hloaded
@[bound] theorem le_clock_stepRetire (h : clock s₀ ≤ clock s) (cqFail : List (TarnIx × QpIx)) :
    clock s₀ ≤ clock (stepRetire s cqFail) := by
  have hdrained : clock s₀ ≤ clock ((upto 16).foldl journalIdle (drainRules s)) :=
    le_clock_foldl (fun s j h => le_clock_journalIdle h j) _ (le_clock_drainRules h)
  unfold stepRetire
  apply le_clock_ite (le_clock_postAll hdrained _)
  exact le_clock_foldl (fun s t h => le_clock_postTarn h ..) _ hdrained
@[bound] theorem le_clock_applyGrant (h :
    clock s₀ ≤ clock s) (gmp : Option (GmpChannel × Nat)) (t : TarnIx) (dev : Fin 64) (src : TarnIx) (add : Bool) :
    clock s₀ ≤ clock (applyGrant s gmp t dev src add) := by
  simp only [applyGrant]; bound
@[bound] theorem le_clock_applyTest (h : clock s₀ ≤ clock s) (uid : Nat) (t : TarnIx) (u : UnitId) :
    clock s₀ ≤ clock (applyTest s uid t u) := by
  simp only [applyTest]; bound
@[bound] theorem le_clock_applyPend (h : clock s₀ ≤ clock s) (p : PendRule) :
    clock s₀ ≤ clock (applyPend s p) := by
  simp only [applyPend]; bound
@[bound] theorem le_clock_applyRank (h : clock s₀ ≤ clock s) (ps : List PendRule) (r : Nat) :
    clock s₀ ≤ clock (applyRank ps s r) := by
  simp only [applyRank]; bound
@[bound] theorem le_clock_applyPends (h : clock s₀ ≤ clock s) :
    clock s₀ ≤ clock (applyPends s) := by
  unfold applyPends
  apply le_clock_foldl (fun s r h => le_clock_applyRank h ..)
  apply le_clock_foldl (fun s j h => le_clock_commitReplace h j)
  apply le_clock_foldl (fun s r h => le_clock_applyRank h ..)
  exact le_clock_mk h ..
@[bound] theorem le_clock_stepRules (h : clock s₀ ≤ clock s) (due : Option Due) :
    clock s₀ ≤ clock (stepRules s due) := by
  unfold stepRules
  apply le_clock_applyPends
  have hclosed := le_clock_closeRules (le_clock_settleDying (le_clock_freeScrubbed (le_clock_settleBists h)))
  split
  · split
    · exact le_clock_failPhase hclosed ..
    · exact le_clock_applyPhase hclosed ..
  · exact hclosed
@[bound] theorem le_clock_stepScrubs (h : clock s₀ ≤ clock s) : clock s₀ ≤ clock (stepScrubs s) := h
@[bound] theorem le_clock_postAdvisory (h : clock s₀ ≤ clock s) (t : TarnIx) (fails : Bool) (a : Advisory) :
    clock s₀ ≤ clock (postAdvisory s t fails a) := by
  simp only [postAdvisory]; bound
@[bound] theorem le_clock_postAdvisories (h : clock s₀ ≤ clock s) (advFail : List TarnIx) (t : TarnIx) :
    clock s₀ ≤ clock (postAdvisories s advFail t) := by
  simp only [postAdvisories]; bound
@[bound] theorem le_clock_stepBar (h : clock s₀ ≤ clock s) : clock s₀ ≤ clock (stepBar s) := by simp only [stepBar]; bound
@[bound] theorem le_clock_addRecord (h : clock s₀ ≤ clock s) : clock s₀ ≤ clock (addRecord s) := h
@[bound] theorem le_clock_autoCheckpoint (h : clock s₀ ≤ clock s) :
    clock s₀ ≤ clock (autoCheckpoint s) := by
  unfold autoCheckpoint
  have hbegun := le_clock_beginCheckpoint h
  exact le_clock_ite h (le_clock_ite (le_clock_tallyNotes hbegun le_rfl) hbegun)
@[bound] theorem le_clock_tallyFirmware (h : clock s₀ ≤ clock s) (half event : Nat) (release : BitVec 32) (digest : Bytes) (st : Status) :
    clock s₀ ≤ clock (tallyFirmware s half event release digest st) := by
  simp only [tallyFirmware]; bound
@[bound] theorem le_clock_setNextBank (h : clock s₀ ≤ clock s) (half : Nat) (b : Bank) : clock s₀ ≤ clock (setNextBank s half b) := h
@[bound] theorem le_clock_answerStage (h : clock s₀ ≤ clock s) (asker : Option (GmpChannel × Nat)) (st : Status) :
    clock s₀ ≤ clock (answerStage s asker st) := by
  simp only [answerStage]; bound
@[bound] theorem le_clock_refuseStage (h : clock s₀ ≤ clock s) (img : Bytes) (asker : Option (GmpChannel × Nat)) (st : Status) :
    clock s₀ ≤ clock (refuseStage s img asker st) := by
  simp only [refuseStage]; bound
@[bound] theorem le_clock_beginStage (h : clock s₀ ≤ clock s) (img : Bytes) (asker : Option (GmpChannel × Nat)) :
    clock s₀ ≤ clock (beginStage s img asker) := by
  simp only [beginStage]; bound
@[bound] theorem le_clock_endStage (h : clock s₀ ≤ clock s) (x : Staging) :
    clock s₀ ≤ clock (endStage s x) := by
  simp only [endStage]; bound
@[bound] theorem le_clock_endStages (h : clock s₀ ≤ clock s) : clock s₀ ≤ clock (endStages s) := by simp only [endStages]; bound
@[bound] theorem le_clock_stepHouse (h : clock s₀ ≤ clock s) (advFail : List TarnIx) :
    clock s₀ ≤ clock (stepHouse s advFail) := by
  unfold stepHouse
  extract_lets recorded checked
  have hrecorded : clock s₀ ≤ clock recorded := le_clock_addRecord (le_clock_stepBar (le_clock_stepScrubs h))
  have hchecked : clock s₀ ≤ clock checked := le_clock_autoCheckpoint (le_clock_endStages hrecorded)
  apply le_clock_ite _ hchecked
  apply le_clock_telemStep
  apply le_clock_foldl _ _ hchecked
  exact fun s t h => le_clock_postAdvisories h advFail t
@[bound] theorem le_clock_endBar (h : clock s₀ ≤ clock s) :
    clock s₀ ≤ clock (endBar s) := by
  unfold endBar
  apply le_clock_expirePhases
  apply le_clock_mk
  exact le_clock_linksBarEnd h
@[bound] theorem le_clock_nextBeat (h : clock s₀ ≤ clock s) (us : Nat) (atEnd : Bool) :
    clock s₀ ≤ clock (nextBeat s us atEnd) := by
  unfold nextBeat
  extract_lets ps timing moved c timing' corrected joined board pulsed
  have hmoved : clock s₀ ≤ clock moved := h.trans ((clock_le_iff ..).mpr ⟨Nat.le_succ _, id, le_rfl⟩)
  have hcorrected : clock s₀ ≤ clock corrected := le_clock_mk hmoved ..
  have hpulsed : clock s₀ ≤ clock pulsed := le_clock_mk (le_clock_ite (le_clock_applyJoin hcorrected) hcorrected) ..
  clear_value pulsed
  apply le_clock_linksBeatStart
  apply le_clock_ite _ hpulsed
  apply le_clock_foldl _ _ hpulsed
  exact fun s t h => le_clock_pumpIntake h t
@[bound] theorem le_clock_declareFault (h : clock s₀ ≤ clock s) : clock s₀ ≤ clock (declareFault s) := by simp only [declareFault]; bound
@[bound] theorem le_clock_beginRestart (h : clock s₀ ≤ clock s) : clock s₀ ≤ clock (beginRestart s) := by simp only [beginRestart]; bound
@[bound] theorem le_clock_endRestart (h : clock s₀ ≤ clock s) : clock s₀ ≤ clock (endRestart s) := h
@[bound] theorem le_clock_answerDrain (h : clock s₀ ≤ clock s) : clock s₀ ≤ clock (answerDrain s) := by simp only [answerDrain]; bound
@[bound] theorem le_clock_seamRules (h : clock s₀ ≤ clock s) (i : SeamIn) (restart : Bool) :
    clock s₀ ≤ clock (seamRules s i restart) := by
  have hclosed := le_clock_stepClose h
  have hcommitted := le_clock_stepCommit hclosed restart
  unfold seamRules
  apply le_clock_ite hclosed
  split
  next due s₁ e =>
    have h₁ := le_clock_of_snd e hcommitted
    have hposted : clock s₀ ≤ clock (if fwUp s₁ then postAll s₁ i.cqFail else s₁) := le_clock_ite (le_clock_postAll h₁ _) h₁
    have hruled := le_clock_stepRules (le_clock_raiseAll (le_clock_stepRetire hposted i.cqFail)) due
    exact le_clock_ite (le_clock_stepSchedule hruled) hruled
@[bound] theorem le_clock_seamWork (h : clock s₀ ≤ clock s) (i : SeamIn) :
    clock s₀ ≤ clock (seamWork s i) := by
  unfold seamWork
  extract_lets up governed v placed house atEnd next
  have hgoverned : clock s₀ ≤ clock governed := le_clock_ite (le_clock_stepGovernor h i) (le_clock_stepGovernorDown h i)
  have hplaced : clock s₀ ≤ clock placed := le_clock_ite (le_clock_stepPlace (le_clock_stepAdmit hgoverned) _) hgoverned
  have hhouse : clock s₀ ≤ clock house := le_clock_remotesExpire (le_clock_newRoutes (le_clock_stepHouse hplaced _))
  have hnext : clock s₀ ≤ clock next := le_clock_nextBeat (le_clock_ite (le_clock_endBar hhouse) hhouse) ..
  exact le_clock_ite (le_clock_lowerVoltage hnext _) hnext
@[bound] theorem le_clock_seam (h : clock s₀ ≤ clock s) (i : SeamIn) :
    clock s₀ ≤ clock (seam s i) := by
  unfold seam
  extract_lets restart begun ruled worked
  have hbegun : clock s₀ ≤ clock begun := by
    apply le_clock_stepSpares
    exact le_clock_ite (le_clock_beginRestart h) (le_clock_declareFault h)
  clear_value begun
  have hruled : clock s₀ ≤ clock ruled := by unfold ruled; exact le_clock_seamRules hbegun i restart
  clear_value ruled
  have hworked : clock s₀ ≤ clock worked := le_clock_ite hruled (le_clock_seamWork hruled i)
  clear_value worked
  apply le_clock_ite hbegun
  exact le_clock_ite (le_clock_endRestart (le_clock_answerDrain hworked)) hworked
@[bound] theorem le_clock_execSpillStop (h : clock s₀ ≤ clock s) (g : GroupIx) : clock s₀ ≤ clock (nextOf s (execSpillStop g s)) := by
  simp only [execSpillStop, nextOf]; bound
@[bound] theorem le_clock_execSeam (h : clock s₀ ≤ clock s) (i : SeamIn) : clock s₀ ≤ clock (nextOf s (execSeam i s)) := by
  simp only [execSeam, nextOf]; bound

end Sys2Proof.Machine
end

section
/-! The clock under faults, self-tests and views. -/

namespace Sys2Proof.Machine
variable {s₀ s : State}

@[bound] theorem le_clock_tileFails (h : clock s₀ ≤ clock s) (tile : Fin 128) :
    clock s₀ ≤ clock (tileFails s tile) := by
  simp only [tileFails]; bound
@[bound] theorem le_clock_setCount (h : clock s₀ ≤ clock s) (u : UnitId) (ce : Nat) : clock s₀ ≤ clock (setCount s u ce) := h
@[bound] theorem le_clock_ratePassed (h : clock s₀ ≤ clock s) (u : UnitId) :
    clock s₀ ≤ clock (ratePassed s u) := by
  simp only [ratePassed]; bound
@[bound] theorem le_clock_reelStops (h : clock s₀ ≤ clock s) (ch : Nat) (gt : Nat × Nat) :
    clock s₀ ≤ clock (reelStops ch s gt) := by
  simp only [reelStops]; bound
@[bound] theorem le_clock_reelFails (h : clock s₀ ≤ clock s) (ch : Nat) :
    clock s₀ ≤ clock (reelFails s ch) := by
  unfold reelFails
  apply le_clock_ite h
  apply le_clock_queueUnit
  apply le_clock_foldl _ _ h
  exact fun s gt h => le_clock_reelStops h ch gt
@[bound] theorem le_clock_countWord (h : clock s₀ ≤ clock s) (ch : Nat) (bad : Bool) : clock s₀ ≤ clock (countWord s ch bad) := h
@[bound] theorem le_clock_poisonWord (h : clock s₀ ≤ clock s) (ch offset : Nat) :
    clock s₀ ≤ clock (poisonWord s ch offset) := by
  simp only [poisonWord]; bound
@[bound] theorem le_clock_patrolWord (h : clock s₀ ≤ clock s) (ch offset outcome : Nat) :
    clock s₀ ≤ clock (patrolWord s ch offset outcome) := by
  simp only [patrolWord]; bound
@[bound] theorem le_clock_swapControl (h : clock s₀ ≤ clock s) : clock s₀ ≤ clock (swapControl s) := h
@[bound] theorem le_clock_serveBistRun (h : clock s₀ ≤ clock s) (k : Ticket) :
    clock s₀ ≤ clock (serveBistRun s k) := by
  simp only [serveBistRun]; bound
@[bound] theorem le_clock_bistDone (h : clock s₀ ≤ clock s) (u : UnitId) (code : Nat) (r : BistResult) :
    clock s₀ ≤ clock (bistDone s u code r) := by
  simp only [bistDone]; bound
@[bound] theorem le_clock_hdmAccess (h : clock s₀ ≤ clock s) (p : Port) (t : TarnIx) (x : Nat) (req : CxlReq) :
    clock s₀ ≤ clock (hdmAccess s p t x req) := by
  simp only [hdmAccess]; bound
@[bound] theorem le_clock_execTileFault (h : clock s₀ ≤ clock s) (tile : Fin 128) : clock s₀ ≤ clock (nextOf s (execTileFault tile s)) := by
  simp only [execTileFault, nextOf]; bound
@[bound] theorem le_clock_execSparePlaced (h : clock s₀ ≤ clock s) (quadrant : Fin 4) :
    clock s₀ ≤ clock (nextOf s (execSparePlaced quadrant s)) := by
  simp only [execSparePlaced, nextOf]; bound
@[bound] theorem le_clock_execErrorRateRetire (h : clock s₀ ≤ clock s) (u : UnitId) (count : Nat) :
    clock s₀ ≤ clock (nextOf s (execErrorRateRetire u count s)) := by
  simp only [execErrorRateRetire, nextOf]; bound
@[bound] theorem le_clock_execChannelRetire (h : clock s₀ ≤ clock s) (s_ : StackIx) (c : ChanIx) :
    clock s₀ ≤ clock (nextOf s (execChannelRetire s_ c s)) := by
  simp only [execChannelRetire, nextOf]; bound
@[bound] theorem le_clock_execChannelCopyDone (h : clock s₀ ≤ clock s) (s_ : StackIx) (c : ChanIx) :
    clock s₀ ≤ clock (nextOf s (execChannelCopyDone s_ c s)) := by
  simp only [execChannelCopyDone, nextOf]; bound
@[bound] theorem le_clock_execChannelLost (h : clock s₀ ≤ clock s) (s_ : StackIx) (c : ChanIx) :
    clock s₀ ≤ clock (nextOf s (execChannelLost s_ c s)) := by
  simp only [execChannelLost, nextOf]; bound
@[bound] theorem le_clock_execReelUnitFault (h : clock s₀ ≤ clock s) (s_ : StackIx) (c : ChanIx) :
    clock s₀ ≤ clock (nextOf s (execReelUnitFault s_ c s)) := by
  simp only [execReelUnitFault, nextOf]; bound
@[bound] theorem le_clock_execPatrolScrub (h : clock s₀ ≤ clock s) (s_ : StackIx) (c : ChanIx) (offset outcome : Nat) :
    clock s₀ ≤ clock (nextOf s (execPatrolScrub s_ c offset outcome s)) := by
  simp only [execPatrolScrub, nextOf]; bound
@[bound] theorem le_clock_execTargetedRefresh (h : clock s₀ ≤ clock s) (s_ : StackIx) (c : ChanIx) (row activations : Nat) :
    clock s₀ ≤ clock (nextOf s (execTargetedRefresh s_ c row activations s)) := by
  simp only [execTargetedRefresh, nextOf]; bound
@[bound] theorem le_clock_execBasinLaneFault (h : clock s₀ ≤ clock s) (j : LaneIx) :
    clock s₀ ≤ clock (nextOf s (execBasinLaneFault j s)) := by
  simp only [execBasinLaneFault, nextOf]; bound
@[bound] theorem le_clock_execKaeCoreFault (h : clock s₀ ≤ clock s) (core : Fin 64) :
    clock s₀ ≤ clock (nextOf s (execKaeCoreFault core s)) := by
  simp only [execKaeCoreFault, nextOf]; bound
@[bound] theorem le_clock_execFieldUnitFault (h : clock s₀ ≤ clock s) : clock s₀ ≤ clock (nextOf s (execFieldUnitFault s)) := by
  simp only [execFieldUnitFault, nextOf]; bound
@[bound] theorem le_clock_execControlCoreFault (h : clock s₀ ≤ clock s) (core : Fin 8) :
    clock s₀ ≤ clock (nextOf s (execControlCoreFault core s)) := by
  simp only [execControlCoreFault, nextOf]; bound
@[bound] theorem le_clock_execFirmwareFault (h : clock s₀ ≤ clock s) : clock s₀ ≤ clock (nextOf s (execFirmwareFault s)) := by
  simp only [execFirmwareFault, nextOf]; bound
@[bound] theorem le_clock_execFirmwareRestart (h : clock s₀ ≤ clock s) : clock s₀ ≤ clock (nextOf s (execFirmwareRestart s)) := by
  simp only [execFirmwareRestart, nextOf]; bound
@[bound] theorem le_clock_execFatalFault (h : clock s₀ ≤ clock s) : clock s₀ ≤ clock (nextOf s (execFatalFault s)) := by
  simp only [execFatalFault, nextOf]; bound
@[bound] theorem le_clock_execBistRun (h : clock s₀ ≤ clock s) (uid : Nat) : clock s₀ ≤ clock (nextOf s (execBistRun uid s)) := by
  simp only [execBistRun, nextOf]; bound
@[bound] theorem le_clock_execBistComplete (h : clock s₀ ≤ clock s) (u : UnitId) (code : Nat) (r : BistResult) :
    clock s₀ ≤ clock (nextOf s (execBistComplete u code r s)) := by
  simp only [execBistComplete, nextOf]; bound
@[bound] theorem le_clock_execCxlMemAccess (h : clock s₀ ≤ clock s) (p : Port) (t : TarnIx) (offset : Nat) (req : CxlReq) :
    clock s₀ ≤ clock (nextOf s (execCxlMemAccess p t offset req s)) := by
  simp only [execCxlMemAccess, nextOf]; bound
@[bound] theorem le_clock_execCxlSnoop (h : clock s₀ ≤ clock s) (p : Port) (_line : Nat) :
    clock s₀ ≤ clock (nextOf s (execCxlSnoop p _line s)) := by
  simp only [execCxlSnoop, nextOf]; bound

end Sys2Proof.Machine
end

section
/-! The clock under function reset and accesses of the host. -/

namespace Sys2Proof.Machine
variable {s₀ s : State}

@[bound] theorem le_clock_abortTickets (h : clock s₀ ≤ clock s) (t : TarnIx) : clock s₀ ≤ clock (abortTickets s t) := h
@[bound] theorem le_clock_flrTarn (h : clock s₀ ≤ clock s) (t : TarnIx) : clock s₀ ≤ clock (flrTarn s t) := by simp only [flrTarn]; bound
@[bound] theorem le_clock_logAer (h : clock s₀ ≤ clock s) (t : TarnIx) (b : BitVec 32) : clock s₀ ≤ clock (logAer s t b) := h
@[bound] theorem le_clock_ticketData (h : clock s₀ ≤ clock s) (k : Ticket) (c : DmaChunk) (bs : Bytes) :
    clock s₀ ≤ clock (ticketData s k c bs) := by
  simp only [ticketData]; bound
@[bound] theorem le_clock_ringData (h : clock s₀ ≤ clock s) (t : TarnIx) (q : QpIx) (bs : Bytes) :
    clock s₀ ≤ clock (ringData s t q bs) := by
  simp only [ringData]; bound
@[bound] theorem le_clock_dmaAnswer (h : clock s₀ ≤ clock s) (target : DmaTarget) (r : DmaResult) :
    clock s₀ ≤ clock (dmaAnswer s target r) := by
  simp only [dmaAnswer]; bound
@[bound] theorem le_clock_dmaTimeout (h : clock s₀ ≤ clock s) (target : DmaTarget) :
    clock s₀ ≤ clock (dmaTimeout s target) := by
  simp only [dmaTimeout]; bound
@[bound] theorem le_clock_execFlr (h : clock s₀ ≤ clock s) (t : TarnIx) : clock s₀ ≤ clock (nextOf s (execFlr t s)) := by
  simp only [execFlr, nextOf]; bound
@[bound] theorem le_clock_execDmaCompletion (h : clock s₀ ≤ clock s) (target : DmaTarget) (r : DmaResult) :
    clock s₀ ≤ clock (nextOf s (execDmaCompletion target r s)) := by
  simp only [execDmaCompletion, nextOf]; bound
@[bound] theorem le_clock_execCompletionTimeout (h : clock s₀ ≤ clock s) (target : DmaTarget) :
    clock s₀ ≤ clock (nextOf s (execCompletionTimeout target s)) := by
  simp only [execCompletionTimeout, nextOf]; bound
@[bound] theorem le_clock_execRekeyDue (h : clock s₀ ≤ clock s) (t : TarnIx) (session : BitVec 32) :
    clock s₀ ≤ clock (nextOf s (execRekeyDue t session s)) := by
  simp only [execRekeyDue, nextOf]; bound
@[bound] theorem le_clock_execSessionExhausted (h : clock s₀ ≤ clock s) (t : TarnIx) (session : BitVec 32) :
    clock s₀ ≤ clock (nextOf s (execSessionExhausted t session s)) := by
  simp only [execSessionExhausted, nextOf]; bound
@[bound] theorem le_clock_execBounceTagFailureLimit (h : clock s₀ ≤ clock s) (t : TarnIx) (session : BitVec 32) :
    clock s₀ ≤ clock (nextOf s (execBounceTagFailureLimit t session s)) := by
  simp only [execBounceTagFailureLimit, nextOf]; bound

end Sys2Proof.Machine
end

section
/-! The clock under the register file of a function. -/

namespace Sys2Proof.Machine
variable {s₀ s : State}

@[bound] theorem le_clock_writeSqTail (h : clock s₀ ≤ clock s) (t : TarnIx) (q : QpIx) (v : BitVec 16) :
    clock s₀ ≤ clock (writeSqTail s t q v) := by
  simp only [writeSqTail]; bound
@[bound] theorem le_clock_writeCqHead (h : clock s₀ ≤ clock s) (t : TarnIx) (q : QpIx) (v : BitVec 16) :
    clock s₀ ≤ clock (writeCqHead s t q v) := by
  simp only [writeCqHead]; bound
@[bound] theorem le_clock_writeQpCtrl (h : clock s₀ ≤ clock s) (t : TarnIx) (q : QpIx) (v : Nat) :
    clock s₀ ≤ clock (writeQpCtrl s t q v) := h
@[bound] theorem le_clock_writeAdvCtrl (h : clock s₀ ≤ clock s) (t : TarnIx) (v : Nat) : clock s₀ ≤ clock (writeAdvCtrl s t v) := h
@[bound] theorem le_clock_writeAdvHead (h : clock s₀ ≤ clock s) (t : TarnIx) (v : BitVec 16) : clock s₀ ≤ clock (writeAdvHead s t v) := h
@[bound] theorem le_clock_writeVectorMask (h : clock s₀ ≤ clock s) (t : TarnIx) (v : Nat) (m : Bool) :
    clock s₀ ≤ clock (writeVectorMask s t v m) := by
  simp only [writeVectorMask]; bound
@[bound] theorem le_clock_writeQpReg (h : clock s₀ ≤ clock s) (t : TarnIx) (q : QpIx) (off width v : Nat) :
    clock s₀ ≤ clock (writeQpReg s t q off width v) := by
  simp only [writeQpReg]; bound
@[bound] theorem le_clock_writeTarnReg (h : clock s₀ ≤ clock s) (t : TarnIx) (off width v : Nat) :
    clock s₀ ≤ clock (writeTarnReg s t off width v) := by
  simp only [writeTarnReg]; bound
@[bound] theorem le_clock_writeMsix (h : clock s₀ ≤ clock s) (t : TarnIx) (off v : Nat) :
    clock s₀ ≤ clock (writeMsix s t off v) := by
  simp only [writeMsix]; bound
@[bound] theorem le_clock_writeBar0 (h : clock s₀ ≤ clock s) (t : TarnIx) (off width v : Nat) :
    clock s₀ ≤ clock (writeBar0 s t off width v) := by
  unfold writeBar0
  apply le_clock_ite h
  apply le_clock_ite (le_clock_writeTarnReg h ..)
  apply le_clock_ite (le_clock_writeQpReg h ..)
  apply le_clock_ite (le_clock_ite (le_clock_writeMsix h ..) h)
  extract_lets q o
  split
  · exact le_clock_ite (le_clock_writeSqTail h ..) (le_clock_ite (le_clock_writeCqHead h ..) h)
  · exact h
@[bound] theorem le_clock_readEffect (h : clock s₀ ≤ clock s) (t : TarnIx) (off width : Nat) :
    clock s₀ ≤ clock (readEffect s t off width) := by
  simp only [readEffect]; bound
@[bound] theorem le_clock_execSqDoorbell (h : clock s₀ ≤ clock s) (t : TarnIx) (q : QpIx) (value : BitVec 32) :
    clock s₀ ≤ clock (nextOf s (execSqDoorbell t q value s)) := by
  simp only [execSqDoorbell, nextOf]; bound
@[bound] theorem le_clock_execCqDoorbell (h : clock s₀ ≤ clock s) (t : TarnIx) (q : QpIx) (value : BitVec 32) :
    clock s₀ ≤ clock (nextOf s (execCqDoorbell t q value s)) := by
  simp only [execCqDoorbell, nextOf]; bound
@[bound] theorem le_clock_execQpEnable (h : clock s₀ ≤ clock s) (t : TarnIx) (q : QpIx) (value : BitVec 32) :
    clock s₀ ≤ clock (nextOf s (execQpEnable t q value s)) := by
  simp only [execQpEnable, nextOf]; bound
@[bound] theorem le_clock_execQpDisable (h : clock s₀ ≤ clock s) (t : TarnIx) (q : QpIx) (value : BitVec 32) :
    clock s₀ ≤ clock (nextOf s (execQpDisable t q value s)) := by
  simp only [execQpDisable, nextOf]; bound
@[bound] theorem le_clock_execAdvEnable (h : clock s₀ ≤ clock s) (t : TarnIx) (value : BitVec 32) :
    clock s₀ ≤ clock (nextOf s (execAdvEnable t value s)) := by
  simp only [execAdvEnable, nextOf]; bound
@[bound] theorem le_clock_execAdvDisable (h : clock s₀ ≤ clock s) (t : TarnIx) (value : BitVec 32) :
    clock s₀ ≤ clock (nextOf s (execAdvDisable t value s)) := by
  simp only [execAdvDisable, nextOf]; bound
@[bound] theorem le_clock_execAdvHeadWrite (h : clock s₀ ≤ clock s) (t : TarnIx) (value : BitVec 32) :
    clock s₀ ≤ clock (nextOf s (execAdvHeadWrite t value s)) := by
  simp only [execAdvHeadWrite, nextOf]; bound
@[bound] theorem le_clock_execBeatRead (h : clock s₀ ≤ clock s) (r : BarRead) : clock s₀ ≤ clock (nextOf s (execBeatRead r s)) := by
  simp only [execBeatRead, nextOf]; bound
@[bound] theorem le_clock_execMsixUnmask (h : clock s₀ ≤ clock s) (t : TarnIx) (v : Fin 64) :
    clock s₀ ≤ clock (nextOf s (execMsixUnmask t v s)) := by
  simp only [execMsixUnmask, nextOf]; bound
@[bound] theorem le_clock_execBusMasterEnable (h : clock s₀ ≤ clock s) (t : TarnIx) (on : Bool) :
    clock s₀ ≤ clock (nextOf s (execBusMasterEnable t on s)) := by
  unfold execBusMasterEnable
  apply le_clock_ite _ h
  have hset : clock s₀ ≤ clock (modFn s t fun f => { f with busMaster := on }) := le_clock_modFn h ..
  apply le_clock_ite _ hset
  apply le_clock_foldl _ _ (le_clock_flushPending hset t)
  exact fun s q h => le_clock_ringPump h t q

end Sys2Proof.Machine
end

section
/-! The clock under the management channels. -/

namespace Sys2Proof.Machine
variable {s₀ s : State}

@[bound] theorem le_clock_gmpAnswer (h : clock s₀ ≤ clock s) (r : GmpReq) (st : Status) (body : Bytes) :
    clock s₀ ≤ clock (gmpAnswer s r st body) := by
  simp only [gmpAnswer]; bound
@[bound] theorem le_clock_useNonce (h : clock s₀ ≤ clock s) (r : GmpReq) (signed : Bool) :
    clock s₀ ≤ clock (useNonce s r signed) := by
  simp only [useNonce]; bound
@[bound] theorem le_clock_gmpRun (h : clock s₀ ≤ clock s) {f : State → State} (hf : ∀ s, clock s₀ ≤ clock s → clock s₀ ≤ clock (f s))
    (r : GmpReq) (role : BitVec 4) (signed onBoard reads : Bool) : clock s₀ ≤ clock (gmpRun s r role signed onBoard reads f) := by
  unfold gmpRun
  apply le_clock_ite h
  split
  · exact hf _ (le_clock_useNonce h r signed)
  · exact le_clock_gmpAnswer h ..
@[bound] theorem le_clock_giveNonce (h : clock s₀ ≤ clock s) (r : GmpReq) :
    clock s₀ ≤ clock (giveNonce s r) := by
  simp only [giveNonce]; bound
@[bound] theorem le_clock_readTelemetry (h : clock s₀ ≤ clock s) (r : GmpReq) (items : List Nat) :
    clock s₀ ≤ clock (readTelemetry s r items) := by
  simp only [readTelemetry]; bound
@[bound] theorem le_clock_readLedger (h : clock s₀ ≤ clock s) (r : GmpReq) (t : TarnIx) (sel : LedgerSel) (max : Nat) :
    clock s₀ ≤ clock (readLedger s r t sel max) := by
  simp only [readLedger]; bound
@[bound] theorem le_clock_askCheckpoint (h : clock s₀ ≤ clock s) (r : GmpReq) :
    clock s₀ ≤ clock (askCheckpoint s r) := by
  simp only [askCheckpoint]; bound
@[bound] theorem le_clock_endSigning (h : clock s₀ ≤ clock s) : clock s₀ ≤ clock (endSigning s) := by simp only [endSigning]; bound
@[bound] theorem le_clock_submitGmp (h : clock s₀ ≤ clock s) (r : GmpReq) (force : Bool) (set : Bytes) :
    clock s₀ ≤ clock (submitGmp s r force set) := by
  unfold submitGmp
  split
  next s' e =>
    have hs := le_clock_of_snd e (le_clock_submitMgmt h ..)
    split
    · exact le_clock_gmpAnswer hs ..
    · exact hs
  next st s' _ e => exact le_clock_gmpAnswer (le_clock_of_snd e (le_clock_submitMgmt h ..)) ..
@[bound] theorem le_clock_setGovernor (h : clock s₀ ≤ clock s) (r : GmpReq) (b : Bounds) : clock s₀ ≤ clock (setGovernor s r b) := h
@[bound] theorem le_clock_runBist (h : clock s₀ ≤ clock s) (r : GmpReq) (u : UnitId) (code : Nat) :
    clock s₀ ≤ clock (runBist s r u code) := by
  simp only [runBist]; bound
@[bound] theorem le_clock_retireByOperator (h : clock s₀ ≤ clock s) (r : GmpReq) (u : UnitId) :
    clock s₀ ≤ clock (retireByOperator s r u) := by
  simp only [retireByOperator]; bound
@[bound] theorem le_clock_reenableLink (h : clock s₀ ≤ clock s) (n : LinkIx) : clock s₀ ≤ clock (reenableLink s n) := h
@[bound] theorem le_clock_setTiming (h :
    clock s₀ ≤ clock s) (mode : TimingMode) (domain : BitVec 16) (deviceNo : Fin 64) (priority : BitVec 8) :
    clock s₀ ≤ clock (setTiming s mode domain deviceNo priority) := by
  simp only [setTiming]; bound
@[bound] theorem le_clock_setPorts (h : clock s₀ ≤ clock s) (r : GmpReq) (x8 : Bool) (assign : List Port) :
    clock s₀ ≤ clock (setPorts s r x8 assign) := by
  simp only [setPorts]; bound
@[bound] theorem le_clock_linkItem (h : clock s₀ ≤ clock s) (i : LinkSetItem) :
    clock s₀ ≤ clock (linkItem s i) := by
  simp only [linkItem]; bound
@[bound] theorem le_clock_setLinks (h : clock s₀ ≤ clock s) (r : GmpReq) (items : List LinkSetItem) :
    clock s₀ ≤ clock (setLinks s r items) := by
  simp only [setLinks]; bound
@[bound] theorem le_clock_setNetwork (h : clock s₀ ≤ clock s) (r : GmpReq) (b : NetBody) :
    clock s₀ ≤ clock (setNetwork s r b) := by
  simp only [setNetwork]; bound
@[bound] theorem le_clock_modAnchor (h : clock s₀ ≤ clock s) (k : Nat) (g : Anchor → Anchor) : clock s₀ ≤ clock (modAnchor s k g) := h
@[bound] theorem le_clock_addTrust (h : clock s₀ ≤ clock s) (r : GmpReq) (digest : Bytes) (roles : BitVec 4) :
    clock s₀ ≤ clock (addTrust s r digest roles) := by
  simp only [addTrust]; bound
@[bound] theorem le_clock_removeTrust (h : clock s₀ ≤ clock s) (r : GmpReq) (slot : Nat) :
    clock s₀ ≤ clock (removeTrust s r slot) := by
  simp only [removeTrust]; bound
@[bound] theorem le_clock_setFloor (h : clock s₀ ≤ clock s) (r : GmpReq) (t : TarnIx) (floor : Nat) :
    clock s₀ ≤ clock (setFloor s r t floor) := by
  simp only [setFloor]; bound
@[bound] theorem le_clock_setAuthority (h : clock s₀ ≤ clock s) (r : GmpReq) (t : TarnIx) (keys : List Bytes) :
    clock s₀ ≤ clock (setAuthority s r t keys) := by
  simp only [setAuthority]; bound
@[bound] theorem le_clock_setTagKey (h : clock s₀ ≤ clock s) (r : GmpReq) (t : TarnIx) (ephemeral nonce ciphertext tag : Bytes) :
    clock s₀ ≤ clock (setTagKey s r t ephemeral nonce ciphertext tag) := by
  simp only [setTagKey]; bound
@[bound] theorem le_clock_parentDone (h : clock s₀ ≤ clock s) (r : GmpReq) (op p tarn : Nat) :
    clock s₀ ≤ clock (parentDone s r op p tarn) := by
  simp only [parentDone]; bound
@[bound] theorem le_clock_assignParent (h : clock s₀ ≤ clock s) (r : GmpReq) (p : Nat) (t : TarnIx) :
    clock s₀ ≤ clock (assignParent s r p t) := by
  unfold assignParent
  apply le_clock_ite (le_clock_gmpAnswer h ..)
  apply le_clock_ite (le_clock_gmpAnswer h ..)
  apply le_clock_ite (le_clock_gmpAnswer h ..)
  exact le_clock_parentDone (le_clock_modParent h ..) ..
@[bound] theorem le_clock_freeParent (h : clock s₀ ≤ clock s) (r : GmpReq) (p : Nat) :
    clock s₀ ≤ clock (freeParent s r p) := by
  simp only [freeParent]; bound
@[bound] theorem le_clock_createRootBlob (h : clock s₀ ≤ clock s) (r : GmpReq) (p usage : Nat) (label : Bytes) :
    clock s₀ ≤ clock (createRootBlob s r p usage label) := by
  simp only [createRootBlob]; bound
@[bound] theorem le_clock_readDebug (h : clock s₀ ≤ clock s) (r : GmpReq) (kind : DebugKind) (x : Resource) (offset : Nat) :
    clock s₀ ≤ clock (readDebug s r kind x offset) := by
  simp only [readDebug]; bound
@[bound] theorem le_clock_newRoot (h : clock s₀ ≤ clock s) : clock s₀ ≤ clock (newRoot s) := h
@[bound] theorem le_clock_tallyKeyBytes (h : clock s₀ ≤ clock s) :
    clock s₀ ≤ clock (tallyKeyBytes s).2 := by
  simp only [tallyKeyBytes]; bound
@[bound] theorem le_clock_tallyKeyEvent (h : clock s₀ ≤ clock s) : clock s₀ ≤ clock (tallyKeyEvent s) := by simp only [tallyKeyEvent]; bound
@[bound] theorem le_clock_lifeSteps (h : clock s₀ ≤ clock s) (dst : LifeCycle) :
    clock s₀ ≤ clock (lifeSteps s dst) := by
  simp only [lifeSteps]; bound
@[bound] theorem le_clock_setLife (h : clock s₀ ≤ clock s) (r : GmpReq) (dst : LifeCycle) :
    clock s₀ ≤ clock (setLife s r dst) := by
  simp only [setLife]; bound
@[bound] theorem le_clock_provisionAgain (h : clock s₀ ≤ clock s) (r : GmpReq) :
    clock s₀ ≤ clock (provisionAgain s r) := by
  unfold provisionAgain
  extract_lets lc cleared s'
  apply le_clock_ite (le_clock_gmpAnswer h ..)
  have hs' : clock s₀ ≤ clock s' := by
    unfold s'
    apply le_clock_newRoot
    exact h
  clear_value s'
  exact le_clock_gmpAnswer (le_clock_tallyKeyEvent (le_clock_tallyDevice hs' ..)) ..
@[bound] theorem le_clock_armTamper (h : clock s₀ ≤ clock s) (r : GmpReq) (n : Fin 4) :
    clock s₀ ≤ clock (armTamper s r n) := by
  simp only [armTamper]; bound
@[bound] theorem le_clock_activate (h : clock s₀ ≤ clock s) (r : GmpReq) (kernel firmware : Bool) (drainBars : Nat) :
    clock s₀ ≤ clock (activate s r kernel firmware drainBars) := by
  simp only [activate]; bound
@[bound] theorem le_clock_pldmRun (h : clock s₀ ≤ clock s) {f : State → State} (hf : ∀ s, clock s₀ ≤ clock s → clock s₀ ≤ clock (f s)) :
    clock s₀ ≤ clock (pldmRun s f) := le_clock_ite (hf s h) h
@[bound] theorem le_clock_pldmMove (h : clock s₀ ≤ clock s) (n : Nat) : clock s₀ ≤ clock (pldmMove s n) := h
@[bound] theorem le_clock_readSensor (h : clock s₀ ≤ clock s) (item : Nat) :
    clock s₀ ≤ clock (readSensor s item) := by
  simp only [readSensor]; bound
@[bound] theorem le_clock_execTlsHandshake (h : clock s₀ ≤ clock s) (anchorSlot : Nat) (clientKey : Bytes) (paramsOk : Bool) :
    clock s₀ ≤ clock (nextOf s (execTlsHandshake anchorSlot clientKey paramsOk s)) := by
  simp only [execTlsHandshake, nextOf]; bound
@[bound] theorem le_clock_execTlsSessionEnd (h : clock s₀ ≤ clock s) (session : Nat) :
    clock s₀ ≤ clock (nextOf s (execTlsSessionEnd session s)) := by
  simp only [execTlsSessionEnd, nextOf]; bound
@[bound] theorem le_clock_execGetNonce (h : clock s₀ ≤ clock s) (req : GmpReq) : clock s₀ ≤ clock (nextOf s (execGetNonce req s)) := by
  simp only [execGetNonce, nextOf]; bound
@[bound] theorem le_clock_execTelemetryRead (h : clock s₀ ≤ clock s) (req : GmpReq) (items : List Nat) :
    clock s₀ ≤ clock (nextOf s (execTelemetryRead req items s)) := by
  simp only [execTelemetryRead, nextOf]; bound
@[bound] theorem le_clock_execGmpLedgerRead (h : clock s₀ ≤ clock s) (req : GmpReq) (t : TarnIx) (sel : LedgerSel) (max : Nat) :
    clock s₀ ≤ clock (nextOf s (execGmpLedgerRead req t sel max s)) := by
  simp only [execGmpLedgerRead, nextOf]; bound
@[bound] theorem le_clock_execGmpTallyRead (h : clock s₀ ≤ clock s) (req : GmpReq) (first count : Nat) :
    clock s₀ ≤ clock (nextOf s (execGmpTallyRead req first count s)) := by
  simp only [execGmpTallyRead, nextOf]; bound
@[bound] theorem le_clock_execTallyAck (h : clock s₀ ≤ clock s) (req : GmpReq) (seq : Nat) :
    clock s₀ ≤ clock (nextOf s (execTallyAck req seq s)) := by
  simp only [execTallyAck, nextOf]; bound
@[bound] theorem le_clock_execCheckpoint (h : clock s₀ ≤ clock s) (req : GmpReq) : clock s₀ ≤ clock (nextOf s (execCheckpoint req s)) := by
  simp only [execCheckpoint, nextOf]; bound
@[bound] theorem le_clock_execCheckpointSigned (h : clock s₀ ≤ clock s) : clock s₀ ≤ clock (nextOf s (execCheckpointSigned s)) := by
  simp only [execCheckpointSigned, nextOf]; bound
@[bound] theorem le_clock_execTallyCheckpointAuto (h : clock s₀ ≤ clock s) : clock s₀ ≤ clock (nextOf s (execTallyCheckpointAuto s)) := by
  simp only [execTallyCheckpointAuto, nextOf]; bound
@[bound] theorem le_clock_execGmpChangeSubmit (h : clock s₀ ≤ clock s) (req : GmpReq) (force : Bool) (set : Bytes) :
    clock s₀ ≤ clock (nextOf s (execGmpChangeSubmit req force set s)) := by
  simp only [execGmpChangeSubmit, nextOf]; bound
@[bound] theorem le_clock_execGmpChangeStatus (h : clock s₀ ≤ clock s) (req : GmpReq) (changeId : Nat) :
    clock s₀ ≤ clock (nextOf s (execGmpChangeStatus req changeId s)) := by
  simp only [execGmpChangeStatus, nextOf]; bound
@[bound] theorem le_clock_execGovernorSet (h : clock s₀ ≤ clock s) (req : GmpReq) (b : Bounds) :
    clock s₀ ≤ clock (nextOf s (execGovernorSet req b s)) := by
  simp only [execGovernorSet, nextOf]; bound
@[bound] theorem le_clock_execGmpBistRun (h : clock s₀ ≤ clock s) (req : GmpReq) (u : UnitId) (code : Nat) :
    clock s₀ ≤ clock (nextOf s (execGmpBistRun req u code s)) := by
  simp only [execGmpBistRun, nextOf]; bound
@[bound] theorem le_clock_execUnitRetire (h : clock s₀ ≤ clock s) (req : GmpReq) (u : UnitId) :
    clock s₀ ≤ clock (nextOf s (execUnitRetire req u s)) := by
  simp only [execUnitRetire, nextOf]; bound
@[bound] theorem le_clock_execLinkReenable (h : clock s₀ ≤ clock s) (req : GmpReq) (n : LinkIx) :
    clock s₀ ≤ clock (nextOf s (execLinkReenable req n s)) := by
  simp only [execLinkReenable, nextOf]; bound
@[bound] theorem le_clock_execTimingSet (h : clock s₀ ≤ clock s) (req : GmpReq) (mode : TimingMode) (domain : BitVec 16) (deviceNo : Fin 64) (priority : BitVec 8) :
    clock s₀ ≤ clock (nextOf s (execTimingSet req mode domain deviceNo priority s)) := by
  simp only [execTimingSet, nextOf]; bound
@[bound] theorem le_clock_execPortSet (h : clock s₀ ≤ clock s) (req : GmpReq) (x8 : Bool) (assign : List Port) :
    clock s₀ ≤ clock (nextOf s (execPortSet req x8 assign s)) := by
  simp only [execPortSet, nextOf]; bound
@[bound] theorem le_clock_execLinkSet (h : clock s₀ ≤ clock s) (req : GmpReq) (items : List LinkSetItem) :
    clock s₀ ≤ clock (nextOf s (execLinkSet req items s)) := by
  simp only [execLinkSet, nextOf]; bound
@[bound] theorem le_clock_execNetworkSet (h : clock s₀ ≤ clock s) (req : GmpReq) (b : NetBody) :
    clock s₀ ≤ clock (nextOf s (execNetworkSet req b s)) := by
  simp only [execNetworkSet, nextOf]; bound
@[bound] theorem le_clock_execTrustAdd (h : clock s₀ ≤ clock s) (req : GmpReq) (keyDigest : Bytes) (roles : BitVec 4) :
    clock s₀ ≤ clock (nextOf s (execTrustAdd req keyDigest roles s)) := by
  simp only [execTrustAdd, nextOf]; bound
@[bound] theorem le_clock_execTrustRemove (h : clock s₀ ≤ clock s) (req : GmpReq) (slot : Nat) :
    clock s₀ ≤ clock (nextOf s (execTrustRemove req slot s)) := by
  simp only [execTrustRemove, nextOf]; bound
@[bound] theorem le_clock_execFloorSet (h : clock s₀ ≤ clock s) (req : GmpReq) (t : TarnIx) (floor : Nat) :
    clock s₀ ≤ clock (nextOf s (execFloorSet req t floor s)) := by
  simp only [execFloorSet, nextOf]; bound
@[bound] theorem le_clock_execAuthoritySet (h : clock s₀ ≤ clock s) (req : GmpReq) (t : TarnIx) (keys : List Bytes) :
    clock s₀ ≤ clock (nextOf s (execAuthoritySet req t keys s)) := by
  simp only [execAuthoritySet, nextOf]; bound
@[bound] theorem le_clock_execTagKeySet (h : clock s₀ ≤ clock s) (req : GmpReq) (t : TarnIx) (ephemeral nonce ciphertext tag : Bytes) :
    clock s₀ ≤ clock (nextOf s (execTagKeySet req t ephemeral nonce ciphertext tag s)) := by
  simp only [execTagKeySet, nextOf]; bound
@[bound] theorem le_clock_execParentAssign (h : clock s₀ ≤ clock s) (req : GmpReq) (entry : Nat) (t : TarnIx) :
    clock s₀ ≤ clock (nextOf s (execParentAssign req entry t s)) := by
  simp only [execParentAssign, nextOf]; bound
@[bound] theorem le_clock_execParentFree (h : clock s₀ ≤ clock s) (req : GmpReq) (entry : Nat) :
    clock s₀ ≤ clock (nextOf s (execParentFree req entry s)) := by
  simp only [execParentFree, nextOf]; bound
@[bound] theorem le_clock_execRootBlobCreate (h : clock s₀ ≤ clock s) (req : GmpReq) (entry usage : Nat) (label : Bytes) :
    clock s₀ ≤ clock (nextOf s (execRootBlobCreate req entry usage label s)) := by
  simp only [execRootBlobCreate, nextOf]; bound
@[bound] theorem le_clock_execDebugSet (h : clock s₀ ≤ clock s) (req : GmpReq) (sw : DebugSwitch) :
    clock s₀ ≤ clock (nextOf s (execDebugSet req sw s)) := by
  simp only [execDebugSet, nextOf]; bound
@[bound] theorem le_clock_execDebugReadRequest (h : clock s₀ ≤ clock s) (req : GmpReq) (kind : DebugKind) (r : Resource) (offset : Nat) :
    clock s₀ ≤ clock (nextOf s (execDebugReadRequest req kind r offset s)) := by
  simp only [execDebugReadRequest, nextOf]; bound
@[bound] theorem le_clock_execTestPortInstruction (h : clock s₀ ≤ clock s) (i : TestInstr) :
    clock s₀ ≤ clock (nextOf s (execTestPortInstruction i s)) := by
  simp only [execTestPortInstruction, nextOf]; bound
@[bound] theorem le_clock_execLifecycleSet (h : clock s₀ ≤ clock s) (req : GmpReq) (target : LifeCycle) :
    clock s₀ ≤ clock (nextOf s (execLifecycleSet req target s)) := by
  simp only [execLifecycleSet, nextOf]; bound
@[bound] theorem le_clock_execReprovision (h : clock s₀ ≤ clock s) (req : GmpReq) :
    clock s₀ ≤ clock (nextOf s (execReprovision req s)) := by
  simp only [execReprovision, nextOf]; bound
@[bound] theorem le_clock_execTamperArm (h : clock s₀ ≤ clock s) (req : GmpReq) (n : Fin 4) :
    clock s₀ ≤ clock (nextOf s (execTamperArm req n s)) := by
  simp only [execTamperArm, nextOf]; bound
@[bound] theorem le_clock_execFwStage (h : clock s₀ ≤ clock s) (req : GmpReq) (image : Bytes) :
    clock s₀ ≤ clock (nextOf s (execFwStage req image s)) := by
  simp only [execFwStage, nextOf]; bound
@[bound] theorem le_clock_execFwActivate (h : clock s₀ ≤ clock s) (req : GmpReq) (kernel firmware : Bool) (drainBars : Nat) :
    clock s₀ ≤ clock (nextOf s (execFwActivate req kernel firmware drainBars s)) := by
  simp only [execFwActivate, nextOf]; bound
@[bound] theorem le_clock_execFirmwareDrainEnd (h : clock s₀ ≤ clock s) : clock s₀ ≤ clock (nextOf s (execFirmwareDrainEnd s)) := by
  simp only [execFirmwareDrainEnd, nextOf]; bound
@[bound] theorem le_clock_execFwStatus (h : clock s₀ ≤ clock s) (req : GmpReq) : clock s₀ ≤ clock (nextOf s (execFwStatus req s)) := by
  simp only [execFwStatus, nextOf]; bound
@[bound] theorem le_clock_execQueryDeviceIdentifiers (h : clock s₀ ≤ clock s) :
    clock s₀ ≤ clock (nextOf s (execQueryDeviceIdentifiers s)) := by
  simp only [execQueryDeviceIdentifiers, nextOf]; bound
@[bound] theorem le_clock_execGetFirmwareParameters (h : clock s₀ ≤ clock s) :
    clock s₀ ≤ clock (nextOf s (execGetFirmwareParameters s)) := by
  simp only [execGetFirmwareParameters, nextOf]; bound
@[bound] theorem le_clock_execRequestUpdate (h : clock s₀ ≤ clock s) : clock s₀ ≤ clock (nextOf s (execRequestUpdate s)) := by
  simp only [execRequestUpdate, nextOf]; bound
@[bound] theorem le_clock_execPassComponentTable (h : clock s₀ ≤ clock s) (components : List Nat) :
    clock s₀ ≤ clock (nextOf s (execPassComponentTable components s)) := by
  simp only [execPassComponentTable, nextOf]; bound
@[bound] theorem le_clock_execUpdateComponent (h : clock s₀ ≤ clock s) (component : Nat) (image : Bytes) :
    clock s₀ ≤ clock (nextOf s (execUpdateComponent component image s)) := by
  simp only [execUpdateComponent, nextOf]; bound
@[bound] theorem le_clock_execActivateFirmware (h : clock s₀ ≤ clock s) : clock s₀ ≤ clock (nextOf s (execActivateFirmware s)) := by
  simp only [execActivateFirmware, nextOf]; bound
@[bound] theorem le_clock_execGetStatus (h : clock s₀ ≤ clock s) : clock s₀ ≤ clock (nextOf s (execGetStatus s)) := by
  simp only [execGetStatus, nextOf]; bound
@[bound] theorem le_clock_execCancelUpdateComponent (h : clock s₀ ≤ clock s) :
    clock s₀ ≤ clock (nextOf s (execCancelUpdateComponent s)) := by
  simp only [execCancelUpdateComponent, nextOf]; bound
@[bound] theorem le_clock_execCancelUpdate (h : clock s₀ ≤ clock s) : clock s₀ ≤ clock (nextOf s (execCancelUpdate s)) := by
  simp only [execCancelUpdate, nextOf]; bound
@[bound] theorem le_clock_execGetSensorReading (h : clock s₀ ≤ clock s) (sensor : Nat) :
    clock s₀ ≤ clock (nextOf s (execGetSensorReading sensor s)) := by
  simp only [execGetSensorReading, nextOf]; bound
@[bound] theorem le_clock_execGetStateSensorReadings (h : clock s₀ ≤ clock s) (sensor : Nat) :
    clock s₀ ≤ clock (nextOf s (execGetStateSensorReadings sensor s)) := by
  simp only [execGetStateSensorReadings, nextOf]; bound

end Sys2Proof.Machine
end

section
/-! The clock under ports and configuration space. -/

namespace Sys2Proof.Machine
variable {s₀ s : State}

@[bound] theorem le_clock_dropConn (h : clock s₀ ≤ clock s) (p : Port) : clock s₀ ≤ clock (dropConn s p) := h
@[bound] theorem le_clock_writeConfig (h : clock s₀ ≤ clock s) (f : Func) (r : ConfigReg) (v : Nat) :
    clock s₀ ≤ clock (writeConfig s f r v) := by
  simp only [writeConfig]; bound
@[bound] theorem le_clock_execConfigRetry (h : clock s₀ ≤ clock s) (r : ConfigRead) :
    clock s₀ ≤ clock (nextOf s (execConfigRetry r s)) := by
  simp only [execConfigRetry, nextOf]; bound
@[bound] theorem le_clock_execRegisterWrite (h : clock s₀ ≤ clock s) (f : Func) (reg : RegAt) (width : Nat) (value : BitVec 64) :
    clock s₀ ≤ clock (nextOf s (execRegisterWrite f reg width value s)) := by
  simp only [execRegisterWrite, nextOf]; bound

end Sys2Proof.Machine
end

section
/-! The clock under power, boot and tamper. -/

namespace Sys2Proof.Machine
variable {s₀ s : State}

@[bound] theorem le_clock_resetFunctions (h : clock s₀ ≤ clock s) (p : Port) :
    clock s₀ ≤ clock (resetFunctions s p) := by
  simp only [resetFunctions]; bound
@[bound] theorem le_clock_assertPerst (h : clock s₀ ≤ clock s) (p : Port) :
    clock s₀ ≤ clock (assertPerst s p) := by
  simp only [assertPerst]; bound
@[bound] theorem le_clock_applyPorts (h : clock s₀ ≤ clock s) : clock s₀ ≤ clock (applyPorts s) := h
@[bound] theorem le_clock_releasePerst (h : clock s₀ ≤ clock s) (p : Port) :
    clock s₀ ≤ clock (releasePerst s p) := by
  simp only [releasePerst]; bound
@[bound] theorem le_clock_readsLost (h : clock s₀ ≤ clock s) (p : Port) :
    clock s₀ ≤ clock (readsLost s p) := by
  simp only [readsLost]; bound
@[bound] theorem le_clock_portDown (h : clock s₀ ≤ clock s) (p : Port) : clock s₀ ≤ clock (portDown s p) := by simp only [portDown]; bound
@[bound] theorem le_clock_tamperWipe (h : clock s₀ ≤ clock s) (c : TamperCause) : clock s₀ ≤ clock (tamperWipe s c) := h
@[bound] theorem le_clock_tamperSignal (h : clock s₀ ≤ clock s) (c : TamperCause) :
    clock s₀ ≤ clock (tamperSignal s c) := by
  simp only [tamperSignal]; bound
@[bound] theorem le_clock_releaseReset (h : clock s₀ ≤ clock s) : clock s₀ ≤ clock (releaseReset s) := by simp only [releaseReset]; bound
@[bound] theorem le_clock_bootRom (h : clock s₀ ≤ clock s) : clock s₀ ≤ clock (bootRom s).2 := h
@[bound] theorem le_clock_resolveEntry (h : clock s₀ ≤ clock s) (x : JEntry × Nat) :
    clock s₀ ≤ clock (resolveEntry s x) := by
  simp only [resolveEntry]; bound
@[bound] theorem le_clock_bootEvent (h : clock s₀ ≤ clock s) : clock s₀ ≤ clock (bootEvent s) := by simp only [bootEvent]; bound
@[bound] theorem le_clock_tallyTamper (h : clock s₀ ≤ clock s) : clock s₀ ≤ clock (tallyTamper s) := by simp only [tallyTamper]; bound
@[bound] theorem le_clock_kernelBoot (h : clock s₀ ≤ clock s) (rolledBack : Bool × Bool) :
    clock s₀ ≤ clock (kernelBoot s rolledBack) := by
  unfold kernelBoot
  extract_lets present rooted ahead advanced journal booted resolved aheadNoted tamperNoted lostNoted kernelNoted ctrlNoted noted
  have hadvanced : clock s₀ ≤ clock advanced := le_clock_ite (le_clock_lifeSteps (s := rooted) h _) h
  clear_value advanced
  have hresolved : clock s₀ ≤ clock resolved := by
    apply le_clock_foldl _ _ (le_clock_bootEvent hadvanced)
    exact fun s x h => le_clock_resolveEntry h x
  clear_value resolved
  have haheadNoted : clock s₀ ≤ clock aheadNoted := le_clock_ite (le_clock_tallyDevice hresolved ..) hresolved
  clear_value aheadNoted
  have htamperNoted : clock s₀ ≤ clock tamperNoted := le_clock_ite haheadNoted (le_clock_tallyTamper haheadNoted)
  clear_value tamperNoted
  have hlostNoted : clock s₀ ≤ clock lostNoted := le_clock_ite htamperNoted (le_clock_tallyDevice htamperNoted ..)
  clear_value lostNoted
  have hkernelNoted : clock s₀ ≤ clock kernelNoted := le_clock_ite (le_clock_tallyFirmware hlostNoted ..) hlostNoted
  clear_value kernelNoted
  have hctrlNoted : clock s₀ ≤ clock ctrlNoted := le_clock_ite (le_clock_tallyFirmware hkernelNoted ..) hkernelNoted
  clear_value ctrlNoted
  exact le_clock_ite (le_clock_tallyDevice hctrlNoted ..) hctrlNoted
@[bound] theorem le_clock_startBeats (h : clock s₀ ≤ clock s) : clock s₀ ≤ clock (startBeats s) := by simp only [startBeats]; bound
@[bound] theorem le_clock_clockLost (h : clock s₀ ≤ clock s) (n : LinkIx) :
    clock s₀ ≤ clock (clockLost s n) := by
  simp only [clockLost]; bound
@[bound] theorem le_clock_execPerstAssert (h : clock s₀ ≤ clock s) (p : Port) : clock s₀ ≤ clock (nextOf s (execPerstAssert p s)) := by
  simp only [execPerstAssert, nextOf]; bound
@[bound] theorem le_clock_execPerstRelease (h : clock s₀ ≤ clock s) (p : Port) : clock s₀ ≤ clock (nextOf s (execPerstRelease p s)) := by
  simp only [execPerstRelease, nextOf]; bound
@[bound] theorem le_clock_execPortLinkDown (h : clock s₀ ≤ clock s) (p : Port) : clock s₀ ≤ clock (nextOf s (execPortLinkDown p s)) := by
  simp only [execPortLinkDown, nextOf]; bound
@[bound] theorem le_clock_execPortLinkReturn (h : clock s₀ ≤ clock s) (l : PortLink) :
    clock s₀ ≤ clock (nextOf s (execPortLinkReturn l s)) := by
  simp only [execPortLinkReturn, nextOf]; bound
@[bound] theorem le_clock_execRefclkStop (h : clock s₀ ≤ clock s) (p : Port) : clock s₀ ≤ clock (nextOf s (execRefclkStop p s)) := by
  simp only [execRefclkStop, nextOf]; bound
@[bound] theorem le_clock_execTamper (h : clock s₀ ≤ clock s) (c : TamperCause) : clock s₀ ≤ clock (nextOf s (execTamper c s)) := by
  simp only [execTamper, nextOf]; bound
@[bound] theorem le_clock_execSysResetRelease (h : clock s₀ ≤ clock s) : clock s₀ ≤ clock (nextOf s (execSysResetRelease s)) := by
  simp only [execSysResetRelease, nextOf]; bound
@[bound] theorem le_clock_execFirstBeat (h : clock s₀ ≤ clock s) : clock s₀ ≤ clock (nextOf s (execFirstBeat s)) := by
  simp only [execFirstBeat, nextOf]; bound
@[bound] theorem le_clock_execSysClkStop (h : clock s₀ ≤ clock s) : clock s₀ ≤ clock (nextOf s (execSysClkStop s)) := by
  simp only [execSysClkStop, nextOf]; bound
@[bound] theorem le_clock_execSpwRefclkStop (h : clock s₀ ≤ clock s) (k : Fin 3) : clock s₀ ≤ clock (nextOf s (execSpwRefclkStop k s)) := by
  simp only [execSpwRefclkStop, nextOf]; bound
@[bound] theorem le_clock_execThermtrip (h : clock s₀ ≤ clock s) (tj : Int) : clock s₀ ≤ clock (nextOf s (execThermtrip tj s)) := by
  simp only [execThermtrip, nextOf]; bound
@[bound] theorem le_clock_execBatteryAbsent (h : clock s₀ ≤ clock s) (vbatMv : Nat) :
    clock s₀ ≤ clock (nextOf s (execBatteryAbsent vbatMv s)) := by
  simp only [execBatteryAbsent, nextOf]; bound
@[bound] theorem le_clock_execBatteryRestored (h : clock s₀ ≤ clock s) (vbatMv : Nat) :
    clock s₀ ≤ clock (nextOf s (execBatteryRestored vbatMv s)) := by
  simp only [execBatteryRestored, nextOf]; bound
@[bound] theorem le_clock_execMainPowerApplied (h : clock s₀ ≤ clock s) : clock s₀ ≤ clock (nextOf s (execMainPowerApplied s)) := by
  simp only [execMainPowerApplied, nextOf]; bound
@[bound] theorem le_clock_execBatteryRetentionLost (h : clock s₀ ≤ clock s) : clock s₀ ≤ clock (nextOf s (execBatteryRetentionLost s)) := by
  simp only [execBatteryRetentionLost, nextOf]; bound

end Sys2Proof.Machine
end

section
/-! The clock under attestation. -/

namespace Sys2Proof.Machine
variable {s₀ s : State}

@[bound] theorem le_clock_spdmError (h : clock s₀ ≤ clock s) (f : Func) (code : Nat) : clock s₀ ≤ clock (spdmError s f code) := h
@[bound] theorem le_clock_modConn (h : clock s₀ ≤ clock s) (f : Func) (g : SpdmConn → SpdmConn) :
    clock s₀ ≤ clock (modConn s f g) := by
  simp only [modConn]; bound
@[bound] theorem le_clock_spdmServe (h :
    clock s₀ ≤ clock s) {g : State → State} (hg : ∀ s, clock s₀ ≤ clock s → clock s₀ ≤ clock (g s)) (f : Func) :
    clock s₀ ≤ clock (spdmServe s f g) := le_clock_ite h (le_clock_ite (le_clock_spdmError h ..) (hg s h))
@[bound] theorem le_clock_spdmNegotiated (h :
    clock s₀ ≤ clock s) {g : State → State} (hg : ∀ s, clock s₀ ≤ clock s → clock s₀ ≤ clock (g s)) (f : Func) :
    clock s₀ ≤ clock (spdmNegotiated s f g) :=
  le_clock_spdmServe h (fun s h => le_clock_ite (hg s h) (le_clock_spdmError h ..)) f
@[bound] theorem le_clock_signSpdm (h : clock s₀ ≤ clock s) (key : Nat) (said : Bytes) : clock s₀ ≤ clock (signSpdm s key said).2 := h
@[bound] theorem le_clock_withSession (h : clock s₀ ≤ clock s) {g : TarnIx → Session → State → State}
    (hg : ∀ t x s, clock s₀ ≤ clock s → clock s₀ ≤ clock (g t x s)) (f : Func) (session : BitVec 32) :
    clock s₀ ≤ clock (withSession s f session g) := by
  refine le_clock_spdmServe h (fun s h => ?_) f
  split
  · exact le_clock_spdmError h ..
  · split
    · exact le_clock_spdmError h ..
    · exact le_clock_ite (hg _ _ _ h) (le_clock_spdmError h ..)
@[bound] theorem le_clock_execDoeDiscovery (h : clock s₀ ≤ clock s) (f : Func) (index : Nat) :
    clock s₀ ≤ clock (nextOf s (execDoeDiscovery f index s)) := by
  simp only [execDoeDiscovery, nextOf]; bound
@[bound] theorem le_clock_execGetVersion (h : clock s₀ ≤ clock s) (f : Func) : clock s₀ ≤ clock (nextOf s (execGetVersion f s)) := by
  simp only [execGetVersion, nextOf]; bound
@[bound] theorem le_clock_execGetCapabilities (h : clock s₀ ≤ clock s) (f : Func) :
    clock s₀ ≤ clock (nextOf s (execGetCapabilities f s)) := by
  simp only [execGetCapabilities, nextOf]; bound
@[bound] theorem le_clock_execNegotiateAlgorithms (h : clock s₀ ≤ clock s) (f : Func) (offer : AlgOffer) :
    clock s₀ ≤ clock (nextOf s (execNegotiateAlgorithms f offer s)) := by
  simp only [execNegotiateAlgorithms, nextOf]; bound
@[bound] theorem le_clock_execGetDigests (h : clock s₀ ≤ clock s) (f : Func) : clock s₀ ≤ clock (nextOf s (execGetDigests f s)) := by
  simp only [execGetDigests, nextOf]; bound
@[bound] theorem le_clock_execGetCertificate (h : clock s₀ ≤ clock s) (f : Func) (slot offset length : Nat) :
    clock s₀ ≤ clock (nextOf s (execGetCertificate f slot offset length s)) := by
  simp only [execGetCertificate, nextOf]; bound
@[bound] theorem le_clock_execChallenge (h : clock s₀ ≤ clock s) (f : Func) (slot : Nat) (nonce : Bytes) :
    clock s₀ ≤ clock (nextOf s (execChallenge f slot nonce s)) := by
  simp only [execChallenge, nextOf]; bound
@[bound] theorem le_clock_execGetMeasurements (h : clock s₀ ≤ clock s) (f : Func) (index : Nat) (nonce : Bytes) :
    clock s₀ ≤ clock (nextOf s (execGetMeasurements f index nonce s)) := by
  simp only [execGetMeasurements, nextOf]; bound
@[bound] theorem le_clock_execKeyExchange (h : clock s₀ ≤ clock s) (f : Func) (summaryType : BitVec 8) (reqSessionId : BitVec 16) (exchangeData : Bytes) :
    clock s₀ ≤ clock (nextOf s (execKeyExchange f summaryType reqSessionId exchangeData s)) := by
  simp only [execKeyExchange, nextOf]
  refine le_clock_spdmServe h (fun s h => ?_) f
  split
  · exact le_clock_spdmError h ..
  next t _ =>
    refine le_clock_ite (le_clock_spdmError h ..) (le_clock_ite (le_clock_spdmError h ..) (le_clock_ite (le_clock_spdmError h ..) ?_))
    split
    · exact le_clock_spdmError h ..
    next pub _ =>
      have hdrawn : clock s₀ ≤ clock (drawEntropy (drawEntropy s 56).2 34).2 := le_clock_drawEntropy (le_clock_drawEntropy h ..) ..
      exact le_clock_ite (le_clock_spdmError hdrawn ..) (le_clock_emit (le_clock_signSpdm (le_clock_modFn hdrawn ..) ..) ..)
@[bound] theorem le_clock_execFinish (h : clock s₀ ≤ clock s) (f : Func) (session : BitVec 32) (verifyOk : Bool) :
    clock s₀ ≤ clock (nextOf s (execFinish f session verifyOk s)) := by
  simp only [execFinish, nextOf]; bound
@[bound] theorem le_clock_execKeyUpdate (h : clock s₀ ≤ clock s) (f : Func) (session : BitVec 32) :
    clock s₀ ≤ clock (nextOf s (execKeyUpdate f session s)) := by
  simp only [execKeyUpdate, nextOf]; bound
@[bound] theorem le_clock_execEndSession (h : clock s₀ ≤ clock s) (f : Func) (session : BitVec 32) :
    clock s₀ ≤ clock (nextOf s (execEndSession f session s)) := by
  simp only [execEndSession, nextOf]; bound
@[bound] theorem le_clock_execSpdmUnsupported (h : clock s₀ ≤ clock s) (f : Func) (code : BitVec 8) :
    clock s₀ ≤ clock (nextOf s (execSpdmUnsupported f code s)) := by
  simp only [execSpdmUnsupported, nextOf]; bound

end Sys2Proof.Machine
end

section
/-! The clock under a step. -/

namespace Sys2Proof.Machine

theorem le_clock_exec {s₀ s : State} (h : clock s₀ ≤ clock s) {c : Instr} (hreset : c ≠ .sysReset) (hbrown : c ≠ .brownOut)
    (hoff : c ≠ .mainPowerRemoved) : clock s₀ ≤ clock (nextOf s (exec c s)) := by
  cases c
  case sysReset => exact absurd rfl hreset
  case brownOut => exact absurd rfl hbrown
  case mainPowerRemoved => exact absurd rfl hoff
  all_goals simp only [exec]; bound

end Sys2Proof.Machine

open Sys2Proof.Machine

/-- Settles O59: the bound on the clock that each command but the three resets keeps. -/
theorem onlyResetsGoBack : Obligations.OnlyResetsGoBack := by
  intro s s' hstep hc
  rw [← clock_le_iff]
  unfold step at hstep
  split at hstep
  next =>
    cases hstep
    exact le_rfl
  next c rest hpending =>
    obtain ⟨hreset, hbrown, hoff⟩ := hc c rest hpending
    have hrest : clock s ≤ clock { s with pending := rest } := le_rfl
    have hexec := le_clock_exec hrest hreset hbrown hoff
    rwa [hstep] at hexec

end

section
/-!
Frames. `rest` takes from a state what an operation may change, and `agree rest s` is the set of states that agree with s on what
`rest` keeps; so `agree rest s₀ ≤ agree rest s` says that s₀ and s differ at most there. It is written as an inequality for
`bound`, which finds the frame of a composed operation from those of its parts. The operations that several families of commands
share have their lemmas here, for every `rest` that drops the fields they change.
-/

namespace Sys2Proof.Machine

/-- The states that agree with s on what `rest` keeps. -/
def agree (rest : State → State) (s : State) : Set State := {x | rest x = rest s}

section
variable {rest : State → State} {s₀ s : State}

theorem agree_le_iff : agree rest s₀ ≤ agree rest s ↔ rest s₀ = rest s :=
  ⟨fun h => h (show rest s₀ = rest s₀ from rfl), fun h _ hx => Eq.trans hx h⟩

theorem agree_of_eq {s' : State} (h : agree rest s₀ ≤ agree rest s) (e : rest s' = rest s) : agree rest s₀ ≤ agree rest s' :=
  agree_le_iff.mpr ((agree_le_iff.mp h).trans e.symm)

/-! The ways operations are composed -/

@[bound] theorem agree_ite {c : Prop} [Decidable c] {a b : State} (ha : agree rest s₀ ≤ agree rest a)
    (hb : agree rest s₀ ≤ agree rest b) : agree rest s₀ ≤ agree rest (if c then a else b) := by split <;> assumption

@[bound] theorem agree_ite_snd {α : Type} {c : Prop} [Decidable c] {a b : α × State} (ha : agree rest s₀ ≤ agree rest a.2)
    (hb : agree rest s₀ ≤ agree rest b.2) : agree rest s₀ ≤ agree rest (if c then a else b).2 := by split <;> assumption

theorem agree_of_snd {α : Type} {x : α × State} {b : α} (e : x = (b, s)) (h : agree rest s₀ ≤ agree rest x.2) :
    agree rest s₀ ≤ agree rest s := by subst e; exact h

@[bound] theorem agree_foldl {α : Type} {f : State → α → State}
    (hf : ∀ s x, agree rest s₀ ≤ agree rest s → agree rest s₀ ≤ agree rest (f s x)) (l : List α) (h : agree rest s₀ ≤ agree rest s) :
    agree rest s₀ ≤ agree rest (l.foldl f s) := by
  induction l generalizing s with
  | nil => exact h
  | cons x l ih => exact ih (hf s x h)

@[bound] theorem agree_iter {f : State → State} (hf : ∀ s, agree rest s₀ ≤ agree rest s → agree rest s₀ ≤ agree rest (f s)) (n : Nat)
    (h : agree rest s₀ ≤ agree rest s) : agree rest s₀ ≤ agree rest (iter f n s) := iter_inv (agree rest s₀ ≤ agree rest ·) f hf n s h

@[bound] theorem agree_serve {uid op : Nat} {g : State → Ticket → State} (h : agree rest s₀ ≤ agree rest s)
    (hg : ∀ k, agree rest s₀ ≤ agree rest (g s k)) : agree rest s₀ ≤ agree rest (serve s uid op g) := by
  unfold serve
  split
  · exact hg _
  · exact h

@[bound] theorem agree_serveRunning {uid op : Nat} {g : State → Ticket → State} (h : agree rest s₀ ≤ agree rest s)
    (hg : ∀ k, agree rest s₀ ≤ agree rest (g s k)) : agree rest s₀ ≤ agree rest (serveRunning s uid op g) := by
  unfold serveRunning
  split
  · exact agree_ite (hg _) h
  · exact h

/-! Tickets -/

section
variable (htickets : ∀ s l, rest { s with tickets := l } = rest s) (h : agree rest s₀ ≤ agree rest s)
include htickets h

@[bound] theorem agree_modTicket (uid : Nat) (g : Ticket → Ticket) : agree rest s₀ ≤ agree rest (modTicket s uid g) :=
  agree_of_eq h (htickets ..)
@[bound] theorem agree_finishTicket (uid r0 r1 : Nat) : agree rest s₀ ≤ agree rest (finishTicket s uid r0 r1) :=
  agree_of_eq h (htickets ..)
@[bound] theorem agree_answerTicket (uid : Nat) (st : Status) (r0 r1 : Nat) :
    agree rest s₀ ≤ agree rest (answerTicket s uid st r0 r1) := agree_of_eq h (htickets ..)
@[bound] theorem agree_failTicket (uid : Nat) (st : Status) : agree rest s₀ ≤ agree rest (failTicket s uid st) :=
  agree_of_eq h (htickets ..)
end

/-! Free values and the Tally -/

@[bound] theorem agree_signWith (hfree : ∀ s n, rest { s with freeCtr := n } = rest s) (h : agree rest s₀ ≤ agree rest s)
    (key : Nat) (msg : Bytes) : agree rest s₀ ≤ agree rest (signWith s key msg).2 := agree_of_eq h (hfree ..)

@[bound] theorem agree_tally (htally : ∀ s y, rest { s with tally := y } = rest s) (h : agree rest s₀ ≤ agree rest s)
    (kind n tarn : Nat) (firmware : Bool) (st : Status) (payload : Bytes) :
    agree rest s₀ ≤ agree rest (tally s kind n tarn firmware st payload) := agree_of_eq h (htally ..)

@[bound] theorem agree_tallySession (htally : ∀ s y, rest { s with tally := y } = rest s) (h : agree rest s₀ ≤ agree rest s)
    (t event sid : Nat) (st : Status) : agree rest s₀ ≤ agree rest (tallySession s t event sid st) := agree_of_eq h (htally ..)

/-! Writes to the host -/

section
variable (houtbox : ∀ s l, rest { s with outbox := l } = rest s)
include houtbox

@[bound] theorem agree_emit (h : agree rest s₀ ≤ agree rest s) (o : Output) : agree rest s₀ ≤ agree rest (emit s o) :=
  agree_of_eq h (houtbox ..)
@[bound] theorem agree_emitWrite (h : agree rest s₀ ≤ agree rest s) (t : TarnIx) (addr : Nat) (bs : Bytes) (relaxed : Bool) :
    agree rest s₀ ≤ agree rest (emitWrite s t addr bs relaxed) := agree_of_eq h (houtbox ..)
@[bound] theorem agree_hostPut (h : agree rest s₀ ≤ agree rest s) (t : TarnIx) (addr : Nat) (bs : Bytes) :
    agree rest s₀ ≤ agree rest (hostPut s t addr bs) := agree_ite h (agree_emitWrite houtbox h ..)
@[bound] theorem agree_emitRecord (h : agree rest s₀ ≤ agree rest s) (t : TarnIx) (addr : Nat) (bs : Bytes) :
    agree rest s₀ ≤ agree rest (emitRecord s t addr bs) :=
  agree_emitWrite houtbox (agree_ite h (agree_emitWrite houtbox h ..)) ..
@[bound] theorem agree_sealRecords (h : agree rest s₀ ≤ agree rest s) (k : Ticket) (operand flags : Nat) (x : Session)
    (addr total : Nat) (l : List (Bytes × Nat)) : agree rest s₀ ≤ agree rest (sealRecords k operand flags x addr total l s) := by
  induction l generalizing s with
  | nil => exact h
  | cons p l ih => exact ih (agree_emitRecord houtbox h ..)
end

/-! Bounce records: a session's counters -/

section
variable (hsessions : ∀ s t id g, rest (modSession s t id g) = rest s)
include hsessions

@[bound] theorem agree_modSession (h : agree rest s₀ ≤ agree rest s) (t : TarnIx) (id : BitVec 32) (g : Session → Session) :
    agree rest s₀ ≤ agree rest (modSession s t id g) := agree_of_eq h (hsessions ..)
@[bound] theorem agree_openRecord (h : agree rest s₀ ≤ agree rest s) (k : Ticket) (operand need off : Nat) (r : Bytes) :
    agree rest s₀ ≤ agree rest (openRecord s k operand need off r).2 := by
  simp only [openRecord]
  split
  · exact h
  · refine agree_ite_snd h (agree_ite_snd h (agree_ite_snd h ?_))
    split
    · exact agree_modSession hsessions h ..
    · exact agree_modSession hsessions h ..
@[bound] theorem agree_openTransfer (h : agree rest s₀ ≤ agree rest s) (k : Ticket) (operand need fuel : Nat) (raw got : Bytes) :
    agree rest s₀ ≤ agree rest (openTransfer k operand need fuel raw got s).2 := by
  fun_induction openTransfer k operand need fuel raw got s with
  | case1 => exact h
  | case2 => exact h
  | case3 fuel raw got s _ n pt s' e ih => exact ih (agree_of_snd e (agree_openRecord hsessions h ..))
  | case4 => exact agree_openRecord hsessions h ..
@[bound] theorem agree_plainOf (h : agree rest s₀ ≤ agree rest s) (k : Ticket) (operand p : Nat) (raw : Bytes) :
    agree rest s₀ ≤ agree rest (plainOf s k operand p raw).2 := agree_ite_snd (agree_openTransfer hsessions h ..) h
@[bound] theorem agree_hostOut (houtbox : ∀ s l, rest { s with outbox := l } = rest s) (h : agree rest s₀ ≤ agree rest s) (k : Ticket)
    (operand addr : Nat) (bs : Bytes) (flags : Nat) : agree rest s₀ ≤ agree rest (hostOut s k operand addr bs flags).2 := by
  simp only [hostOut]
  refine agree_ite_snd h (agree_ite_snd h (agree_ite_snd ?_ (agree_hostPut houtbox h ..)))
  split
  · exact h
  · exact agree_modSession hsessions (agree_sealRecords houtbox h ..) ..
end

/-! Flits of a link -/

@[bound] theorem agree_modLink (hlinks : ∀ s l, rest { s with links := l } = rest s) (h : agree rest s₀ ≤ agree rest s) (n : LinkIx)
    (g : Link → Link) : agree rest s₀ ≤ agree rest (modLink s n g) := agree_of_eq h (hlinks ..)

@[bound] theorem agree_replaceKeys (hlinks : ∀ s l, rest { s with links := l } = rest s)
    (htally : ∀ s y, rest { s with tally := y } = rest s) (h : agree rest s₀ ≤ agree rest s) (n : LinkIx) :
    agree rest s₀ ≤ agree rest (replaceKeys s n) :=
  agree_ite (agree_tallySession htally (agree_modLink hlinks h ..) ..) h

@[bound] theorem agree_flitIn (hlinks : ∀ s l, rest { s with links := l } = rest s)
    (htally : ∀ s y, rest { s with tally := y } = rest s) (h : agree rest s₀ ≤ agree rest s) (n : LinkIx) (flit : Bytes) :
    agree rest s₀ ≤ agree rest (flitIn s n flit).2 := by
  have hkeys := agree_replaceKeys hlinks htally h n
  have hmod (g) : agree rest s₀ ≤ agree rest (modLink (replaceKeys s n) n g) := agree_modLink hlinks hkeys n g
  have hmods (g g') : agree rest s₀ ≤ agree rest (modLink (modLink (replaceKeys s n) n g) n g') := agree_modLink hlinks (hmod g) n g'
  unfold flitIn
  refine agree_ite_snd hkeys (agree_ite_snd (agree_ite_snd (hmod _) (agree_ite_snd ?_ (agree_ite_snd ?_
    (agree_ite_snd (hmods ..) (hmods ..))))) (agree_ite_snd (hmod _) hkeys))
  · exact agree_ite (hmods ..) (hmod _)
  · exact agree_ite (hmods ..) (hmod _)

section
variable (hlinks : ∀ s l, rest { s with links := l } = rest s) (htally : ∀ s y, rest { s with tally := y } = rest s)
  (houtbox : ∀ s l, rest { s with outbox := l } = rest s)
include hlinks htally houtbox

@[bound] theorem agree_sendFlit (h : agree rest s₀ ≤ agree rest s) (n : LinkIx) (kind vc : Nat) (last : Bool) (seq : Nat) (body : Bytes) :
    agree rest s₀ ≤ agree rest (sendFlit s n kind vc last seq body) := by
  have hkeys := agree_replaceKeys hlinks htally h n
  exact agree_ite hkeys (agree_emit houtbox (agree_modLink hlinks hkeys ..) ..)

theorem agree_of_sendOne (h : agree rest s₀ ≤ agree rest s) {n : LinkIx} {s' : State} (e : sendOne s n = some s') :
    agree rest s₀ ≤ agree rest s' := by
  simp only [sendOne] at e
  split at e
  · cases e
  split at e
  · cases e
  split at e
  · cases e
    exact agree_modLink hlinks h ..
  · cases e
    exact agree_sendFlit hlinks htally houtbox (agree_modLink hlinks h ..) ..

@[bound] theorem agree_linkPumpAux (h : agree rest s₀ ≤ agree rest s) (n : LinkIx) (fuel : Nat) :
    agree rest s₀ ≤ agree rest (linkPumpAux n fuel s) := by
  induction fuel generalizing s with
  | zero => exact h
  | succ fuel ih =>
    unfold linkPumpAux
    split
    · exact h
    · next s' e => exact ih (agree_of_sendOne hlinks htally houtbox h e)

@[bound] theorem agree_linkPump (h : agree rest s₀ ≤ agree rest s) (n : LinkIx) : agree rest s₀ ≤ agree rest (linkPump s n) :=
  agree_linkPumpAux hlinks htally houtbox h ..

@[bound] theorem agree_sendMessage (h : agree rest s₀ ≤ agree rest s) (n : LinkIx) (vc rank : Nat) (msg : Bytes) :
    agree rest s₀ ≤ agree rest (sendMessage s n vc rank msg) :=
  agree_linkPump hlinks htally houtbox (agree_modLink hlinks h ..) ..
end

end
end Sys2Proof.Machine
end

section
/-! What the key commands and the read commands leave unchanged. -/

namespace Sys2Proof.Machine

/-- The state without its sessions. -/
def sessRest (s : State) : State := { s with fns := s.fns.map fun f => { f with sessions := [] } }

theorem sessRest_modSession (s : State) (t : TarnIx) (id : BitVec 32) (g : Session → Session) :
    sessRest (modSession s t id g) = sessRest s := by
  have hfns : (modSession s t id g).fns.map (fun f => { f with sessions := [] }) = s.fns.map fun f => { f with sessions := [] } := by
    refine List.ext_getElem (by simp [modSession, modFn]) fun i _ _ => ?_
    simp only [modSession, modFn, List.getElem_map, List.getElem_modify]
    split <;> rfl
  unfold sessRest
  rw [hfns]
  rfl

/-- Equal registers but for the sessions. -/
theorem fnOf_of_fns {s s' : State} (h : (sessRest s').fns = (sessRest s).fns) (t : TarnIx) :
    fnOf s' t = { fnOf s t with sessions := (fnOf s' t).sessions } := by
  have hget (x : State) : { fnOf x t with sessions := [] } = (sessRest x).fns.getD t {} := by
    simp only [fnOf, sessRest, List.getD_eq_getElem?_getD, List.getElem?_map]
    cases x.fns[t.val]? <;> rfl
  have hclear : ({ fnOf s' t with sessions := [] } : FnRegs) = { fnOf s t with sessions := [] } := by rw [hget, hget, h]
  exact congrArg (fun f : FnRegs => { f with sessions := (fnOf s' t).sessions }) hclear

/-! The key commands -/

/-- The state without what a key command may change. -/
def keyRest (s : State) : State := { sessRest s with
  tickets := [], keys := [], pendRules := [], tally := {}, replaces := [], bbram := { s.bbram with journal := [], parents := [] } }

@[simp] theorem keyRest_modSession (s : State) (t : TarnIx) (id : BitVec 32) (g : Session → Session) :
    keyRest (modSession s t id g) = keyRest s :=
  congrArg (fun x : State => { x with
    tickets := [], keys := [], pendRules := [], tally := {}, replaces := [], bbram := { x.bbram with journal := [], parents := [] } })
    (sessRest_modSession s t id g)

theorem eq_of_keyRest {s s' : State} (h : keyRest s' = keyRest s) :
    s' = { s with tickets := s'.tickets, fns := s'.fns, keys := s'.keys, pendRules := s'.pendRules, tally := s'.tally,
                  replaces := s'.replaces, bbram := { s.bbram with journal := s'.bbram.journal, parents := s'.bbram.parents } } :=
  congrArg (fun x : State => { x with
    tickets := s'.tickets, fns := s'.fns, keys := s'.keys, pendRules := s'.pendRules, tally := s'.tally, replaces := s'.replaces,
    bbram := { x.bbram with journal := s'.bbram.journal, parents := s'.bbram.parents } }) h

section
variable {s₀ s : State} (h : agree keyRest s₀ ≤ agree keyRest s)
include h

@[bound] theorem agree_keyRest_bbram (tickets : List Ticket) (keys : List KeySlot) (pendRules : List PendRule) (tally : Tally)
    (replaces : List (Option Replace)) (journal : List JEntry) (parents : List Parent) :
    agree keyRest s₀ ≤ agree keyRest { s with tickets, keys, pendRules, tally, replaces, bbram := { s.bbram with journal, parents } } := h
@[bound] theorem agree_modSlot (i : Nat) (g : KeySlot → KeySlot) : agree keyRest s₀ ≤ agree keyRest (modSlot s i g) := h
@[bound] theorem agree_modParent (p : Nat) (g : Parent → Parent) : agree keyRest s₀ ≤ agree keyRest (modParent s p g) := h
@[bound] theorem agree_tallyKeyEv (t op slot : Nat) (k : KeySlot) (oldKcv : Bytes) (st : Status) :
    agree keyRest s₀ ≤ agree keyRest (tallyKeyEv s t op slot k oldKcv st) := agree_tally (fun _ _ => rfl) h ..
@[bound] theorem agree_setJournal (j : Nat) (g : JEntry → JEntry) : agree keyRest s₀ ≤ agree keyRest (setJournal s j g) := h
@[bound] theorem agree_dropReplace (j : Nat) : agree keyRest s₀ ≤ agree keyRest (dropReplace s j) := h

theorem agree_serveKeyLoad (k : Ticket) : agree keyRest s₀ ≤ agree keyRest (serveKeyLoad s k) := by
  have hplain := agree_plainOf keyRest_modSession h k 0 112 k.buf
  unfold serveKeyLoad
  refine agree_ite h (agree_ite (by bound) ?_)
  split
  next st s' e =>
    have hs := agree_of_snd e hplain
    bound
  next raw s' e =>
    have hs := agree_of_snd e hplain
    split
    · bound
    split
    · bound
    · exact agree_finishTicket (fun _ _ => rfl) (agree_tallyKeyEv (agree_modSlot hs ..) ..) ..

theorem agree_serveKeyUnload (k : Ticket) : agree keyRest s₀ ≤ agree keyRest (serveKeyUnload s k) := by
  unfold serveKeyUnload
  bound

theorem agree_serveKeyReplace (k : Ticket) : agree keyRest s₀ ≤ agree keyRest (serveKeyReplace s k) := by
  have hplain := agree_plainOf keyRest_modSession h k 1 112 k.buf
  unfold serveKeyReplace
  refine agree_ite h (agree_ite (by bound) (agree_ite (by bound) ?_))
  split
  · exact h
  split
  next st s' e =>
    have hs := agree_of_snd e hplain
    bound
  next raw s' e =>
    have hs := agree_of_snd e hplain
    extract_lets parent same
    split
    · bound
    · exact hs

theorem agree_serveParentInvalidate (k : Ticket) : agree keyRest s₀ ≤ agree keyRest (serveParentInvalidate s k) := by
  unfold serveParentInvalidate
  bound

theorem agree_commitReplace (j : Nat) : agree keyRest s₀ ≤ agree keyRest (commitReplace s j) := by
  unfold commitReplace
  extract_lets e
  split
  · exact h
  rename_i slot t dropped begun _ r _
  extract_lets parent noted key placed marked served
  have hdropped : agree keyRest s₀ ≤ agree keyRest dropped := agree_dropReplace h j
  have hbegun : agree keyRest s₀ ≤ agree keyRest begun := agree_setJournal h ..
  have hnoted : agree keyRest s₀ ≤ agree keyRest noted := agree_ite hbegun (agree_modParent hbegun ..)
  clear_value dropped noted
  have hplaced : agree keyRest s₀ ≤ agree keyRest placed := agree_modSlot hnoted ..
  have hmarked : agree keyRest s₀ ≤ agree keyRest marked := hplaced
  refine agree_ite h (agree_ite (agree_dropReplace h j) (agree_ite ?_ ?_))
  · exact agree_answerTicket (fun _ _ => rfl) (agree_tallyKeyEv hdropped ..) ..
  · exact agree_tallyKeyEv (agree_modTicket (fun _ _ => rfl) hmarked ..) ..

theorem agree_journalIdle (j : Nat) : agree keyRest s₀ ≤ agree keyRest (journalIdle s j) := by
  unfold journalIdle
  bound

end
/-! The read commands -/

/-- The state without what a read command may change. -/
def readRest (s : State) : State := { sessRest s with tickets := [], outbox := [], freeCtr := 0 }

@[simp] theorem readRest_modSession (s : State) (t : TarnIx) (id : BitVec 32) (g : Session → Session) :
    readRest (modSession s t id g) = readRest s :=
  congrArg (fun x : State => { x with tickets := [], outbox := [], freeCtr := 0 }) (sessRest_modSession s t id g)

theorem eq_of_readRest {s s' : State} (h : readRest s' = readRest s) :
    s' = { s with tickets := s'.tickets, fns := s'.fns, outbox := s'.outbox, freeCtr := s'.freeCtr } :=
  congrArg (fun x : State => { x with tickets := s'.tickets, fns := s'.fns, outbox := s'.outbox, freeCtr := s'.freeCtr }) h

section
variable {s₀ s : State} (h : agree readRest s₀ ≤ agree readRest s)
include h

@[bound] theorem agree_report (t : Option TarnIx) (nonce : Bytes) : agree readRest s₀ ≤ agree readRest (report s t nonce).2 := by
  simp only [report]; bound

@[bound] theorem agree_readAnswer (k : Ticket) (operand addr len unit : Nat) (l : List Bytes) (r1 : Nat) :
    agree readRest s₀ ≤ agree readRest (readAnswer s k operand addr len unit l r1) := by
  unfold readAnswer
  extract_lets out
  have hout := agree_hostOut readRest_modSession (fun _ _ => rfl) h k operand addr out.flatten 0
  split
  next st s' e =>
    have hs := agree_of_snd e hout
    bound
  next s' e =>
    have hs := agree_of_snd e hout
    bound

@[bound] theorem agree_serveReport (k : Ticket) : agree readRest s₀ ≤ agree readRest (serveReport s k) := by
  unfold serveReport
  split
  next st s' e =>
    have hs := agree_of_snd e (agree_plainOf readRest_modSession h ..)
    bound
  next nonce s' e =>
    have hreport := agree_report (agree_of_snd e (agree_plainOf readRest_modSession h ..)) (some k.tarn) nonce
    generalize report s' (some k.tarn) nonce = drawn at hreport ⊢
    obtain ⟨rep, reported⟩ := drawn
    dsimp only at hreport ⊢
    have hout := agree_hostOut readRest_modSession (fun _ _ => rfl) hreport k 1 (opW k 1) rep 0
    split
    next st s'' e' => exact agree_failTicket (fun _ _ => rfl) (agree_of_snd e' hout) ..
    next s'' e' => exact agree_finishTicket (fun _ _ => rfl) (agree_of_snd e' hout) ..

@[bound] theorem agree_serveBounceSetup (k : Ticket) : agree readRest s₀ ≤ agree readRest (serveBounceSetup s k) := by
  unfold serveBounceSetup
  extract_lets id
  bound

end

/-! The commands -/

theorem keyRest_exec {s s' : State} {c : Instr} {uid : Nat} {j : Fin 16}
    (hc : c = .keyLoad uid ∨ c = .keyUnload uid ∨ c = .keyReplace uid ∨ c = .keyReplaceCommit j ∨ c = .keyJournalIdle j ∨
      c = .parentInvalidate uid) (e : exec c s = .next s') : agree keyRest s ≤ agree keyRest s' := by
  rcases hc with rfl | rfl | rfl | rfl | rfl | rfl
  · cases e
    exact agree_serve le_rfl (agree_serveKeyLoad le_rfl)
  · cases e
    exact agree_serve le_rfl (agree_serveKeyUnload le_rfl)
  · cases e
    exact agree_serve le_rfl (agree_serveKeyReplace le_rfl)
  · cases e
    exact agree_ite (agree_commitReplace le_rfl j) le_rfl
  · cases e
    exact agree_ite (agree_journalIdle le_rfl j) le_rfl
  · cases e
    exact agree_serve le_rfl (agree_serveParentInvalidate le_rfl)

theorem readRest_exec {s s' : State} {c : Instr} {uid : Nat}
    (hc : c = .nop uid ∨ c = .ledgerRead uid ∨ c = .tallyRead uid ∨ c = .reportGet uid ∨ c = .bounceSetup uid)
    (e : exec c s = .next s') : agree readRest s ≤ agree readRest s' := by
  rcases hc with rfl | rfl | rfl | rfl | rfl
  · cases e
    exact agree_serve le_rfl fun k => agree_finishTicket (fun _ _ => rfl) le_rfl ..
  · cases e
    exact agree_serve le_rfl fun k => agree_readAnswer le_rfl ..
  · cases e
    exact agree_serve le_rfl fun k => agree_readAnswer le_rfl ..
  · cases e
    exact agree_serve le_rfl fun k => agree_serveReport le_rfl k
  · cases e
    exact agree_serve le_rfl fun k => agree_serveBounceSetup le_rfl k

end Sys2Proof.Machine

open Sys2Proof.Machine

/-- Settles O15: by the frames of the key commands and of the read commands. -/
theorem readAndKeyCommandsFrame : Obligations.ReadAndKeyCommandsFrame := by
  refine ⟨fun s uid j c hc => ?_, fun s uid c hc => ?_⟩
  · obtain ⟨s', e⟩ : ∃ s', exec c s = .next s' := by rcases hc with rfl | rfl | rfl | rfl | rfl | rfl <;> exact ⟨_, rfl⟩
    have hrest : keyRest s' = keyRest s := (agree_le_iff.mp (keyRest_exec hc e)).symm
    exact ⟨s', e, eq_of_keyRest hrest, fnOf_of_fns (congrArg State.fns hrest :)⟩
  · obtain ⟨s', e⟩ : ∃ s', exec c s = .next s' := by rcases hc with rfl | rfl | rfl | rfl | rfl <;> exact ⟨_, rfl⟩
    have hrest : readRest s' = readRest s := (agree_le_iff.mp (readRest_exec hc e)).symm
    exact ⟨s', e, eq_of_readRest hrest, fnOf_of_fns (congrArg State.fns hrest :)⟩

end

section
/-! What the timing events leave unchanged (R52, R53, R368). -/

namespace Sys2Proof.Machine

/-- The state without what a timing event may change. -/
def timingRest (s : State) : State := { s with timing := {}, links := [], tally := {}, routesNext := [], outbox := [], freeCtr := 0 }

theorem eq_of_timingRest {s s' : State} (h : timingRest s' = timingRest s) :
    s' = { s with timing := s'.timing, links := s'.links, tally := s'.tally, routesNext := s'.routesNext, outbox := s'.outbox,
                  freeCtr := s'.freeCtr } :=
  congrArg (fun x : State => { x with
    timing := s'.timing, links := s'.links, tally := s'.tally, routesNext := s'.routesNext, outbox := s'.outbox,
    freeCtr := s'.freeCtr }) h

section
variable {s₀ s : State} (h : agree timingRest s₀ ≤ agree timingRest s)
include h

@[bound] theorem agree_timingRest_timing (timing : Timing) : agree timingRest s₀ ≤ agree timingRest { s with timing } := h

@[bound] theorem agree_tallyAlign (action : Nat) (leader : Bytes) (old new : Nat) :
    agree timingRest s₀ ≤ agree timingRest (tallyAlign s action leader old new) := agree_tally (fun _ _ => rfl) h ..

@[bound] theorem agree_enterHoldover : agree timingRest s₀ ≤ agree timingRest (enterHoldover s) := by
  simp only [enterHoldover]; bound

@[bound] theorem agree_leaveHoldover : agree timingRest s₀ ≤ agree timingRest (leaveHoldover s) :=
  agree_ite (agree_tallyAlign (agree_timingRest_timing h _) ..) h

@[bound] theorem agree_chooseLeader : agree timingRest s₀ ≤ agree timingRest (chooseLeader s) := by
  unfold chooseLeader
  split
  · exact h
  · exact agree_ite (agree_timingRest_timing h _) (agree_tallyAlign (agree_timingRest_timing h _) ..)

@[bound] theorem agree_correctPhase (ps : Int) : agree timingRest s₀ ≤ agree timingRest (correctPhase s ps) :=
  agree_ite (agree_timingRest_timing h _) h

@[bound] theorem agree_timing_sendFlit (n : LinkIx) (kind vc : Nat) (last : Bool) (seq : Nat) (body : Bytes) :
    agree timingRest s₀ ≤ agree timingRest (sendFlit s n kind vc last seq body) :=
  agree_sendFlit (fun _ _ => rfl) (fun _ _ => rfl) (fun _ _ => rfl) h ..

@[bound] theorem agree_sendBeat (n : LinkIx) (corr : Int) : agree timingRest s₀ ≤ agree timingRest (sendBeat s n corr) :=
  agree_timing_sendFlit (show agree timingRest s₀ ≤ agree timingRest { s with freeCtr := s.freeCtr + 1 } from h) ..

theorem agree_takeBeat (n : LinkIx) (flit : Bytes) (arrivalPs : Int) :
    agree timingRest s₀ ≤ agree timingRest (takeBeat s n flit arrivalPs) := by
  unfold takeBeat
  extract_lets delay corr off before heard served corrected
  have hheard : agree timingRest s₀ ≤ agree timingRest heard := agree_timingRest_timing h _
  have hserved : agree timingRest s₀ ≤ agree timingRest served := agree_ite (agree_leaveHoldover hheard) hheard
  have hcorrected : agree timingRest s₀ ≤ agree timingRest corrected := agree_ite hserved (agree_correctPhase hserved off)
  clear_value corrected
  refine agree_ite ?_ h
  apply agree_foldl _ _ hcorrected
  exact fun s k h => agree_sendBeat h k (corr + delay)

@[bound] theorem agree_timing_flitIn (n : LinkIx) (flit : Bytes) : agree timingRest s₀ ≤ agree timingRest (flitIn s n flit).2 :=
  agree_flitIn (fun _ _ => rfl) (fun _ _ => rfl) h n flit

end

theorem timingRest_leaderLoss {s s' : State} (e : exec .leaderLoss s = .next s') : agree timingRest s ≤ agree timingRest s' := by
  have hs : agree timingRest s ≤ agree timingRest s := le_rfl
  obtain rfl := Host.Outcome.next.inj e
  refine agree_ite ?_ hs
  extract_lets held leader chosen routed
  have hheld : agree timingRest s ≤ agree timingRest held := agree_ite (agree_enterHoldover hs) hs
  clear_value held
  have hchosen : agree timingRest s ≤ agree timingRest chosen := agree_chooseLeader (agree_timingRest_timing hheld _)
  clear_value chosen
  have hrouted : agree timingRest s ≤ agree timingRest routed := hchosen
  exact agree_ite (agree_leaveHoldover hrouted) hrouted

theorem timingRest_beatInPulse {s s' : State} {w : Nat} {d : Int} (e : exec (.beatInPulse w d) s = .next s') :
    agree timingRest s ≤ agree timingRest s' := by
  have hs : agree timingRest s ≤ agree timingRest s := le_rfl
  obtain rfl := Host.Outcome.next.inj e
  refine agree_ite ?_ (agree_ite (agree_timingRest_timing hs _) hs)
  split
  · exact agree_timingRest_timing hs _
  next bar _ =>
    extract_lets before valid corrected
    have hvalid : agree timingRest s ≤ agree timingRest valid := agree_timingRest_timing hs _
    have hcorrected : agree timingRest s ≤ agree timingRest corrected := agree_correctPhase hvalid _
    exact agree_ite hvalid (agree_ite (agree_timingRest_timing hcorrected _) hcorrected)

theorem timingRest_exec {s s' : State} {n : LinkIx} {hd b : Bytes} {p t1 t2 t3 t4 : Ps} {o w m e : Nat} {d : Int} {c : Instr}
    (hc : c = .beatFlit n b p ∨ c = .delayReq n b (t2, t3) ∨ c = .delayResp n hd b t1 t4 ∨ c = .domainJoin o ∨ c = .leaderLoss ∨
      c = .beatInPulse w d ∨ c = .pinHoldover m e ∨ c = .pinHoldoverExit) (e : exec c s = .next s') :
    agree timingRest s ≤ agree timingRest s' := by
  have hs : agree timingRest s ≤ agree timingRest s := le_rfl
  rcases hc with rfl | rfl | rfl | rfl | rfl | rfl | rfl | rfl
  · cases e
    exact agree_ite (agree_ite (agree_takeBeat (agree_timing_flitIn hs n b) ..) (agree_timing_flitIn hs n b)) hs
  · cases e
    exact agree_ite (agree_ite (agree_timing_sendFlit (agree_timing_flitIn hs n b) ..) (agree_timing_flitIn hs n b)) hs
  · cases e
    exact agree_ite (agree_ite (agree_timingRest_timing (agree_timing_flitIn hs n _) _) (agree_timing_flitIn hs n _)) hs
  · cases e
    exact agree_ite (agree_timingRest_timing hs _) hs
  · exact timingRest_leaderLoss e
  · exact timingRest_beatInPulse e
  · cases e
    exact agree_ite (agree_enterHoldover (agree_timingRest_timing hs _)) hs
  · cases e
    exact agree_ite (agree_leaveHoldover hs) hs

end Sys2Proof.Machine

open Sys2Proof.Machine

/-- Settles O25, by the frame of the timing events. -/
theorem timingCommandsFrame : Obligations.TimingCommandsFrame := by
  intro s n hd b p t1 t2 t3 t4 o w m e d c hc
  obtain ⟨s', hexec⟩ : ∃ s', exec c s = .next s' := by rcases hc with rfl | rfl | rfl | rfl | rfl | rfl | rfl | rfl <;> exact ⟨_, rfl⟩
  exact ⟨s', hexec, eq_of_timingRest (agree_le_iff.mp (timingRest_exec hc hexec)).symm⟩

end

section
/-! What the timing events do (R52 to R60, R368). -/

namespace Sys2Proof.Machine

/-! The timing state under the operations of a timing event -/

/-- The state without links, Tally, what has been sent, and the counter of free values. -/
def sentRest (s : State) : State := { s with links := [], tally := {}, outbox := [], freeCtr := 0 }

/-- The state without links and Tally. -/
def flitRest (s : State) : State := { s with links := [], tally := {} }

theorem flitRest_flitIn (s : State) (n : LinkIx) (flit : Bytes) : flitRest (flitIn s n flit).2 = flitRest s :=
  (agree_le_iff.mp (agree_flitIn (fun _ _ => rfl) (fun _ _ => rfl) le_rfl n flit)).symm

theorem timing_flitIn (s : State) (n : LinkIx) (flit : Bytes) : (flitIn s n flit).2.timing = s.timing :=
  (congrArg State.timing (flitRest_flitIn s n flit) :)

theorem outbox_flitIn (s : State) (n : LinkIx) (flit : Bytes) : (flitIn s n flit).2.outbox = s.outbox :=
  (congrArg State.outbox (flitRest_flitIn s n flit) :)

theorem sentRest_sendFlit (s : State) (n : LinkIx) (kind vc : Nat) (last : Bool) (seq : Nat) (body : Bytes) :
    sentRest (sendFlit s n kind vc last seq body) = sentRest s :=
  (agree_le_iff.mp (agree_sendFlit (fun _ _ => rfl) (fun _ _ => rfl) (fun _ _ => rfl) le_rfl n kind vc last seq body)).symm

theorem timing_sendFlit (s : State) (n : LinkIx) (kind vc : Nat) (last : Bool) (seq : Nat) (body : Bytes) :
    (sendFlit s n kind vc last seq body).timing = s.timing :=
  (congrArg State.timing (sentRest_sendFlit s n kind vc last seq body) :)

theorem timing_foldl_sendBeat (l : List LinkIx) (corr : Int) (s : State) :
    (l.foldl (fun s k => sendBeat s k corr) s).timing = s.timing := by
  induction l generalizing s with
  | nil => rfl
  | cons k l ih => exact (ih _).trans (timing_sendFlit ..)

/-- The timing state after a correction of the work window's phase (R53). -/
def corrected (m : Timing) (ps : Int) : Timing :=
  if m.windowPs.natAbs ≤ 20000 then { m with windowPs := phaseStep ps, owedPs := ps - phaseStep ps } else m

theorem timing_correctPhase (s : State) (ps : Int) : (correctPhase s ps).timing = corrected s.timing ps := by
  unfold correctPhase corrected
  split <;> rfl

theorem pos_correctPhase (s : State) (ps : Int) : (correctPhase s ps).pos = s.pos := by
  unfold correctPhase
  split <;> rfl

theorem table_correctPhase (s : State) (ps : Int) : (correctPhase s ps).table = s.table := by
  unfold correctPhase
  split <;> rfl

/-- The timing state out of holdover (R55). -/
def resumed (m : Timing) : Timing := if m.holdover then { m with holdover := false, lostBars := 0 } else m

theorem timing_leaveHoldover (s : State) : (leaveHoldover s).timing = resumed s.timing := by
  unfold leaveHoldover resumed
  split <;> rfl

theorem holdover_resumed (m : Timing) : (resumed m).holdover = false := by
  cases h : m.holdover <;> simp [resumed, h]

/-- The timing state that a beat mark at an offset leaves (R53, R55). -/
def marked (m : Timing) (off : Int) : Timing :=
  let heard : Timing := { m with lostBars := 0 }
  let served := if heard.holdover && off.natAbs ≤ 50000 then resumed heard else heard
  if served.holdover then served else corrected served off

theorem timing_takeBeat {s : State} {n : LinkIx} (hlink : timingNow s = .link) (hup : s.timing.upstream = some n) (flit : Bytes) (p : Int) :
    (takeBeat s n flit p).timing = marked s.timing (p - s.timing.linkDelay.getD n 0 - signed32 (field flit 18 4)) := by
  have hon : (timingNow s == .link && s.timing.upstream == some n) = true := by simp [hlink, hup]
  unfold takeBeat
  rw [hon]
  simp only [if_true, timing_foldl_sendBeat, marked, apply_ite State.timing, timing_correctPhase, timing_leaveHoldover]

theorem takeBeat_of_not_link {s : State} {n : LinkIx} (h : timingNow s ≠ .link ∨ s.timing.upstream ≠ some n) (flit : Bytes) (p : Int) :
    takeBeat s n flit p = s := by
  have hno : (timingNow s == .link && s.timing.upstream == some n) = false := by
    rcases h with h | h <;> simp [h]
  unfold takeBeat
  rw [hno]
  rfl

/-! A beat mark (R53 to R55) -/

theorem exec_beatFlit_taken {s : State} (hrun : running s = true) {n : LinkIx} {flit : Bytes} (hmode : (linkOf s n).mode = .fabric)
    (hok : (flitIn s n flit).1 = true) (hkind : bits (leNat (flit.take 8)) 3 0 = 3) (p : Ps) :
    exec (.beatFlit n flit p) s = .next (takeBeat (flitIn s n flit).2 n flit p) := by
  simp [exec, execBeatFlit, hrun, hmode, hok, hkind]

theorem timingNow_eq_link_iff (s : State) : timingNow s = .link ↔ s.timing.mismatch = false ∧ s.timing.mode = .link := by
  unfold timingNow
  cases s.timing.mismatch <;> simp

theorem timingNow_flitIn (s : State) (n : LinkIx) (flit : Bytes) : timingNow (flitIn s n flit).2 = timingNow s := by
  simp only [timingNow, timing_flitIn]

theorem exec_beatFlit_acts {s : State} (hrun : running s = true) {n : LinkIx} {flit : Bytes} (hmode : (linkOf s n).mode = .fabric)
    (hok : (flitIn s n flit).1 = true) (hkind : bits (leNat (flit.take 8)) 3 0 = 3) (hlink : s.timing.mode = .link)
    (hup : s.timing.upstream = some n) (hmis : s.timing.mismatch = false) (p : Ps) :
    ∃ s', exec (.beatFlit n flit p) s = .next s' ∧
      s'.timing = marked s.timing (p - s.timing.linkDelay.getD n 0 - signed32 (field flit 18 4)) := by
  refine ⟨_, exec_beatFlit_taken hrun hmode hok hkind p, ?_⟩
  have hnow : timingNow (flitIn s n flit).2 = .link := by rw [timingNow_flitIn, timingNow_eq_link_iff]; exact ⟨hmis, hlink⟩
  have hup' : (flitIn s n flit).2.timing.upstream = some n := by rw [timing_flitIn]; exact hup
  rw [timing_takeBeat hnow hup', timing_flitIn]

theorem exec_beatFlit_ignored {s : State} (hrun : running s = true) {n : LinkIx} {flit : Bytes}
    (h : (linkOf s n).mode ≠ .fabric ∨ (flitIn s n flit).1 = false ∨ bits (leNat (flit.take 8)) 3 0 ≠ 3 ∨ s.timing.mode ≠ .link ∨
      s.timing.upstream ≠ some n ∨ s.timing.mismatch = true) (p : Ps) :
    ∃ s', exec (.beatFlit n flit p) s = .next s' ∧ s'.timing = s.timing := by
  refine ⟨_, rfl, ?_⟩
  by_cases hmode : (linkOf s n).mode = .fabric
  · by_cases htaken : (flitIn s n flit).1 = true ∧ bits (leNat (flit.take 8)) 3 0 = 3
    · obtain ⟨hok, hkind⟩ := htaken
      have hnot : timingNow (flitIn s n flit).2 ≠ .link ∨ (flitIn s n flit).2.timing.upstream ≠ some n := by
        rw [timingNow_flitIn, timing_flitIn, Ne, timingNow_eq_link_iff]
        rcases h with h | h | h | h | h | h
        · exact absurd hmode h
        · simp [hok] at h
        · exact absurd hkind h
        · exact .inl fun hnow => h hnow.2
        · exact .inr h
        · exact .inl fun hnow => by simp [h] at hnow
      simp [hrun, hmode, hok, hkind, takeBeat_of_not_link hnot, timing_flitIn]
    · have hno : ((flitIn s n flit).1 && bits (leNat (flit.take 8)) 3 0 == 3) = false := by simpa using htaken
      simp [hrun, hmode, hno, timing_flitIn]
  · simp [hmode]

theorem marked_corrects {m : Timing} {off : Int} (h : m.holdover = false ∨ off.natAbs ≤ 50000) :
    (marked m off).holdover = false ∧
      (m.windowPs.natAbs ≤ 20000 → (marked m off).windowPs = max (-20000) (min 20000 off) ∧
        (marked m off).owedPs = off - max (-20000) (min 20000 off)) ∧
      (20000 < m.windowPs.natAbs → (marked m off).windowPs = m.windowPs ∧ (marked m off).owedPs = m.owedPs) := by
  have hcorrects : marked m off = corrected { m with holdover := false, lostBars := 0 } off := by
    cases hheld : m.holdover with
    | false => simp [marked, hheld]
    | true =>
      have hnear : off.natAbs ≤ 50000 := by simpa [hheld] using h
      simp [marked, resumed, hheld, hnear]
  rw [hcorrects]
  unfold corrected
  by_cases hroom : m.windowPs.natAbs ≤ 20000
  · simp [hroom, phaseStep]
  · simp [hroom]

theorem marked_waits {m : Timing} {off : Int} (hheld : m.holdover = true) (hfar : 50000 < off.natAbs) :
    (marked m off).holdover = true ∧ (marked m off).windowPs = m.windowPs ∧ (marked m off).owedPs = m.owedPs := by
  simp [marked, hheld, Nat.not_le.mpr hfar]

/-! DELAY exchanges (R368) -/

theorem replaceKeys_of_fabric {s : State} {n : LinkIx} (hmode : (linkOf s n).mode = .fabric) : replaceKeys s n = s := by
  simp [replaceKeys, linkTagged, hmode]

theorem flitIn_of_fabric {s : State} {n : LinkIx} {flit : Bytes} (hmode : (linkOf s n).mode = .fabric) (hok : (flitIn s n flit).1 = true) :
    (flitIn s n flit).2 = modLink s n fun l => headerIn l flit := by
  have hedge : (LinkMode.fabric == LinkMode.edge) = false := rfl
  simp only [flitIn, replaceKeys_of_fabric hmode, hmode, hedge, apply_ite Prod.fst, apply_ite Prod.snd] at hok ⊢
  split at hok
  · cases hok
  next hup =>
    have hcrc : (flit.length == 256 && crc64xz (flit.take 0xF8) == field flit 0xF8 8) = true := by simpa using hok
    rw [if_neg hup, hcrc]
    rfl

/-- The flit that a FABRIC link sends: header, body, padding, CRC (R366). -/
theorem outbox_sendFlit_of_fabric {s : State} {n : LinkIx} (hmode : (linkOf s n).mode = .fabric) (kind vc : Nat) (last : Bool) (seq : Nat)
    (body : Bytes) : ∃ f ack credit crc,
      f = padTo 0xF8 (flitHeader kind vc last seq ack credit body.length ++ body) ++ leBytes 8 crc ∧
        (sendFlit s n kind vc last seq body).outbox = s.outbox ++ [.link n f] := by
  have hopen : sessionOver (linkOf s n) = false := by simp [sessionOver, linkTagged, hmode]
  have hedge : (LinkMode.fabric == LinkMode.edge) = false := rfl
  refine ⟨_, (linkOf s n).expSeq, creditField (linkOf s n).owed, crc64xz (padTo 0xF8 (flitHeader kind vc last seq (linkOf s n).expSeq
    (creditField (linkOf s n).owed) body.length ++ body)), rfl, ?_⟩
  simp [sendFlit, replaceKeys_of_fabric hmode, hopen, closeFlit, hmode, hedge, emit, modLink]

theorem kind_flitHeader (kind vc : Nat) (hkind : kind < 16) (last : Bool) (seq ack credit bodyLen : Nat) :
    bits (leNat (flitHeader kind vc last seq ack credit bodyLen)) 3 0 = kind := by
  simp only [flitHeader, leNat_leBytes, bits]
  omega

theorem padTo_of_le {n : Nat} {bs : Bytes} (h : bs.length ≤ n) : padTo n bs = bs ++ zeros (n - bs.length) :=
  List.take_of_length_le (by simp [zeros]; omega)

theorem field_leBytes_between {a : Bytes} {o : Nat} (h : a.length = o) (c : Bytes) (n v : Nat) :
    field (a ++ (leBytes n v ++ c)) o n = v % 256 ^ n := by
  subst h
  rw [field, slice_append_right, List.take_left' (length_leBytes n v), leNat_leBytes]

/-- What an answer with two 64-bit stamps reads back as. -/
theorem fields_of_two_stamps {h f : Bytes} {x y crc : Nat} (hlen : h.length = 8)
    (hf : f = padTo 0xF8 (h ++ (leBytes 8 x ++ leBytes 8 y)) ++ leBytes 8 crc) :
    f.take 8 = h ∧ field f 8 8 = x % 256 ^ 8 ∧ field f 16 8 = y % 256 ^ 8 := by
  have hparts : f = h ++ (leBytes 8 x ++ (leBytes 8 y ++ (zeros (0xF8 - 24) ++ leBytes 8 crc))) := by
    have hpad := padTo_of_le (n := 0xF8) (bs := h ++ (leBytes 8 x ++ leBytes 8 y)) (by simp [hlen])
    simp only [hf, hpad, List.append_assoc, List.length_append, length_leBytes, hlen]
  rw [hparts]
  refine ⟨List.take_left' hlen, field_leBytes_between hlen .., ?_⟩
  rw [← List.append_assoc]
  exact field_leBytes_between (by simp [hlen]) ..

theorem toNat_stamp_lt (t : Ps) : (t % 2 ^ 64).toNat < 256 ^ 8 := by
  have := Int.emod_lt_of_pos t (show (0 : Int) < 2 ^ 64 by decide)
  omega

theorem exec_delayReq_answers {s : State} (hrun : running s = true) (hlen : s.links.length = 12) {n : LinkIx} {flit : Bytes}
    (hmode : (linkOf s n).mode = .fabric) (hup : (linkOf s n).state = .up) (hok : (flitIn s n flit).1 = true)
    (hkind : bits (leNat (flit.take 8)) 3 0 = 4) (t2 t3 : Ps) :
    ∃ s' f, exec (.delayReq n flit (t2, t3)) s = .next s' ∧ s'.outbox = s.outbox ++ [.link n f] ∧ bits (leNat (f.take 8)) 3 0 = 5 ∧
      field f 8 8 = (t2 % 2 ^ 64).toNat ∧ field f 16 8 = (t3 % 2 ^ 64).toNat ∧ s'.timing = s.timing := by
  have hmode' : (linkOf (flitIn s n flit).2 n).mode = .fabric := by
    rw [flitIn_of_fabric hmode hok, linkOf_modLink _ _ _ _ hlen, if_pos rfl]
    exact hmode
  have hexec : exec (.delayReq n flit (t2, t3)) s = .next (sendFlit (flitIn s n flit).2 n 5 0 false 0
      (leBytes 8 (t2 % 2 ^ 64).toNat ++ leBytes 8 (t3 % 2 ^ 64).toNat)) := by
    simp [exec, execDelayReq, hrun, hmode, hup, hok, hkind]
  obtain ⟨f, ack, credit, crc, hf, hout⟩ := outbox_sendFlit_of_fabric hmode' 5 0 false 0
    (leBytes 8 (t2 % 2 ^ 64).toNat ++ leBytes 8 (t3 % 2 ^ 64).toNat)
  obtain ⟨hhead, hsecond, hthird⟩ := fields_of_two_stamps (length_leBytes ..) hf
  refine ⟨_, f, hexec, ?_, ?_, ?_, ?_, ?_⟩
  · exact hout.trans (by rw [outbox_flitIn])
  · rw [hhead]
    exact kind_flitHeader 5 0 (by decide) ..
  · rw [hsecond, Nat.mod_eq_of_lt (toNat_stamp_lt t2)]
  · rw [hthird, Nat.mod_eq_of_lt (toNat_stamp_lt t3)]
  · rw [timing_sendFlit, timing_flitIn]

theorem exec_delayReq_ignored {s : State} (hrun : running s = true) {n : LinkIx} {flit : Bytes}
    (h : (linkOf s n).mode ≠ .fabric ∨ (linkOf s n).state ≠ .up ∨ (flitIn s n flit).1 = false ∨ bits (leNat (flit.take 8)) 3 0 ≠ 4)
    (stamps : Ps × Ps) : ∃ s', exec (.delayReq n flit stamps) s = .next s' ∧ s'.outbox = s.outbox ∧ s'.timing = s.timing := by
  refine ⟨_, rfl, ?_⟩
  by_cases hopen : (linkOf s n).mode = .fabric ∧ (linkOf s n).state = .up
  · have hno : ((flitIn s n flit).1 && bits (leNat (flit.take 8)) 3 0 == 4) = false := by
      rcases h with h | h | h | h <;> simp_all
    simp [hrun, hopen, hno, timing_flitIn, outbox_flitIn]
  · have hno : ((linkOf s n).mode == .fabric && (linkOf s n).state == .up) = false := by simpa using hopen
    simp [hrun, hno]

theorem exec_delayResp_timing {s : State} (hrun : running s = true) (n : LinkIx) (hd rest : Bytes) (t1 t4 : Ps) :
    ∃ s', exec (.delayResp n hd rest t1 t4) s = .next s' ∧ s'.timing =
      if (linkOf s n).mode = .fabric ∧ (flitIn s n (hd ++ rest)).1 = true ∧ bits (leNat ((hd ++ rest).take 8)) 3 0 = 5 ∧
        s.timing.upstream = some n
      then { s.timing with
        linkDelay :=
          s.timing.linkDelay.set n (delayOf t1 (signed64 (field (hd ++ rest) 8 8)) (signed64 (field (hd ++ rest) 16 8)) t4) }
      else s.timing := by
  refine ⟨_, rfl, ?_⟩
  simp [hrun, apply_ite State.timing, timing_flitIn, ite_and]

theorem exec_delayResp_sets {s : State} (hrun : running s = true) (hlen : s.timing.linkDelay.length = 12) {n : LinkIx} {hd rest : Bytes}
    (hmode : (linkOf s n).mode = .fabric) (hok : (flitIn s n (hd ++ rest)).1 = true)
    (hkind : bits (leNat ((hd ++ rest).take 8)) 3 0 = 5) (hup : s.timing.upstream = some n) (t1 t4 : Ps) :
    ∃ s', exec (.delayResp n hd rest t1 t4) s = .next s' ∧
      s'.timing.linkDelay.getD n 0 = ((signed64 (field (hd ++ rest) 8 8) - t1) + (t4 - signed64 (field (hd ++ rest) 16 8))) / 2 ∧
      ∀ k : LinkIx, k ≠ n → s'.timing.linkDelay.getD k 0 = s.timing.linkDelay.getD k 0 := by
  obtain ⟨s', hexec, htiming⟩ := exec_delayResp_timing hrun n hd rest t1 t4
  rw [if_pos ⟨hmode, hok, hkind, hup⟩] at htiming
  have hn : n.val < s.timing.linkDelay.length := by rw [hlen]; exact n.isLt
  refine ⟨s', hexec, ?_, fun k hk => ?_⟩
  · simp [htiming, List.getD_eq_getElem?_getD, List.getElem?_set_self hn, delayOf]
  · have hne : n.val ≠ k.val := fun h => hk (Fin.ext h.symm)
    simp [htiming, List.getD_eq_getElem?_getD, List.getElem?_set_ne hne]

theorem exec_delayResp_ignored {s : State} (hrun : running s = true) {n : LinkIx} {hd rest : Bytes}
    (h : (linkOf s n).mode ≠ .fabric ∨ (flitIn s n (hd ++ rest)).1 = false ∨ bits (leNat ((hd ++ rest).take 8)) 3 0 ≠ 5 ∨
      s.timing.upstream ≠ some n) (t1 t4 : Ps) :
    ∃ s', exec (.delayResp n hd rest t1 t4) s = .next s' ∧ s'.timing = s.timing := by
  obtain ⟨s', hexec, htiming⟩ := exec_delayResp_timing hrun n hd rest t1 t4
  rw [if_neg (by rintro ⟨hmode, hok, hkind, hup⟩; simp_all)] at htiming
  exact ⟨s', hexec, htiming⟩

/-! Joining, and the loss of a leader (R56, R59) -/

theorem exec_domainJoin_keeps {s : State} (hrun : running s = true) {o : Nat} (hmode : s.timing.mode ≠ .internal)
    (hup : s.timing.upstream ≠ none) (hmis : s.timing.mismatch = false) (ho : o ≤ barNs s) :
    exec (.domainJoin o) s = .next { s with timing := { s.timing with join := some o } } := by
  simp [exec, execDomainJoin, hrun, timingNow, hmode, hmis, Option.isSome_iff_ne_none.mpr hup, ho]

theorem exec_domainJoin_ignored {s : State} {o : Nat}
    (h : s.timing.mode = .internal ∨ s.timing.upstream = none ∨ s.timing.mismatch = true ∨ barNs s < o) :
    exec (.domainJoin o) s = .next s := by
  have hno : (running s && timingNow s != .internal && s.timing.upstream.isSome && decide (o ≤ barNs s)) = false := by
    rcases h with h | h | h | h
    · simp [timingNow, h]
    · simp [h]
    · simp [timingNow, h]
    · simp [Nat.not_le.mpr h]
  simp only [exec, execDomainJoin, hno]
  rfl

theorem chooseLeader_keeps (s : State) :
    (chooseLeader s).timing.holdover = s.timing.holdover ∧ (chooseLeader s).timing.mode = s.timing.mode := by
  unfold chooseLeader
  split
  · exact ⟨rfl, rfl⟩
  extract_lets self mis follow way still before chosen joined
  have hjoined : joined.holdover = s.timing.holdover ∧ joined.mode = s.timing.mode := by
    unfold joined
    split <;> exact ⟨rfl, rfl⟩
  split
  · exact ⟨rfl, rfl⟩
  · exact hjoined

theorem enterHoldover_holds (s : State) :
    (enterHoldover s).timing.holdover = true ∧ (enterHoldover s).timing.owedPs = 0 ∧ (enterHoldover s).timing.mode = s.timing.mode := by
  simp only [enterHoldover]
  split
  next h => exact ⟨h, rfl, rfl⟩
  · exact ⟨rfl, rfl, rfl⟩

theorem leaveHoldover_keeps (s : State) : (leaveHoldover s).routesNext = s.routesNext ∧
    computeRoutes (leaveHoldover s) = computeRoutes s ∧ isBeatLeader (leaveHoldover s) = isBeatLeader s := by
  unfold leaveHoldover
  split <;> exact ⟨rfl, rfl, rfl⟩

/-- The state in which the loss of a leader chooses another and computes routes again. -/
def leaderGone (s : State) : State :=
  let held := if timingNow s == .link then enterHoldover s else s
  let chosen := chooseLeader { held with timing := { held.timing with gone := held.timing.leader } }
  { chosen with routesNext := computeRoutes chosen }

theorem exec_leaderLoss {s : State} (hrun : running s = true) (hother : s.timing.leader ≠ deviceSerial s) (hsome : s.timing.leader ≠ []) :
    exec .leaderLoss s = .next (if isBeatLeader (leaderGone s) && (leaderGone s).timing.mode == .link then leaveHoldover (leaderGone s)
      else leaderGone s) := by
  have hdue : (running s && s.timing.leader != deviceSerial s && !s.timing.leader.isEmpty) = true := by simp [hrun, hother, hsome]
  simp only [exec, execLeaderLoss, hdue, if_true]
  rfl

theorem exec_leaderLoss_ignored {s : State} (h : s.timing.leader = deviceSerial s ∨ s.timing.leader = []) : exec .leaderLoss s = .next s := by
  have hno : (running s && s.timing.leader != deviceSerial s && !s.timing.leader.isEmpty) = false := by rcases h with h | h <;> simp [h]
  simp only [exec, execLeaderLoss, hno]
  rfl

theorem computeRoutes_routesNext (s : State) (l : List Route) : computeRoutes { s with routesNext := l } = computeRoutes s := rfl

theorem leaderGone_keeps (s : State) : (leaderGone s).timing.mode = s.timing.mode ∧
    (timingNow s = .link → (leaderGone s).timing.holdover = true) ∧
    (timingNow s ≠ .link → (leaderGone s).timing.holdover = s.timing.holdover) ∧
    (leaderGone s).routesNext = computeRoutes (leaderGone s) := by
  unfold leaderGone
  extract_lets held before chosen
  obtain ⟨hholds, hmode⟩ : chosen.timing.holdover = held.timing.holdover ∧ chosen.timing.mode = held.timing.mode := chooseLeader_keeps _
  clear_value chosen
  obtain ⟨henters, -, hkeeps⟩ := enterHoldover_holds s
  refine ⟨hmode.trans ?_, fun hlink => hholds.trans ?_, fun hlink => hholds.trans ?_, (computeRoutes_routesNext ..).symm⟩
  · unfold held
    split
    · exact hkeeps
    · rfl
  · simp [held, hlink, henters]
  · simp [held, hlink]

theorem exec_leaderLoss_acts {s : State} (hrun : running s = true) (hother : s.timing.leader ≠ deviceSerial s) (hsome : s.timing.leader ≠ []) :
    ∃ s', exec .leaderLoss s = .next s' ∧ s'.routesNext = computeRoutes s' ∧
      (s.timing.mode = .link → s.timing.mismatch = false → s'.timing.holdover = !isBeatLeader s') ∧
      (s.timing.mode ≠ .link → s'.timing.holdover = s.timing.holdover) := by
  refine ⟨_, exec_leaderLoss hrun hother hsome, ?_⟩
  obtain ⟨hmode, hheld, hfree, hroutes⟩ := leaderGone_keeps s
  obtain ⟨hleft, hleftRoutes, hleftLeads⟩ := leaveHoldover_keeps (leaderGone s)
  have hnow := timingNow_eq_link_iff s
  cases hleads : isBeatLeader (leaderGone s) with
  | false =>
    simp only [Bool.false_and, Bool.false_eq_true, if_false]
    exact ⟨hroutes, fun hlink hmis => by rw [hleads, hheld (hnow.mpr ⟨hmis, hlink⟩)]; rfl, fun hlink => hfree fun h => hlink (hnow.mp h).2⟩
  | true =>
    by_cases hlink : s.timing.mode = .link
    · simp only [hmode, hlink, beq_self_eq_true, Bool.and_self, if_true]
      refine ⟨?_, fun _ _ => ?_, fun h => absurd rfl h⟩
      · rw [hleft, hleftRoutes, hroutes]
      · rw [hleftLeads, hleads, timing_leaveHoldover, holdover_resumed]
        rfl
    · have hother : ((leaderGone s).timing.mode == .link) = false := by simp [hmode, hlink]
      simp only [hother, Bool.and_false, Bool.false_eq_true, if_false]
      exact ⟨hroutes, fun h => absurd h hlink, fun _ => hfree fun h => hlink (hnow.mp h).2⟩

/-! Pulses of BEAT_IN (R57, R58, R60) -/

/-- The timing state that notes a valid pulse. -/
def pulsed (m : Timing) : Timing :=
  { m with beatInValid := true, missed := 0, validPulses := if m.holdover then m.validPulses + 1 else 0 }

theorem board_running {s : State} (hrun : running s = true) : s.board.running = true := (Bool.and_eq_true_iff.mp hrun).1

theorem pulseKind_of_valid {w : Nat} (h : 50 ≤ w ∧ w ≤ 150 ∨ 250 ≤ w ∧ w ≤ 400) : pulseKind w = some (decide (250 ≤ w)) := by
  unfold pulseKind
  rcases h with h | h
  · simp [h, show ¬ 250 ≤ w by omega]
  · simp [h, show ¬ w ≤ 150 by omega]

theorem pulseKind_of_invalid {w : Nat} (h : w < 50 ∨ 150 < w ∧ w < 250 ∨ 400 < w) : pulseKind w = none := by
  unfold pulseKind
  rw [if_neg, if_neg]
  · simp only [Bool.and_eq_true, decide_eq_true_eq]
    omega
  · simp only [Bool.and_eq_true, decide_eq_true_eq]
    omega

theorem exec_beatInPulse_timing {s : State} (hrun : running s = true) (hpin : s.timing.mode = .pin) {w : Nat} {bar : Bool}
    (hkind : pulseKind w = some bar) (o : Int) : ∃ s', exec (.beatInPulse w o) s = .next s' ∧ s'.timing =
      if s.timing.holdover then pulsed s.timing
      else if bar && s.pos != 0 then { corrected (pulsed s.timing) (1000 * o) with join := some (s.pos * s.table.beatUs * 1000) }
      else corrected (pulsed s.timing) (1000 * o) := by
  have hon : (s.board.running && s.timing.mode == .pin) = true := by simp [board_running hrun, hpin]
  refine ⟨_, rfl, ?_⟩
  simp only [hon, if_true, hkind, apply_ite State.timing, timing_correctPhase, pos_correctPhase, table_correctPhase]
  rfl

theorem exec_beatInPulse_valid {s : State} (hrun : running s = true) (hpin : s.timing.mode = .pin) {w : Nat}
    (hw : 50 ≤ w ∧ w ≤ 150 ∨ 250 ≤ w ∧ w ≤ 400) (o : Int) :
    ∃ s', exec (.beatInPulse w o) s = .next s' ∧ s'.timing.missed = 0 ∧ s'.timing.beatInValid = true ∧
      (s.timing.holdover = false →
        s'.timing.join = (if 250 ≤ w ∧ s.pos ≠ 0 then some (s.pos * s.table.beatUs * 1000) else s.timing.join) ∧
        (s.timing.windowPs.natAbs ≤ 20000 → s'.timing.windowPs = max (-20000) (min 20000 (1000 * o)) ∧
          s'.timing.owedPs = 1000 * o - max (-20000) (min 20000 (1000 * o)))) ∧
      (s.timing.holdover = true → s'.timing.validPulses = s.timing.validPulses + 1 ∧
        s'.timing.windowPs = s.timing.windowPs ∧ s'.timing.owedPs = s.timing.owedPs ∧ s'.timing.join = s.timing.join) := by
  obtain ⟨s', hexec, htiming⟩ := exec_beatInPulse_timing hrun hpin (pulseKind_of_valid hw) o
  refine ⟨s', hexec, ?_⟩
  rw [htiming]
  cases hheld : s.timing.holdover with
  | true => simp [pulsed, hheld]
  | false =>
    have hbar : (decide (250 ≤ w) && s.pos != 0) = decide (250 ≤ w ∧ s.pos ≠ 0) := by
      rw [Bool.eq_iff_iff]
      simp
    rw [hbar]
    by_cases hroom : s.timing.windowPs.natAbs ≤ 20000
    · by_cases hjoin : 250 ≤ w ∧ s.pos ≠ 0
      · simp [hjoin, corrected, pulsed, hroom, phaseStep]
      · simp [hjoin, corrected, pulsed, hroom, phaseStep]
    · by_cases hjoin : 250 ≤ w ∧ s.pos ≠ 0
      · simp [hjoin, corrected, pulsed, hroom]
      · simp [hjoin, corrected, pulsed, hroom]

theorem exec_beatInPulse_invalid {s : State} (hrun : running s = true) (hpin : s.timing.mode = .pin) {w : Nat}
    (hw : w < 50 ∨ 150 < w ∧ w < 250 ∨ 400 < w) (o : Int) :
    exec (.beatInPulse w o) s = .next { s with timing := { s.timing with validPulses := 0 } } := by
  simp [exec, execBeatInPulse, board_running hrun, hpin, pulseKind_of_invalid hw]

theorem exec_beatInPulse_before_start {s : State} (hstopped : s.board.running = false) (hpin : s.timing.mode = .pin) {w : Nat}
    (hlow : 250 ≤ w) (hhigh : w ≤ 400) (o : Int) :
    exec (.beatInPulse w o) s = .next { s with timing := { s.timing with beatInValid := true } } := by
  have hkind : pulseKind w = some true := by rw [pulseKind_of_valid (.inr ⟨hlow, hhigh⟩), decide_eq_true hlow]
  simp [exec, execBeatInPulse, hstopped, hpin, hkind]

theorem exec_beatInPulse_not_pin {s : State} (hpin : s.timing.mode ≠ .pin) (w : Nat) (o : Int) : exec (.beatInPulse w o) s = .next s := by
  simp [exec, execBeatInPulse, hpin]

theorem exec_pinHoldover_enters {s : State} (hrun : running s = true) (hpin : s.timing.mode = .pin) {m e : Nat} (h : 2 ≤ m ∨ 200 < e) :
    ∃ s', exec (.pinHoldover m e) s = .next s' ∧ s'.timing.holdover = true ∧ s'.timing.owedPs = 0 := by
  have hdue : (s.board.running && s.timing.mode == .pin && (decide (2 ≤ m) || decide (200 < e))) = true := by
    simpa [board_running hrun, hpin] using h
  refine ⟨_, rfl, ?_⟩
  simp only [hdue, if_true]
  obtain ⟨hheld, howed, -⟩ := enterHoldover_holds { s with timing := { s.timing with missed := m, beatInValid := false, validPulses := 0 } }
  exact ⟨hheld, howed⟩

theorem exec_pinHoldover_ignored {s : State} {m e : Nat} (h : s.timing.mode ≠ .pin ∨ m < 2 ∧ e ≤ 200) : exec (.pinHoldover m e) s = .next s := by
  have hno : (s.board.running && s.timing.mode == .pin && (decide (2 ≤ m) || decide (200 < e))) = false := by
    rcases h with h | ⟨hm, he⟩
    · simp [h]
    · simp [Nat.not_le.mpr hm, Nat.not_lt.mpr he]
  simp only [exec, execPinHoldover, hno]
  rfl

theorem exec_pinHoldoverExit_leaves {s : State} (hrun : running s = true) (hpin : s.timing.mode = .pin)
    (hfull : barBeats s ≤ s.timing.validPulses) : ∃ s', exec .pinHoldoverExit s = .next s' ∧ s'.timing.holdover = false := by
  refine ⟨leaveHoldover s, ?_, ?_⟩
  · simp [exec, execPinHoldoverExit, board_running hrun, hpin, hfull]
  · rw [timing_leaveHoldover, holdover_resumed]

theorem exec_pinHoldoverExit_ignored {s : State} (h : s.timing.mode ≠ .pin ∨ s.timing.validPulses < barBeats s) :
    exec .pinHoldoverExit s = .next s := by
  have hno : (s.board.running && s.timing.mode == .pin && decide (barBeats s ≤ s.timing.validPulses)) = false := by
    rcases h with h | h
    · simp [h]
    · simp [Nat.not_le.mpr h]
  simp only [exec, execPinHoldoverExit, hno]
  rfl

end Sys2Proof.Machine

open Sys2Proof.Machine

/-- Settles O24: each clause by the lemma of its event. -/
theorem timingCommandsAct : Obligations.TimingCommandsAct := by
  refine ⟨fun s hshaped hrun => ⟨fun n flit p => ⟨fun hmode hok hkind hlink hup hmis => ?_, fun h => exec_beatFlit_ignored hrun h p⟩,
    fun n flit t2 t3 => ⟨fun hmode hup hok hkind => exec_delayReq_answers hrun hshaped.links hmode hup hok hkind t2 t3,
      fun h => exec_delayReq_ignored hrun h (t2, t3)⟩,
    fun n hd rest t1 t4 => ⟨fun hmode hok hkind hup => exec_delayResp_sets hrun hshaped.delays hmode hok hkind hup t1 t4,
      fun h => exec_delayResp_ignored hrun h t1 t4⟩,
    fun o => ⟨exec_domainJoin_keeps hrun, exec_domainJoin_ignored⟩,
    exec_leaderLoss_acts hrun, exec_leaderLoss_ignored, fun hpin => ?_,
    fun hpin => ⟨exec_beatInPulse_not_pin hpin, fun m e => exec_pinHoldover_ignored (.inl hpin), exec_pinHoldoverExit_ignored (.inl hpin)⟩⟩,
    fun s w o hstopped hpin hlow hhigh => exec_beatInPulse_before_start hstopped hpin hlow hhigh o⟩
  · obtain ⟨s', hexec, htiming⟩ := exec_beatFlit_acts hrun hmode hok hkind hlink hup hmis p
    refine ⟨fun h => ⟨s', hexec, ?_⟩, fun hheld hfar => ⟨s', hexec, ?_⟩⟩
    · rw [htiming]
      exact marked_corrects h
    · rw [htiming]
      exact marked_waits hheld hfar
  · exact ⟨fun w o hw => exec_beatInPulse_valid hrun hpin hw o, fun w o hw => exec_beatInPulse_invalid hrun hpin hw o,
      fun m e h => exec_pinHoldover_enters hrun hpin h, fun m e hm he => exec_pinHoldover_ignored (.inr ⟨hm, he⟩),
      exec_pinHoldoverExit_leaves hrun hpin, fun h => exec_pinHoldoverExit_ignored (.inr h)⟩

end

section
/-!
What the Basin's commands leave unchanged. `A` says which Tarns' holdings may change: for a command that names a Tarn that one, and
for the others all of them.
-/

namespace Sys2Proof.Machine

/-- The state without what a Basin command may change; of the Tarns, what those that `A` names hold. -/
def basinRest (A : Nat → Bool) (s : State) : State := { s with
  tickets := [], tarns := s.tarns.mapIdx fun i n => if A i then none else n, fns := [], mem := [], poison := [], links := []
  outbox := [], tally := {}, pendRules := [], rebuilds := [], freeCtr := 0 }

theorem eq_of_basinRest {A : Nat → Bool} {s s' : State} (h : basinRest A s' = basinRest A s) :
    s' = { s with tickets := s'.tickets, tarns := s'.tarns, fns := s'.fns, mem := s'.mem, poison := s'.poison, links := s'.links,
                  outbox := s'.outbox, tally := s'.tally, pendRules := s'.pendRules, rebuilds := s'.rebuilds, freeCtr := s'.freeCtr } :=
  congrArg (fun x : State => { x with
    tickets := s'.tickets, tarns := s'.tarns, fns := s'.fns, mem := s'.mem, poison := s'.poison, links := s'.links,
    outbox := s'.outbox, tally := s'.tally, pendRules := s'.pendRules, rebuilds := s'.rebuilds, freeCtr := s'.freeCtr }) h

theorem tarnOf_of_basinRest {A : Nat → Bool} {s s' : State} (h : basinRest A s' = basinRest A s) {u : TarnIx} (hu : A u = false) :
    tarnOf s' u = tarnOf s u := by
  have hget (x : State) : tarnOf x u = (basinRest A x).tarns.getD u none := by
    simp only [tarnOf, basinRest, List.getD_eq_getElem?_getD, List.getElem?_mapIdx]
    cases x.tarns[u.val]? <;> simp [hu]
  rw [hget, hget, h]

theorem basinRest_modTarn {A : Nat → Bool} (s : State) {t : TarnIx} (ht : A t = true) (g : Tarn → Tarn) :
    basinRest A (modTarn s t g) = basinRest A s := by
  have htarns : (modTarn s t g).tarns.mapIdx (fun i n => if A i then none else n) = s.tarns.mapIdx fun i n => if A i then none else n := by
    refine List.ext_getElem (by simp [modTarn]) fun i _ _ => ?_
    simp only [modTarn, List.getElem_mapIdx, List.getElem_modify]
    by_cases hi : t.val = i
    · simp [← hi, ht]
    · simp [hi]
  unfold basinRest
  rw [htarns]
  rfl

section
variable {A : Nat → Bool} {s₀ s : State} (h : agree (basinRest A) s₀ ≤ agree (basinRest A) s)
include h

@[bound] theorem agree_basinRest_mk (tickets : List Ticket) (fns : List FnRegs) (mem : List Host.Cell) (poison : List (Nat × Nat))
    (links : List Link) (outbox : List Output) (tally : Tally) (pendRules : List PendRule) (rebuilds : List (TarnIx × Nat × Nat × Nat))
    (freeCtr : Nat) : agree (basinRest A) s₀ ≤ agree (basinRest A)
      { s with tickets, fns, mem, poison, links, outbox, tally, pendRules, rebuilds, freeCtr } := h

@[bound] theorem agree_basin_modTarn {t : TarnIx} (ht : A t = true) (g : Tarn → Tarn) :
    agree (basinRest A) s₀ ≤ agree (basinRest A) (modTarn s t g) := agree_of_eq h (basinRest_modTarn s ht g)

end

end Sys2Proof.Machine
end

section
/-!
The frames of the Basin's operations, in the order of the model. Those that a ticket's command begins may change what any Tarn holds.
-/

namespace Sys2Proof.Machine

variable {A : Nat → Bool} {s₀ s : State}

@[bound] theorem agree_basin_modFn (h : agree (basinRest A) s₀ ≤ agree (basinRest A) s) (t : TarnIx) (g : FnRegs → FnRegs) :
    agree (basinRest A) s₀ ≤ agree (basinRest A) (modFn s t g) := by
  simp only [modFn]; bound

@[bound] theorem agree_basin_modRound (h : agree (basinRest A) s₀ ≤ agree (basinRest A) s) {t : TarnIx} (ht : A t = true) (r : Nat)
    (g : Round → Round) :
    agree (basinRest A) s₀ ≤ agree (basinRest A) (modRound s t r g) := by
  simp only [modRound]; bound

@[bound] theorem agree_basin_tallyGovernor (h : agree (basinRest A) s₀ ≤ agree (basinRest A) s)
    (tarn action reason object old new : Nat) (st : Status) :
    agree (basinRest A) s₀ ≤ agree (basinRest A) (tallyGovernor s tarn action reason object old new st) := by
  simp only [tallyGovernor]; bound

@[bound] theorem agree_basin_tallyGovernorOpen (h : agree (basinRest A) s₀ ≤ agree (basinRest A) s) (tarn action : Nat) :
    agree (basinRest A) s₀ ≤ agree (basinRest A) (tallyGovernorOpen s tarn action) := by
  simp only [tallyGovernorOpen]; bound

@[bound] theorem agree_basin_tallyNote (h : agree (basinRest A) s₀ ≤ agree (basinRest A) s) (t : TarnIx)
    (round code kind owner holder : Nat) (st : Status) :
    agree (basinRest A) s₀ ≤ agree (basinRest A) (tallyNote s t round code kind owner holder st) := by
  simp only [tallyNote]; bound

@[bound] theorem agree_basin_advise (h : agree (basinRest A) s₀ ≤ agree (basinRest A) s) (t : TarnIx) (a : Advisory) :
    agree (basinRest A) s₀ ≤ agree (basinRest A) (advise s t a) := by
  simp only [advise]; bound

@[bound] theorem agree_basin_adviseRound (h : agree (basinRest A) s₀ ≤ agree (basinRest A) s) (t : TarnIx) (r : Round) (code : Nat)
    (st : Status) :
    agree (basinRest A) s₀ ≤ agree (basinRest A) (adviseRound s t r code st) := by
  simp only [adviseRound]; bound

@[bound] theorem agree_basin_pumpDma (h : agree (basinRest A) s₀ ≤ agree (basinRest A) s) (stamp uid : Nat) :
    agree (basinRest A) s₀ ≤ agree (basinRest A) (pumpDma s stamp uid) := by
  simp only [pumpDma]; bound

@[bound] theorem agree_basin_openArrived (h : agree (basinRest A) s₀ ≤ agree (basinRest A) s) (k : Ticket)
    (operand need fuel : Nat) (raw : Bytes)
    (off : Nat) (got : Bytes) :
    agree (basinRest A) s₀ ≤ agree (basinRest A) (openArrived k operand need fuel raw off got s).2 := by
  fun_induction openArrived k operand need fuel raw off got s with
  | case1 => exact h
  | case2 => exact h
  | case3 fuel raw off got s n _ pt s' e ih => exact ih (agree_of_snd e (agree_openRecord (fun _ _ _ _ => rfl) h ..))
  | case4 fuel raw off got s n _ pt s' e => exact agree_of_snd e (agree_openRecord (fun _ _ _ _ => rfl) h ..)

@[bound] theorem agree_basin_takePlain (h : agree (basinRest A) s₀ ≤ agree (basinRest A) s) (uid operand need : Nat) :
    agree (basinRest A) s₀ ≤ agree (basinRest A) (takePlain s uid operand need) := by
  unfold takePlain
  split
  · exact h
  · refine agree_ite ?_ (agree_modTicket (fun _ _ => rfl) h ..)
    split
    next r s' e =>
      have hs' := agree_of_snd e (agree_basin_openArrived h ..)
      bound

@[bound] theorem agree_basin_fetchHost (h : agree (basinRest A) s₀ ≤ agree (basinRest A) s) (uid : Nat) (cs : List DmaChunk) :
    agree (basinRest A) s₀ ≤ agree (basinRest A) (fetchHost s uid cs) := by
  simp only [fetchHost]; bound

@[bound] theorem agree_basin_imgAdd (h : agree (basinRest A) s₀ ≤ agree (basinRest A) s) (p : Plan) (sub : Bool) (words : List Nat) :
    agree (basinRest A) s₀ ≤ agree (basinRest A) (imgAdd s p sub words) := by
  simp only [imgAdd]; bound

@[bound] theorem agree_basin_stageVector (h : agree (basinRest A) s₀ ≤ agree (basinRest A) s) (p : Plan) (i : Nat) (b : Bytes) :
    agree (basinRest A) s₀ ≤ agree (basinRest A) (stageVector s p i b) := by
  simp only [stageVector]; bound

@[bound] theorem agree_basin_zeroImages (h : agree (basinRest A) s₀ ≤ agree (basinRest A) s) (p : Plan) (from_ upTo : Nat) :
    agree (basinRest A) s₀ ≤ agree (basinRest A) (zeroImages s p from_ upTo) := by
  simp only [zeroImages]; bound

@[bound] theorem agree_basin_modSlotOf (h : agree (basinRest A) s₀ ≤ agree (basinRest A) s) {t : TarnIx} (ht : A t = true)
    (rid i : Nat) (x : Slot) :
    agree (basinRest A) s₀ ≤ agree (basinRest A) (modSlotOf s t rid i x) := by
  simp only [modSlotOf]; bound

@[bound] theorem agree_basin_touchRound (h : agree (basinRest A) s₀ ≤ agree (basinRest A) s) {t : TarnIx} (ht : A t = true) (rid : Nat) :
    agree (basinRest A) s₀ ≤ agree (basinRest A) (touchRound s t rid) := by
  simp only [touchRound]; bound

@[bound] theorem agree_basin_clearSlot (h : agree (basinRest A) s₀ ≤ agree (basinRest A) s) {t : TarnIx} (ht : A t = true)
    (rid i : Nat) (x : Slot) :
    agree (basinRest A) s₀ ≤ agree (basinRest A) (clearSlot s t rid i x) := by
  simp only [clearSlot]; bound

@[bound] theorem agree_basin_fillSlot (h : agree (basinRest A) s₀ ≤ agree (basinRest A) s) {t : TarnIx} (ht : A t = true)
    (rid i : Nat) (b : Bytes) :
    agree (basinRest A) s₀ ≤ agree (basinRest A) (fillSlot s t rid i b) := by
  unfold fillSlot
  split
  · extract_lets x whole touched staged
    have htouched : agree (basinRest A) s₀ ≤ agree (basinRest A) touched := agree_basin_touchRound h ht ..
    have hstaged : agree (basinRest A) s₀ ≤ agree (basinRest A) staged := agree_basin_modTarn (agree_basin_stageVector htouched ..) ht _
    exact agree_ite (agree_basin_modSlotOf htouched ht ..) (agree_basin_modSlotOf hstaged ht ..)
  · exact h

@[bound] theorem agree_basin_sendIntake (h : agree (basinRest A) s₀ ≤ agree (basinRest A) s) (n : LinkIx) (ty count : Nat)
    (data : Bytes) :
    agree (basinRest A) s₀ ≤ agree (basinRest A) (sendIntake s n ty count data) := by
  simp only [sendIntake]; bound

@[bound] theorem agree_basin_grantCredits (h : agree (basinRest A) s₀ ≤ agree (basinRest A) s) (t : TarnIx) :
    agree (basinRest A) s₀ ≤ agree (basinRest A) (grantCredits s t) := by
  simp only [grantCredits]; bound

@[bound] theorem agree_basin_sendOutcome (h : agree (basinRest A) s₀ ≤ agree (basinRest A) s) (n : LinkIx) (rid c : Nat) (st : Status) :
    agree (basinRest A) s₀ ≤ agree (basinRest A) (sendOutcome s n rid c st) := by
  simp only [sendOutcome]; bound

@[bound] theorem agree_basin_combineNote (h : agree (basinRest A) s₀ ≤ agree (basinRest A) s) (t : TarnIx) (r : Round) (kind : Nat) :
    agree (basinRest A) s₀ ≤ agree (basinRest A) (combineNote s t r kind) := by
  simp only [combineNote]; bound

@[bound] theorem agree_basin_takeMsg (h : agree (basinRest A) s₀ ≤ agree (basinRest A) s) (x : LinkIx × InMsg) :
    agree (basinRest A) s₀ ≤ agree (basinRest A) (takeMsg s x) := by
  simp only [takeMsg]; bound

@[bound] theorem agree_basin_tallyMove (h : agree (basinRest A) s₀ ≤ agree (basinRest A) s) (t : TarnIx) (r : Round) (dst : RState)
    (st : Status) (certDigest : Bytes) :
    agree (basinRest A) s₀ ≤ agree (basinRest A) (tallyMove s t r dst st certDigest) := by
  simp only [tallyMove]; bound

@[bound] theorem agree_basin_moveRound (h : agree (basinRest A) s₀ ≤ agree (basinRest A) s) {t : TarnIx} (ht : A t = true)
    (rid : Nat) (dst : RState) (st : Status) (certDigest : Bytes) :
    agree (basinRest A) s₀ ≤ agree (basinRest A) (moveRound s t rid dst st certDigest) := by
  simp only [moveRound]; bound

@[bound] theorem agree_basin_roundEvent (h : agree (basinRest A) s₀ ≤ agree (basinRest A) s) (t : TarnIx) (rid code : Nat) (st : Status) :
    agree (basinRest A) s₀ ≤ agree (basinRest A) (roundEvent s t rid code st) := by
  simp only [roundEvent]; bound

@[bound] theorem agree_basin_retireRound (h : agree (basinRest A) s₀ ≤ agree (basinRest A) s) {t : TarnIx} (ht : A t = true) (rid : Nat) :
    agree (basinRest A) s₀ ≤ agree (basinRest A) (retireRound s t rid) := by
  simp only [retireRound]; bound

@[bound] theorem agree_basin_writeOutcomes (h : agree (basinRest A) s₀ ≤ agree (basinRest A) s) (k : Ticket) (unit : Nat) :
    agree (basinRest A) s₀ ≤ agree (basinRest A) (writeOutcomes s k unit).2 := by
  simp only [writeOutcomes]; bound

@[bound] theorem agree_basin_entryOutcome (h : agree (basinRest A) s₀ ≤ agree (basinRest A) s) (uid m unit : Nat) (st : Status) :
    agree (basinRest A) s₀ ≤ agree (basinRest A) (entryOutcome s uid m unit st) := by
  unfold entryOutcome
  split
  · exact h
  refine agree_ite h ?_
  split
  next e s₁ he =>
    have h₁ := agree_of_snd he (agree_ite_snd h (agree_hostOut (fun _ _ _ _ => rfl) (fun _ _ => rfl) h ..))
    extract_lets ok k' noted
    have hnoted : agree (basinRest A) s₀ ≤ agree (basinRest A) noted := agree_modTicket (fun _ _ => rfl) h₁ ..
    clear_value noted
    split
    · exact agree_failTicket (fun _ _ => rfl) hnoted ..
    · refine agree_ite hnoted ?_
      split
      next e' s₂ he' =>
        have h₂ := agree_of_snd he' (agree_ite_snd (agree_basin_writeOutcomes hnoted ..) hnoted)
        split
        · exact agree_failTicket (fun _ _ => rfl) h₂ ..
        · exact agree_answerTicket (fun _ _ => rfl) h₂ ..

@[bound] theorem agree_basin_recOutcome (h : agree (basinRest A) s₀ ≤ agree (basinRest A) s) (src : Option RecSource)
    (unit rid c : Nat) (st : Status) :
    agree (basinRest A) s₀ ≤ agree (basinRest A) (recOutcome s src unit rid c st) := by
  simp only [recOutcome]; bound

@[bound] theorem agree_basin_openChecked (h : agree (basinRest (fun _ => true)) s₀ ≤ agree (basinRest (fun _ => true)) s)
    (k : Ticket) (raw : Bytes) (p : Plan) (roster : Bytes) :
    agree (basinRest (fun _ => true)) s₀ ≤ agree (basinRest (fun _ => true)) (openChecked s k raw p roster) := by
  simp only [openChecked]; bound

@[bound] theorem agree_basin_serveRoundOpen (h : agree (basinRest (fun _ => true)) s₀ ≤ agree (basinRest (fun _ => true)) s)
    (k : Ticket) :
    agree (basinRest (fun _ => true)) s₀ ≤ agree (basinRest (fun _ => true)) (serveRoundOpen s k) := by
  have hplain : ∀ operand p, agree (basinRest fun _ => true) s₀ ≤ agree (basinRest fun _ => true) (plainOf s k operand p k.buf).2 :=
    fun _ _ => agree_plainOf (fun _ _ _ _ => rfl) h ..
  unfold serveRoundOpen
  refine agree_ite ?_ (agree_ite ?_ h)
  · split
    next st s' e => exact agree_failTicket (fun _ _ => rfl) (agree_of_snd e (hplain ..)) ..
    next raw s' e =>
      have hs' := agree_of_snd e (hplain ..)
      bound
  · split
    next p roster s' _ e =>
      have hs' := agree_of_snd e (hplain ..)
      bound
    next st s' e => exact agree_failTicket (fun _ _ => rfl) (agree_of_snd e (hplain ..)) ..
    · exact h

@[bound] theorem agree_basin_becomeOpen (h : agree (basinRest A) s₀ ≤ agree (basinRest A) s) {t : TarnIx} (ht : A t = true) (rid : Nat) :
    agree (basinRest A) s₀ ≤ agree (basinRest A) (becomeOpen s t rid) := by
  simp only [becomeOpen]; bound

theorem agree_basin_of_contribStep (h : agree (basinRest fun _ => true) s₀ ≤ agree (basinRest fun _ => true) s) {uid : Nat}
    {s' : State} (hs : contribStep s uid = some s') :
    agree (basinRest fun _ => true) s₀ ≤ agree (basinRest fun _ => true) s' := by
  simp only [contribStep] at hs
  repeat' split at hs
  all_goals cases hs
  all_goals bound

@[bound] theorem agree_basin_contribSteps (h : agree (basinRest fun _ => true) s₀ ≤ agree (basinRest fun _ => true) s) (uid fuel : Nat) :
    agree (basinRest fun _ => true) s₀ ≤ agree (basinRest fun _ => true) (contribSteps uid fuel s) := by
  induction fuel generalizing s with
  | zero => exact h
  | succ fuel ih =>
    rw [contribSteps]
    split
    · exact h
    next s' e => exact ih (agree_basin_of_contribStep h e)

@[bound] theorem agree_basin_serveContrib (h : agree (basinRest (fun _ => true)) s₀ ≤ agree (basinRest (fun _ => true)) s) (k : Ticket) :
    agree (basinRest (fun _ => true)) s₀ ≤ agree (basinRest (fun _ => true)) (serveContrib s k) := by
  unfold serveContrib
  refine agree_ite h ?_
  extract_lets taken
  have htaken : agree (basinRest fun _ => true) s₀ ≤ agree (basinRest fun _ => true) taken := agree_basin_takePlain h ..
  clear_value taken
  split
  · exact htaken
  next k _ =>
    extract_lets moved
    have hmoved : agree (basinRest fun _ => true) s₀ ≤ agree (basinRest fun _ => true) moved := agree_basin_contribSteps htaken ..
    clear_value moved
    split
    · exact hmoved
    · extract_lets waits
      bound

@[bound] theorem agree_basin_arriveSlot (h : agree (basinRest A) s₀ ≤ agree (basinRest A) s) {t : TarnIx} (ht : A t = true)
    (rid i : Nat) :
    agree (basinRest A) s₀ ≤ agree (basinRest A) (arriveSlot s t rid i) := by
  simp only [arriveSlot]; bound

@[bound] theorem agree_basin_foldSlot (h : agree (basinRest A) s₀ ≤ agree (basinRest A) s) {t : TarnIx} (ht : A t = true) (rid i : Nat) :
    agree (basinRest A) s₀ ≤ agree (basinRest A) (foldSlot s t rid i) := by
  simp only [foldSlot]; bound

@[bound] theorem agree_basin_stageExpire (h : agree (basinRest A) s₀ ≤ agree (basinRest A) s) {t : TarnIx} (ht : A t = true)
    (rid i : Nat) :
    agree (basinRest A) s₀ ≤ agree (basinRest A) (stageExpire s t rid i) := by
  simp only [stageExpire]; bound

@[bound] theorem agree_basin_setPart (h : agree (basinRest A) s₀ ≤ agree (basinRest A) s) (n : LinkIx) (q q' : IntakePart) :
    agree (basinRest A) s₀ ≤ agree (basinRest A) (setPart s n q q') := by
  simp only [setPart]; bound

@[bound] theorem agree_basin_dropPart (h : agree (basinRest A) s₀ ≤ agree (basinRest A) s) (n : LinkIx) (q : IntakePart) :
    agree (basinRest A) s₀ ≤ agree (basinRest A) (dropPart s n q) := by
  simp only [dropPart]; bound

@[bound] theorem agree_basin_streamPart (h : agree (basinRest A) s₀ ≤ agree (basinRest A) s) {t : TarnIx} (ht : A t = true)
    (n : LinkIx) (q : IntakePart) (i : Nat) :
    agree (basinRest A) s₀ ≤ agree (basinRest A) (streamPart s n t q i) := by
  simp only [streamPart]; bound

@[bound] theorem agree_basin_pumpPart (h : agree (basinRest A) s₀ ≤ agree (basinRest A) s) {t : TarnIx} (ht : A t = true)
    (x : LinkIx × IntakePart) :
    agree (basinRest A) s₀ ≤ agree (basinRest A) (pumpPart s t x) := by
  simp only [pumpPart]; bound

@[bound] theorem agree_basin_expirePart (h : agree (basinRest A) s₀ ≤ agree (basinRest A) s) {t : TarnIx} (ht : A t = true)
    (x : LinkIx × IntakePart) :
    agree (basinRest A) s₀ ≤ agree (basinRest A) (expirePart s t x) := by
  simp only [expirePart]; bound

@[bound] theorem agree_basin_pumpIntake (h : agree (basinRest A) s₀ ≤ agree (basinRest A) s) {t : TarnIx} (ht : A t = true) :
    agree (basinRest A) s₀ ≤ agree (basinRest A) (pumpIntake s t) := by
  simp only [pumpIntake]; bound

@[bound] theorem agree_basin_resumeIntake (h : agree (basinRest (fun _ => true)) s₀ ≤ agree (basinRest (fun _ => true)) s) (t : TarnIx) :
    agree (basinRest (fun _ => true)) s₀ ≤ agree (basinRest (fun _ => true)) (resumeIntake s t) := by
  simp only [resumeIntake]; bound

@[bound] theorem agree_basin_dropParts (h : agree (basinRest A) s₀ ≤ agree (basinRest A) s) (t : TarnIx) (rid : Nat) (st : Status) :
    agree (basinRest A) s₀ ≤ agree (basinRest A) (dropParts s t rid st) := by
  simp only [dropParts]; bound

@[bound] theorem agree_basin_discardReceiving (h : agree (basinRest A) s₀ ≤ agree (basinRest A) s) {t : TarnIx} (ht : A t = true)
    (rid : Nat) (r : Round) (st : Status) :
    agree (basinRest A) s₀ ≤ agree (basinRest A) (discardReceiving s t rid r st) := by
  simp only [discardReceiving]; bound

@[bound] theorem agree_basin_arriveAll (h : agree (basinRest A) s₀ ≤ agree (basinRest A) s) {t : TarnIx} (ht : A t = true)
    (y : Nat) (all : Bool) :
    agree (basinRest A) s₀ ≤ agree (basinRest A) (arriveAll s t y all) := by
  simp only [arriveAll]; bound

@[bound] theorem agree_basin_closeRound (h : agree (basinRest A) s₀ ≤ agree (basinRest A) s) {t : TarnIx} (ht : A t = true) (rid : Nat) :
    agree (basinRest A) s₀ ≤ agree (basinRest A) (closeRound s t rid) := by
  unfold closeRound
  split
  · exact h
  apply agree_ite h
  extract_lets quiet arrived
  have harrived : agree (basinRest A) s₀ ≤ agree (basinRest A) arrived := agree_basin_arriveAll h ht ..
  clear_value arrived
  split
  · exact harrived
  rename_i moved stamped _ r _
  extract_lets discarded told opened answered
  have hmoved : agree (basinRest A) s₀ ≤ agree (basinRest A) moved := agree_basin_moveRound harrived ht ..
  have hstamped : agree (basinRest A) s₀ ≤ agree (basinRest A) stamped := agree_basin_modRound hmoved ht ..
  clear_value stamped
  have htold : agree (basinRest A) s₀ ≤ agree (basinRest A) told :=
    agree_basin_roundEvent (agree_basin_arriveAll (agree_basin_discardReceiving hstamped ht ..) ht ..) ..
  clear_value told
  have hopened : agree (basinRest A) s₀ ≤ agree (basinRest A) opened := agree_ite (agree_basin_tallyGovernorOpen htold ..) htold
  clear_value opened
  have hanswered : agree (basinRest A) s₀ ≤ agree (basinRest A) answered := by
    apply agree_foldl _ _ hopened
    exact fun s k h => agree_finishTicket (fun _ _ => rfl) h ..
  exact agree_ite (agree_basin_combineNote hanswered ..) hanswered

@[bound] theorem agree_basin_serveRoundClose (h : agree (basinRest (fun _ => true)) s₀ ≤ agree (basinRest (fun _ => true)) s)
    (k : Ticket) :
    agree (basinRest (fun _ => true)) s₀ ≤ agree (basinRest (fun _ => true)) (serveRoundClose s k) := by
  simp only [serveRoundClose]; bound

@[bound] theorem agree_basin_certify (h : agree (basinRest A) s₀ ≤ agree (basinRest A) s) {t : TarnIx} (ht : A t = true)
    (rid : Nat) (dst : RState) (st : Status) (sumDigest : Bytes) :
    agree (basinRest A) s₀ ≤ agree (basinRest A) (certify s t rid dst st sumDigest) := by
  simp only [certify]; bound

@[bound] theorem agree_basin_eraseSecrets (h : agree (basinRest A) s₀ ≤ agree (basinRest A) s) {t : TarnIx} (ht : A t = true)
    (rid : Nat) :
    agree (basinRest A) s₀ ≤ agree (basinRest A) (eraseSecrets s t rid) := by
  simp only [eraseSecrets]; bound

@[bound] theorem agree_basin_endRoundTickets (h : agree (basinRest A) s₀ ≤ agree (basinRest A) s) (t : TarnIx) (rid : Nat) (st : Status) :
    agree (basinRest A) s₀ ≤ agree (basinRest A) (endRoundTickets s t rid st) := by
  simp only [endRoundTickets]; bound

@[bound] theorem agree_basin_dropSlots (h : agree (basinRest A) s₀ ≤ agree (basinRest A) s) {t : TarnIx} (ht : A t = true)
    (rid : Nat) (st : Status) :
    agree (basinRest A) s₀ ≤ agree (basinRest A) (dropSlots s t rid st) := by
  simp only [dropSlots]; bound

@[bound] theorem agree_basin_refuseRound (h : agree (basinRest A) s₀ ≤ agree (basinRest A) s) {t : TarnIx} (ht : A t = true)
    (rid : Nat) (st : Status) :
    agree (basinRest A) s₀ ≤ agree (basinRest A) (refuseRound s t rid st) := by
  simp only [refuseRound]; bound

@[bound] theorem agree_basin_abortRound (h : agree (basinRest A) s₀ ≤ agree (basinRest A) s) {t : TarnIx} (ht : A t = true)
    (rid : Nat) (st : Status) :
    agree (basinRest A) s₀ ≤ agree (basinRest A) (abortRound s t rid st) := by
  simp only [abortRound]; bound

@[bound] theorem agree_basin_releaseRound (h : agree (basinRest A) s₀ ≤ agree (basinRest A) s) {t : TarnIx} (ht : A t = true)
    (rid : Nat) :
    agree (basinRest A) s₀ ≤ agree (basinRest A) (releaseRound s t rid) := by
  simp only [releaseRound]; bound

@[bound] theorem agree_basin_regionScrubbed (h : agree (basinRest A) s₀ ≤ agree (basinRest A) s) {t : TarnIx} (ht : A t = true)
    (rid : Nat) :
    agree (basinRest A) s₀ ≤ agree (basinRest A) (regionScrubbed s t rid) := by
  simp only [regionScrubbed]; bound

@[bound] theorem agree_basin_serveRoundAbort (h : agree (basinRest (fun _ => true)) s₀ ≤ agree (basinRest (fun _ => true)) s)
    (k : Ticket) :
    agree (basinRest (fun _ => true)) s₀ ≤ agree (basinRest (fun _ => true)) (serveRoundAbort s k) := by
  simp only [serveRoundAbort]; bound

@[bound] theorem agree_basin_serveRoundStatus (h : agree (basinRest (fun _ => true)) s₀ ≤ agree (basinRest (fun _ => true)) s)
    (k : Ticket) :
    agree (basinRest (fun _ => true)) s₀ ≤ agree (basinRest (fun _ => true)) (serveRoundStatus s k) := by
  unfold serveRoundStatus
  split
  · exact h
  next r _ =>
    dsimp only
    split
    next st s' e => exact agree_failTicket (fun _ _ => rfl) (agree_of_snd e (agree_hostOut (fun _ _ _ _ => rfl) (fun _ _ => rfl) h ..)) ..
    next s' e => exact agree_answerTicket (fun _ _ => rfl) (agree_of_snd e (agree_hostOut (fun _ _ _ _ => rfl) (fun _ _ => rfl) h ..)) ..

@[bound] theorem agree_basin_serveCertRead (h : agree (basinRest (fun _ => true)) s₀ ≤ agree (basinRest (fun _ => true)) s) (k : Ticket) :
    agree (basinRest (fun _ => true)) s₀ ≤ agree (basinRest (fun _ => true)) (serveCertRead s k) := by
  unfold serveCertRead
  split
  · exact h
  next r _ =>
    refine agree_ite (agree_answerTicket (fun _ _ => rfl) h ..) ?_
    dsimp only
    split
    next st s' e => exact agree_failTicket (fun _ _ => rfl) (agree_of_snd e (agree_hostOut (fun _ _ _ _ => rfl) (fun _ _ => rfl) h ..)) ..
    next s' e => exact agree_answerTicket (fun _ _ => rfl) (agree_of_snd e (agree_hostOut (fun _ _ _ _ => rfl) (fun _ _ => rfl) h ..)) ..

@[bound] theorem agree_basin_requireSecrets (h : agree (basinRest A) s₀ ≤ agree (basinRest A) s) {t : TarnIx} (ht : A t = true)
    (rid : Nat) :
    agree (basinRest A) s₀ ≤ agree (basinRest A) (requireSecrets s t rid) := by
  simp only [requireSecrets]; bound

@[bound] theorem agree_basin_addJob (h : agree (basinRest A) s₀ ≤ agree (basinRest A) s) {t : TarnIx} (ht : A t = true)
    (rid kind owner other : Nat) (secret : Bytes) :
    agree (basinRest A) s₀ ≤ agree (basinRest A) (addJob s t rid kind owner other secret) := by
  simp only [addJob]; bound

@[bound] theorem agree_basin_dropJob (h : agree (basinRest A) s₀ ≤ agree (basinRest A) s) {t : TarnIx} (ht : A t = true) (id : Nat) :
    agree (basinRest A) s₀ ≤ agree (basinRest A) (dropJob s t id) := by
  simp only [dropJob]; bound

@[bound] theorem agree_basin_startUnmasking (h : agree (basinRest A) s₀ ≤ agree (basinRest A) s) {t : TarnIx} (ht : A t = true)
    (rid : Nat) :
    agree (basinRest A) s₀ ≤ agree (basinRest A) (startUnmasking s t rid) := by
  simp only [startUnmasking]; bound

@[bound] theorem agree_basin_sendCombineData (h : agree (basinRest A) s₀ ≤ agree (basinRest A) s) {t : TarnIx} (ht : A t = true)
    (r : Round) :
    agree (basinRest A) s₀ ≤ agree (basinRest A) (sendCombineData s t r) := by
  simp only [sendCombineData]; bound

@[bound] theorem agree_basin_dropData (h : agree (basinRest A) s₀ ≤ agree (basinRest A) s) (rid : Nat) :
    agree (basinRest A) s₀ ≤ agree (basinRest A) (dropData s rid) := by
  simp only [dropData]; bound

@[bound] theorem agree_basin_leaveClosed (h : agree (basinRest A) s₀ ≤ agree (basinRest A) s) {t : TarnIx} (ht : A t = true) (rid : Nat) :
    agree (basinRest A) s₀ ≤ agree (basinRest A) (leaveClosed s t rid) := by
  simp only [leaveClosed]; bound

@[bound] theorem agree_basin_putShares (h : agree (basinRest A) s₀ ≤ agree (basinRest A) s) {t : TarnIx} (ht : A t = true)
    (rid owner kind : Nat) (g : ShareSet → ShareSet) :
    agree (basinRest A) s₀ ≤ agree (basinRest A) (putShares s t rid owner kind g) := by
  simp only [putShares]; bound

@[bound] theorem agree_basin_acceptShare (h : agree (basinRest A) s₀ ≤ agree (basinRest A) s) {t : TarnIx} (ht : A t = true)
    (r : Round) (e : Bytes) :
    agree (basinRest A) s₀ ≤ agree (basinRest A) (acceptShare s t r e) := by
  simp only [acceptShare]; bound

@[bound] theorem agree_basin_shareNext (h : agree (basinRest A) s₀ ≤ agree (basinRest A) s) {t : TarnIx} (ht : A t = true) (rid : Nat) :
    agree (basinRest A) s₀ ≤ agree (basinRest A) (shareNext s t rid) := by
  simp only [shareNext]; bound

@[bound] theorem agree_basin_serveShares (h : agree (basinRest (fun _ => true)) s₀ ≤ agree (basinRest (fun _ => true)) s) (k : Ticket) :
    agree (basinRest (fun _ => true)) s₀ ≤ agree (basinRest (fun _ => true)) (serveShares s k) := by
  simp only [serveShares]; bound

@[bound] theorem agree_basin_countRebuild (h : agree (basinRest A) s₀ ≤ agree (basinRest A) s) {t : TarnIx} (ht : A t = true)
    (rid kind : Nat) :
    agree (basinRest A) s₀ ≤ agree (basinRest A) (countRebuild s t rid kind) := by
  simp only [countRebuild]; bound

@[bound] theorem agree_basin_rebuildFails (h : agree (basinRest A) s₀ ≤ agree (basinRest A) s) {t : TarnIx} (ht : A t = true)
    (rid owner kind : Nat) (st : Status) :
    agree (basinRest A) s₀ ≤ agree (basinRest A) (rebuildFails s t rid owner kind st) := by
  unfold rebuildFails
  extract_lets counted noted barred
  have hbarred : agree (basinRest A) s₀ ≤ agree (basinRest A) barred :=
    agree_basin_putShares (agree_basin_tallyNote (agree_basin_countRebuild h ht ..) ..) ht ..
  split
  · exact hbarred
  · exact agree_ite (agree_basin_modRound hbarred ht ..) hbarred

@[bound] theorem agree_basin_rebuildHead (h : agree (basinRest (fun _ => true)) s₀ ≤ agree (basinRest (fun _ => true)) s) :
    agree (basinRest (fun _ => true)) s₀ ≤ agree (basinRest (fun _ => true)) (rebuildHead s) := by
  simp only [rebuildHead]; bound

@[bound] theorem agree_basin_settleSecret (h : agree (basinRest A) s₀ ≤ agree (basinRest A) s) {t : TarnIx} (ht : A t = true)
    (rid owner kind : Nat) :
    agree (basinRest A) s₀ ≤ agree (basinRest A) (settleSecret s t rid owner kind) := by
  simp only [settleSecret]; bound

@[bound] theorem agree_basin_flagEntry (h : agree (basinRest A) s₀ ≤ agree (basinRest A) s) {t : TarnIx} (ht : A t = true)
    (rid i other : Nat) (st : Status) :
    agree (basinRest A) s₀ ≤ agree (basinRest A) (flagEntry s t rid i other st) := by
  simp only [flagEntry]; bound

@[bound] theorem agree_basin_failEdge (h : agree (basinRest A) s₀ ≤ agree (basinRest A) s) {t : TarnIx} (ht : A t = true)
    (rid i j : Nat) (st : Status) :
    agree (basinRest A) s₀ ≤ agree (basinRest A) (failEdge s t rid i j st) := by
  simp only [failEdge]; bound

@[bound] theorem agree_basin_validateDone (h : agree (basinRest A) s₀ ≤ agree (basinRest A) s) {t : TarnIx} (ht : A t = true)
    (r : Round) (j : KaeJob) :
    agree (basinRest A) s₀ ≤ agree (basinRest A) (validateDone s t r j) := by
  simp only [validateDone]; bound

@[bound] theorem agree_basin_verifyDone (h : agree (basinRest A) s₀ ≤ agree (basinRest A) s) {t : TarnIx} (ht : A t = true)
    (r : Round) (j : KaeJob) :
    agree (basinRest A) s₀ ≤ agree (basinRest A) (verifyDone s t r j) := by
  simp only [verifyDone]; bound

@[bound] theorem agree_basin_pairDone (h : agree (basinRest A) s₀ ≤ agree (basinRest A) s) {t : TarnIx} (ht : A t = true)
    (r : Round) (j : KaeJob) :
    agree (basinRest A) s₀ ≤ agree (basinRest A) (pairDone s t r j) := by
  simp only [pairDone]; bound

@[bound] theorem agree_basin_jobDone (h : agree (basinRest A) s₀ ≤ agree (basinRest A) s) {t : TarnIx} (ht : A t = true) (j : KaeJob) :
    agree (basinRest A) s₀ ≤ agree (basinRest A) (jobDone s t j) := by
  simp only [jobDone]; bound

@[bound] theorem agree_basin_hkdfDone (h : agree (basinRest A) s₀ ≤ agree (basinRest A) s) {t : TarnIx} (ht : A t = true) (j : KaeJob) :
    agree (basinRest A) s₀ ≤ agree (basinRest A) (hkdfDone s t j) := by
  simp only [hkdfDone]; bound

@[bound] theorem agree_basin_correctImage (h : agree (basinRest A) s₀ ≤ agree (basinRest A) s) {t : TarnIx} (ht : A t = true)
    (rid id : Nat) :
    agree (basinRest A) s₀ ≤ agree (basinRest A) (correctImage s t rid id) := by
  simp only [correctImage]; bound

@[bound] theorem agree_basin_attachIfAll (h : agree (basinRest A) s₀ ≤ agree (basinRest A) s) {t : TarnIx} (ht : A t = true) (rid : Nat) :
    agree (basinRest A) s₀ ≤ agree (basinRest A) (attachIfAll s t rid) := by
  simp only [attachIfAll]; bound

@[bound] theorem agree_basin_serveAttach (h : agree (basinRest (fun _ => true)) s₀ ≤ agree (basinRest (fun _ => true)) s) (k : Ticket) :
    agree (basinRest (fun _ => true)) s₀ ≤ agree (basinRest (fun _ => true)) (serveAttach s k) := by
  have hplain := agree_plainOf (fun _ _ _ _ => rfl) h k 1 (opW k 2) k.buf
  unfold serveAttach
  split
  · exact h
  next st s' _ e => exact agree_failTicket (fun _ _ => rfl) (agree_of_snd e hplain) ..
  next r raw s' _ e =>
    have hs' := agree_of_snd e hplain
    bound

@[bound] theorem agree_basin_confirmMember (h : agree (basinRest A) s₀ ≤ agree (basinRest A) s) {t : TarnIx} (ht : A t = true)
    (rid : Nat) (serial : Bytes) :
    agree (basinRest A) s₀ ≤ agree (basinRest A) (confirmMember s t rid serial) := by
  simp only [confirmMember]; bound

@[bound] theorem agree_basin_attachExpire (h : agree (basinRest (fun _ => true)) s₀ ≤ agree (basinRest (fun _ => true)) s) (uid : Nat) :
    agree (basinRest (fun _ => true)) s₀ ≤ agree (basinRest (fun _ => true)) (attachExpire s uid) := by
  simp only [attachExpire]; bound

@[bound] theorem agree_basin_memberNote (h : agree (basinRest A) s₀ ≤ agree (basinRest A) s) {t : TarnIx} (ht : A t = true)
    (rid kind : Nat) (g : Round → Round) :
    agree (basinRest A) s₀ ≤ agree (basinRest A) (memberNote s t rid kind g) := by
  simp only [memberNote]; bound

@[bound] theorem agree_basin_addMember (h : agree (basinRest A) s₀ ≤ agree (basinRest A) s) {t : TarnIx} (ht : A t = true)
    (rid i : Nat) (bitmap image : Bytes) :
    agree (basinRest A) s₀ ≤ agree (basinRest A) (addMember s t rid i bitmap image) := by
  simp only [addMember]; bound

@[bound] theorem agree_basin_missMember (h : agree (basinRest A) s₀ ≤ agree (basinRest A) s) {t : TarnIx} (ht : A t = true)
    (rid i : Nat) :
    agree (basinRest A) s₀ ≤ agree (basinRest A) (missMember s t rid i) := by
  simp only [missMember]; bound

end Sys2Proof.Machine
end

section
namespace Sys2Proof.Machine

/-- A command that names a Tarn changes what that Tarn holds and no other. -/
theorem basinRest_exec_named {s s' : State} {t : TarnIx} {id : BitVec 32} {i : Nat} {a b : Bytes} {c : Instr}
    (hc : c = .roundOpened t id ∨ c = .recordArrival t id i ∨ c = .foldComplete t id i ∨ c = .stageTimeout t id i ∨
      c = .shareEntry t id ∨ c = .kaeJobComplete t i ∨ c = .hkdfComplete t i ∨
      c = .maskCorrectionDone t id i ∨ c = .close t id ∨ c = .roundLeaveClosed t id ∨ c = .roundRelease t id ∨
      c = .unmaskTimeout t id ∨ c = .roundRegionScrubbed t id ∨ c = .combineConfirm t id i a b ∨ c = .leaderCloseMessage t id ∨
      c = .leaderReleaseMessage t id ∨ c = .leaderAbortMessage t id ∨ c = .combineData t id i a b ∨ c = .memberMissing t id i ∨
      c = .memberOrphanAbort t id) (e : exec c s = .next s') {A : Nat → Bool} (ht : A t = true) :
    agree (basinRest A) s ≤ agree (basinRest A) s' := by
  have hs : agree (basinRest A) s ≤ agree (basinRest A) s := le_rfl
  rcases hc with rfl | rfl | rfl | rfl | rfl | rfl | rfl | rfl | rfl | rfl | rfl | rfl | rfl | rfl | rfl | rfl | rfl | rfl | rfl | rfl <;>
    obtain rfl := Host.Outcome.next.inj e <;> refine agree_ite ?_ hs
  · exact agree_basin_becomeOpen hs ht ..
  · exact agree_basin_arriveSlot hs ht ..
  · exact agree_basin_foldSlot hs ht ..
  · exact agree_basin_stageExpire hs ht ..
  · exact agree_basin_shareNext hs ht ..
  · split
    · exact agree_basin_jobDone hs ht ..
    · exact hs
  · split
    · exact agree_basin_hkdfDone hs ht ..
    · exact hs
  · exact agree_basin_correctImage hs ht ..
  · split
    · exact agree_ite (agree_basin_closeRound hs ht ..) hs
    · exact hs
  · exact agree_basin_leaveClosed hs ht ..
  · exact agree_basin_releaseRound hs ht ..
  · split
    · exact agree_ite (agree_basin_abortRound hs ht ..) hs
    · exact hs
  · exact agree_basin_regionScrubbed hs ht ..
  · split
    · split
      · exact agree_ite (agree_basin_confirmMember (agree_basin_takeMsg hs ..) ht ..) (agree_basin_takeMsg hs ..)
      · exact hs
    · exact hs
  · exact agree_basin_memberNote hs ht ..
  · exact agree_basin_memberNote hs ht ..
  · exact agree_basin_memberNote hs ht ..
  · split
    · extract_lets mine taken
      have htaken : agree (basinRest A) s ≤ agree (basinRest A) taken := hs
      exact agree_basin_addMember htaken ht ..
    · exact hs
  · exact agree_basin_missMember hs ht ..
  · split
    · exact agree_ite (agree_basin_abortRound hs ht ..) hs
    · exact hs

theorem basinRest_exec {s s' : State} {uid : Nat} {t : TarnIx} {c : Instr}
    (hc : c = .recordIntakeResume t ∨ c = .roundOpen uid ∨ c = .contribSubmit uid ∨ c = .sharesSubmit uid ∨ c = .rebuildComplete ∨
      c = .roundClose uid ∨ c = .roundAbort uid ∨ c = .roundStatus uid ∨ c = .certRead uid ∨ c = .combineAttach uid ∨
      c = .combineAttachTimeout uid) (e : exec c s = .next s') :
    agree (basinRest fun _ => true) s ≤ agree (basinRest fun _ => true) s' := by
  have hs : agree (basinRest fun _ => true) s ≤ agree (basinRest fun _ => true) s := le_rfl
  rcases hc with rfl | rfl | rfl | rfl | rfl | rfl | rfl | rfl | rfl | rfl | rfl <;> obtain rfl := Host.Outcome.next.inj e
  · exact agree_ite (agree_basin_resumeIntake hs ..) hs
  · exact agree_serve hs fun k => agree_basin_serveRoundOpen hs k
  · exact agree_serveRunning hs fun k => agree_basin_serveContrib hs k
  · exact agree_serveRunning hs fun k => agree_basin_serveShares hs k
  · exact agree_ite (agree_basin_rebuildHead hs) hs
  · exact agree_serve hs fun k => agree_ite (agree_basin_serveRoundClose hs k) hs
  · exact agree_serve hs fun k => agree_ite (agree_basin_serveRoundAbort hs k) hs
  · exact agree_serve hs fun k => agree_basin_serveRoundStatus hs k
  · exact agree_serve hs fun k => agree_basin_serveCertRead hs k
  · exact agree_serve hs fun k => agree_ite (agree_basin_serveAttach hs k) hs
  · exact agree_ite (agree_basin_attachExpire hs ..) hs

end Sys2Proof.Machine

open Sys2Proof.Machine

/-- Settles O45, by the frames of the Basin's operations. -/
theorem basinCommandsFrame : Obligations.BasinCommandsFrame := by
  intro s uid t id i a b c named hc
  obtain ⟨s', hexec⟩ : ∃ s', exec c s = .next s' := by
    rcases hc with (rfl | rfl | rfl | rfl | rfl | rfl | rfl | rfl | rfl | rfl | rfl | rfl | rfl | rfl | rfl | rfl | rfl | rfl | rfl | rfl) |
      rfl | rfl | rfl | rfl | rfl | rfl | rfl | rfl | rfl | rfl | rfl <;> exact ⟨_, rfl⟩
  refine ⟨s', hexec, ?_, fun hnamed u hu => ?_⟩
  · have hframe : agree (basinRest fun _ => true) s ≤ agree (basinRest fun _ => true) s' :=
      hc.elim (fun hnamed => basinRest_exec_named hnamed hexec rfl) (fun hc => basinRest_exec hc hexec)
    exact eq_of_basinRest (agree_le_iff.mp hframe).symm
  · have hframe := basinRest_exec_named (A := fun j => decide (j = t.val)) hnamed hexec (by simp)
    exact tarnOf_of_basinRest (agree_le_iff.mp hframe).symm (by simpa using fun h => hu (Fin.ext h))

end

section
/-! Of a queue pair, what its doorbells and QP_CTRL do (R66 to R72, R100, R103, R104, R703), and the statements about them. -/

namespace Sys2Proof.Machine

/-! QP_CTRL's fields and its ENABLE -/

/-- A field of a word, as its bits. -/
theorem ofNat_bits {m : Nat} (w : BitVec m) (n hi lo : Nat) (h : hi + 1 - lo = n) :
    BitVec.ofNat n (bits w.toNat hi lo) = BitVec.extractLsb' lo n w := by
  subst h
  exact BitVec.eq_of_toNat_eq (by simp [bits])

theorem bit_enable_set (v : BitVec 32) : bit (v ||| 0x10).toNat 4 = true := by
  change (v ||| 0x10#32).getLsbD 4 = true
  simp

theorem bit_enable_cleared (v : BitVec 32) : bit (v &&& ~~~ 0x10#32).toNat 4 = false := by
  change (v &&& ~~~ 0x10#32).getLsbD 4 = false
  simp

/-- A write of QP_CTRL's fields changes nothing but those. -/
theorem qpFields_rest (p : Qp) (v : Nat) :
    qpFields p v = { p with vector := (qpFields p v).vector, irqEn := (qpFields p v).irqEn, coalCount := (qpFields p v).coalCount,
                            coalBeats := (qpFields p v).coalBeats, depthLog2 := (qpFields p v).depthLog2,
                            qclass := (qpFields p v).qclass } := by
  unfold qpFields
  split <;> rfl

theorem qpFields_depthLog2_of_active {p : Qp} (h : qpActive p = true) (v : Nat) : (qpFields p v).depthLog2 = p.depthLog2 := by
  rw [qpFields, if_pos h]

theorem qpFields_depthLog2 {p : Qp} (h : qpActive p = false) (v : BitVec 32) :
    (qpFields p (v ||| 0x10).toNat).depthLog2 = v.setWidth 4 := by
  have hbits : (qpFields p (v ||| 0x10).toNat).depthLog2 = BitVec.ofNat 4 (bits (v ||| 0x10).toNat 3 0) := by
    rw [qpFields, if_neg (Bool.not_eq_true _ ▸ h)]
  rw [hbits, ofNat_bits _ 4 3 0 rfl, BitVec.extractLsb'_or]
  exact BitVec.eq_of_toNat_eq (by simp)

theorem qpFields_qclass {p : Qp} (h : qpActive p = false) (v : BitVec 32) :
    (qpFields p (v ||| 0x10).toNat).qclass = BitVec.extractLsb' 5 2 v := by
  have hbits : (qpFields p (v ||| 0x10).toNat).qclass = BitVec.ofNat 2 (bits (v ||| 0x10).toNat 6 5) := by
    rw [qpFields, if_neg (Bool.not_eq_true _ ▸ h)]
  rw [hbits, ofNat_bits _ 2 6 5 rfl, BitVec.extractLsb'_or]
  simp

/-- The value written has a depth and a class with which an inactive queue pair may be enabled (R70). -/
theorem qpLegal_qpFields {p : Qp} (h : qpActive p = false) (v : BitVec 32) :
    qpLegal (qpFields p (v ||| 0x10).toNat) = true ↔
      6 ≤ v.toNat % 16 ∧ v.toNat % 16 ≤ 12 ∧ (v.toNat / 32 % 4 = 1 ∨ v.toNat / 32 % 4 = 2) := by
  have hclass (n : Nat) (hn : n < 4) : (BitVec.extractLsb' 5 2 v == BitVec.ofNat 2 n) = true ↔ v.toNat / 32 % 4 = n := by
    simp [← BitVec.toNat_inj, Nat.shiftRight_eq_div_pow, Nat.mod_eq_of_lt hn]
  rw [qpLegal, qpFields_depthLog2 h, qpFields_qclass h]
  simp only [Bool.and_eq_true, Bool.or_eq_true, decide_eq_true_eq, BitVec.toNat_setWidth, and_assoc]
  exact and_congr Iff.rfl (and_congr Iff.rfl (or_congr (hclass 1 (by omega)) (hclass 2 (by omega))))

/-- QP_CTRL written with ENABLE 1 (R69 to R71): an enabled queue pair keeps its ring; one that still has entries to post is not changed; an
inactive one starts, or faults. -/
theorem qpCtrl_enable (p : Qp) (v : BitVec 32) :
    qpCtrl p (v ||| 0x10).toNat =
      if p.enable then qpFields p (v ||| 0x10).toNat
      else if qpActive p then p
      else if qpLegal (qpFields p (v ||| 0x10).toNat) then qpStart (qpFields p (v ||| 0x10).toNat)
      else qpFault (qpFields p (v ||| 0x10).toNat) 5 := if_pos (bit_enable_set v)

/-- QP_CTRL written with ENABLE 0 (R71). -/
theorem qpCtrl_disable (p : Qp) (v : BitVec 32) :
    qpCtrl p (v &&& ~~~ 0x10#32).toNat =
      { qpFields p (v &&& ~~~ 0x10#32).toNat with enable := false, fetched := [], reading := 0 } :=
  if_neg (by rw [bit_enable_cleared]; exact Bool.false_ne_true)

/-! One queue pair of a function -/

section
variable {s : State} {t : TarnIx} {q : QpIx}

/-- Changing a queue pair, as it then reads. -/
theorem qpOf_modQp_same (h : Shaped s) (t : TarnIx) (q : QpIx) (g : Qp → Qp) : qpOf (modQp s t q g) t q = g (qpOf s t q) := by
  rw [qpOf_modQp s t t q q g h.fns (h.fnOf_shaped t).1, if_pos ⟨rfl, rfl⟩]

/-- An entry changed into itself. -/
theorem modify_eq_self {α : Type} {l : List α} {i : Nat} {g : α → α} (d : α) (h : g (l.getD i d) = l.getD i d) : l.modify i g = l := by
  refine List.ext_getElem (List.length_modify ..) fun j _ hj => ?_
  rw [List.getElem_modify]
  split
  · next hi =>
    subst hi
    rwa [List.getD_eq_getElem l d hj] at h
  · rfl

theorem modQp_eq_self {g : Qp → Qp} (h : g (qpOf s t q) = qpOf s t q) : modQp s t q g = s := by
  have hqps : (fnOf s t).qps.modify q g = (fnOf s t).qps := modify_eq_self {} h
  have hfn : { fnOf s t with qps := (fnOf s t).qps.modify q g } = fnOf s t := by rw [hqps]
  exact congrArg (fun l => { s with fns := l }) (modify_eq_self (g := fun f => { f with qps := f.qps.modify q g }) {} hfn)

theorem Shaped.modFn (h : Shaped s) (t : TarnIx) {g : FnRegs → FnRegs} (hg : ∀ f, FnShaped f → FnShaped (g f)) :
    Shaped (modFn s t g) := by
  refine { h with fns := (length_modFn s t _).trans h.fns, fn := fun f hf => ?_ }
  obtain ⟨i, hi, rfl⟩ := List.getElem_of_mem hf
  simp only [Machine.modFn, List.getElem_modify]
  split
  · exact hg _ (h.fn _ (List.getElem_mem _))
  · exact h.fn _ (List.getElem_mem _)

theorem Shaped.modQp (h : Shaped s) (t : TarnIx) (q : QpIx) (g : Qp → Qp) : Shaped (modQp s t q g) :=
  h.modFn t fun _ hf => ⟨(List.length_modify ..).trans hf.1, hf.2⟩

/-- A ring read changes of its queue pair only what is being read. -/
theorem qpOf_ringPump (h : Shaped s) (t : TarnIx) (q : QpIx) :
    qpOf (ringPump s t q) t q =
      { qpOf s t q with reading := (qpOf (ringPump s t q) t q).reading, readUs := (qpOf (ringPump s t q) t q).readUs } := by
  have hemit (s : State) (o : Output) : qpOf (emit s o) t q = qpOf s t q := rfl
  simp only [ringPump]
  split
  · rw [hemit, qpOf_modQp_same h]
  · rfl

/-! The commands while the function's registers answer -/

theorem exec_sqDoorbell (hreach : hostReach s t = true) (q : QpIx) (v : BitVec 32) :
    exec (.sqDoorbell t q v) s = .next (writeSqTail s t q (v.setWidth 16)) := congrArg _ (if_pos hreach)

theorem exec_cqDoorbell (hreach : hostReach s t = true) (q : QpIx) (v : BitVec 32) :
    exec (.cqDoorbell t q v) s = .next (writeCqHead s t q (v.setWidth 16)) := congrArg _ (if_pos hreach)

theorem exec_qpEnable (hreach : hostReach s t = true) (q : QpIx) (v : BitVec 32) :
    exec (.qpEnable t q v) s = .next (modQp s t q fun p => qpCtrl p (v ||| 0x10).toNat) := congrArg _ (if_pos hreach)

theorem exec_qpDisable (hreach : hostReach s t = true) (q : QpIx) (v : BitVec 32) :
    exec (.qpDisable t q v) s = .next (modQp s t q fun p => qpCtrl p (v &&& ~~~ 0x10#32).toNat) := congrArg _ (if_pos hreach)

/-! Doorbells -/

theorem writeSqTail_disabled (h : (qpOf s t q).enable = false) (v : BitVec 16) : writeSqTail s t q v = s :=
  if_pos (by simp [h])

theorem writeCqHead_disabled (h : (qpOf s t q).enable = false) (v : BitVec 16) : writeCqHead s t q v = s :=
  if_pos (by simp [h])

section
variable (hs : Shaped s) (hreach : hostReach s t = true) (v : BitVec 32)
include hs hreach

section
variable (hlive : live s t = true) (hen : (qpOf s t q).enable = true)
include hlive hen

theorem sqDoorbell_taken (h : ringDist (qpOf s t q).sqHead (v.setWidth 16) ≤ qpDepth (qpOf s t q)) :
    ∃ s', exec (.sqDoorbell t q v) s = .next s' ∧ (qpOf s' t q).sqTail = v.setWidth 16 ∧
      (qpOf s' t q).sqHead = (qpOf s t q).sqHead ∧ (qpOf s' t q).error = (qpOf s t q).error := by
  refine ⟨_, exec_sqDoorbell hreach q v, ?_⟩
  rw [writeSqTail, if_neg (by simp [hlive, hen]), if_neg (Nat.not_lt.mpr h), qpOf_ringPump (hs.modQp t q _), qpOf_modQp_same hs]
  exact ⟨rfl, rfl, rfl⟩

theorem sqDoorbell_fault (h : qpDepth (qpOf s t q) < ringDist (qpOf s t q).sqHead (v.setWidth 16)) :
    ∃ s', exec (.sqDoorbell t q v) s = .next s' ∧ (qpOf s' t q).error = true ∧
      (qpOf s' t q).cause = (if (qpOf s t q).error then (qpOf s t q).cause else 1) ∧
      (qpOf s' t q).sqTail = (qpOf s t q).sqTail ∧ (qpOf s' t q).sqHead = (qpOf s t q).sqHead := by
  refine ⟨_, exec_sqDoorbell hreach q v, ?_⟩
  rw [writeSqTail, if_neg (by simp [hlive, hen]), if_pos h, qpOf_modQp_same hs]
  exact ⟨rfl, rfl, rfl, rfl⟩

theorem cqDoorbell_taken
    (h : ringDist (qpOf s t q).cqHead (v.setWidth 16) ≤ ringDist (qpOf s t q).cqHead (qpOf s t q).cqTail) :
    ∃ s', exec (.cqDoorbell t q v) s = .next s' ∧ (qpOf s' t q).cqHead = v.setWidth 16 ∧
      (qpOf s' t q).error = (qpOf s t q).error := by
  refine ⟨_, exec_cqDoorbell hreach q v, ?_⟩
  rw [writeCqHead, if_neg (by simp [hlive, hen]), if_neg (Nat.not_lt.mpr h), qpOf_modQp_same hs]
  exact ⟨rfl, rfl⟩

theorem cqDoorbell_fault
    (h : ringDist (qpOf s t q).cqHead (qpOf s t q).cqTail < ringDist (qpOf s t q).cqHead (v.setWidth 16)) :
    ∃ s', exec (.cqDoorbell t q v) s = .next s' ∧ (qpOf s' t q).error = true ∧
      (qpOf s' t q).cause = (if (qpOf s t q).error then (qpOf s t q).cause else 4) ∧
      (qpOf s' t q).cqHead = (qpOf s t q).cqHead ∧ (qpOf s' t q).cqTail = (qpOf s t q).cqTail := by
  refine ⟨_, exec_cqDoorbell hreach q v, ?_⟩
  rw [writeCqHead, if_neg (by simp [hlive, hen]), if_pos h, qpOf_modQp_same hs]
  exact ⟨rfl, rfl, rfl, rfl⟩

end

/-! QP_CTRL -/

theorem qpEnable_starts (h : qpActive (qpOf s t q) = false) (hlo : 6 ≤ v.toNat % 16) (hhi : v.toNat % 16 ≤ 12)
    (hclass : v.toNat / 32 % 4 = 1 ∨ v.toNat / 32 % 4 = 2) :
    ∃ s', exec (.qpEnable t q v) s = .next s' ∧ (qpOf s' t q).enable = true ∧ (qpOf s' t q).error = false ∧
      (qpOf s' t q).cause = 0 ∧ (qpOf s' t q).sqHead = 0 ∧ (qpOf s' t q).sqTail = 0 ∧ (qpOf s' t q).cqHead = 0 ∧
      (qpOf s' t q).cqTail = 0 ∧ (qpOf s' t q).depthLog2 = v.setWidth 4 := by
  refine ⟨_, exec_qpEnable hreach q v, ?_⟩
  have hdis : (qpOf s t q).enable = false := (Bool.or_eq_false_iff.mp h).1
  rw [qpOf_modQp_same hs, qpCtrl_enable, if_neg (by simp [hdis]), if_neg (by simp [h]),
    if_pos ((qpLegal_qpFields h v).mpr ⟨hlo, hhi, hclass⟩)]
  exact ⟨rfl, rfl, rfl, rfl, rfl, rfl, rfl, qpFields_depthLog2 h v⟩

theorem qpEnable_fault (h : qpActive (qpOf s t q) = false)
    (hbad : v.toNat % 16 < 6 ∨ 12 < v.toNat % 16 ∨ v.toNat / 32 % 4 = 0 ∨ v.toNat / 32 % 4 = 3) :
    ∃ s', exec (.qpEnable t q v) s = .next s' ∧ (qpOf s' t q).enable = false ∧ (qpOf s' t q).error = true ∧
      (qpOf s' t q).cause = (if (qpOf s t q).error then (qpOf s t q).cause else 5) ∧
      (qpOf s' t q).sqHead = (qpOf s t q).sqHead ∧ (qpOf s' t q).sqTail = (qpOf s t q).sqTail ∧
      (qpOf s' t q).cqHead = (qpOf s t q).cqHead ∧ (qpOf s' t q).cqTail = (qpOf s t q).cqTail := by
  refine ⟨_, exec_qpEnable hreach q v, ?_⟩
  have hdis : (qpOf s t q).enable = false := (Bool.or_eq_false_iff.mp h).1
  have hillegal : ¬ qpLegal (qpFields (qpOf s t q) (v ||| 0x10).toNat) = true := by
    rw [qpLegal_qpFields h v]
    omega
  rw [qpOf_modQp_same hs, qpCtrl_enable, if_neg (by simp [hdis]), if_neg (by simp [h]), if_neg hillegal, qpFields_rest]
  exact ⟨hdis, rfl, rfl, rfl, rfl, rfl, rfl⟩

omit hs in
theorem qpEnable_draining (h : qpActive (qpOf s t q) = true) (hdis : (qpOf s t q).enable = false) :
    exec (.qpEnable t q v) s = .next s := by
  have hid : qpCtrl (qpOf s t q) (v ||| 0x10).toNat = qpOf s t q := by
    rw [qpCtrl_enable, if_neg (by simp [hdis]), if_pos h]
  rw [exec_qpEnable hreach, modQp_eq_self hid]

theorem qpEnable_enabled (hen : (qpOf s t q).enable = true) :
    ∃ s', exec (.qpEnable t q v) s = .next s' ∧ (qpOf s' t q).enable = true ∧
      (qpOf s' t q).depthLog2 = (qpOf s t q).depthLog2 ∧ (qpOf s' t q).sqHead = (qpOf s t q).sqHead ∧
      (qpOf s' t q).sqTail = (qpOf s t q).sqTail ∧ (qpOf s' t q).cqHead = (qpOf s t q).cqHead ∧
      (qpOf s' t q).cqTail = (qpOf s t q).cqTail := by
  refine ⟨_, exec_qpEnable hreach q v, ?_⟩
  have hactive : qpActive (qpOf s t q) = true := by simp [qpActive, hen]
  rw [qpOf_modQp_same hs, qpCtrl_enable, if_pos hen, qpFields_rest]
  exact ⟨hen, qpFields_depthLog2_of_active hactive _, rfl, rfl, rfl, rfl⟩

theorem qpDisable_acts :
    ∃ s', exec (.qpDisable t q v) s = .next s' ∧ (qpOf s' t q).enable = false ∧ (qpOf s' t q).order = (qpOf s t q).order ∧
      (qpOf s' t q).sqHead = (qpOf s t q).sqHead ∧ (qpOf s' t q).sqTail = (qpOf s t q).sqTail ∧
      (qpOf s' t q).cqHead = (qpOf s t q).cqHead ∧ (qpOf s' t q).cqTail = (qpOf s t q).cqTail := by
  refine ⟨_, exec_qpDisable hreach q v, ?_⟩
  rw [qpOf_modQp_same hs, qpCtrl_disable, qpFields_rest]
  exact ⟨rfl, rfl, rfl, rfl, rfl, rfl⟩

end
end
end Sys2Proof.Machine

open Sys2Proof.Machine

/-- Settles O2: whatever the function's power state, a write that reaches the queue pair finds it disabled. -/
theorem doorbellWhileDisabledIgnored : Obligations.DoorbellWhileDisabledIgnored := by
  intro s t q v h
  exact ⟨congrArg _ (ite_eq_right_iff.mpr fun _ => writeSqTail_disabled h _),
    congrArg _ (ite_eq_right_iff.mpr fun _ => writeCqHead_disabled h _)⟩

/-- Settles O3: each clause by the lemma of its write. -/
theorem queuePairControlActs : Obligations.QueuePairControlActs := by
  intro s t q v hs hrun hd0
  have hreach := hostReach_of hrun hd0
  exact ⟨fun hlive hen => ⟨sqDoorbell_taken hs hreach v hlive hen, sqDoorbell_fault hs hreach v hlive hen,
      cqDoorbell_taken hs hreach v hlive hen, cqDoorbell_fault hs hreach v hlive hen⟩,
    fun h => ⟨qpEnable_starts hs hreach v h, qpEnable_fault hs hreach v h⟩,
    qpEnable_draining hreach v, qpEnable_enabled hs hreach v, qpDisable_acts hs hreach v⟩

end

section
/-! What the register commands of one function leave unchanged, and the statement about them (R64, R65, R66, R78, R96). -/

namespace Sys2Proof.Machine

/-- The state without one function's registers and without what has been sent. -/
def fnRest (t : TarnIx) (s : State) : State := { s with outbox := [], fns := s.fns.set t {} }

/-- The state without one queue pair and without what has been sent. -/
def qpRest (t : TarnIx) (q : QpIx) (s : State) : State :=
  { s with outbox := [], fns := s.fns.modify t fun f => { f with qps := f.qps.set q {} } }

/-! What such a frame says -/

theorem set_modify {α : Type} (l : List α) (i : Nat) (g : α → α) (d : α) : (l.modify i g).set i d = l.set i d := by
  refine List.ext_getElem (by simp) fun j _ _ => ?_
  simp only [List.getElem_set, List.getElem_modify]
  split <;> rfl

theorem getD_of_set {α : Type} {l l' : List α} {i j : Nat} {d : α} (h : l.set i d = l'.set i d) (hj : j ≠ i) (e : α) :
    l.getD j e = l'.getD j e := by
  have := congrArg (fun l => l.getD j e) h
  simpa [List.getD_eq_getElem?_getD, List.getElem?_set_ne hj.symm] using this

theorem eq_of_fnRest {t : TarnIx} {s s' : State} (h : fnRest t s = fnRest t s') :
    s' = { s with fns := s'.fns, outbox := s'.outbox } :=
  congrArg (fun x : State => { x with fns := s'.fns, outbox := s'.outbox }) h.symm

theorem fnOf_of_fnRest {t u : TarnIx} {s s' : State} (h : fnRest t s = fnRest t s') (hu : u ≠ t) : fnOf s' u = fnOf s u :=
  getD_of_set (congrArg State.fns h.symm) (fun e => hu (Fin.ext e)) _

theorem qpOf_of_qpRest {t : TarnIx} {q p : QpIx} {s s' : State} (h : qpRest t q s = qpRest t q s') (hp : p ≠ q) :
    qpOf s' t p = qpOf s t p := by
  have hqp (s : State) : qpOf (qpRest t q s) t p = qpOf s t p := by
    have hne : q.val ≠ p.val := fun e => hp (Fin.ext e.symm)
    simp only [qpOf, fnOf, qpRest, getD_modify]
    split
    · simp [List.getD_eq_getElem?_getD, List.getElem?_set_ne hne]
    · rfl
  rw [← hqp s, h, hqp s']

/-! The operations on one function's registers -/

section
variable {s₀ s : State} {t : TarnIx}

@[bound] theorem agree_fnRest_emit (h : agree (fnRest t) s₀ ≤ agree (fnRest t) s) (o : Output) :
    agree (fnRest t) s₀ ≤ agree (fnRest t) (emit s o) := agree_of_eq h rfl
@[bound] theorem agree_fnRest_modFn (h : agree (fnRest t) s₀ ≤ agree (fnRest t) s) (g : FnRegs → FnRegs) :
    agree (fnRest t) s₀ ≤ agree (fnRest t) (modFn s t g) := agree_of_eq h (by simp only [fnRest, modFn, set_modify])
@[bound] theorem agree_fnRest_sendVector (h : agree (fnRest t) s₀ ≤ agree (fnRest t) s) (v : Nat) :
    agree (fnRest t) s₀ ≤ agree (fnRest t) (sendVector s t v) := by simp only [sendVector]; bound
@[bound] theorem agree_fnRest_flushPending (h : agree (fnRest t) s₀ ≤ agree (fnRest t) s) :
    agree (fnRest t) s₀ ≤ agree (fnRest t) (flushPending s t) := by simp only [flushPending]; bound
@[bound] theorem agree_fnRest_modQp (h : agree (fnRest t) s₀ ≤ agree (fnRest t) s) (q : QpIx) (g : Qp → Qp) :
    agree (fnRest t) s₀ ≤ agree (fnRest t) (modQp s t q g) := agree_fnRest_modFn h _
@[bound] theorem agree_fnRest_ringPump (h : agree (fnRest t) s₀ ≤ agree (fnRest t) s) (q : QpIx) :
    agree (fnRest t) s₀ ≤ agree (fnRest t) (ringPump s t q) := by simp only [ringPump]; bound
@[bound] theorem agree_fnRest_writeSqTail (h : agree (fnRest t) s₀ ≤ agree (fnRest t) s) (q : QpIx) (v : BitVec 16) :
    agree (fnRest t) s₀ ≤ agree (fnRest t) (writeSqTail s t q v) := by simp only [writeSqTail]; bound
@[bound] theorem agree_fnRest_writeCqHead (h : agree (fnRest t) s₀ ≤ agree (fnRest t) s) (q : QpIx) (v : BitVec 16) :
    agree (fnRest t) s₀ ≤ agree (fnRest t) (writeCqHead s t q v) := by simp only [writeCqHead]; bound
@[bound] theorem agree_fnRest_writeQpReg (h : agree (fnRest t) s₀ ≤ agree (fnRest t) s) (q : QpIx) (off width v : Nat) :
    agree (fnRest t) s₀ ≤ agree (fnRest t) (writeQpReg s t q off width v) := by
  simp only [writeQpReg, writeQpCtrl]
  refine agree_ite (agree_fnRest_modQp h ..) (agree_ite h ?_)
  split
  · exact agree_fnRest_modQp h ..
  · split
    · exact agree_fnRest_modQp h ..
    · exact h
@[bound] theorem agree_fnRest_writeTarnReg (h : agree (fnRest t) s₀ ≤ agree (fnRest t) s) (off width v : Nat) :
    agree (fnRest t) s₀ ≤ agree (fnRest t) (writeTarnReg s t off width v) := by
  simp only [writeTarnReg, writeAdvCtrl, writeAdvHead]
  refine agree_ite (agree_fnRest_modFn h _) (agree_ite (agree_fnRest_modFn h _) (agree_ite (agree_fnRest_modFn h _)
    (agree_ite (agree_fnRest_modFn h _) ?_)))
  split
  · exact agree_ite h (agree_fnRest_modFn h _)
  · exact h
@[bound] theorem agree_fnRest_writeVectorMask (h : agree (fnRest t) s₀ ≤ agree (fnRest t) s) (v : Nat) (m : Bool) :
    agree (fnRest t) s₀ ≤ agree (fnRest t) (writeVectorMask s t v m) := agree_fnRest_flushPending (agree_fnRest_modFn h _)
@[bound] theorem agree_fnRest_writeMsix (h : agree (fnRest t) s₀ ≤ agree (fnRest t) s) (off v : Nat) :
    agree (fnRest t) s₀ ≤ agree (fnRest t) (writeMsix s t off v) := by
  simp only [writeMsix]
  split <;> bound
@[bound] theorem agree_fnRest_writeBar0 (h : agree (fnRest t) s₀ ≤ agree (fnRest t) s) (off width v : Nat) :
    agree (fnRest t) s₀ ≤ agree (fnRest t) (writeBar0 s t off width v) := by
  simp only [writeBar0]
  refine agree_ite h (agree_ite (agree_fnRest_writeTarnReg h ..) (agree_ite (agree_fnRest_writeQpReg h ..)
    (agree_ite (agree_ite (agree_fnRest_writeMsix h ..) h) (agree_ite ?_ h))))
  exact agree_ite (agree_fnRest_writeSqTail h ..) (agree_ite (agree_fnRest_writeCqHead h ..) h)
@[bound] theorem agree_fnRest_readEffect (h : agree (fnRest t) s₀ ≤ agree (fnRest t) s) (off width : Nat) :
    agree (fnRest t) s₀ ≤ agree (fnRest t) (readEffect s t off width) := by simp only [readEffect]; bound

/-! The operations on one queue pair -/

variable {q : QpIx}

@[bound] theorem agree_qpRest_emit (h : agree (qpRest t q) s₀ ≤ agree (qpRest t q) s) (o : Output) :
    agree (qpRest t q) s₀ ≤ agree (qpRest t q) (emit s o) := agree_of_eq h rfl
@[bound] theorem agree_qpRest_modQp (h : agree (qpRest t q) s₀ ≤ agree (qpRest t q) s) (g : Qp → Qp) :
    agree (qpRest t q) s₀ ≤ agree (qpRest t q) (modQp s t q g) := by
  refine agree_of_eq h (congrArg (fun l => { s with outbox := [], fns := l }) ?_)
  refine List.ext_getElem (by simp [modQp, modFn]) fun j _ _ => ?_
  simp only [modQp, modFn, List.getElem_modify]
  split
  · simp only [set_modify]
  · rfl
@[bound] theorem agree_qpRest_ringPump (h : agree (qpRest t q) s₀ ≤ agree (qpRest t q) s) :
    agree (qpRest t q) s₀ ≤ agree (qpRest t q) (ringPump s t q) := by simp only [ringPump]; bound
@[bound] theorem agree_qpRest_writeSqTail (h : agree (qpRest t q) s₀ ≤ agree (qpRest t q) s) (v : BitVec 16) :
    agree (qpRest t q) s₀ ≤ agree (qpRest t q) (writeSqTail s t q v) := by simp only [writeSqTail]; bound
@[bound] theorem agree_qpRest_writeCqHead (h : agree (qpRest t q) s₀ ≤ agree (qpRest t q) s) (v : BitVec 16) :
    agree (qpRest t q) s₀ ≤ agree (qpRest t q) (writeCqHead s t q v) := by simp only [writeCqHead]; bound

end

/-! The commands -/

/-- A command of one function's registers. -/
inductive RegisterCommand (t : TarnIx) : Instr → Prop
  | sqDoorbell (q v) : RegisterCommand t (.sqDoorbell t q v)
  | cqDoorbell (q v) : RegisterCommand t (.cqDoorbell t q v)
  | qpEnable (q v) : RegisterCommand t (.qpEnable t q v)
  | qpDisable (q v) : RegisterCommand t (.qpDisable t q v)
  | advEnable (v) : RegisterCommand t (.advEnable t v)
  | advDisable (v) : RegisterCommand t (.advDisable t v)
  | advHeadWrite (v) : RegisterCommand t (.advHeadWrite t v)
  | beatRead (o n) : RegisterCommand t (.beatRead ⟨t, o, n⟩)
  | registerWrite (o n w) : RegisterCommand t (.registerWrite (.tarn t) (.bar0 o) n w)
  | msixUnmask (x) : RegisterCommand t (.msixUnmask t x)
  | busMasterEnable (b) : RegisterCommand t (.busMasterEnable t b)

theorem exec_registerCommand {t : TarnIx} {c : Instr} (hc : RegisterCommand t c) (s : State) : exec c s = .next (nextOf s (exec c s)) := by
  cases hc <;> rfl

theorem agree_fnRest_registerCommand {t : TarnIx} {c : Instr} (hc : RegisterCommand t c) (s : State) :
    agree (fnRest t) s ≤ agree (fnRest t) (nextOf s (exec c s)) := by
  have h : agree (fnRest t) s ≤ agree (fnRest t) s := le_rfl
  cases hc with
  | sqDoorbell => exact agree_ite (agree_fnRest_writeSqTail h ..) h
  | cqDoorbell => exact agree_ite (agree_fnRest_writeCqHead h ..) h
  | qpEnable => exact agree_ite (agree_fnRest_modQp h ..) h
  | qpDisable => exact agree_ite (agree_fnRest_modQp h ..) h
  | advEnable => exact agree_ite (agree_fnRest_modFn h _) h
  | advDisable => exact agree_ite (agree_fnRest_modFn h _) h
  | advHeadWrite => exact agree_ite (agree_fnRest_modFn h _) h
  | beatRead => exact agree_ite (agree_fnRest_emit (agree_fnRest_readEffect h ..) _) h
  | registerWrite => exact agree_ite (agree_fnRest_writeBar0 h ..) h
  | msixUnmask => exact agree_ite (agree_fnRest_writeVectorMask h ..) h
  | busMasterEnable b =>
    refine agree_ite (agree_ite (agree_foldl (fun s q h => agree_fnRest_ringPump h q) _ ?_) (agree_fnRest_modFn h _)) h
    exact agree_fnRest_flushPending (agree_fnRest_modFn h _)

theorem agree_qpRest_queuePairCommand {t : TarnIx} {q : QpIx} {v : BitVec 32} {c : Instr}
    (hc : c = .sqDoorbell t q v ∨ c = .cqDoorbell t q v ∨ c = .qpEnable t q v ∨ c = .qpDisable t q v) (s : State) :
    agree (qpRest t q) s ≤ agree (qpRest t q) (nextOf s (exec c s)) := by
  have h : agree (qpRest t q) s ≤ agree (qpRest t q) s := le_rfl
  rcases hc with rfl | rfl | rfl | rfl
  · exact agree_ite (agree_qpRest_writeSqTail h _) h
  · exact agree_ite (agree_qpRest_writeCqHead h _) h
  · exact agree_ite (agree_qpRest_modQp h _) h
  · exact agree_ite (agree_qpRest_modQp h _) h

/-- While BAR0 does not answer, its commands change nothing. -/
theorem registerCommand_unreached {t : TarnIx} {c : Instr} (hc : RegisterCommand t c) {s : State} (h : hostReach s t = false)
    (hbm : ∀ b, c ≠ .busMasterEnable t b) : exec c s = .next s := by
  have hno : ¬ hostReach s t = true := by simp [h]
  cases hc with
  | busMasterEnable b => exact absurd rfl (hbm b)
  | _ => exact congrArg _ (if_neg hno)

/-! Configuration space -/

/-- The state without its function registers, tickets, Tally and ports. -/
def configRest (s : State) : State :=
  { s with fns := [], tickets := [], tally := {},
           board := { s.board with portA := {}, portB := {}, connA := {}, connB := {} } }

theorem eq_of_configRest {s s' : State} (h : configRest s = configRest s') :
    s' = { s with fns := s'.fns, tickets := s'.tickets, tally := s'.tally,
                  board := { s.board with portA := s'.board.portA, portB := s'.board.portB,
                                          connA := s'.board.connA, connB := s'.board.connB } } :=
  congrArg (fun x : State => { x with
    fns := s'.fns, tickets := s'.tickets, tally := s'.tally
    board := { x.board with portA := s'.board.portA, portB := s'.board.portB,
                            connA := s'.board.connA, connB := s'.board.connB } }) h.symm

/-- A write of configuration space changes registers of the function it names, and the function reset that leaves D3hot its tickets and
the Tally. -/
structure ConfigWritten (f : Func) (r : ConfigReg) (s s' : State) : Prop where
  frame : configRest s = configRest s'
  others : ∀ u, f ≠ .tarn u → fnOf s' u = fnOf s u
  tickets : r ≠ .powerState → s'.tickets = s.tickets ∧ s'.tally = s.tally

variable {f : Func} {r : ConfigReg} {s : State}

theorem ConfigWritten.none : ConfigWritten f r s s := ⟨rfl, fun _ _ => rfl, fun _ => ⟨rfl, rfl⟩⟩

theorem ConfigWritten.tarn (t : TarnIx) (g : FnRegs → FnRegs) : ConfigWritten (.tarn t) r s (modFn s t g) :=
  ⟨rfl, fun u hu => fnOf_of_fnRest (agree_le_iff.mp (agree_fnRest_modFn le_rfl g)) fun e => hu (by rw [e]), fun _ => ⟨rfl, rfl⟩⟩

theorem ConfigWritten.port (p : Port) (g : PortSt → PortSt) : ConfigWritten f r s (modPort s p g) := by
  cases p <;> exact ⟨rfl, fun _ _ => rfl, fun _ => ⟨rfl, rfl⟩⟩

theorem ConfigWritten.leave_d3hot (t : TarnIx) : ConfigWritten (.tarn t) .powerState s (flrTarn s t) := by
  have hfn (u : TarnIx) (hu : u ≠ t) : fnOf (modFn (abortTickets s t) t fnAfterFlr) u = fnOf (abortTickets s t) u :=
    fnOf_of_fnRest (agree_le_iff.mp (agree_fnRest_modFn le_rfl fnAfterFlr)) hu
  have hframe : configRest s = configRest (flrTarn s t) := by
    simp only [configRest, flrTarn, tallySession, tally, modFn, abortTickets]
  exact ⟨hframe, fun u hu => hfn u fun e => hu (by rw [e]), fun h => absurd rfl h⟩

theorem ConfigWritten.dropConn (p : Port) (g : PortSt → PortSt) : ConfigWritten f r s (dropConn (modPort s p g) p) := by
  cases p <;> exact ⟨by simp only [configRest, Machine.dropConn, modPort], fun _ _ => rfl, fun _ => ⟨rfl, rfl⟩⟩

theorem ConfigWritten.ite {c : Prop} [Decidable c] {a b : State} (ha : ConfigWritten f r s a) (hb : ConfigWritten f r s b) :
    ConfigWritten f r s (if c then a else b) := by split <;> assumption

theorem writeConfig_written (s : State) (f : Func) (r : ConfigReg) (v : Nat) : ConfigWritten f r s (writeConfig s f r v) := by
  unfold writeConfig
  split
  · exact .ite (.tarn ..) .none
  · exact .ite (.port ..) .none
  · exact .ite (.tarn ..) (.ite (.leave_d3hot _) .none)
  · exact .ite (.port ..) (.ite (.dropConn ..) .none)
  · exact .tarn ..
  · exact .ite (.port ..) .none
  · exact .none

end Sys2Proof.Machine

open Sys2Proof.Machine

/-- Settles O5: the frames of the commands. -/
theorem registerCommandsTouchOneFunction : Obligations.RegisterCommandsTouchOneFunction := by
  constructor
  · intro s t q v w o n x b c hc
    have hreg : RegisterCommand t c := by
      rcases hc with rfl | rfl | rfl | rfl | rfl | rfl | rfl | rfl | rfl | rfl | rfl <;> constructor
    have hfn := agree_le_iff.mp (agree_fnRest_registerCommand hreg s)
    constructor
    · refine ⟨_, exec_registerCommand hreg s, eq_of_fnRest hfn, fun u hu => fnOf_of_fnRest hfn hu, fun hqp p hp => ?_⟩
      exact qpOf_of_qpRest (agree_le_iff.mp (agree_qpRest_queuePairCommand hqp s)) hp
    · intro hoff hbm
      have hunreached : hostReach s t = false := by
        rcases hoff with h | h <;> simp [hostReach, h]
      refine registerCommand_unreached hreg hunreached ?_
      rintro b' rfl
      obtain rfl : b' = b := by simpa using hc
      exact hbm rfl
  · intro s f r n w
    have hwritten : ConfigWritten f r s (nextOf s (exec (.registerWrite f (.config r) n w) s)) :=
      .ite (writeConfig_written s f r _) .none
    exact ⟨_, rfl, eq_of_configRest hwritten.frame, hwritten.others, hwritten.tickets⟩

end

section
/-! Completions posted to a queue pair's ring (R69, R72, R74, R75, R91, R102, R388), and the statement about them. -/

namespace Sys2Proof.Machine

/-! The 32 bytes of a completion entry (Table 02-7) -/

section
variable (commandId : BitVec 16) (st : Status) (flags sqHead : Nat) (ticketId : BitVec 32) (r0 beat r1 : Nat)

/-- The first four bytes of a completion entry. -/
theorem compBytes_fst : (compBytes commandId.toNat st flags sqHead ticketId r0 beat r1).1 =
    leBytes 2 commandId.toNat ++ leBytes 1 (statusCode st) ++ leBytes 1 flags := rfl

theorem length_compBytes_fst : (compBytes commandId.toNat st flags sqHead ticketId r0 beat r1).1.length = 4 := by
  simp [compBytes]

theorem length_compBytes_snd : (compBytes commandId.toNat st flags sqHead ticketId r0 beat r1).2.length = 28 := by
  simp [compBytes]

theorem field_compBytes_commandId :
    field (compBytes commandId.toNat st flags sqHead ticketId r0 beat r1).1 0 2 = commandId.toNat := by
  rw [compBytes_fst, List.append_assoc]
  exact (field_leBytes_between (a := []) rfl _ 2 commandId.toNat).trans (Nat.mod_eq_of_lt commandId.isLt)

theorem statusCode_lt (st : Status) : statusCode st < 256 := by cases st <;> decide

theorem byteAt_compBytes_status :
    byteAt (compBytes commandId.toNat st flags sqHead ticketId r0 beat r1).1 2 = statusCode st :=
  Nat.mod_eq_of_lt (statusCode_lt st)

theorem byteAt_compBytes_flags :
    byteAt (compBytes commandId.toNat st flags sqHead ticketId r0 beat r1).1 3 = flags % 256 := rfl

end

/-- The lowest bit of FLAGS is PHASE. -/
theorem compFlags_phase (p : Qp) (c : Comp) : compFlags p c % 256 % 2 = phaseBit (qpDepth p) p.cqTail := by
  have hphase : phaseBit (qpDepth p) p.cqTail < 2 := by unfold phaseBit; split <;> decide
  unfold compFlags
  omega

/-! What posting keeps -/

section
variable {s : State} {t : TarnIx} {q : QpIx}

theorem Shaped.writeEntry (h : Shaped s) (t : TarnIx) (base d : Nat) (tail : BitVec 16) (e : Bytes × Bytes) :
    Shaped (writeEntry s t base d tail e) := { h with }

theorem Shaped.releaseTicket (h : Shaped s) (uid : Nat) : Shaped (releaseTicket s uid) := by
  unfold Machine.releaseTicket
  split
  · exact h
  next k _ =>
    have htarn (g) : Shaped (modTarn s k.tarn g) := { h with tarns := (length_modTarn s k.tarn g).trans h.tarns }
    exact { (htarn _).modFn k.tarn (g := fun f => { f with recovering := f.recovering.filter (· != uid) }) fun _ hf => hf with }

/-- The release of a ticket changes no queue pair. -/
theorem qpOf_releaseTicket (h : Shaped s) (uid : Nat) (t : TarnIx) (q : QpIx) : qpOf (releaseTicket s uid) t q = qpOf s t q := by
  unfold releaseTicket
  split
  · rfl
  next k _ =>
    have hfn (g : Tarn → Tarn) (g' : FnRegs → FnRegs) (hg : ∀ f, (g' f).qps = f.qps) :
        qpOf (modFn (modTarn s k.tarn g) k.tarn g') t q = qpOf s t q := by
      rw [qpOf, fnOf_modFn (modTarn s k.tarn g) k.tarn t g' h.fns]
      split
      · rw [hg]; rfl
      · rfl
    exact hfn _ _ fun _ => rfl

/-! One completion -/

/-- The oldest entry taken. -/
def tookHead (p : Qp) : Qp := { p with order := p.order.drop 1 }

/-- A completion that could not be written. -/
def postFailed (p : Qp) : Qp := { qpFault p 3 with withhold := true }

/-- The bytes of a completion entry. -/
def compEntry (s : State) (p : Qp) (x : PostItem) (c : Comp) : Bytes × Bytes :=
  compBytes x.commandId.toNat c.status (compFlags p c) p.sqHead.toNat c.ticketId c.result0.toNat s.beat c.result1.toNat

/-- A completion written, and counted toward an interrupt. -/
def tookSlot (s : State) (x : PostItem) (p : Qp) : Qp :=
  { p with cqTail := p.cqTail + 1
           counted := if p.irqEn then p.counted ++ [{ beat := s.beat, irqNow := x.irqNow }] else p.counted }

/-- A slot taken moves CQ_TAIL by one, and leaves ERROR. -/
theorem tookSlot_tookHead (s : State) (x : PostItem) (p : Qp) :
    (tookSlot s x (tookHead p)).cqTail = p.cqTail + 1 ∧ (tookSlot s x (tookHead p)).error = p.error := ⟨rfl, rfl⟩

/-- A failed write sets ERROR with CAUSE 3, the first cause staying, and takes no slot (R102, R703). -/
theorem postFailed_tookHead (p : Qp) :
    (postFailed (tookHead p)).error = true ∧ (postFailed (tookHead p)).cause = (if p.error then p.cause else 3) ∧
      (postFailed (tookHead p)).withhold = true ∧ (postFailed (tookHead p)).cqTail = p.cqTail := ⟨rfl, rfl, rfl, rfl⟩

/-- The write of a completion entry at its slot. -/
def slotWritten (s : State) (t : TarnIx) (q : QpIx) (x : PostItem) (c : Comp) : State :=
  writeEntry (modQp s t q tookHead) t (qpOf s t q).cqBase.toNat (qpDepth (qpOf s t q)) (qpOf s t q).cqTail
    (compEntry s (qpOf s t q) x c)

/-- A completion is withheld, cannot be written, or is written. -/
theorem postComp_eq (h : Shaped s) (x : PostItem) (c : Comp) (fails : Bool) :
    postComp s t q x c fails =
      if (qpOf s t q).withhold then modQp s t q tookHead
      else if fails || !issues (fnOf s t) then modQp (modQp s t q tookHead) t q postFailed
      else modQp (slotWritten s t q x c) t q (tookSlot s x) := by
  have hissues : issues (fnOf (modQp s t q tookHead) t) = issues (fnOf s t) := by rw [fnOf_modQp s t t q _ h.fns]; rfl
  rw [← hissues]
  rfl

theorem qpOf_slotWritten (h : Shaped s) (x : PostItem) (c : Comp) : qpOf (slotWritten s t q x c) t q = tookHead (qpOf s t q) :=
  qpOf_modQp_same h t q tookHead

theorem Shaped.slotWritten (h : Shaped s) (x : PostItem) (c : Comp) : Shaped (slotWritten s t q x c) := (h.modQp t q _).writeEntry ..

/-- An entry is sent in two writes (R75, R388). -/
theorem outbox_writeEntry (s : State) (t : TarnIx) (base d : Nat) (tail : BitVec 16) (e : Bytes × Bytes) :
    (writeEntry s t base d tail e).outbox = s.outbox ++
      [.hostWrite t (base + 32 * (tail.toNat % d) + 4) e.2 false (viaCache s t),
       .hostWrite t (base + 32 * (tail.toNat % d)) e.1 false (viaCache s t)] := List.append_assoc ..

theorem outbox_slotWritten (s : State) (t : TarnIx) (q : QpIx) (x : PostItem) (c : Comp) :
    (slotWritten s t q x c).outbox = s.outbox ++
      [.hostWrite t ((qpOf s t q).cqBase.toNat + 32 * ((qpOf s t q).cqTail.toNat % qpDepth (qpOf s t q)) + 4)
        (compEntry s (qpOf s t q) x c).2 false (viaCache s t),
       .hostWrite t ((qpOf s t q).cqBase.toNat + 32 * ((qpOf s t q).cqTail.toNat % qpDepth (qpOf s t q)))
        (compEntry s (qpOf s t q) x c).1 false (viaCache s t)] :=
  outbox_writeEntry (modQp s t q tookHead) ..

variable {x : PostItem} {c : Comp} {fails : Bool}

theorem postComp_withheld (h : Shaped s) (hw : (qpOf s t q).withhold = true) : postComp s t q x c fails = modQp s t q tookHead := by
  rw [postComp_eq h, if_pos hw]

theorem postComp_failed (h : Shaped s) (hw : (qpOf s t q).withhold = false) (hf : fails = true ∨ issues (fnOf s t) = false) :
    postComp s t q x c fails = modQp (modQp s t q tookHead) t q postFailed := by
  have hcond : (fails || !issues (fnOf s t)) = true := by rcases hf with hf | hf <;> simp [hf]
  rw [postComp_eq h, if_neg (by simp [hw]), if_pos hcond]

theorem postComp_written (h : Shaped s) (hw : (qpOf s t q).withhold = false) (hf : fails = false) (hi : issues (fnOf s t) = true) :
    postComp s t q x c fails = modQp (slotWritten s t q x c) t q (tookSlot s x) := by
  rw [postComp_eq h, if_neg (by simp [hw]), if_neg (by simp [hf, hi])]

/-- The queue pair after one of its completions was posted. -/
theorem qpOf_postComp (h : Shaped s) (t : TarnIx) (q : QpIx) (x : PostItem) (c : Comp) (fails : Bool) :
    qpOf (postComp s t q x c fails) t q =
      if (qpOf s t q).withhold then tookHead (qpOf s t q)
      else if fails || !issues (fnOf s t) then postFailed (tookHead (qpOf s t q))
      else tookSlot s x (tookHead (qpOf s t q)) := by
  rw [postComp_eq h]
  split
  · exact qpOf_modQp_same h ..
  · split
    · rw [qpOf_modQp_same (h.modQp t q _), qpOf_modQp_same h]
    · rw [qpOf_modQp_same (h.slotWritten x c), qpOf_slotWritten h]

theorem order_postComp (h : Shaped s) : (qpOf (postComp s t q x c fails) t q).order = (qpOf s t q).order.drop 1 := by
  rw [qpOf_postComp h]
  split
  · rfl
  · split <;> rfl

/-- CQ_TAIL stays or goes up by one. -/
theorem cqTail_postComp (h : Shaped s) :
    (qpOf (postComp s t q x c fails) t q).cqTail = (qpOf s t q).cqTail ∨
      (qpOf (postComp s t q x c fails) t q).cqTail = (qpOf s t q).cqTail + 1 := by
  rw [qpOf_postComp h]
  split
  · exact .inl rfl
  · split
    · exact .inl (postFailed_tookHead _).2.2.2
    · exact .inr (tookSlot_tookHead ..).1

theorem Shaped.postComp (h : Shaped s) (t : TarnIx) (q : QpIx) (x : PostItem) (c : Comp) (fails : Bool) :
    Shaped (postComp s t q x c fails) := by
  rw [postComp_eq h]
  split
  · exact h.modQp ..
  · split
    · exact (h.modQp ..).modQp ..
    · exact (h.slotWritten x c).modQp ..

/-- Posting a completion changes no other queue pair of the function. -/
theorem qpOf_postComp_ne (h : Shaped s) {p : QpIx} (hp : p ≠ q) : qpOf (postComp s t q x c fails) t p = qpOf s t p := by
  have hne {s : State} (h : Shaped s) (g : Qp → Qp) : qpOf (modQp s t q g) t p = qpOf s t p := by
    rw [qpOf_modQp s t t q p g h.fns (h.fnOf_shaped t).1, if_neg fun e => hp e.2.symm]
  rw [postComp_eq h]
  split
  · exact hne h _
  · split
    · rw [hne (h.modQp t q _), hne h]
    · rw [hne (h.slotWritten x c)]
      exact hne h tookHead

/-- A completion that goes out: its two writes at slot CQ_TAIL mod D, and CQ_TAIL goes up by one. -/
theorem postComp_sent (h : Shaped s) (hw : (qpOf s t q).withhold = false) (hf : fails = false) (hi : issues (fnOf s t) = true) :
    (qpOf (postComp s t q x c fails) t q).cqTail = (qpOf s t q).cqTail + 1 ∧
      (qpOf (postComp s t q x c fails) t q).error = (qpOf s t q).error ∧
      ∃ lo hi : Bytes, lo.length = 4 ∧ hi.length = 28 ∧ field lo 0 2 = x.commandId.toNat ∧ byteAt lo 2 = statusCode c.status ∧
        byteAt lo 3 % 2 = phaseBit (qpDepth (qpOf s t q)) (qpOf s t q).cqTail ∧
        (postComp s t q x c fails).outbox = s.outbox ++
          [.hostWrite t ((qpOf s t q).cqBase.toNat + 32 * ((qpOf s t q).cqTail.toNat % qpDepth (qpOf s t q)) + 4) hi false
            (viaCache s t),
           .hostWrite t ((qpOf s t q).cqBase.toNat + 32 * ((qpOf s t q).cqTail.toNat % qpDepth (qpOf s t q))) lo false
            (viaCache s t)] := by
  rw [postComp_written h hw hf hi, qpOf_modQp_same (h.slotWritten x c), qpOf_slotWritten h]
  obtain ⟨htail, herror⟩ := tookSlot_tookHead s x (qpOf s t q)
  refine ⟨htail, herror, _, _, length_compBytes_fst .., length_compBytes_snd .., field_compBytes_commandId .., byteAt_compBytes_status .., ?_,
    outbox_slotWritten s t q x c⟩
  rw [byteAt_compBytes_flags, compFlags_phase]

/-- A completion whose write cannot be made: ERROR with CAUSE 3, the first cause staying, and every later one is withheld. -/
theorem postComp_faults (h : Shaped s) (hw : (qpOf s t q).withhold = false) (hf : fails = true ∨ issues (fnOf s t) = false) :
    (qpOf (postComp s t q x c fails) t q).error = true ∧
      (qpOf (postComp s t q x c fails) t q).cause = (if (qpOf s t q).error then (qpOf s t q).cause else 3) ∧
      (qpOf (postComp s t q x c fails) t q).withhold = true ∧
      (qpOf (postComp s t q x c fails) t q).cqTail = (qpOf s t q).cqTail ∧ (postComp s t q x c fails).outbox = s.outbox := by
  rw [postComp_failed h hw hf, qpOf_modQp_same (h.modQp t q _), qpOf_modQp_same h]
  obtain ⟨herror, hcause, hwithhold, htail⟩ := postFailed_tookHead (qpOf s t q)
  exact ⟨herror, hcause, hwithhold, htail, rfl⟩

theorem postComp_withholds (h : Shaped s) (hw : (qpOf s t q).withhold = true) :
    (postComp s t q x c fails).outbox = s.outbox ∧ (qpOf (postComp s t q x c fails) t q).cqTail = (qpOf s t q).cqTail := by
  rw [postComp_withheld h hw, qpOf_modQp_same h]
  exact ⟨rfl, rfl⟩

/-! The completions of a queue pair -/

/-- Where `s'` comes from `s` by posting `k` entries from the front of a queue pair's order. -/
structure PostedFront (k : Nat) (t : TarnIx) (q : QpIx) (s s' : State) : Prop where
  order : (qpOf s' t q).order = (qpOf s t q).order.drop k
  cqTail : ringDist (qpOf s t q).cqTail (qpOf s' t q).cqTail ≤ k
  others : ∀ p, p ≠ q → qpOf s' t p = qpOf s t p

theorem PostedFront.zero (t : TarnIx) (q : QpIx) (s : State) : PostedFront 0 t q s s := ⟨rfl, by simp [ringDist], fun _ _ => rfl⟩

theorem PostedFront.one (h : Shaped s) (t : TarnIx) (q : QpIx) (x : PostItem) (c : Comp) (fails : Bool) :
    PostedFront 1 t q s (postComp s t q x c fails) where
  order := order_postComp h
  cqTail := by
    rcases cqTail_postComp (x := x) (c := c) (fails := fails) h with e | e <;> rw [e]
    · simp [ringDist]
    · simp [ringDist]
  others _ hp := qpOf_postComp_ne h hp

/-- Distances on the ring add up at most. -/
theorem ringDist_le_add (a b c : BitVec 16) : ringDist a c ≤ ringDist a b + ringDist b c := by
  have hsum : c - a = (b - a) + (c - b) := by ring
  rw [ringDist, hsum, BitVec.toNat_add]
  exact Nat.mod_le ..

theorem PostedFront.trans {j k : Nat} {s s' s'' : State} (h : PostedFront j t q s s') (h' : PostedFront k t q s' s'') :
    PostedFront (j + k) t q s s'' where
  order := by rw [h'.order, h.order, List.drop_drop]
  cqTail := (ringDist_le_add _ _ _).trans (Nat.add_le_add h.cqTail h'.cqTail)
  others p hp := (h'.others p hp).trans (h.others p hp)

/-- The release of a ticket posts nothing. -/
theorem PostedFront.release (h : Shaped s) (t : TarnIx) (q : QpIx) (uid : Nat) : PostedFront 0 t q s (releaseTicket s uid) where
  order := by rw [qpOf_releaseTicket h, List.drop_zero]
  cqTail := by simp [qpOf_releaseTicket h, ringDist]
  others p _ := qpOf_releaseTicket h uid t p

/-- One turn of posting: the completion of the oldest entry, and the release of its ticket. -/
def postTurn (s : State) (t : TarnIx) (q : QpIx) (x : PostItem) (c : Comp) (fails : Bool) : State :=
  match x.uid with
  | some uid => releaseTicket (postComp s t q x c fails) uid
  | none => postComp s t q x c fails

theorem postTurn_posted (h : Shaped s) (t : TarnIx) (q : QpIx) (x : PostItem) (c : Comp) (fails : Bool) :
    Shaped (postTurn s t q x c fails) ∧ PostedFront 1 t q s (postTurn s t q x c fails) := by
  have hs := h.postComp t q x c fails
  have hone := PostedFront.one h t q x c fails
  unfold postTurn
  split
  · exact ⟨hs.releaseTicket _, hone.trans (.release hs t q _)⟩
  · exact ⟨hs, hone⟩

/-- Posting ends, or takes a turn with the oldest entry. -/
theorem postQp_succ (may : PostItem → Bool) (t : TarnIx) (q : QpIx) (fails : Bool) (n : Nat) (s : State) :
    postQp may t q fails (n + 1) s = s ∨
      ∃ x c, postQp may t q fails (n + 1) s = postQp may t q fails n (postTurn s t q x c fails) := by
  rw [postQp]
  split
  · exact .inl rfl
  next x _ _ =>
    split
    · exact .inl rfl
    next c _ =>
      refine .inr ⟨x, c, ?_⟩
      unfold postTurn
      cases x.uid <;> rfl

theorem postQp_postedFront (may : PostItem → Bool) (t : TarnIx) (q : QpIx) (fails : Bool) (n : Nat) (h : Shaped s) :
    ∃ k, k ≤ n ∧ PostedFront k t q s (postQp may t q fails n s) := by
  induction n generalizing s with
  | zero => exact ⟨0, le_rfl, .zero t q s⟩
  | succ n ih =>
    rcases postQp_succ may t q fails n s with e | ⟨x, c, e⟩ <;> rw [e]
    · exact ⟨0, Nat.zero_le _, .zero t q s⟩
    · obtain ⟨hs, hturn⟩ := postTurn_posted h t q x c fails
      obtain ⟨k, hk, hrest⟩ := ih hs
      exact ⟨1 + k, by omega, hturn.trans hrest⟩

end
end Sys2Proof.Machine

open Sys2Proof.Machine

/-- Settles O54: a completion by its three cases, posting a queue pair by induction on its turns. -/
theorem completionsPostedInRingOrder : Obligations.CompletionsPostedInRingOrder := by
  intro s t q hs
  constructor
  · intro x rest c fails horder
    refine ⟨(order_postComp hs).trans (by rw [horder]; rfl), postComp_sent hs, postComp_faults hs, postComp_withholds hs⟩
  · intro may fails n
    obtain ⟨k, hk, hposted⟩ := postQp_postedFront may t q fails n hs
    exact ⟨k, hk, hposted.order, hposted.cqTail, hposted.others⟩

end

section
/-! Answers and completion timeouts of host reads (R101, R236, R389, R390, R439), and the statement about them. -/

namespace Sys2Proof.Machine

section
variable {s : State}

/-- A ticket's next host read keeps its other reads' data. -/
theorem ticketOf_pumpDma {uid stamp : Nat} {k : Ticket} (h : ticketOf s uid = some k) :
    ∃ k', ticketOf (pumpDma s stamp uid) uid = some k' ∧ k'.buf = k.buf := by
  have hfail : ∃ k', ticketOf (failTicket s uid .notPermitted) uid = some k' ∧ k'.buf = k.buf := ⟨_, ticketOf_failTicket h, rfl⟩
  have hsent (g : Ticket → Ticket) (hg : ∀ k : Ticket, (g k).uid = k.uid ∧ (g k).buf = k.buf) (o : Output) :
      ∃ k', ticketOf (emit (modTicket s uid g) o) uid = some k' ∧ k'.buf = k.buf := by
    have hmod := ticketOf_modTicket s uid uid g fun k hk => (hg k).1.trans hk
    rw [if_pos rfl, h] at hmod
    exact ⟨g k, hmod, (hg k).2⟩
  unfold pumpDma
  rw [h]
  dsimp only
  split
  · split
    · exact ⟨k, h, rfl⟩
    · split
      · exact hfail
      · split
        · exact hfail
        · exact hsent _ (by exact fun _ => ⟨rfl, rfl⟩) _
  · exact ⟨k, h, rfl⟩

theorem mem_pumpDma (s : State) (stamp uid : Nat) : (pumpDma s stamp uid).mem = s.mem := by rw [pumpDma_frame]
theorem poison_pumpDma (s : State) (stamp uid : Nat) : (pumpDma s stamp uid).poison = s.poison := by rw [pumpDma_frame]

/-! A ticket's host read -/

/-- A ticket after data for its buffer. -/
def bufferData (c : DmaChunk) (stamp : Nat) (bs : Bytes) (k : Ticket) : Ticket :=
  { k with
    dma := none, buf := k.buf ++ bs
    hand := if c.chk.isSome then k.hand ++ [(k.received + bs.length, stamp)] else k.hand
    received := k.received + bs.length }

theorem ticketOf_bufferData {uid : Nat} {k : Ticket} (hk : ticketOf s uid = some k) (c : DmaChunk) (stamp : Nat) (bs : Bytes) :
    ticketOf (modTicket s uid (bufferData c stamp bs)) uid = some (bufferData c stamp bs k) := by
  rw [ticketOf_modTicket s uid uid (bufferData c stamp bs) fun _ e => e, if_pos rfl, hk]
  rfl

/-- A queue pair whose ring read has failed (R101). -/
def readFault (p : Qp) : Qp := { qpFault p 2 with reading := 0 }

section
variable {uid b : Nat} {k : Ticket} {c : DmaChunk} (hrun : running s = true) (hk : ticketOf s uid = some k) (hdma : k.dma = some (c, b))
include hrun hk hdma

theorem exec_dmaCompletion_data (bs : Bytes) : exec (.dmaCompletion (.ticket uid) (.data bs)) s = .next (ticketData s k c bs) := by
  refine congrArg _ ((if_pos hrun).trans ?_)
  simp only [dmaAnswer, hk, hdma]

theorem exec_dmaCompletion_error {r : DmaResult} (hr : r = .unsupportedRequest ∨ r = .completerAbort ∨ r = .poisoned) :
    exec (.dmaCompletion (.ticket uid) r) s = .next (failTicket (logAer s k.tarn (aerBit r)) uid (dmaStatus r)) := by
  refine congrArg _ ((if_pos hrun).trans ?_)
  rcases hr with rfl | rfl | rfl <;> simp only [dmaAnswer, hk, hdma]

theorem exec_completionTimeout_ticket : exec (.completionTimeout (.ticket uid)) s =
    .next (if ctoPassed s k.tarn c.us then failTicket (logAer s k.tarn 0x4000) uid .timeout else s) := by
  refine congrArg _ ((if_pos hrun).trans ?_)
  simp only [dmaTimeout, hk, hdma]
  rfl

theorem dmaCompletion_buffered (bs : Bytes) (hlen : bs.length = c.len) (hdev : c.dev = none) :
    ∃ s' k', exec (.dmaCompletion (.ticket uid) (.data bs)) s = .next s' ∧ ticketOf s' uid = some k' ∧
      k'.buf = k.buf ++ bs ∧ s'.mem = s.mem ∧ s'.poison = s.poison := by
  have hbuf := ticketOf_bufferData hk c b bs
  have hdata : ticketData s k c bs =
      if k.op == 0x21 || k.op == 0x22 then modTicket s uid (bufferData c b bs)
      else pumpDma (modTicket s uid (bufferData c b bs)) s.beat uid := by
    simp only [ticketData, if_neg (by simp [hlen] : ¬ (bs.length != c.len) = true), hdev, hdma, uid_of_ticketOf hk]
    rfl
  rw [exec_dmaCompletion_data hrun hk hdma, hdata]
  split
  · exact ⟨_, _, rfl, hbuf, rfl, rfl, rfl⟩
  · obtain ⟨k', hk', hbuf'⟩ := ticketOf_pumpDma (stamp := s.beat) hbuf
    exact ⟨_, k', rfl, hk', hbuf', mem_pumpDma .., poison_pumpDma ..⟩

theorem dmaCompletion_landed (hmem : memWf s.mem = true) (bs : Bytes) (d : Nat) (hlen : bs.length = c.len) (hdev : c.dev = some d)
    (hhold : touchesHold s d bs.length = false) :
    ∃ s', exec (.dmaCompletion (.ticket uid) (.data bs)) s = .next s' ∧ s'.mem = (devWrite s d bs).mem ∧
      ∀ key, (∀ i, i < bs.length → addrKey (d + i) ≠ some key) → cellGet s'.mem key = cellGet s.mem key := by
  have hdata : ticketData s k c bs = landChunk s s.beat uid d bs := by
    simp only [ticketData, if_neg (by simp [hlen] : ¬ (bs.length != c.len) = true), hdev, hhold, uid_of_ticketOf hk]
    rfl
  have hlanded : (landChunk s s.beat uid d bs).mem = (devWrite s d bs).mem := mem_pumpDma ..
  refine ⟨_, exec_dmaCompletion_data hrun hk hdma bs, by rw [hdata, hlanded], fun key hkey => ?_⟩
  rw [hdata, hlanded]
  refine cellGet_devWrite_outside s d bs key hmem fun hin => ?_
  obtain ⟨i, hi, e⟩ := List.mem_map.mp hin
  exact hkey i (List.mem_range.mp hi) e

theorem dmaCompletion_parked (bs : Bytes) (d : Nat) (hlen : bs.length = c.len) (hdev : c.dev = some d)
    (hhold : touchesHold s d bs.length = true) :
    ∃ s' k', exec (.dmaCompletion (.ticket uid) (.data bs)) s = .next s' ∧ ticketOf s' uid = some k' ∧
      k'.parked = some (d, bs) ∧ k'.dma = none ∧ s'.mem = s.mem := by
  have hdata : ticketData s k c bs = modTicket s uid fun k => { k with dma := none, parked := some (d, bs), hand := [(bs.length, b)] } := by
    simp only [ticketData, if_neg (by simp [hlen] : ¬ (bs.length != c.len) = true), hdev, hhold, hdma, uid_of_ticketOf hk]
    rfl
  have hparked := ticketOf_modTicket s uid uid (fun k => { k with dma := none, parked := some (d, bs), hand := [(bs.length, b)] })
    fun _ e => e
  rw [if_pos rfl, hk] at hparked
  rw [exec_dmaCompletion_data hrun hk hdma, hdata]
  exact ⟨_, _, rfl, hparked, rfl, rfl, rfl⟩

theorem dmaCompletion_otherLength (bs : Bytes) (hlen : bs.length ≠ c.len) :
    exec (.dmaCompletion (.ticket uid) (.data bs)) s = .next s := by
  rw [exec_dmaCompletion_data hrun hk hdma]
  exact congrArg _ (if_pos (by simpa using hlen))

omit hrun hdma in
/-- A ticket fails with an error logged. -/
theorem failed_and_logged (hs : s.fns.length = 8) (e : BitVec 32) (st : Status) :
    ∃ k', ticketOf (failTicket (logAer s k.tarn e) uid st) uid = some k' ∧ k'.dma = none ∧ k'.faults = k.faults ++ [st] ∧
      (fnOf (failTicket (logAer s k.tarn e) uid st) k.tarn).aer = (fnOf s k.tarn).aer ||| e := by
  have hlogged : ticketOf (logAer s k.tarn e) uid = some k := hk
  refine ⟨_, ticketOf_failTicket hlogged, rfl, rfl, ?_⟩
  exact congrArg FnRegs.aer (fnOf_modFn_same hs fun f => { f with aer := f.aer ||| e })

theorem dmaCompletion_failed (hs : s.fns.length = 8) {r : DmaResult}
    (hr : r = .unsupportedRequest ∨ r = .completerAbort ∨ r = .poisoned) :
    ∃ s' k', exec (.dmaCompletion (.ticket uid) r) s = .next s' ∧ ticketOf s' uid = some k' ∧ k'.dma = none ∧
      k'.faults = k.faults ++ [if r = .poisoned then .dataLost else .notPermitted] ∧
      (fnOf s' k.tarn).aer = (fnOf s k.tarn).aer ||| aerBit r := by
  have hstatus : dmaStatus r = if r = .poisoned then .dataLost else .notPermitted := by rcases hr with rfl | rfl | rfl <;> rfl
  obtain ⟨k', h⟩ := failed_and_logged hk hs (aerBit r) (dmaStatus r)
  rw [← hstatus]
  exact ⟨_, k', exec_dmaCompletion_error hrun hk hdma hr, h⟩

theorem completionTimeout_passed (hs : s.fns.length = 8) (h : c.us + ctoUs (fnOf s k.tarn).ctoEnc ≤ s.timeUs + beatLen s) :
    ∃ s' k', exec (.completionTimeout (.ticket uid)) s = .next s' ∧ ticketOf s' uid = some k' ∧ k'.dma = none ∧
      k'.faults = k.faults ++ [.timeout] ∧ (fnOf s' k.tarn).aer = (fnOf s k.tarn).aer ||| 0x4000 := by
  obtain ⟨k', hfailed⟩ := failed_and_logged hk hs 0x4000 .timeout
  have hpassed : ctoPassed s k.tarn c.us = true := decide_eq_true h
  rw [exec_completionTimeout_ticket hrun hk hdma, if_pos hpassed]
  exact ⟨_, k', rfl, hfailed⟩

theorem completionTimeout_early (h : s.timeUs + beatLen s < c.us + ctoUs (fnOf s k.tarn).ctoEnc) :
    exec (.completionTimeout (.ticket uid)) s = .next s := by
  rw [exec_completionTimeout_ticket hrun hk hdma, if_neg]
  simpa [ctoPassed] using h

end

/-- An answer or a timeout of no ticket's outstanding read changes nothing. -/
theorem read_of_none (hrun : running s = true) {uid : Nat} (h : ∀ k, ticketOf s uid = some k → k.dma = none) (r : DmaResult) :
    exec (.dmaCompletion (.ticket uid) r) s = .next s ∧ exec (.completionTimeout (.ticket uid)) s = .next s := by
  have hnone : dmaAnswer s (.ticket uid) r = s ∧ dmaTimeout s (.ticket uid) = s := by
    cases hk : ticketOf s uid with
    | none => simp only [dmaAnswer, dmaTimeout, hk, and_self]
    | some k => simp only [dmaAnswer, dmaTimeout, hk, h k hk, and_self]
  exact ⟨congrArg _ ((if_pos hrun).trans hnone.1), congrArg _ ((if_pos hrun).trans hnone.2)⟩

/-! A ring read -/

section
variable {t : TarnIx} {q : QpIx} (hrun : running s = true)
include hrun

theorem exec_dmaCompletion_ring (r : DmaResult) : exec (.dmaCompletion (.ring t q) r) s = .next (dmaAnswer s (.ring t q) r) :=
  congrArg _ (if_pos hrun)

theorem exec_completionTimeout_ring : exec (.completionTimeout (.ring t q)) s = .next (dmaTimeout s (.ring t q)) :=
  congrArg _ (if_pos hrun)

theorem ring_not_reading (h : (qpOf s t q).reading = 0) :
    (∀ r, exec (.dmaCompletion (.ring t q) r) s = .next s) ∧ exec (.completionTimeout (.ring t q)) s = .next s := by
  have hnone : ((qpOf s t q).reading == 0) = true := by simp [h]
  constructor
  · intro r
    rw [exec_dmaCompletion_ring hrun]
    cases r with
    | data bs => exact congrArg _ (if_pos (by simp [h]))
    | unsupportedRequest => exact congrArg _ (if_pos hnone)
    | completerAbort => exact congrArg _ (if_pos hnone)
    | poisoned => exact congrArg _ (if_pos hnone)
  · rw [exec_completionTimeout_ring hrun]
    exact congrArg _ (if_pos (by simp [h]))

theorem ringData_otherLength (bs : Bytes) (h : bs.length ≠ 64 * (qpOf s t q).reading) :
    exec (.dmaCompletion (.ring t q) (.data bs)) s = .next s := by
  rw [exec_dmaCompletion_ring hrun]
  exact congrArg _ (if_pos (by simp [h]))

section
variable (hs : Shaped s) (hreading : (qpOf s t q).reading ≠ 0)
include hs hreading

/-- Entries that arrive are kept in the ring's order up to SQ_TAIL (R101). -/
theorem ringData_arrives (bs : Bytes) (hlen : bs.length = 64 * (qpOf s t q).reading) :
    ∃ s', exec (.dmaCompletion (.ring t q) (.data bs)) s = .next s' ∧
      (qpOf s' t q).fetched = ((qpOf s t q).fetched ++ chunks 64 bs).take (ringDist (qpOf s t q).sqHead (qpOf s t q).sqTail) ∧
      (qpOf s' t q).sqHead = (qpOf s t q).sqHead ∧ (qpOf s' t q).error = (qpOf s t q).error := by
  have hdata : dmaAnswer s (.ring t q) (.data bs) = _ := if_neg (by simp [hreading, hlen])
  refine ⟨_, exec_dmaCompletion_ring hrun _, ?_⟩
  rw [hdata, qpOf_ringPump (hs.modQp t q _), qpOf_modQp_same hs]
  exact ⟨rfl, rfl, rfl⟩

omit hrun hreading in
/-- A queue pair whose ring read failed. -/
theorem qpOf_readFault (e : BitVec 32) :
    (qpOf (modQp (logAer s t e) t q readFault) t q).error = true ∧ (qpOf (modQp (logAer s t e) t q readFault) t q).reading = 0 ∧
      (qpOf (modQp (logAer s t e) t q readFault) t q).cause = (if (qpOf s t q).error then (qpOf s t q).cause else 2) := by
  have hlogged : Shaped (logAer s t e) := hs.modFn t (g := fun f => { f with aer := f.aer ||| e }) fun _ hf => hf
  have hqp : qpOf (logAer s t e) t q = qpOf s t q :=
    congrArg (fun f => f.qps.getD q {}) (fnOf_modFn_same hs.fns fun f => { f with aer := f.aer ||| e })
  rw [qpOf_modQp_same hlogged, hqp]
  exact ⟨rfl, rfl, rfl⟩

theorem ringRead_fails {r : DmaResult} (hr : r = .unsupportedRequest ∨ r = .completerAbort ∨ r = .poisoned) :
    ∃ s', exec (.dmaCompletion (.ring t q) r) s = .next s' ∧ (qpOf s' t q).error = true ∧ (qpOf s' t q).reading = 0 ∧
      (qpOf s' t q).cause = (if (qpOf s t q).error then (qpOf s t q).cause else 2) := by
  have hreads : ¬ ((qpOf s t q).reading == 0) = true := by simpa using hreading
  have hanswer : dmaAnswer s (.ring t q) r = modQp (logAer s t (aerBit r)) t q readFault := by
    rcases hr with rfl | rfl | rfl <;> exact if_neg hreads
  exact ⟨_, exec_dmaCompletion_ring hrun r, hanswer ▸ qpOf_readFault hs _⟩

theorem ringRead_timesOut (h : (qpOf s t q).readUs + ctoUs (fnOf s t).ctoEnc ≤ s.timeUs + beatLen s) :
    ∃ s', exec (.completionTimeout (.ring t q)) s = .next s' ∧ (qpOf s' t q).error = true ∧ (qpOf s' t q).reading = 0 ∧
      (qpOf s' t q).cause = (if (qpOf s t q).error then (qpOf s t q).cause else 2) := by
  have htimeout : dmaTimeout s (.ring t q) = modQp (logAer s t (BitVec.ofNat 32 (2 ^ 14))) t q readFault :=
    if_neg (by simp [hreading, ctoPassed, h])
  exact ⟨_, exec_completionTimeout_ring hrun, htimeout ▸ qpOf_readFault hs _⟩

end

theorem ringTimeout_early (h : s.timeUs + beatLen s < (qpOf s t q).readUs + ctoUs (fnOf s t).ctoEnc) :
    exec (.completionTimeout (.ring t q)) s = .next s := by
  rw [exec_completionTimeout_ring hrun]
  exact congrArg _ (if_pos (by simp [ctoPassed, h]))

end
end
end Sys2Proof.Machine

open Sys2Proof.Machine

/-- Settles O6: each clause by the lemma of its answer or timeout. -/
theorem hostReadAnswersAct : Obligations.HostReadAnswersAct := by
  rintro s ⟨hs, hmem⟩ hrun
  refine ⟨fun uid k c b hk hdma => ?_, fun uid r h => read_of_none hrun h r, fun t q => ?_⟩
  · exact ⟨dmaCompletion_buffered hrun hk hdma, dmaCompletion_landed hrun hk hdma hmem, dmaCompletion_parked hrun hk hdma,
      dmaCompletion_otherLength hrun hk hdma, fun _ => dmaCompletion_failed hrun hk hdma hs.fns,
      completionTimeout_passed hrun hk hdma hs.fns, completionTimeout_early hrun hk hdma⟩
  · exact ⟨ring_not_reading hrun, fun hreading => ⟨ringData_arrives hrun hs hreading, ringData_otherLength hrun,
      fun _ => ringRead_fails hrun hs hreading, ringRead_timesOut hrun hs hreading, ringTimeout_early hrun⟩⟩

end

section
/-! The answers of NOP, LEDGER_READ, TALLY_READ, REPORT_GET and BOUNCE_SETUP (R79, R106, R404, R524, R551, R552, R704), and the statement
about them. -/

namespace Sys2Proof.Machine

/-! Writes to a host buffer -/

section
variable {s : State} {k : Ticket} {bs : Bytes}

/-- A function that may not issue requests writes nothing (R391). -/
theorem hostOut_refused (hi : issues (fnOf s k.tarn) = false) (hbs : bs ≠ []) (operand addr : Nat) :
    hostOut s k operand addr bs = (.error .notPermitted, s) := by
  rw [hostOut, if_neg (by simpa using hbs), if_pos (by simp [hi])]

/-- On a standard Tarn bytes are written as they are. -/
theorem hostOut_clear (hi : issues (fnOf s k.tarn) = true) (hc : isConf s k.tarn = false) (operand addr : Nat) (bs : Bytes) :
    hostOut s k operand addr bs = (.ok (), hostPut s k.tarn addr bs) := by
  rw [hostOut, hostPut]
  split
  · rfl
  · rw [if_neg (by simp [hi]), if_neg (by simp [hc])]

theorem hostOut_of_writable (h : HostWritable s k bs) (operand addr : Nat) : (hostOut s k operand addr bs).1 = .ok () := by
  obtain ⟨hi, hconf⟩ := h
  cases hc : isConf s k.tarn with
  | false => rw [hostOut_clear hi hc]
  | true =>
    obtain ⟨x, hx, hspent, hroom⟩ := hconf hc
    have hfit : ((chunks recPayload bs).zipIdx.take (2 ^ 32 - x.d2hNext)).length = (chunks recPayload bs).zipIdx.length := by
      rw [List.length_take, List.length_zipIdx]
      omega
    rcases eq_or_ne bs [] with rfl | hbs
    · rfl
    · rw [hostOut, if_neg (by simpa using hbs), if_neg (by simp [hi]), if_pos hc, hx]
      dsimp only
      rw [hspent, if_neg Bool.false_ne_true, hfit, if_pos (beq_self_eq_true _)]

/-- The state with its ticket table only. -/
def ticketsOnly (s : State) : State := { State.reset with tickets := s.tickets }

theorem ticketOf_of_ticketsOnly {s s' : State} (h : agree ticketsOnly s ≤ agree ticketsOnly s') (uid : Nat) :
    ticketOf s' uid = ticketOf s uid := by
  change ticketOf (ticketsOnly s') uid = ticketOf (ticketsOnly s) uid
  rw [agree_le_iff.mp h]

/-- Writing to the host changes no ticket. -/
theorem ticketOf_hostOut (s : State) (k : Ticket) (operand addr : Nat) (bs : Bytes) (uid : Nat) :
    ticketOf (hostOut s k operand addr bs).2 uid = ticketOf s uid :=
  ticketOf_of_ticketsOnly (agree_hostOut (fun _ _ _ _ => rfl) (fun _ _ => rfl) le_rfl ..) uid

/-- Nor does opening a transfer. -/
theorem ticketOf_plainOf (s : State) (k : Ticket) (operand p : Nat) (raw : Bytes) (uid : Nat) :
    ticketOf (plainOf s k operand p raw).2 uid = ticketOf s uid :=
  ticketOf_of_ticketsOnly (agree_plainOf (fun _ _ _ _ => rfl) le_rfl ..) uid

theorem outbox_hostPut (s : State) (t : TarnIx) (addr : Nat) (bs : Bytes) :
    (hostPut s t addr bs).outbox = s.outbox ++ if bs = [] then [] else [.hostWrite t addr bs true (viaCache s t)] := by
  unfold hostPut
  cases bs with
  | nil => simp
  | cons b bs => rfl

end

/-! Outcomes -/

section
variable {s : State} {uid : Nat} {k : Ticket} (hk : ticketOf s uid = some k)
include hk

theorem endsWith_finishTicket (hr : ticketRuns k = true) (r0 r1 : Nat) : EndsWith (finishTicket s uid r0 r1) uid .ok r0 r1 :=
  ⟨_, ticketOf_finishTicket hk hr, rfl⟩

theorem endsWith_answerTicket (hr : ticketRuns k = true) (st : Status) (r0 r1 : Nat) :
    EndsWith (answerTicket s uid st r0 r1) uid st r0 r1 := ⟨_, ticketOf_answerTicket hk hr, rfl⟩

end

/-! Answers in whole units (R106) -/

section
variable {s : State} {k : Ticket} {l : List Bytes} (operand addr len unit r1 : Nat)

theorem readAnswer_written (h : HostWritable s k (fitUnits (bufCapacity s k len) unit l).flatten) :
    readAnswer s k operand addr len unit l r1 =
      answerTicket (hostOut s k operand addr (fitUnits (bufCapacity s k len) unit l).flatten).2 k.uid
        (if (fitUnits (bufCapacity s k len) unit l).length < l.length then .partialRead else .ok)
        (fitUnits (bufCapacity s k len) unit l).length r1 := by
  have hout : hostOut s k operand addr (fitUnits (bufCapacity s k len) unit l).flatten = (.ok (), _) :=
    Prod.ext (hostOut_of_writable h operand addr) rfl
  unfold readAnswer
  dsimp only
  rw [hout]

theorem readAnswer_ends {uid : Nat} (hk : ticketOf s uid = some k) (hr : ticketRuns k = true)
    (h : HostWritable s k (fitUnits (bufCapacity s k len) unit l).flatten) :
    EndsWith (readAnswer s k operand addr len unit l r1) uid
      (if (fitUnits (bufCapacity s k len) unit l).length < l.length then .partialRead else .ok)
      (fitUnits (bufCapacity s k len) unit l).length r1 := by
  rw [readAnswer_written operand addr len unit r1 h, uid_of_ticketOf hk]
  exact endsWith_answerTicket ((ticketOf_hostOut ..).trans hk) hr ..

theorem readAnswer_refused {uid : Nat} (hk : ticketOf s uid = some k) (hi : issues (fnOf s k.tarn) = false)
    (hout : (fitUnits (bufCapacity s k len) unit l).flatten ≠ []) :
    ∃ k', ticketOf (readAnswer s k operand addr len unit l r1) uid = some k' ∧ k'.faults = k.faults ++ [.notPermitted] ∧
      (readAnswer s k operand addr len unit l r1).outbox = s.outbox := by
  have hrefused : readAnswer s k operand addr len unit l r1 = failTicket s uid .notPermitted := by
    simp only [readAnswer, hostOut_refused hi hout, uid_of_ticketOf hk]
  rw [hrefused]
  exact ⟨_, ticketOf_failTicket hk, rfl, rfl⟩

theorem outbox_readAnswer (hi : issues (fnOf s k.tarn) = true) (hc : isConf s k.tarn = false) :
    (readAnswer s k operand addr len unit l r1).outbox = s.outbox ++
      if (fitUnits len unit l).flatten = [] then [] else [.hostWrite k.tarn addr (fitUnits len unit l).flatten true (viaCache s k.tarn)] := by
  have hcap : bufCapacity s k len = len := by simp [bufCapacity, hc]
  simp only [readAnswer, hcap, hostOut_clear hi hc]
  exact outbox_hostPut ..

end

/-! The commands of a ticket that may be served -/

section
variable {s : State} {uid : Nat} {k : Ticket}

theorem exec_nop (h : servable s uid 0x00 = some k) : exec (.nop uid) s = .next (finishTicket s k.uid 0 0) :=
  congrArg _ (serve_some h)

theorem exec_ledgerRead (h : servable s uid 0x01 = some k) : exec (.ledgerRead uid) s =
    .next (readAnswer s k 2 (opW k 2) (opW k 3) 64 (selectLedger s k.tarn (ledgerSel k)) 0) := congrArg _ (serve_some h)

theorem exec_tallyRead (h : servable s uid 0x04 = some k) : exec (.tallyRead uid) s =
    .next (readAnswer s k 2 (opW k 2) (opW k 3) 128 ((tallyRange s.tally (opW k 0) (opW k 1)).map (tallyFor k.tarn))
      (tallyReadable s.tally - 1)) := congrArg _ (serve_some h)

theorem exec_reportGet (h : servable s uid 0x05 = some k) : exec (.reportGet uid) s = .next (serveReport s k) :=
  congrArg _ (serve_some h)

theorem exec_bounceSetup (h : servable s uid 0x14 = some k) : exec (.bounceSetup uid) s = .next (serveBounceSetup s k) :=
  congrArg _ (serve_some h)

/-- A served ticket is in the table and runs. -/
theorem ticketOf_of_servable {op : Nat} (h : servable s uid op = some k) : ticketOf s uid = some k := (of_servable h).1
theorem ticketRuns_of_servable {op : Nat} (h : servable s uid op = some k) : ticketRuns k = true := by
  obtain ⟨-, -, -, hr, -⟩ := of_servable h
  exact hr

theorem nop_ends (h : servable s uid 0x00 = some k) : ∃ s', exec (.nop uid) s = .next s' ∧ EndsWith s' uid .ok 0 0 := by
  have hk := ticketOf_of_servable h
  refine ⟨_, exec_nop h, ?_⟩
  rw [uid_of_ticketOf hk]
  exact endsWith_finishTicket hk (ticketRuns_of_servable h) ..

/-! REPORT_GET -/

/-- Signing a report changes neither what may be written nor a ticket. -/
theorem hostWritable_report {nonce bs : Bytes} {t : Option TarnIx} (h : HostWritable s k bs) :
    HostWritable (report s t nonce).2 k bs := h

theorem serveReport_ends {nonce : Bytes} {s₁ : State} (hk : ticketOf s uid = some k) (hr : ticketRuns k = true)
    (hplain : plainOf s k 0 32 k.buf = (.ok nonce, s₁)) (hw : HostWritable s₁ k (report s₁ (some k.tarn) nonce).1) :
    EndsWith (serveReport s k) uid .ok (report s₁ (some k.tarn) nonce).1.length 0 := by
  have hk₁ : ticketOf s₁ uid = some k := by rw [← hk, ← ticketOf_plainOf s k 0 32 k.buf uid, hplain]
  have hk₂ : ticketOf (report s₁ (some k.tarn) nonce).2 uid = some k := hk₁
  have hok := hostOut_of_writable (hostWritable_report (t := some k.tarn) (nonce := nonce) hw) 1 (opW k 1)
  have hserved : serveReport s k = finishTicket
      (hostOut (report s₁ (some k.tarn) nonce).2 k 1 (opW k 1) (report s₁ (some k.tarn) nonce).1).2 uid
      (report s₁ (some k.tarn) nonce).1.length 0 := by
    simp only [serveReport, hplain, uid_of_ticketOf hk]
    split
    next st s' e => simp [e] at hok
    next s' e => rw [e]
  rw [hserved]
  exact endsWith_finishTicket ((ticketOf_hostOut ..).trans hk₂) hr ..

theorem serveReport_fails {st : Status} {s₁ : State} (hk : ticketOf s uid = some k)
    (hplain : plainOf s k 0 32 k.buf = (.error st, s₁)) :
    ∃ k', ticketOf (serveReport s k) uid = some k' ∧ k'.faults = k.faults ++ [st] := by
  have hk₁ : ticketOf s₁ uid = some k := by rw [← hk, ← ticketOf_plainOf s k 0 32 k.buf uid, hplain]
  have hserved : serveReport s k = failTicket s₁ uid st := by simp only [serveReport, hplain, uid_of_ticketOf hk]
  rw [hserved]
  exact ⟨_, ticketOf_failTicket hk₁, rfl⟩

/-! BOUNCE_SETUP -/

/-- The session that a BOUNCE_SETUP names may carry a bounce area (R404). -/
abbrev BounceGood (s : State) (k : Ticket) : Prop :=
  isConf s k.tarn = true ∧ opW k 2 < 2 ^ 32 ∧
    ∃ x, sessionOf s k.tarn (BitVec.ofNat 32 (opW k 2)) = some x ∧ x.established = true

theorem serveBounceSetup_good (h : BounceGood s k) : serveBounceSetup s k = finishTicket s k.uid 0 0 := by
  obtain ⟨hc, hid, x, hx, hest⟩ := h
  simp only [serveBounceSetup, hx]
  exact if_pos (by simpa [hc, hest] using hid)

theorem serveBounceSetup_bad (h : ¬ BounceGood s k) : serveBounceSetup s k = answerTicket s k.uid .notPermitted 0 0 := by
  unfold serveBounceSetup
  dsimp only
  split
  next x hx =>
    refine if_neg fun hgood => h ?_
    simp only [Bool.and_eq_true, decide_eq_true_eq] at hgood
    obtain ⟨⟨hc, hest⟩, hid⟩ := hgood
    exact ⟨hc, hid, x, hx, hest⟩
  next => rfl

theorem bounceSetup_answers (h : servable s uid 0x14 = some k) :
    (BounceGood s k → ∃ s', exec (.bounceSetup uid) s = .next s' ∧ EndsWith s' uid .ok 0 0) ∧
      (¬ BounceGood s k → ∃ s', exec (.bounceSetup uid) s = .next s' ∧ EndsWith s' uid .notPermitted 0 0) := by
  have hk := ticketOf_of_servable h
  have hr := ticketRuns_of_servable h
  constructor
  · intro hgood
    refine ⟨_, exec_bounceSetup h, ?_⟩
    rw [serveBounceSetup_good hgood, uid_of_ticketOf hk]
    exact endsWith_finishTicket hk hr ..
  · intro hbad
    refine ⟨_, exec_bounceSetup h, ?_⟩
    rw [serveBounceSetup_bad hbad, uid_of_ticketOf hk]
    exact endsWith_answerTicket hk hr ..

end

/-! Tally entries as a Tarn reads them (R551, R552) -/

theorem tallyFor_whole {t : TarnIx} {e : TallyEntry} (h : e.tarn = t.val ∨ e.tarn = 0xFF) : tallyFor t e = tallyBytes e :=
  if_pos (by simpa [anyTarn] using h)

/-- The part of a redacted entry before its payload. -/
def redactedHead (e : TallyEntry) : Bytes :=
  leBytes 8 e.seq ++ leBytes 8 e.beat ++ leBytes 2 0xFFFF ++ leBytes 1 e.tarn ++ leBytes 1 (b2n e.more + 2 + 4 * b2n e.firmware)
    ++ leBytes 1 0 ++ zeros 3

theorem tallyFor_redacted {t : TarnIx} {e : TallyEntry} (h : e.tarn ≠ t.val) (hany : e.tarn ≠ 0xFF) :
    tallyFor t e = redactedHead e ++ (sha384 (tallyBytes e) ++ zeros 8 ++ e.prev) := by
  rw [tallyFor, if_neg (by simp [anyTarn, h, hany]), redactedHead]
  simp only [List.append_assoc]

theorem length_redactedHead (e : TallyEntry) : (redactedHead e).length = 24 := by simp [redactedHead]

theorem redacted_kind (e : TallyEntry) (payload : Bytes) : field (redactedHead e ++ payload) 0x10 2 = 0xFFFF := by
  have hparts : redactedHead e ++ payload = (leBytes 8 e.seq ++ leBytes 8 e.beat) ++ (leBytes 2 0xFFFF ++
      (leBytes 1 e.tarn ++ leBytes 1 (b2n e.more + 2 + 4 * b2n e.firmware) ++ leBytes 1 0 ++ zeros 3 ++ payload)) := by
    simp only [redactedHead, List.append_assoc]
  rw [hparts]
  exact field_leBytes_between (by simp) ..

theorem redacted_status (e : TallyEntry) (payload : Bytes) : byteAt (redactedHead e ++ payload) 0x14 = 0 := rfl

end Sys2Proof.Machine

open Sys2Proof.Machine

/-- Settles O12: each clause by the lemma of its answer. -/
theorem readCommandsAnswer : Obligations.ReadCommandsAnswer := by
  refine ⟨fun s uid k _ => ⟨nop_ends, fun h => ?_, fun h => ?_, fun h => ?_, bounceSetup_answers⟩, fun s uid k hc hi => ?_, fun t e => ?_⟩
  · have hk := ticketOf_of_servable h
    refine ⟨fun hw => ⟨_, exec_ledgerRead h, readAnswer_ends _ _ _ _ _ hk (ticketRuns_of_servable h) hw⟩, fun hi hout => ?_⟩
    obtain ⟨k', hk'⟩ := readAnswer_refused 2 (opW k 2) (opW k 3) 64 0 hk hi hout
    exact ⟨_, k', exec_ledgerRead h, hk'⟩
  · have hk := ticketOf_of_servable h
    refine ⟨fun hw => ⟨_, exec_tallyRead h, readAnswer_ends _ _ _ _ _ hk (ticketRuns_of_servable h) hw⟩, fun hi hout => ?_⟩
    obtain ⟨k', hk'⟩ := readAnswer_refused 2 (opW k 2) (opW k 3) 128 (tallyReadable s.tally - 1) hk hi hout
    exact ⟨_, k', exec_tallyRead h, hk'⟩
  · have hk := ticketOf_of_servable h
    constructor
    · intro nonce s₁ hplain hw
      exact ⟨_, exec_reportGet h, serveReport_ends hk (ticketRuns_of_servable h) hplain hw⟩
    · intro st s₁ hplain
      obtain ⟨k', hk'⟩ := serveReport_fails hk hplain
      exact ⟨_, k', exec_reportGet h, hk'⟩
  · exact ⟨fun h => ⟨_, exec_ledgerRead h, outbox_readAnswer _ _ _ _ _ hi hc⟩,
      fun h => ⟨_, exec_tallyRead h, outbox_readAnswer _ _ _ _ _ hi hc⟩⟩
  · refine ⟨tallyFor_whole, fun h hany => ?_⟩
    rw [tallyFor_redacted h hany]
    exact ⟨redacted_kind .., redacted_status .., List.drop_left' (length_redactedHead e)⟩

end

section
/-! Admission of a SUBMIT_GRAPH from a queue pair (R83, R85 to R87, R91, R122), and the statement about it. -/

namespace Sys2Proof.Machine

/-! What the checks of a SUBMIT_GRAPH read -/


/-- Two states that differ at most in registers that no check of a SUBMIT_GRAPH reads. -/
structure SameChecks (t : TarnIx) (s s' : State) : Prop where
  rest : s' = { s with fns := s'.fns, admitted := s'.admitted }
  bounce : (fnOf s' t).bounce = (fnOf s t).bounce
  sessions : (fnOf s' t).sessions = (fnOf s t).sessions

section
variable {t : TarnIx} {s s' : State} (h : SameChecks t s s')
include h

theorem tagKeyOf_of_sameChecks : tagKeyOf s' t = tagKeyOf s t := by
  have hconf : isConf s' t = isConf s t := by rw [h.rest]; rfl
  have htarn : tarnOf s' t = tarnOf s t := by rw [h.rest]; rfl
  simp only [tagKeyOf, sessionOf, hconf, htarn, h.bounce, h.sessions]

theorem rangeCheck_of_sameChecks (a len : Nat) : rangeCheck s' t a len = rangeCheck s t a len := by
  have hunit : unitOk s' t = unitOk s t := by rw [h.rest]; rfl
  simp only [rangeCheck, hunit]

theorem holdsExpress_of_sameChecks : holdsExpress s' t = holdsExpress s t := by rw [h.rest]; rfl

theorem graphRights_of_sameChecks (e : Entry) : graphRights s' t e = graphRights s t e := by
  simp only [graphRights, rangeCheck_of_sameChecks h, holdsExpress_of_sameChecks h, tagKeyOf_of_sameChecks h]

theorem graphCheck_of_sameChecks (e : Entry) : graphCheck s' t e = graphCheck s t e := by
  have hread (a n : Nat) : devRead s' a n = devRead s a n := by rw [h.rest]; rfl
  have hheader (x : ProgHeader) : progHeaderOk s' t e x = progHeaderOk s t e x := by rw [h.rest]; rfl
  simp only [graphCheck, rangeCheck_of_sameChecks h, holdsExpress_of_sameChecks h, tagKeyOf_of_sameChecks h, hread, hheader]

theorem entryCheck_of_sameChecks {e : Entry} (hop : e.op = 0x13) (express held : Bool) :
    entryCheck s' t express e held = entryCheck s t express e held := by
  have hbad : operandBad s' t e = operandBad s t e := by
    have hconf : isConf s' t = isConf s t := by rw [h.rest]; rfl
    simp only [operandBad, hconf]
  simp only [entryCheck, hbad, hop, graphRights_of_sameChecks h, graphCheck_of_sameChecks h, beq_self_eq_true, if_true]
  rfl

theorem refusal_of_sameChecks {e : Entry} (hop : e.op = 0x13) (express held : Bool) :
    refusal s' t express e held = refusal s t express e held := by
  have hquota : quotaOf s' t = quotaOf s t := by rw [h.rest]; rfl
  have hlive : liveCount s' t = liveCount s t := by rw [h.rest]; rfl
  simp only [refusal, entryCheck_of_sameChecks h hop, hquota, hlive]
end

section
variable {s : State} {t : TarnIx} {q : QpIx}

theorem sameChecks_modQp (h : Shaped s) (t : TarnIx) (q : QpIx) (g : Qp → Qp) : SameChecks t s (modQp s t q g) where
  rest := rfl
  bounce := by rw [fnOf_modQp s t t q g h.fns]
  sessions := by rw [fnOf_modQp s t t q g h.fns]

theorem sameChecks_admitted (s : State) (t : TarnIx) (n : Nat) : SameChecks t s { s with admitted := n } := ⟨rfl, rfl, rfl⟩

/-! A new ticket -/

/-- The ticket table with one ticket more, admitted in this beat from the entry (R87). -/
def Created (s : State) (t : TarnIx) (e : Entry) (tickets : List Ticket) : Prop :=
  tickets.length = s.tickets.length + 1 ∧
    ∃ k ∈ tickets, k.uid = s.nextUid ∧ k.op = e.op ∧ k.tarn = t ∧ k.ops = e.ops ∧ k.ledger.state = .queued ∧
      k.ledger.admitBeat = s.beat ∧ k.ledger.commitBeat = s.beat

/-- A change of a ticket that keeps what it is the ticket of, and its record. -/
def KeepsRecord (g : Ticket → Ticket) : Prop :=
  ∀ k : Ticket, (g k).uid = k.uid ∧ (g k).op = k.op ∧ (g k).tarn = k.tarn ∧ (g k).ops = k.ops ∧ (g k).ledger = k.ledger

theorem Created.map {e : Entry} {l : List Ticket} (h : Created s t e l) {g : Ticket → Ticket} (hg : KeepsRecord g) :
    Created s t e (l.map g) := by
  obtain ⟨hlen, k, hk, huid, hop, htarn, hops, hledger⟩ := h
  obtain ⟨guid, gop, gtarn, gops, gledger⟩ := hg k
  refine ⟨(List.length_map ..).trans hlen, g k, List.mem_map_of_mem hk, guid.trans huid, gop.trans hop, gtarn.trans htarn,
    gops.trans hops, ?_⟩
  rw [gledger]
  exact hledger

theorem KeepsRecord.id : KeepsRecord id := fun _ => ⟨rfl, rfl, rfl, rfl, rfl⟩

theorem KeepsRecord.ite (uid : Nat) {g : Ticket → Ticket} (hg : KeepsRecord g) :
    KeepsRecord fun k => if k.uid == uid then g k else k := by
  intro k
  dsimp only
  split
  · exact hg k
  · exact ⟨rfl, rfl, rfl, rfl, rfl⟩

/-- A host read that goes out, or fails, changes no ticket's record. -/
theorem tickets_pumpDma (s : State) (stamp uid : Nat) :
    ∃ g, KeepsRecord g ∧ (pumpDma s stamp uid).tickets = s.tickets.map g := by
  have hsame : ∃ g, KeepsRecord g ∧ s.tickets = s.tickets.map g := ⟨id, .id, (List.map_id _).symm⟩
  have hmod (g : Ticket → Ticket) (hg : KeepsRecord g) : ∃ g', KeepsRecord g' ∧ (modTicket s uid g).tickets = s.tickets.map g' :=
    ⟨_, hg.ite uid, rfl⟩
  have hfail : ∃ g, KeepsRecord g ∧ (failTicket s uid .notPermitted).tickets = s.tickets.map g :=
    hmod _ fun _ => ⟨rfl, rfl, rfl, rfl, rfl⟩
  unfold pumpDma
  split
  · exact hsame
  · split
    · split
      · exact hsame
      · split
        · exact hfail
        · split
          · exact hfail
          · exact hmod _ fun _ => ⟨rfl, rfl, rfl, rfl, rfl⟩
    · exact hsame

theorem createTicket_created (s : State) (t : TarnIx) (q : QpIx) (e : Entry) : Created s t e (createTicket s t q e).2.tickets := by
  have hnew (k : Ticket) (hk : k.uid = s.nextUid ∧ k.op = e.op ∧ k.tarn = t ∧ k.ops = e.ops ∧ k.ledger.state = .queued ∧
      k.ledger.admitBeat = s.beat ∧ k.ledger.commitBeat = s.beat) : Created s t e (s.tickets ++ [k]) :=
    ⟨List.length_append, k, List.mem_append_right _ (List.mem_singleton_self k), hk⟩
  unfold createTicket
  dsimp only
  split
  · exact hnew _ ⟨rfl, rfl, rfl, rfl, rfl, rfl, rfl⟩
  · obtain ⟨g, hg, hmap⟩ := tickets_pumpDma _ _ _
    rw [hmap]
    exact (hnew _ ⟨rfl, rfl, rfl, rfl, rfl, rfl, rfl⟩).map hg

section
variable {s : State} {t : TarnIx} {q : QpIx}

/-- The creation of a ticket changes the ticket table, the counts of tickets and what is sent. -/
theorem createTicket_frame (s : State) (t : TarnIx) (q : QpIx) (e : Entry) : (createTicket s t q e).2 =
    { s with tickets := (createTicket s t q e).2.tickets, nextUid := (createTicket s t q e).2.nextUid,
             gens := (createTicket s t q e).2.gens, outbox := (createTicket s t q e).2.outbox } := by
  unfold createTicket
  dsimp only
  split
  · rfl
  · rw [pumpDma_frame]
    rfl

theorem Shaped.createTicket (h : Shaped s) (t : TarnIx) (q : QpIx) (e : Entry) : Shaped (createTicket s t q e).2 := by
  rw [createTicket_frame]
  exact { h with }

theorem qpOf_createTicket (s : State) (t : TarnIx) (q : QpIx) (e : Entry) : qpOf (createTicket s t q e).2 t q = qpOf s t q := by
  rw [createTicket_frame]
  rfl

/-! An entry that takes its place in the posting order -/

/-- An entry read off the ring. -/
def tookEntry (rest : List Bytes) (p : Qp) : Qp := { p with fetched := rest, sqHead := p.sqHead + 1 }

/-- An entry put at the end of the posting order, or in the place of its first. -/
def putLast (x : PostItem) (p : Qp) : Qp := { p with order := p.order ++ [x] }
def putFirst (x : PostItem) (p : Qp) : Qp := { p with order := x :: p.order.drop 1 }

/-- The place of an entry in the posting order. -/
def placeOf (e : Entry) : PostItem := { commandId := e.commandId, irqNow := e.irqNow }

/-- The place of an entry that a status refuses, or else `x`. -/
def refusedOr (e : Entry) (x : PostItem) : Option Status → PostItem
  | some st => { placeOf e with comp := some { status := st } }
  | none => x

theorem refusedOr_some (e : Entry) (x : PostItem) (st : Status) :
    refusedOr e x (some st) = { placeOf e with comp := some { status := st } } := rfl
theorem refusedOr_none (e : Entry) (x : PostItem) : refusedOr e x none = x := rfl

/-- An entry is admitted: its ticket is created, and takes its place. -/
def enter (s : State) (t : TarnIx) (q : QpIx) (e : Entry) (put : PostItem → Qp → Qp) : State :=
  countAdmitted (modQp (createTicket s t q e).2 t q (put { placeOf e with uid := some s.nextUid })) e.cls

theorem tickets_enter (s : State) (t : TarnIx) (q : QpIx) (e : Entry) (put : PostItem → Qp → Qp) :
    Created s t e (enter s t q e put).tickets := createTicket_created s t q e

theorem Shaped.enter (h : Shaped s) (t : TarnIx) (q : QpIx) (e : Entry) (put : PostItem → Qp → Qp) : Shaped (enter s t q e put) :=
  { (h.createTicket t q e).modQp t q (put { placeOf e with uid := some s.nextUid }) with }

theorem qpOf_enter (h : Shaped s) (t : TarnIx) (q : QpIx) (e : Entry) (put : PostItem → Qp → Qp) :
    qpOf (enter s t q e put) t q = put { placeOf e with uid := some s.nextUid } (qpOf s t q) := by
  have hput := qpOf_modQp_same (h.createTicket t q e) t q (put { placeOf e with uid := some s.nextUid })
  rw [qpOf_createTicket] at hput
  exact hput

/-! The entry at the head of the ring -/

/-- An entry with FENCE waits behind those before it. -/
def heldBehind (p : Qp) (e : Entry) : Bool := e.fence && !p.order.isEmpty

theorem consumeOne_eq (h : Shaped s) {b : Bytes} {rest : List Bytes} (hfetched : (qpOf s t q).fetched = b :: rest)
    (hop : (entryFields b).op = 0x13) :
    consumeOne s t q =
      match refusal s t ((qpOf s t q).qclass == 1) (entryFields b) (heldBehind (qpOf s t q) (entryFields b)) with
      | some st => modQp (modQp s t q (tookEntry rest)) t q (putLast { placeOf (entryFields b) with comp := some { status := st } })
      | none =>
        if heldBehind (qpOf s t q) (entryFields b) then
          modQp (modQp s t q (tookEntry rest)) t q (putLast { placeOf (entryFields b) with fence := some b })
        else enter (modQp s t q (tookEntry rest)) t q (entryFields b) putLast := by
  rw [← refusal_of_sameChecks (sameChecks_modQp h t q (tookEntry rest)) hop]
  unfold consumeOne
  dsimp only
  rw [hfetched]
  rfl

/-- The place that the entry at the head of the ring takes. -/
def consumedItem (s : State) (t : TarnIx) (p : Qp) (b : Bytes) : PostItem :=
  refusedOr (entryFields b)
    (if heldBehind p (entryFields b) then { placeOf (entryFields b) with fence := some b }
      else { placeOf (entryFields b) with uid := some s.nextUid })
    (refusal s t (p.qclass == 1) (entryFields b) (heldBehind p (entryFields b)))

/-- A consumed entry: it leaves the ring and takes the next place of the posting order; its ticket is created where nothing refuses or
holds it. -/
theorem consumeOne_acts (h : Shaped s) {p : Qp} (hp : qpOf s t q = p) {b : Bytes} {rest : List Bytes}
    (hfetched : p.fetched = b :: rest) (hop : (entryFields b).op = 0x13) :
    Shaped (consumeOne s t q) ∧ qpOf (consumeOne s t q) t q = putLast (consumedItem s t p b) (tookEntry rest p) ∧
      (if refusal s t (p.qclass == 1) (entryFields b) (heldBehind p (entryFields b)) = none ∧
          heldBehind p (entryFields b) = false then Created s t (entryFields b) (consumeOne s t q).tickets
        else (consumeOne s t q).tickets = s.tickets) := by
  have htook := h.modQp t q (tookEntry rest)
  have hqp : qpOf (modQp s t q (tookEntry rest)) t q = tookEntry rest p := by rw [qpOf_modQp_same h, hp]
  rw [consumeOne_eq h (hp ▸ hfetched) hop, consumedItem, hp]
  cases href : refusal s t (p.qclass == 1) (entryFields b) (heldBehind p (entryFields b)) with
  | some st =>
    dsimp only
    rw [qpOf_modQp_same htook, hqp, refusedOr_some, if_neg (fun hc => Option.some_ne_none st hc.1)]
    exact ⟨htook.modQp .., rfl, rfl⟩
  | none =>
    dsimp only
    rw [refusedOr_none]
    cases hheld : heldBehind p (entryFields b) with
    | true =>
      rw [if_pos rfl, if_pos rfl, qpOf_modQp_same htook, hqp, if_neg (fun hc => Bool.false_ne_true hc.2.symm)]
      exact ⟨htook.modQp .., rfl, rfl⟩
    | false =>
      rw [if_neg Bool.false_ne_true, if_neg Bool.false_ne_true, qpOf_enter htook, hqp, if_pos ⟨rfl, rfl⟩]
      exact ⟨htook.enter .., rfl, tickets_enter ..⟩

/-! A held FENCE entry -/

/-- The place that a FENCE entry has when its turn has come. -/
def fencedItem (s : State) (t : TarnIx) (b : Bytes) : PostItem :=
  refusedOr (entryFields b) { placeOf (entryFields b) with uid := some s.nextUid } (graphCheck s t (entryFields b))

theorem admitFence_eq {b : Bytes} (hop : (entryFields b).op = 0x13) :
    admitFence s t q b =
      match graphCheck s t (entryFields b) with
      | some st => modQp s t q (putFirst { placeOf (entryFields b) with comp := some { status := st } })
      | none => enter s t q (entryFields b) putFirst := by
  unfold admitFence
  dsimp only
  rw [if_pos (by simp [hop])]
  rfl

/-- A FENCE entry whose turn has come stays in its place: with the status of its header, or with its ticket. -/
theorem admitFence_acts (h : Shaped s) {b : Bytes} (hop : (entryFields b).op = 0x13) :
    Shaped (admitFence s t q b) ∧ qpOf (admitFence s t q b) t q = putFirst (fencedItem s t b) (qpOf s t q) ∧
      (if graphCheck s t (entryFields b) = none then Created s t (entryFields b) (admitFence s t q b).tickets
        else (admitFence s t q b).tickets = s.tickets) := by
  rw [admitFence_eq hop, fencedItem]
  cases graphCheck s t (entryFields b) with
  | some st =>
    dsimp only
    rw [qpOf_modQp_same h, refusedOr_some, if_neg (Option.some_ne_none st)]
    exact ⟨h.modQp .., rfl, rfl⟩
  | none =>
    dsimp only
    rw [qpOf_enter h, refusedOr_none, if_pos rfl]
    exact ⟨h.enter .., rfl, tickets_enter ..⟩

end

/-! What admission leaves unchanged -/

/-- What an operation of admission may change. -/
def Beside (rest : State → State) : Prop :=
  ∀ (s : State) (fns : List FnRegs) (tickets : List Ticket) (nextUid : Nat) (gens : List (Nat × Nat)) (bar : BarAcc) (outbox : List Output),
    rest { s with fns, tickets, nextUid, gens, bar, outbox } = rest s

section
variable {rest : State → State} (hrest : Beside rest) {s₀ s : State} (h : agree rest s₀ ≤ agree rest s)
include hrest h

theorem agree_admission_modQp (t : TarnIx) (q : QpIx) (g : Qp → Qp) : agree rest s₀ ≤ agree rest (modQp s t q g) :=
  agree_of_eq h (hrest s _ s.tickets s.nextUid s.gens s.bar s.outbox)

theorem agree_admission_countAdmitted (cls : Nat) : agree rest s₀ ≤ agree rest (countAdmitted s cls) :=
  agree_of_eq h (hrest s s.fns s.tickets s.nextUid s.gens _ s.outbox)

theorem agree_admission_ringPump (t : TarnIx) (q : QpIx) : agree rest s₀ ≤ agree rest (ringPump s t q) := by
  rw [ringPump_frame]
  exact agree_of_eq h (hrest s _ s.tickets s.nextUid s.gens s.bar _)

theorem agree_admission_createTicket (t : TarnIx) (q : QpIx) (e : Entry) : agree rest s₀ ≤ agree rest (createTicket s t q e).2 := by
  rw [createTicket_frame]
  exact agree_of_eq h (hrest s s.fns _ _ _ s.bar _)

theorem agree_enter (t : TarnIx) (q : QpIx) (e : Entry) (put : PostItem → Qp → Qp) :
    agree rest s₀ ≤ agree rest (enter s t q e put) :=
  agree_admission_countAdmitted hrest (agree_admission_modQp hrest (agree_admission_createTicket hrest h ..) ..) ..

theorem agree_consumeOne (t : TarnIx) (q : QpIx) : agree rest s₀ ≤ agree rest (consumeOne s t q) := by
  have hmod (g) := agree_admission_modQp hrest h t q g
  unfold consumeOne
  dsimp only
  split
  · exact h
  · split
    · exact agree_admission_modQp hrest (hmod _) ..
    · exact agree_ite (agree_admission_modQp hrest (hmod _) ..) (agree_enter hrest (hmod _) t q _ putLast)

theorem agree_admitFence (t : TarnIx) (q : QpIx) (b : Bytes) : agree rest s₀ ≤ agree rest (admitFence s t q b) := by
  unfold admitFence
  dsimp only
  split
  · exact agree_admission_modQp hrest h ..
  · exact agree_enter hrest h t q _ putFirst

theorem agree_takeNext (t : TarnIx) (q : QpIx) : agree rest s₀ ≤ agree rest (takeNext s t q) := by
  unfold takeNext
  split
  · exact agree_admitFence hrest h ..
  · exact agree_consumeOne hrest h ..

end
end

/-! SUBMIT_GRAPH -/

section
variable {s : State} {t : TarnIx} {q : QpIx}

/-- The coming seam may still admit from the Tarn, and the device does. -/
def mayAdmit (s : State) (t : TarnIx) : Bool :=
  running s && fwUp s && s.fw.drain.isNone && tarnAdmits s t && decide (0 < admitBudget s)

/-- The state that has counted an admission. -/
abbrev counted (s : State) : State := { s with admitted := s.admitted + 1 }

/-- What the queue pair gives up next is taken, and its next entries are asked for. -/
def submitted (s : State) (t : TarnIx) (q : QpIx) : State := ringPump (takeNext (counted s) t q) t q

theorem exec_submitGraph_idle (h : mayAdmit s t = false ∨ ∀ b, nextBytes s (qpOf s t q) = some b → (entryFields b).op ≠ 0x13) :
    exec (.submitGraph t q) s = .next s := by
  refine congrArg _ (if_neg fun hc => ?_)
  obtain ⟨hmay, hgraph⟩ := Bool.and_eq_true_iff.mp hc
  rcases h with hno | hno
  · exact absurd (hno.symm.trans hmay) Bool.false_ne_true
  · split at hgraph
    next b hb => exact hno b hb (by simpa using hgraph)
    next => cases hgraph

theorem exec_submitGraph (hmay : mayAdmit s t = true) {b : Bytes} (hb : nextBytes s (qpOf s t q) = some b)
    (hop : (entryFields b).op = 0x13) : exec (.submitGraph t q) s = .next (submitted s t q) := by
  refine congrArg _ (if_pos (Bool.and_eq_true_iff.mpr ⟨hmay, ?_⟩))
  rw [hb]
  simpa using hop

/-- An entry given up from the ring is at its head. -/
theorem fetched_of_nextBytes {p : Qp} {b : Bytes} (hdue : fenceDue s p = none) (hb : nextBytes s p = some b) :
    ∃ rest, p.fetched = b :: rest := by
  simp only [nextBytes, hdue] at hb
  split at hb
  · obtain ⟨hhead, -⟩ := Option.filter_eq_some_iff.mp hb
    exact List.head?_eq_some_iff.mp hhead
  · cases hb

/-- Only the queue pair, tickets, ticket IDs, host reads, the counts of admissions and what is sent change. -/
def submitRest (s : State) : State :=
  { s with fns := [], tickets := [], nextUid := 0, gens := [], bar := {}, outbox := [], freeCtr := 0, admitted := 0 }

theorem eq_of_submitRest {s s' : State} (h : submitRest s = submitRest s') :
    s' = { s with fns := s'.fns, tickets := s'.tickets, nextUid := s'.nextUid, gens := s'.gens, bar := s'.bar,
                  outbox := s'.outbox, freeCtr := s'.freeCtr, admitted := s'.admitted } :=
  congrArg (fun x : State => { x with
    fns := s'.fns, tickets := s'.tickets, nextUid := s'.nextUid, gens := s'.gens, bar := s'.bar, outbox := s'.outbox
    freeCtr := s'.freeCtr, admitted := s'.admitted }) h.symm

theorem submitted_frame (s : State) (t : TarnIx) (q : QpIx) : submitRest s = submitRest (submitted s t q) := by
  have hrest : Beside submitRest := fun _ _ _ _ _ _ _ => rfl
  have hcounted : agree submitRest s ≤ agree submitRest (counted s) := agree_le_iff.mpr rfl
  exact agree_le_iff.mp (agree_admission_ringPump hrest (agree_takeNext hrest hcounted t q) t q)

/-- The state with its count of admissions only. -/
def admittedOnly (s : State) : State := { State.reset with admitted := s.admitted }

theorem submitted_admitted (s : State) (t : TarnIx) (q : QpIx) : (submitted s t q).admitted = s.admitted + 1 := by
  have hrest : Beside admittedOnly := fun _ _ _ _ _ _ _ => rfl
  have hkeep : admittedOnly (counted s) = admittedOnly (submitted s t q) :=
    agree_le_iff.mp (agree_admission_ringPump hrest (agree_takeNext hrest le_rfl t q) t q)
  exact (congrArg State.admitted hkeep).symm

/-- The queue pair after the taking, but for what is being read. -/
theorem submitted_of_taken {p : Qp} {s' : State} (htaken : takeNext (counted s) t q = s') (hshaped : Shaped s')
    (hqp : qpOf s' t q = p) :
    (qpOf (submitted s t q) t q).sqHead = p.sqHead ∧ (qpOf (submitted s t q) t q).fetched = p.fetched ∧
      (qpOf (submitted s t q) t q).order = p.order ∧ (submitted s t q).tickets = s'.tickets := by
  have htickets : (ringPump s' t q).tickets = s'.tickets := by rw [ringPump_frame]
  rw [submitted, htaken, qpOf_ringPump hshaped, hqp, htickets]
  exact ⟨rfl, rfl, rfl, rfl⟩

/-- An entry at the head of the ring is consumed. -/
theorem submitted_consumed (h : Shaped s) {b : Bytes} {rest : List Bytes} (hdue : fenceDue s (qpOf s t q) = none)
    (hfetched : (qpOf s t q).fetched = b :: rest) (hop : (entryFields b).op = 0x13) :
    (qpOf (submitted s t q) t q).sqHead = (qpOf s t q).sqHead + 1 ∧ (qpOf (submitted s t q) t q).fetched = rest ∧
      (qpOf (submitted s t q) t q).order = (qpOf s t q).order ++ [consumedItem s t (qpOf s t q) b] ∧
      (if refusal s t ((qpOf s t q).qclass == 1) (entryFields b) (heldBehind (qpOf s t q) (entryFields b)) = none ∧
          heldBehind (qpOf s t q) (entryFields b) = false then Created s t (entryFields b) (submitted s t q).tickets
        else (submitted s t q).tickets = s.tickets) := by
  have hrefusal := refusal_of_sameChecks (sameChecks_admitted s t (s.admitted + 1)) hop ((qpOf s t q).qclass == 1)
    (heldBehind (qpOf s t q) (entryFields b))
  have hitem : consumedItem (counted s) t (qpOf s t q) b = consumedItem s t (qpOf s t q) b := by
    rw [consumedItem, hrefusal]
    rfl
  have htaken : takeNext (counted s) t q = consumeOne (counted s) t q := by
    unfold takeNext
    rw [show fenceDue (counted s) (qpOf (counted s) t q) = none from hdue]
  obtain ⟨hshaped, hqp, htickets⟩ := consumeOne_acts (s := counted s) { h with } (p := qpOf s t q) rfl hfetched hop
  obtain ⟨hhead, hfetched', horder, hall⟩ := submitted_of_taken htaken hshaped hqp
  rw [hrefusal] at htickets
  rw [hitem] at horder
  rw [hall]
  exact ⟨hhead, hfetched', horder, htickets⟩

/-- A held FENCE entry whose turn has come is admitted, or has its status. -/
theorem submitted_fenced (h : Shaped s) {b : Bytes} (hdue : fenceDue s (qpOf s t q) = some b) (hop : (entryFields b).op = 0x13) :
    (qpOf (submitted s t q) t q).sqHead = (qpOf s t q).sqHead ∧ (qpOf (submitted s t q) t q).fetched = (qpOf s t q).fetched ∧
      (qpOf (submitted s t q) t q).order = fencedItem s t b :: (qpOf s t q).order.tail ∧
      (if graphCheck s t (entryFields b) = none then Created s t (entryFields b) (submitted s t q).tickets
        else (submitted s t q).tickets = s.tickets) := by
  have hcheck := graphCheck_of_sameChecks (sameChecks_admitted s t (s.admitted + 1)) (entryFields b)
  have hitem : fencedItem (counted s) t b = fencedItem s t b := by
    rw [fencedItem, hcheck]
    rfl
  have htaken : takeNext (counted s) t q = admitFence (counted s) t q b := by
    unfold takeNext
    rw [show fenceDue (counted s) (qpOf (counted s) t q) = some b from hdue]
  obtain ⟨hshaped, hqp, htickets⟩ := admitFence_acts (s := counted s) (t := t) (q := q) { h with } hop
  obtain ⟨hhead, hfetched, horder, hall⟩ := submitted_of_taken htaken hshaped hqp
  rw [hcheck] at htickets
  rw [hitem] at horder
  rw [hall]
  exact ⟨hhead, hfetched, horder.trans (congrArg _ (List.drop_one ..)), htickets⟩

end

end Sys2Proof.Machine

open Sys2Proof.Machine

/-- Settles O38: an entry at the head of the ring by `submitted_consumed`, a held FENCE entry by `submitted_fenced`. -/
theorem submissionsAreAdmitted : Obligations.SubmissionsAreAdmitted := by
  intro s t q hs
  refine ⟨exec_submitGraph_idle, fun hmay b hb hop => ?_⟩
  refine ⟨_, exec_submitGraph hmay hb hop, submitted_admitted s t q, eq_of_submitRest (submitted_frame s t q), fun hdue => ?_, fun hdue => ?_,
    ?_⟩
  · obtain ⟨rest, hfetched⟩ := fetched_of_nextBytes hdue hb
    obtain ⟨hhead, hrest, horder, htickets⟩ := submitted_consumed hs hdue hfetched hop
    refine ⟨by rw [hfetched]; rfl, hhead, by rw [hrest, hfetched]; rfl, fun st href => ?_, fun href hheld => ?_, fun href hheld => ?_⟩
    · rw [if_neg (fun hc => Option.some_ne_none st (href.symm.trans hc.1))] at htickets
      exact ⟨by rw [horder, consumedItem, heldBehind, href]; rfl, htickets⟩
    · rw [if_neg (fun hc => absurd (hc.2.symm.trans hheld) Bool.false_ne_true)] at htickets
      exact ⟨by rw [horder, consumedItem, heldBehind, href, if_pos hheld]; rfl, htickets⟩
    · rw [horder, consumedItem, heldBehind, href, if_neg (by rw [hheld]; exact Bool.false_ne_true)]
      rfl
  · obtain ⟨hhead, hfetched, horder, htickets⟩ := submitted_fenced hs hdue hop
    refine ⟨hhead, hfetched, fun st hst => ?_, fun hnone => ?_⟩
    · rw [if_neg (by simp [hst])] at htickets
      exact ⟨by rw [horder, fencedItem, hst]; rfl, htickets⟩
    · rw [horder, fencedItem, hnone]
      rfl
  · have hcreated : Created s t (entryFields b) (submitted s t q).tickets → _ := fun h => by
      rw [Created, hop] at h
      exact h
    rintro (⟨hdue, href, hheld⟩ | ⟨hdue, hnone⟩)
    · obtain ⟨rest, hfetched⟩ := fetched_of_nextBytes hdue hb
      obtain ⟨-, -, -, htickets⟩ := submitted_consumed hs hdue hfetched hop
      rw [if_pos ⟨href, hheld⟩] at htickets
      exact hcreated htickets
    · obtain ⟨-, -, -, htickets⟩ := submitted_fenced hs hdue hop
      rw [if_pos hnone] at htickets
      exact hcreated htickets

end

section
/-!
What every step keeps: the tables with their full number of entries and the canonical form of memory (R64, R96, R110, R196, R335,
R383, R426, R431, R468, R614). `tables` takes from a state just that, and `Whole s` says that it is as after reset, which is `Good s`.
It is written as an inequality for `bound`, which finds that a composed operation keeps the tables from the lemmas of its parts.
-/

namespace Sys2Proof.Machine

/-- The sizes of a function's tables. -/
@[simp] def fnTables (f : FnRegs) : ℕ × ℕ := (f.qps.length, f.msix.length)

/-- The sizes of a state's tables, and whether its memory is in canonical form. -/
def tables (s : State) : Bool × List (ℕ × ℕ) × List ℕ :=
  (memWf s.mem, s.fns.map fnTables,
    [s.tarns.length, s.map.entries.length, s.figs.length, s.tgStat.length, s.laneStat.length, s.kaeStat.length, s.linkStat.length,
      s.memStat.length, s.recStat.length, s.links.length, s.keys.length, s.replaces.length, s.bbram.journal.length,
      s.bbram.parents.length, s.fuses.anchors.length, s.dram.length, s.units.chans.length, s.units.spares.length,
      s.timing.linkDelay.length])

/-- The states whose tables are as those of s. Irreducible, so that no two states are compared field by field. -/
@[irreducible] def alike (s : State) : Set State := {x | tables x = tables s}

/-- The tables are as after reset. -/
abbrev Whole (s : State) : Prop := alike State.reset ≤ alike s

variable {s s' : State}

theorem whole_iff_tables : Whole s ↔ tables State.reset = tables s := by
  unfold Whole alike
  exact ⟨fun h => h (show tables State.reset = tables State.reset from rfl), fun h _ hx => Eq.trans hx h⟩

theorem whole_iff_good : Whole s ↔ Good s := by
  have hfns : s.fns.map fnTables = List.replicate 8 (64, 64) ↔ s.fns.length = 8 ∧ ∀ f ∈ s.fns, FnShaped f := by
    simp only [List.eq_replicate_iff, List.length_map, List.forall_mem_map, fnTables, Prod.mk.injEq]
  have hreset : tables State.reset =
      (true, List.replicate 8 (64, 64), [8, 8, 16, 16, 16, 8, 12, 256, 16, 12, 512, 16, 16, 1024, 32, 8, 256, 4, 12]) := by
    simp only [tables, State.reset, memWf, fnTables, List.map_replicate, List.length_replicate]
  rw [whole_iff_tables, eq_comm, hreset]
  simp only [tables, Prod.mk.injEq, List.cons.injEq, and_true, hfns]
  constructor
  · rintro ⟨hmem, ⟨fns, fn⟩, tarns, entries, figs, tgStat, laneStat, kaeStat, linkStat, memStat, recStat, links, keys, replaces, journal,
      parents, anchors, dram, chans, spares, delays⟩
    exact ⟨{ fns, fn, tarns, entries, figs, tgStat, laneStat, kaeStat, linkStat, memStat, recStat, links, keys, replaces, journal,
             parents, anchors, dram, chans, spares, delays }, hmem⟩
  · rintro ⟨h, hmem⟩
    exact ⟨hmem, ⟨h.fns, h.fn⟩, h.tarns, h.entries, h.figs, h.tgStat, h.laneStat, h.kaeStat, h.linkStat, h.memStat, h.recStat, h.links,
      h.keys, h.replaces, h.journal, h.parents, h.anchors, h.dram, h.chans, h.spares, h.delays⟩

/-! Record updates -/

/-- An update that keeps the size of every table. -/
theorem whole_of_tables (h : Whole s) (e : tables s' = tables s) : Whole s' :=
  whole_iff_tables.mpr ((whole_iff_tables.mp h).trans e.symm)

/-- An update of fields that hold no table. -/
@[bound] theorem whole_mk (h : Whole s) (pending outbox beat pos timeUs table swapped shadow tickets nextUid gens admitted spLeft scrubs
    dying confScrub rules pendRules nextRule sets nextSet poison cxlHeld patrol hiddenPoison rebuilds routes routesNext remotes nextTag
    rootState tally bar bists fw fatal gov flash mgmt board freeCtr) :
    Whole ⟨pending, outbox, beat, pos, timeUs, table, swapped, shadow, s.timing, s.fns, tickets, nextUid, gens, admitted,
      s.figs, spLeft, s.map, s.tarns, s.tgStat, s.laneStat, s.kaeStat, s.linkStat, s.memStat, scrubs, s.recStat, dying, confScrub, rules,
      pendRules, nextRule, sets, nextSet, s.mem, poison, s.dram, cxlHeld, patrol, hiddenPoison, rebuilds, s.links, routes, routesNext,
      remotes, nextTag, s.keys, s.replaces, s.bbram, s.fuses, rootState, tally, bar, s.units, bists, fw, fatal, gov, flash, mgmt,
      board, freeCtr⟩ := whole_of_tables h rfl

/-- An update of memory that keeps its canonical form. -/
theorem whole_mem (h : Whole s) {m : List Host.Cell} (hm : memWf s.mem = true → memWf m = true) (p : List (Nat × Nat)) :
    Whole { s with mem := m, poison := p } := by
  obtain ⟨hs, hmem⟩ := whole_iff_good.mp h
  exact whole_iff_good.mpr ⟨{ hs with }, hm hmem⟩

/-! The ways operations are composed -/

@[bound] theorem whole_ite {c : Prop} [Decidable c] {a b : State} (ha : Whole a) (hb : Whole b) : Whole (if c then a else b) := by
  split <;> assumption

@[bound] theorem whole_ite_fst {α : Type} {c : Prop} [Decidable c] {a b : State × α} (ha : Whole a.1) (hb : Whole b.1) :
    Whole (if c then a else b).1 := by split <;> assumption

@[bound] theorem whole_ite_snd {α : Type} {c : Prop} [Decidable c] {a b : α × State} (ha : Whole a.2) (hb : Whole b.2) :
    Whole (if c then a else b).2 := by split <;> assumption

@[bound] theorem whole_pair {α : Type} (a : α) (h : Whole s) : Whole (a, s).2 := h

theorem whole_of_fst {α : Type} {x : State × α} {b : α} (e : x = (s, b)) (h : Whole x.1) : Whole s := by subst e; exact h

theorem whole_of_snd {α : Type} {x : α × State} {b : α} (e : x = (b, s)) (h : Whole x.2) : Whole s := by subst e; exact h

@[bound] theorem whole_foldl {α : Type} {f : State → α → State} (hf : ∀ s x, Whole s → Whole (f s x)) (l : List α) (h : Whole s) :
    Whole (l.foldl f s) := by
  induction l generalizing s with
  | nil => exact h
  | cons x l ih => exact ih (hf s x h)

theorem whole_foldl_snd {α β : Type} {f : β × State → α → β × State} (hf : ∀ x a, Whole x.2 → Whole (f x a).2) (l : List α)
    {x : β × State} (h : Whole x.2) : Whole (l.foldl f x).2 := by
  induction l generalizing x with
  | nil => exact h
  | cons a l ih => exact ih (hf x a h)

@[bound] theorem whole_iter {f : State → State} (hf : ∀ s, Whole s → Whole (f s)) (n : Nat) (h : Whole s) : Whole (iter f n s) :=
  iter_inv (Whole ·) f hf n s h

/-! The tables by index -/

@[bound] theorem whole_modFn (h : Whole s) (t : TarnIx) {g : FnRegs → FnRegs} (hg : ∀ f, fnTables (g f) = fnTables f) :
    Whole (modFn s t g) := by
  have hfns : (s.fns.modify t g).map fnTables = s.fns.map fnTables := by
    refine List.ext_getElem (by simp) fun i _ _ => ?_
    simp only [List.getElem_map, List.getElem_modify]
    split
    · exact hg _
    · rfl
  exact whole_of_tables h (congrArg (fun l => ((tables s).1, l, (tables s).2.2)) hfns)

/-- Registers written anew, with tables of full size. -/
theorem whole_resetFn (h : Whole s) (t : TarnIx) {g : FnRegs → FnRegs} (hg : ∀ f, FnShaped f → FnShaped (g f)) :
    Whole (modFn s t g) := by
  obtain ⟨hs, hmem⟩ := whole_iff_good.mp h
  exact whole_iff_good.mpr ⟨hs.modFn t hg, hmem⟩

theorem fnShaped_of_whole (h : Whole s) (t : TarnIx) : FnShaped (fnOf s t) := by
  obtain ⟨hs, -⟩ := whole_iff_good.mp h
  exact hs.fnOf_shaped t

@[bound] theorem whole_modQp (h : Whole s) (t : TarnIx) (q : QpIx) (g : Qp → Qp) : Whole (modQp s t q g) :=
  whole_modFn h t fun f => by simp [fnTables]

@[bound] theorem whole_modTarn (h : Whole s) (t : TarnIx) (g : Tarn → Tarn) : Whole (modTarn s t g) :=
  whole_of_tables h (by simp [tables, modTarn])

@[bound] theorem whole_modLink (h : Whole s) (n : LinkIx) (g : Link → Link) : Whole (modLink s n g) :=
  whole_of_tables h (by simp [tables, modLink])

@[bound] theorem whole_modSlot (h : Whole s) (k : Nat) (g : KeySlot → KeySlot) : Whole (modSlot s k g) :=
  whole_of_tables h (by simp [tables, modSlot])

/-! Updates of records that hold a table, and of all entries of one -/

@[bound] theorem whole_timing (h : Whole s) {m : Timing} (hm : m.linkDelay.length = s.timing.linkDelay.length) :
    Whole { s with timing := m } := whole_of_tables h (by simp [tables, hm])

@[bound] theorem whole_units (h : Whole s) {u : Units} (hchans : u.chans.length = s.units.chans.length)
    (hspares : u.spares.length = s.units.spares.length) : Whole { s with units := u } :=
  whole_of_tables h (by simp [tables, hchans, hspares])

@[bound] theorem whole_fuses (h : Whole s) {f : Fuses} (hf : f.anchors.length = s.fuses.anchors.length) :
    Whole { s with fuses := f } := whole_of_tables h (by simp [tables, hf])

@[bound] theorem whole_bbram (h : Whole s) {b : Bbram} (hjournal : b.journal.length = s.bbram.journal.length)
    (hparents : b.parents.length = s.bbram.parents.length) : Whole { s with bbram := b } :=
  whole_of_tables h (by simp [tables, hjournal, hparents])

@[bound] theorem whole_mapFns (h : Whole s) {g : FnRegs → FnRegs} (hg : ∀ f, fnTables (g f) = fnTables f) :
    Whole { s with fns := s.fns.map g } :=
  whole_of_tables h (by simp [tables, hg, -fnTables])

@[bound] theorem whole_mapTarns (h : Whole s) (g : Option Tarn → Option Tarn) : Whole { s with tarns := s.tarns.map g } :=
  whole_of_tables h (by simp [tables])

@[bound] theorem whole_mapLinks (h : Whole s) (g : Link → Link) : Whole { s with links := s.links.map g } :=
  whole_of_tables h (by simp [tables])

@[bound] theorem whole_devWrite (h : Whole s) (a : Nat) (bs : Bytes) : Whole (devWrite s a bs) :=
  whole_mem h (memWf_devWrite s a bs) _

end Sys2Proof.Machine
end

section
/-! The tables under the state operations that most commands share. -/

namespace Sys2Proof.Machine
variable {s : State}

@[bound] theorem whole_modTicket (h : Whole s) (uid : Nat) (g : Ticket → Ticket) : Whole (modTicket s uid g) := whole_mk h ..
@[bound] theorem whole_modRound (h : Whole s) (t : TarnIx) (r : Nat) (g : Round → Round) :
    Whole (modRound s t r g) := whole_modTarn h ..
@[bound] theorem whole_emit (h : Whole s) (o : Output) : Whole (emit s o) := whole_mk h ..
@[bound] theorem whole_gmpReply (h : Whole s) (ch : GmpChannel) (req : Nat) (st : Status) (body : Bytes) :
    Whole (gmpReply s ch req st body) := by
  simp only [gmpReply]; bound
@[bound] theorem whole_pldmAnswer (h : Whole s) (code : Nat) (body : Bytes) : Whole (pldmAnswer s code body) := whole_mk h ..
@[bound] theorem whole_drawEntropy (h : Whole s) (n : Nat) : Whole (drawEntropy s n).2 := whole_mk h ..
@[bound] theorem whole_drawFree (h : Whole s) (n : Nat) : Whole (drawFree s n).2 := whole_mk h ..
@[bound] theorem whole_signWith (h : Whole s) (key : Nat) (msg : Bytes) : Whole (signWith s key msg).2 := whole_mk h ..
@[bound] theorem whole_tally (h : Whole s) (kind n tarn : Nat) (firmware : Bool) (st : Status) (payload : Bytes) :
    Whole (tally s kind n tarn firmware st payload) := whole_mk h ..
@[bound] theorem whole_tallyGovernor (h : Whole s) (tarn action reason object old new : Nat) (st : Status) :
    Whole (tallyGovernor s tarn action reason object old new st) := by
  simp only [tallyGovernor]; bound
@[bound] theorem whole_tallyGovernorOpen (h : Whole s) (tarn action : Nat) :
    Whole (tallyGovernorOpen s tarn action) := by
  simp only [tallyGovernorOpen]; bound
@[bound] theorem whole_tallyRetire (h : Whole s) (reason : Nat) (st : Status) :
    Whole (tallyRetire s reason st) := by
  simp only [tallyRetire]; bound
@[bound] theorem whole_tallyOverrun (h : Whole s) (t : TarnIx) (ticketId : BitVec 32) (fig cycles bound action group : Nat) :
    Whole (tallyOverrun s t ticketId fig cycles bound action group) := by
  simp only [tallyOverrun]; bound
@[bound] theorem whole_tallyFault (h : Whole s) (tarn : Nat) (u : UnitId) (action addr : Nat) (ticketId : BitVec 32) :
    Whole (tallyFault s tarn u action addr ticketId) := by
  simp only [tallyFault]; bound
@[bound] theorem whole_tallySession (h : Whole s) (t event sid : Nat) (st : Status) :
    Whole (tallySession s t event sid st) := by
  simp only [tallySession]; bound
@[bound] theorem whole_tallyLink (h : Whole s) (n : LinkIx) (src dst : LinkState) (cause : Nat) :
    Whole (tallyLink s n src dst cause) := by
  simp only [tallyLink]; bound
@[bound] theorem whole_tallyKeyEv (h : Whole s) (t op slot : Nat) (k : KeySlot) (oldKcv : Bytes) (st : Status) :
    Whole (tallyKeyEv s t op slot k oldKcv st) := by
  simp only [tallyKeyEv]; bound
@[bound] theorem whole_tallyNote (h : Whole s) (t : TarnIx) (round code kind owner holder : Nat) (st : Status) :
    Whole (tallyNote s t round code kind owner holder st) := by
  simp only [tallyNote]; bound
@[bound] theorem whole_tallyRule (h : Whole s) (r : RuleChange) (d : Nat) :
    Whole (tallyRule s r d) := by
  simp only [tallyRule]; bound
@[bound] theorem whole_tallySet (h : Whole s) (t id event phase phases : Nat) (digest : Bytes) (st : Status) :
    Whole (tallySet s t id event phase phases digest st) := by
  simp only [tallySet]; bound
@[bound] theorem whole_tallyDevice (h : Whole s) (event cause : Nat) :
    Whole (tallyDevice s event cause) := by
  simp only [tallyDevice]; bound
@[bound] theorem whole_beginCheckpoint (h : Whole s) :
    Whole (beginCheckpoint s) := by
  rw [beginCheckpoint_frame]; exact whole_mk h ..
@[bound] theorem whole_modPort (h : Whole s) (p : Port) (g : PortSt → PortSt) : Whole (modPort s p g) := whole_mk h ..
@[bound] theorem whole_emitWrite (h : Whole s) (t : TarnIx) (addr : Nat) (bs : Bytes) (relaxed : Bool) :
    Whole (emitWrite s t addr bs relaxed) := whole_mk h ..
@[bound] theorem whole_sendVector (h : Whole s) (t : TarnIx) (v : Nat) :
    Whole (sendVector s t v) := by
  simp only [sendVector]; bound
@[bound] theorem whole_flushPending (h : Whole s) (t : TarnIx) :
    Whole (flushPending s t) := by
  simp only [flushPending]; bound
@[bound] theorem whole_writeEntry (h : Whole s) (t : TarnIx) (base d : Nat) (tail : BitVec 16) (e : Bytes × Bytes) :
    Whole (writeEntry s t base d tail e) := whole_mk h ..
@[bound] theorem whole_advise (h : Whole s) (t : TarnIx) (a : Advisory) :
    Whole (advise s t a) := by
  simp only [advise]; bound
@[bound] theorem whole_adviseUnit (h : Whole s) (t : TarnIx) (u : UnitId) (ticketId : BitVec 32) :
    Whole (adviseUnit s t u ticketId) := by
  simp only [adviseUnit]; bound
@[bound] theorem whole_adviseRound (h : Whole s) (t : TarnIx) (r : Round) (code : Nat) (st : Status) :
    Whole (adviseRound s t r code st) := by
  simp only [adviseRound]; bound
@[bound] theorem whole_finishTicket (h : Whole s) (uid r0 r1 : Nat) : Whole (finishTicket s uid r0 r1) := whole_modTicket h ..
@[bound] theorem whole_answerTicket (h : Whole s) (uid : Nat) (st : Status) (r0 r1 : Nat) :
    Whole (answerTicket s uid st r0 r1) := whole_modTicket h ..
@[bound] theorem whole_failTicket (h : Whole s) (uid : Nat) (st : Status) : Whole (failTicket s uid st) := whole_modTicket h ..
@[bound] theorem whole_markPoison (h : Whole s) (a len : Nat) : Whole (markPoison s a len) := whole_mk h ..
@[bound] theorem whole_pumpDma (h : Whole s) (stamp uid : Nat) :
    Whole (pumpDma s stamp uid) := by
  simp only [pumpDma]; bound
@[bound] theorem whole_landChunk (h : Whole s) (stamp uid d : Nat) (bs : Bytes) :
    Whole (landChunk s stamp uid d bs) := by
  simp only [landChunk]; bound
@[bound] theorem whole_hostPut (h : Whole s) (t : TarnIx) (addr : Nat) (bs : Bytes) :
    Whole (hostPut s t addr bs) := by
  simp only [hostPut]; bound
@[bound] theorem whole_ringPump (h : Whole s) (t : TarnIx) (q : QpIx) :
    Whole (ringPump s t q) := by
  simp only [ringPump]; bound

end Sys2Proof.Machine
end

section
/-! The tables under the bounce area and confidential operands. -/

namespace Sys2Proof.Machine
variable {s : State}

@[bound] theorem whole_modSession (h : Whole s) (t : TarnIx) (id : BitVec 32) (g : Session → Session) :
    Whole (modSession s t id g) := by
  simp only [modSession]; bound
@[bound] theorem whole_postRekey (h : Whole s) (t : TarnIx) (id : BitVec 32) :
    Whole (postRekey s t id) := by
  simp only [postRekey]; bound
@[bound] theorem whole_openRecord (h : Whole s) (k : Ticket) (operand need off : Nat) (r : Bytes) :
    Whole (openRecord s k operand need off r).2 := by
  simp only [openRecord]
  split
  · exact h
  · refine whole_ite_snd h (whole_ite_snd h (whole_ite_snd h ?_))
    split
    · exact whole_modSession h ..
    · exact whole_modSession h ..
@[bound] theorem whole_openTransfer (h : Whole s) (k : Ticket) (operand need fuel : Nat) (raw got : Bytes) :
    Whole (openTransfer k operand need fuel raw got s).2 := by
  fun_induction openTransfer k operand need fuel raw got s with
  | case1 => exact h
  | case2 => exact h
  | case3 fuel raw got s _ n pt s' e ih => exact ih (whole_of_snd e (whole_openRecord h ..))
  | case4 => bound
@[bound] theorem whole_plainOf (h : Whole s) (k : Ticket) (operand p : Nat) (raw : Bytes) :
    Whole (plainOf s k operand p raw).2 := by
  simp only [plainOf]; bound
@[bound] theorem whole_openArrived (h :
    Whole s) (k : Ticket) (operand need fuel : Nat) (raw : Bytes) (off : Nat) (got : Bytes) :
    Whole (openArrived k operand need fuel raw off got s).2 := by
  fun_induction openArrived k operand need fuel raw off got s with
  | case1 => exact h
  | case2 => exact h
  | case3 fuel raw off got s n _ pt s' e ih => exact ih (whole_of_snd e (whole_openRecord h ..))
  | case4 fuel raw off got s n _ pt s' e => exact whole_of_snd e (whole_openRecord h ..)
@[bound] theorem whole_takePlain (h : Whole s) (uid operand need : Nat) :
    Whole (takePlain s uid operand need) := by
  simp only [takePlain]; bound
@[bound] theorem whole_emitRecord (h : Whole s) (t : TarnIx) (addr : Nat) (bs : Bytes) :
    Whole (emitRecord s t addr bs) := by
  simp only [emitRecord]; bound
@[bound] theorem whole_sealRecords (h : Whole s) (k : Ticket) (operand flags : Nat) (x : Session) (addr total : Nat)
    (l : List (Bytes × Nat)) : Whole (sealRecords k operand flags x addr total l s) := by
  induction l generalizing s with
  | nil => exact h
  | cons p l ih => exact ih (whole_emitRecord h ..)
@[bound] theorem whole_hostOut (h : Whole s) (k : Ticket) (operand addr : Nat) (bs : Bytes) (flags : Nat) :
    Whole (hostOut s k operand addr bs flags).2 := by
  fun_cases hostOut s k operand addr bs flags <;> bound
@[bound] theorem whole_endSessionTickets (h : Whole s) (t : TarnIx) (id : BitVec 32) (st : Status) :
    Whole (endSessionTickets s t id st) := whole_mk h ..
@[bound] theorem whole_dropSession (h : Whole s) (t : TarnIx) (id : BitVec 32) (st : Status) :
    Whole (dropSession s t id st) := by
  simp only [dropSession]; bound
@[bound] theorem whole_fetchHost (h : Whole s) (uid : Nat) (cs : List DmaChunk) :
    Whole (fetchHost s uid cs) := by
  simp only [fetchHost]; bound

end Sys2Proof.Machine
end

section
/-! The tables under rule changes and the ring. -/

namespace Sys2Proof.Machine
variable {s : State}

@[bound] theorem whole_setStat (h : Whole s) (r : Resource) (x : RStat) :
    Whole (setStat s r x) := by
  unfold setStat
  split <;> exact whole_of_tables h (by simp [tables])
@[bound] theorem whole_addRule (h : Whole s) (r : RuleChange) : Whole (addRule s r) := whole_mk h ..
@[bound] theorem whole_scrubContent (h : Whole s) (r : Resource) :
    Whole (scrubContent s r) := by
  unfold scrubContent
  split
  · exact whole_mem h (memWf_filter _ _) _
  · exact whole_of_tables h (by simp [tables])
  · exact whole_modLink h ..
  · exact whole_modFn h _ fun _ => rfl
  · exact whole_mk h ..
  · exact h
  · exact h
@[bound] theorem whole_startScrubs (h : Whole s) (rs : List Resource) : Whole (startScrubs s rs) := whole_mk h ..
@[bound] theorem whole_scrubDone (h : Whole s) (r : Resource) :
    Whole (scrubDone s r) := by
  simp only [scrubDone]; bound
@[bound] theorem whole_freeScrubbed (h : Whole s) :
    Whole (freeScrubbed s) := by
  unfold freeScrubbed
  apply whole_foldl
  · bound
  · exact h
@[bound] theorem whole_settleDying (h : Whole s) : Whole (settleDying s) :=
  whole_of_tables h (by simp [settleDying, tables])
@[bound] theorem whole_tallyDebug (h : Whole s) (t event : Nat) :
    Whole (tallyDebug s t event) := by
  simp only [tallyDebug]; bound
@[bound] theorem whole_endInstruments (h : Whole s) (t : TarnIx) :
    Whole (endInstruments s t) := by
  simp only [endInstruments]; bound
@[bound] theorem whole_takeRes (h : Whole s) (r : Resource) : Whole (takeRes s r) := by simp only [takeRes]; bound
@[bound] theorem whole_createTarn (h : Whole s) (t : TarnIx) (e : PEntry) :
    Whole (createTarn s t e) := by
  unfold createTarn
  extract_lets key put old fresh
  have hput : Whole put := whole_of_tables h (by simp [put, tables])
  have hfresh : Whole fresh := whole_resetFn hput t fun _ _ => ⟨List.length_replicate, (fnShaped_of_whole hput t).2⟩
  exact whole_tally hfresh ..
@[bound] theorem whole_removeTarn (h : Whole s) (t : TarnIx) :
    Whole (removeTarn s t) := by
  unfold removeTarn
  extract_lets old ended told cleared freed hits idle
  have htold : Whole told := whole_foldl (fun s x h => whole_tallySession h ..) _ h
  have hcleared : Whole cleared := whole_resetFn htold t fun _ _ => ⟨List.length_replicate, (fnShaped_of_whole h t).2⟩
  have hfreed : Whole freed := whole_setStat (whole_setStat (whole_of_tables hcleared (by simp [tables])) ..) ..
  refine whole_of_tables hfreed ?_
  simp only [tables, List.length_map, List.length_zipIdx]
  rfl
@[bound] theorem whole_applyMap (h : Whole s) (new : List PEntry) (changeId phase : Nat) :
    Whole (applyMap s new changeId phase) := by
  unfold applyMap
  extract_lets cur takes dead born what deadRes entries taken removed mapped grown
  have htaken : Whole taken := whole_foldl (fun s r h => whole_takeRes h r) _ h
  have hremoved : Whole removed := whole_foldl (fun s t h => whole_removeTarn h t) _ htaken
  have hmapped : Whole mapped := by
    obtain ⟨hs, hmem⟩ := whole_iff_good.mp hremoved
    exact whole_iff_good.mpr ⟨{ hs with entries := by simp [mapped, entries] }, hmem⟩
  exact whole_addRule (whole_foldl (fun s t h => whole_endInstruments (whole_createTarn h ..) t) _ hmapped) _
@[bound] theorem whole_execScrubComplete (h : Whole s) (r : Resource) :
    Whole (nextOf s (execScrubComplete r s)) := by
  simp only [execScrubComplete, nextOf]; bound

end Sys2Proof.Machine
end

section
/-! The tables under key slots, parents and the key commands. -/

namespace Sys2Proof.Machine
variable {s : State}

@[bound] theorem whole_modParent (h : Whole s) (p : Nat) (g : Parent → Parent) : Whole (modParent s p g) :=
  whole_of_tables h (by simp [tables, modParent])
@[bound] theorem whole_serveKeyLoad (h : Whole s) (k : Ticket) :
    Whole (serveKeyLoad s k) := by
  rcases e : plainOf s k 0 112 k.buf with ⟨st | raw, s'⟩
  all_goals
    have h' : Whole s' := whole_of_snd e (by bound)
    simp only [serveKeyLoad, e]; bound
@[bound] theorem whole_serve {uid op : Nat} {g : State → Ticket → State} (hg : ∀ k, Whole (g s k)) (h : Whole s) :
    Whole (serve s uid op g) := by
  simp only [serve]; bound
@[bound] theorem whole_serveKeyUnload (h : Whole s) (k : Ticket) :
    Whole (serveKeyUnload s k) := by
  simp only [serveKeyUnload]; bound
@[bound] theorem whole_setReplace (h : Whole s) (j : Nat) (x : Option Replace) : Whole { s with replaces := s.replaces.set j x } :=
  whole_of_tables h (by simp [tables])
@[bound] theorem whole_prepareReplace (h : Whole s) (j : Nat) (e : JEntry) (x : Option Replace) :
    Whole { s with bbram := { s.bbram with journal := s.bbram.journal.set j e }, replaces := s.replaces.set j x } :=
  whole_of_tables h (by simp [tables])
@[bound] theorem whole_serveKeyReplace (h : Whole s) (k : Ticket) :
    Whole (serveKeyReplace s k) := by
  rcases e : plainOf s k 1 112 k.buf with ⟨st | raw, s'⟩
  all_goals
    have h' : Whole s' := whole_of_snd e (by bound)
    simp only [serveKeyReplace, e]; bound
@[bound] theorem whole_setJournal (h : Whole s) (j : Nat) (g : JEntry → JEntry) : Whole (setJournal s j g) :=
  whole_of_tables h (by simp [tables, setJournal])
@[bound] theorem whole_dropReplace (h : Whole s) (j : Nat) : Whole (dropReplace s j) :=
  whole_setJournal (whole_of_tables h (by simp [tables])) ..
@[bound] theorem whole_commitReplace (h : Whole s) (j : Nat) :
    Whole (commitReplace s j) := by
  unfold commitReplace
  extract_lets e
  split
  · exact h
  next r _ =>
    refine whole_ite h (whole_ite (whole_dropReplace h j) ?_)
    have hbegun : Whole (setJournal s j fun x => { x with jstate := 2 }) := whole_setJournal h ..
    refine whole_ite (whole_answerTicket (whole_tallyKeyEv (whole_dropReplace h j) ..) ..) (whole_tallyKeyEv (whole_modTicket ?_ ..) ..)
    exact whole_setReplace (whole_modSlot (whole_ite hbegun (whole_modParent hbegun ..)) ..) ..
@[bound] theorem whole_journalIdle (h : Whole s) (j : Nat) :
    Whole (journalIdle s j) := by
  simp only [journalIdle]; bound
@[bound] theorem whole_serveParentInvalidate (h : Whole s) (k : Ticket) :
    Whole (serveParentInvalidate s k) := by
  simp only [serveParentInvalidate]; bound
@[bound] theorem whole_revokeSlots (h :
    Whole s) (t : TarnIx) (slots : List Nat) (uid : Option Nat) (changeId result0 : Nat) (empties : Bool) :
    Whole (revokeSlots s t slots uid changeId result0 empties) := by
  simp only [revokeSlots]; bound
@[bound] theorem whole_applyInvalidate (h : Whole s) (uid : Nat) (t : TarnIx) (p : Nat) :
    Whole (applyInvalidate s uid t p) := by
  unfold applyInvalidate
  split
  · bound
  · apply whole_revokeSlots
    bound
@[bound] theorem whole_applyUnload (h : Whole s) (uid : Nat) (t : TarnIx) (slot : Nat) :
    Whole (applyUnload s uid t slot) := by
  simp only [applyUnload]; bound
@[bound] theorem whole_execKeyLoad (h : Whole s) (uid : Nat) : Whole (nextOf s (execKeyLoad uid s)) := by
  simp only [execKeyLoad, nextOf]; bound
@[bound] theorem whole_execKeyUnload (h : Whole s) (uid : Nat) : Whole (nextOf s (execKeyUnload uid s)) := by
  simp only [execKeyUnload, nextOf]; bound
@[bound] theorem whole_execKeyReplace (h : Whole s) (uid : Nat) : Whole (nextOf s (execKeyReplace uid s)) := by
  simp only [execKeyReplace, nextOf]; bound
@[bound] theorem whole_execKeyReplaceCommit (h : Whole s) (j : Fin 16) :
    Whole (nextOf s (execKeyReplaceCommit j s)) := by
  simp only [execKeyReplaceCommit, nextOf]; bound
@[bound] theorem whole_execKeyJournalIdle (h : Whole s) (j : Fin 16) :
    Whole (nextOf s (execKeyJournalIdle j s)) := by
  simp only [execKeyJournalIdle, nextOf]; bound
@[bound] theorem whole_execParentInvalidate (h : Whole s) (uid : Nat) :
    Whole (nextOf s (execParentInvalidate uid s)) := by
  simp only [execParentInvalidate, nextOf]; bound

end Sys2Proof.Machine
end

section
/-! The tables under REPORT_GET and BOUNCE_SETUP. -/

namespace Sys2Proof.Machine
variable {s : State}

@[bound] theorem whole_report (h : Whole s) (t : Option TarnIx) (nonce : Bytes) : Whole (report s t nonce).2 := whole_mk h ..

end Sys2Proof.Machine
end

section
/-! The tables under the GCI record links. -/

namespace Sys2Proof.Machine
variable {s : State}

@[bound] theorem whole_readAnswer (h : Whole s) (k : Ticket) (operand addr len unit : Nat) (l : List Bytes) (r1 : Nat) :
    Whole (readAnswer s k operand addr len unit l r1) := by
  rcases e : hostOut s k operand addr (fitUnits (bufCapacity s k len) unit l).flatten with ⟨st | _, s'⟩
  all_goals
    have h' : Whole s' := whole_of_snd e (by bound)
    simp only [readAnswer, e]; bound
@[bound] theorem whole_serveReport (h : Whole s) (k : Ticket) :
    Whole (serveReport s k) := by
  unfold serveReport
  split
  next st s₁ e =>
    have h₁ : Whole s₁ := whole_of_snd e (whole_plainOf h ..)
    exact whole_failTicket h₁ ..
  next nonce s₁ e =>
    have h₁ : Whole s₁ := whole_of_snd e (whole_plainOf h ..)
    dsimp only
    have h₂ := whole_report h₁ (some k.tarn) nonce
    split
    next st s₂ e' => exact whole_failTicket (whole_of_snd e' (whole_hostOut h₂ ..)) ..
    next s₂ e' => exact whole_finishTicket (whole_of_snd e' (whole_hostOut h₂ ..)) ..
@[bound] theorem whole_serveBounceSetup (h : Whole s) (k : Ticket) :
    Whole (serveBounceSetup s k) := by
  simp only [serveBounceSetup]; bound
@[bound] theorem whole_commitBounce (h : Whole s) (k : Ticket) :
    Whole (commitBounce s k) := by
  simp only [commitBounce]; bound
@[bound] theorem whole_execNop (h : Whole s) (uid : Nat) : Whole (nextOf s (execNop uid s)) := by
  simp only [execNop, nextOf]; bound
@[bound] theorem whole_execLedgerRead (h : Whole s) (uid : Nat) : Whole (nextOf s (execLedgerRead uid s)) := by
  simp only [execLedgerRead, nextOf]; bound
@[bound] theorem whole_execTallyRead (h : Whole s) (uid : Nat) : Whole (nextOf s (execTallyRead uid s)) := by
  simp only [execTallyRead, nextOf]; bound
@[bound] theorem whole_execReportGet (h : Whole s) (uid : Nat) : Whole (nextOf s (execReportGet uid s)) := by
  simp only [execReportGet, nextOf]; bound
@[bound] theorem whole_execBounceSetup (h : Whole s) (uid : Nat) : Whole (nextOf s (execBounceSetup uid s)) := by
  simp only [execBounceSetup, nextOf]; bound

end Sys2Proof.Machine
end

section
/-! The tables under sending and replaying flits. -/

namespace Sys2Proof.Machine
variable {s : State}

@[bound] theorem whole_replaceKeys (h : Whole s) (n : LinkIx) :
    Whole (replaceKeys s n) := by
  simp only [replaceKeys]; bound
@[bound] theorem whole_sendFlit (h : Whole s) (n : LinkIx) (kind vc : Nat) (last : Bool) (seq : Nat) (body : Bytes) :
    Whole (sendFlit s n kind vc last seq body) := by
  simp only [sendFlit]; bound
@[bound] theorem whole_resendAll (h : Whole s) (n : LinkIx) :
    Whole (resendAll s n) := by
  simp only [resendAll]; bound
theorem whole_sendOne (h : Whole s) (n : LinkIx) {s' : State} (hs : sendOne s n = some s') : Whole s' := by
  simp only [sendOne] at hs
  split at hs
  · cases hs
  · split at hs
    · cases hs
    · split at hs
      all_goals
        cases hs
        bound
@[bound] theorem whole_linkPumpAux (h : Whole s) (n : LinkIx) (fuel : Nat) :
    Whole (linkPumpAux n fuel s) := by
  induction fuel generalizing s with
  | zero => exact h
  | succ fuel ih =>
    rw [linkPumpAux]
    split
    · exact h
    · exact ih (whole_sendOne h n ‹_›)
@[bound] theorem whole_linkPump (h : Whole s) (n : LinkIx) : Whole (linkPump s n) := by simp only [linkPump]; bound
@[bound] theorem whole_sendMessage (h : Whole s) (n : LinkIx) (vc rank : Nat) (msg : Bytes) :
    Whole (sendMessage s n vc rank msg) := by
  simp only [sendMessage]; bound
@[bound] theorem whole_popMessage (h : Whole s) (n : LinkIx) (vc : Nat) : Whole (popMessage s n vc) := whole_modLink h ..
@[bound] theorem whole_sendTopo (h : Whole s) (n : LinkIx) : Whole (sendTopo s n) := by simp only [sendTopo]; bound

end Sys2Proof.Machine
end

section
/-! The tables under the Basin arithmetic. -/

namespace Sys2Proof.Machine
variable {s : State}

@[bound] theorem whole_imgAdd (h : Whole s) (p : Plan) (sub : Bool) (words : List Nat) :
    Whole (imgAdd s p sub words) := whole_mem h (memWf_imgAdd s p sub words) _
@[bound] theorem whole_stageVector (h : Whole s) (p : Plan) (i : Nat) (b : Bytes) :
    Whole (stageVector s p i b) := whole_mem h (memWf_stageVector s p i b) _
@[bound] theorem whole_copyImage (h : Whole s) (len dst src : Nat) : Whole (copyImage s len dst src) := whole_mem h (memWf_copyImage s len dst src) _
@[bound] theorem whole_zeroImages (h : Whole s) (p : Plan) (from_ upTo : Nat) :
    Whole (zeroImages s p from_ upTo) :=
  whole_mem h (memWf_zeroImages s p from_ upTo) _
@[bound] theorem whole_modSlotOf (h : Whole s) (t : TarnIx) (rid i : Nat) (x : Slot) :
    Whole (modSlotOf s t rid i x) := whole_modRound h ..
@[bound] theorem whole_touchRound (h : Whole s) (t : TarnIx) (rid : Nat) : Whole (touchRound s t rid) := whole_modRound h ..
@[bound] theorem whole_clearSlot (h : Whole s) (t : TarnIx) (rid i : Nat) (x : Slot) :
    Whole (clearSlot s t rid i x) := by
  simp only [clearSlot]; bound
@[bound] theorem whole_fillSlot (h : Whole s) (t : TarnIx) (rid i : Nat) (b : Bytes) :
    Whole (fillSlot s t rid i b) := by
  simp only [fillSlot]; bound
@[bound] theorem whole_sendIntake (h : Whole s) (n : LinkIx) (ty count : Nat) (data : Bytes) :
    Whole (sendIntake s n ty count data) := by
  simp only [sendIntake]; bound
@[bound] theorem whole_grantCredits (h : Whole s) (t : TarnIx) :
    Whole (grantCredits s t) := by
  simp only [grantCredits]; bound
@[bound] theorem whole_sendOutcome (h : Whole s) (n : LinkIx) (rid c : Nat) (st : Status) :
    Whole (sendOutcome s n rid c st) := by
  simp only [sendOutcome]; bound

end Sys2Proof.Machine
end

section
/-! The tables under figures, their streams and landing accesses. -/

namespace Sys2Proof.Machine
variable {s : State}

@[bound] theorem whole_modFig (h : Whole s) (g : Nat) (f : FigRun → FigRun) :
    Whole (modFig s g f) :=
  whole_of_tables h (by simp [tables, modFig])
@[bound] theorem whole_setFig (h : Whole s) (g : Nat) (x : Option FigRun) : Whole { s with figs := s.figs.set g x } :=
  whole_of_tables h (by simp [tables])
@[bound] theorem whole_modTile (h : Whole s) (g ti : Nat) (h : TileRun → TileRun) :
    Whole (modTile s g ti h) := by
  simp only [modTile]; bound
@[bound] theorem whole_figFault (h : Whole s) (g : Nat) (st : Status) :
    Whole (figFault s g st) := by
  simp only [figFault]; bound
@[bound] theorem whole_settle (h : Whole s) (bad : Nat → Bool) (a : Nat) (bs : Bytes) :
    Whole (settle s bad a bs).2 := by
  simp only [settle]; bound
@[bound] theorem whole_noteAccess (h : Whole s) (g ti kind a len : Nat) : Whole (noteAccess s g ti kind a len) := whole_modFig h ..
@[bound] theorem whole_atomicApply (h : Whole s) (ty a : Nat) (y : Bytes) :
    Whole (atomicApply s ty a y).2 := by
  simp only [atomicApply]; bound
theorem whole_untilFault {α : Type} {f : State → α → Option Status × State}
    (hf : ∀ s x, Whole s → Whole (f s x).2) (l : List α) (h : Whole s) :
    Whole (untilFault f l s).2 := by
  induction l generalizing s with
  | nil => exact h
  | cons x l ih =>
    unfold untilFault
    split
    next s' e => exact ih (whole_of_snd e (hf s x h))
    · exact hf s x h
@[bound] theorem whole_reelApply (h : Whole s) (f : FigRun) (ti : Nat) (c : List Nat) :
    Whole (reelApply s f ti c).2 := by
  unfold reelApply
  dsimp only
  refine whole_ite_snd h (whole_pair _ ?_)
  refine whole_foldl (fun s i hs => whole_markPoison hs ..) _ ?_
  refine whole_devWrite (whole_settle ?_ ..) ..
  generalize (reelRanges c).1 = srcs
  have hread : ∀ (l : List (Nat × Nat)) (acc : List Bytes × State), Whole acc.2 →
      Whole (l.foldl (fun (acc : List Bytes × State) x =>
        (acc.1 ++ [(settle acc.2 (otherClash f ti accRead) x.1 (devRead acc.2 x.1 x.2)).1],
          (settle acc.2 (otherClash f ti accRead) x.1 (devRead acc.2 x.1 x.2)).2)) acc).2 := by
    intro l
    induction l with
    | nil => exact fun _ hacc => hacc
    | cons x l ih => exact fun acc hacc => ih _ (whole_settle hacc ..)
  exact hread srcs _ h
@[bound] theorem whole_arrive (h : Whole s) (g ti : Nat) (q : Req) :
    Whole (arrive s g ti q).2 := by
  unfold arrive
  split
  · exact h
  next f _ =>
    split
    · exact whole_devWrite (whole_settle h ..) ..
    next ty a y =>
      have happly := whole_atomicApply h ty a y
      split
      next st s' e => exact whole_pair (some st) (whole_of_snd e happly)
      next s' e => exact whole_pair none (whole_devWrite (whole_settle (whole_of_snd e happly) ..) ..)
    · exact whole_reelApply h ..
@[bound] theorem whole_drawArrival (h : Whole s) : Whole (drawArrival s).2 := whole_mk h ..
@[bound] theorem whole_landOne (h : Whole s) (g : Nat) (own : Nat → Bool) (force : Bool) :
    Whole (landOne g own force s) := by
  unfold landOne
  split
  · exact h
  next f _ =>
    dsimp only
    split
    · exact h
    next x _ =>
      have harrive := whole_arrive (whole_modFig (whole_drawArrival h) g fun f => { f with flying := f.flying.erase x }) g x.1 x.2
      split
      next s' e => exact whole_of_snd e harrive
      next st s' e => exact whole_figFault (whole_of_snd e harrive) ..
@[bound] theorem whole_landAll (h : Whole s) (g : Nat) (own : Nat → Bool) (force : Bool) :
    Whole (landAll s g own force) := whole_iter (fun _ h => whole_landOne h ..) _ h
@[bound] theorem whole_landSome (h : Whole s) (g : Nat) :
    Whole (landSome s g) := by
  unfold landSome
  exact whole_ite h (whole_iter (fun _ h => whole_landOne h ..) _ (whole_drawArrival h))
@[bound] theorem whole_issue (h : Whole s) (g ti : Nat) (q : Req) (f : FigRun) :
    Whole (issue s g ti q f).2 := by
  have hnote : ∀ {s}, Whole s →
      Whole ((reqAccesses q).foldl (fun s (x : Nat × Nat × Nat) => noteAccess s g ti x.1 x.2.1 x.2.2) s) :=
    fun h => whole_foldl (fun _ _ h => whole_noteAccess h ..) _ h
  have hnow : ∀ {s}, Whole s → Whole (match arrive s g ti q with
      | (none, s) => (none, (reqAccesses q).foldl (fun s (x : Nat × Nat × Nat) => noteAccess s g ti x.1 x.2.1 x.2.2) s)
      | e => e).2 := by
    intro s h
    have harrive := whole_arrive h g ti q
    split
    next s' e => exact whole_pair none (hnote (whole_of_snd e harrive))
    · exact harrive
  unfold issue
  split
  · exact h
  · refine whole_ite_snd (whole_ite_snd (whole_pair none (hnote (whole_modFig ?_ ..))) (hnow ?_)) (hnow h)
    all_goals exact whole_drawArrival (whole_landSome h g)
@[bound] theorem whole_tileRead (h : Whole s) (g ti a len : Nat) (f : FigRun) :
    Whole (tileRead s g ti a len f).2 := by
  unfold tileRead
  split
  · exact h
  · exact whole_ite_snd (whole_landSome h g) (whole_noteAccess (whole_settle (whole_landSome h g) ..) ..)
@[bound] theorem whole_remoteIssue (h : Whole s) (g : GroupIx) (ti : TileIx) (w : List Nat) (f : FigRun) (r : TileRun) :
    Whole (remoteIssue s g ti w f r).2 := by
  simp only [remoteIssue]; bound
@[bound] theorem whole_outputRows (h : Whole s) (g ti : Nat) (w : List Nat) (f : FigRun) (r : TileRun) :
    Whole (outputRows s g ti w f r).2 := by
  refine whole_untilFault (fun s i hs => ?_) _ h
  generalize outRowBytes (scrOf f ti r) w r f.srSeed f.figIndex i = row
  have hrow (fmt a : Nat) : Whole (if bit (ow w 1) 32
      then untilFault (fun s (x : Nat × Bytes) => issue s g ti (.atomic fmt (a + 64 * x.1) x.2) f)
        ((chunks 64 row.1).zipIdx.map fun x => (x.2, x.1)) s
      else if row.1.isEmpty then (none, s) else issue s g ti (.write a row.1) f).2 :=
    whole_ite_snd (whole_untilFault (fun _ _ h => whole_issue h ..) _ hs) (whole_ite_snd hs (whole_issue hs ..))
  dsimp only
  split
  next s' e =>
    have hs' := whole_of_snd e (hrow _ _)
    exact whole_ite_snd (whole_pair none hs') (whole_issue hs' ..)
  · exact hrow _ _
@[bound] theorem whole_opDone {x : Option Status × State} (h : Whole x.2) (g ti : Nat) :
    Whole (opDone g ti x).1 := by
  unfold opDone
  split
  · exact whole_modTile h ..
  · exact whole_figFault h ..
@[bound] theorem whole_tileStep (h : Whole s) (g : GroupIx) (ti : TileIx) : Whole (tileStep s g ti).1 := by
  unfold tileStep
  split
  · exact h
  next f _ =>
    dsimp only
    split
    · exact h
    next w _ _ =>
      refine whole_ite_fst h ?_
      have hput : ∀ r', Whole (opDone g ti (none, modTile s g ti fun _ => r')).1 :=
        fun r' => whole_opDone (whole_pair none (whole_modTile h ..)) ..
      split
      · refine whole_opDone (whole_untilFault (fun s x hs => ?_) _ h) ..
        have hread := whole_tileRead hs g ti x.1.1 x.1.2 f
        split
        next st s' e => exact whole_pair (some st) (whole_of_snd e hread)
        next bs s' e => exact whole_pair none (whole_modTile (whole_of_snd e hread) ..)
      · exact whole_opDone (whole_untilFault (fun s x hs => whole_issue hs ..) _ h) ..
      · exact hput _
      · exact whole_ite_fst (hput _) (whole_opDone (whole_outputRows h ..) ..)
      · exact hput _
      · exact hput _
      · exact hput _
      · exact whole_opDone (whole_untilFault (fun s x hs => whole_issue hs ..) _ h) ..
      · exact hput _
      · exact whole_opDone (whole_issue h ..) ..
      · exact whole_opDone (whole_remoteIssue h ..) ..
      · have hall : ∀ own, Whole (landAll s g own) := fun own => whole_landAll h ..
        refine whole_ite_fst (whole_ite_fst (whole_ite_fst ?_ ?_) (whole_setFig h ..)) (whole_ite_fst (whole_ite_fst ?_ (hall _)) h)
        · exact whole_modFig (whole_landAll (whole_setFig h ..) ..) ..
        · exact whole_landAll (whole_setFig h ..) ..
        · exact whole_opDone (whole_pair none (whole_modFig (hall _) ..)) ..
      · exact hput _
@[bound] theorem whole_tileRunOn (h : Whole s) (g : GroupIx) (ti : TileIx) (fuel : Nat) :
    Whole (tileRunOn g ti fuel s) := by
  induction fuel generalizing s with
  | zero => exact h
  | succ fuel ih =>
    have hstep := whole_tileStep h g ti
    rw [tileRunOn]
    split
    next s' e => exact ih (whole_of_fst e hstep)
    next s' e => exact whole_of_fst e hstep
@[bound] theorem whole_figRunOn (h : Whole s) (g : GroupIx) :
    Whole (figRunOn s g) := by
  unfold figRunOn
  split
  · exact h
  · exact whole_iter (fun s h => whole_foldl (fun s ti h => whole_tileRunOn h ..) _ h) _ h
@[bound] theorem whole_digestIfLast (h : Whole s) (uid : Nat) :
    Whole (digestIfLast s uid) := by
  simp only [digestIfLast]; bound
@[bound] theorem whole_figEnd (h : Whole s) (g : GroupIx) (cycles : Nat) :
    Whole (figEnd s g cycles) := by
  unfold figEnd
  split
  · exact h
  · have hall := whole_landAll h g (fun _ => true) false
    exact whole_ite (whole_ite (whole_digestIfLast (whole_modFig hall ..) ..) hall) h
@[bound] theorem whole_leaveSlot (h : Whole s) (g : Nat) :
    Whole (leaveSlot s g) := by
  have hall := whole_landAll h g (fun _ => true) true
  unfold leaveSlot
  dsimp only
  split
  · exact hall
  · exact whole_of_tables hall (by simp [tables])
@[bound] theorem whole_tileUpTo (h : Whole s) (g : GroupIx) (ti : TileIx) (isKind : List Nat → Bool) (fuel : Nat) :
    Whole (tileUpTo g ti isKind fuel s) := by
  induction fuel generalizing s with
  | zero => exact h
  | succ fuel ih =>
    have hstep := whole_tileStep h g ti
    rw [tileUpTo]
    split
    · exact h
    · split
      · exact h
      · split
        next s' e => exact whole_ite (whole_of_fst e hstep) (ih (whole_of_fst e hstep))
        next s' e => exact whole_of_fst e hstep
@[bound] theorem whole_nextOfKind (h : Whole s) (g : GroupIx) (ti : TileIx) (isKind : List Nat → Bool) :
    Whole (nextOfKind s g ti isKind) := by
  simp only [nextOfKind]; bound
@[bound] theorem whole_execFigureFinish (h : Whole s) (g : GroupIx) (cycles : Nat) :
    Whole (nextOf s (execFigureFinish g cycles s)) := by
  simp only [execFigureFinish, nextOf]; bound
@[bound] theorem whole_execMemoryRequest (h : Whole s) (g : GroupIx) (tile : TileIx) :
    Whole (nextOf s (execMemoryRequest g tile s)) := by
  simp only [execMemoryRequest, nextOf]; bound
@[bound] theorem whole_execReelCommand (h : Whole s) (g : GroupIx) (tile : TileIx) :
    Whole (nextOf s (execReelCommand g tile s)) := by
  simp only [execReelCommand, nextOf]; bound
@[bound] theorem whole_execAtomicRequest (h : Whole s) (g : GroupIx) (tile : TileIx) :
    Whole (nextOf s (execAtomicRequest g tile s)) := by
  simp only [execAtomicRequest, nextOf]; bound

end Sys2Proof.Machine
end

section
/-! The tables under COPY and the two loads. -/

namespace Sys2Proof.Machine
variable {s : State}

theorem whole_copyToDevice (h : Whole s) (k : Ticket) (off : Nat) (bs : Bytes) {s' : State}
    (e : copyToDevice s k off bs = .ok s') : Whole s' := by
  unfold copyToDevice at e
  dsimp only at e
  split at e
  · cases e
  · cases e
    exact whole_devWrite h ..
@[bound] theorem whole_copyFinish (h : Whole s) (k : Ticket) (bs : Bytes) :
    Whole (copyFinish s k bs) := by
  unfold copyFinish
  dsimp only
  have hout := whole_hostOut h k 1 (opW k 1) bs 0
  split
  · split
    next st s' e => exact whole_failTicket (whole_of_snd e hout) ..
    next s' e => exact whole_finishTicket (whole_modTicket (whole_of_snd e hout) ..) ..
  · split
    next => exact whole_failTicket h ..
    next s' e => exact whole_finishTicket (whole_modTicket (whole_copyToDevice h _ _ _ e) ..) ..
@[bound] theorem whole_copyDecrypt (h : Whole s) (k : Ticket) (pkg material : Bytes) :
    Whole (copyDecrypt s k pkg material) := by
  unfold copyDecrypt
  split
  · exact whole_failTicket h ..
  · refine whole_ite (whole_failTicket h ..) (whole_ite (whole_failTicket (whole_ite h ?_) ..) (whole_copyFinish h ..))
    split
    next => exact h
    next s' e => exact whole_modTicket (whole_copyToDevice h _ _ _ e) ..
@[bound] theorem whole_copyRun (h : Whole s) (k : Ticket) (material : Option Bytes) :
    Whole (copyRun s k material) := by
  unfold copyRun
  dsimp only
  split
  next m _ _ =>
    have hopen : ∀ total, Whole (openTransfer k 0 total (cdiv total recPayload) k.buf [] s).2 :=
      fun _ => whole_openTransfer h ..
    refine whole_ite ?_ (whole_ite ?_ (whole_ite ?_ (whole_copyDecrypt h ..)))
    · bound
    · split
      · exact whole_fetchHost h ..
      · split
        next st s' e => exact whole_failTicket (whole_of_snd e (hopen _)) ..
        next pkg s' e => exact whole_copyDecrypt (whole_of_snd e (hopen _)) ..
      · exact h
    · bound
  · refine whole_ite ?_ (whole_ite (whole_finishTicket h ..) ?_)
    · bound
    · have htake := whole_takePlain h k.uid 0 (opW k 2)
      split
      · exact htake
      · refine whole_ite htake (whole_ite ?_ (whole_ite ?_ htake))
        · split
          next => exact whole_failTicket htake ..
          next s' e =>
            have hs' := whole_copyToDevice htake _ _ _ e
            bound
        · bound
@[bound] theorem whole_serveRunning {uid op : Nat} {g : State → Ticket → State} (hg : ∀ k, Whole (g s k)) (h :
    Whole s) :
    Whole (serveRunning s uid op g) := by
  simp only [serveRunning]; bound
@[bound] theorem whole_withKey {g : State → Ticket → Bytes → State} (hg : ∀ s k m, Whole s → Whole (g s k m))
    (h : Whole s) (k : Ticket) (slot usage : Nat) : Whole (withKey s k slot usage g) := by
  unfold withKey
  split
  · exact hg _ _ _ h
  · split
    · exact whole_failTicket h ..
    · exact hg _ _ _ (whole_modTicket h ..)
@[bound] theorem whole_serveCopy (h : Whole s) (k : Ticket) :
    Whole (serveCopy s k) := by
  simp only [serveCopy]; bound
@[bound] theorem whole_modelChunks (h : Whole s) (k : Ticket) (m h body : Bytes) :
    Whole (modelChunks s k m h body) := by
  simp only [modelChunks]; bound
@[bound] theorem whole_serveModelLoad (h : Whole s) (k : Ticket) :
    Whole (serveModelLoad s k) := by
  simp only [serveModelLoad]; bound
@[bound] theorem whole_serveMicroprog (h : Whole s) (k : Ticket) :
    Whole (serveMicroprog s k) := by
  simp only [serveMicroprog]; bound
@[bound] theorem whole_installProg (h : Whole s) (t : TarnIx) (fn : Nat) (b : Bytes) :
    Whole (installProg s t fn b) := by
  simp only [installProg]; bound
@[bound] theorem whole_commitMicroprog (h : Whole s) (k : Ticket) :
    Whole (commitMicroprog s k) := by
  simp only [commitMicroprog]; bound
@[bound] theorem whole_execCopy (h : Whole s) (uid : Nat) : Whole (nextOf s (execCopy uid s)) := by
  simp only [execCopy, nextOf]; bound
@[bound] theorem whole_execModelLoad (h : Whole s) (uid : Nat) : Whole (nextOf s (execModelLoad uid s)) := by
  simp only [execModelLoad, nextOf]; bound
@[bound] theorem whole_execMicroprogLoad (h : Whole s) (uid : Nat) :
    Whole (nextOf s (execMicroprogLoad uid s)) := by
  simp only [execMicroprogLoad, nextOf]; bound

end Sys2Proof.Machine
end

section
/-! The tables under checks of operands at admission. -/

namespace Sys2Proof.Machine
variable {s : State}

@[bound] theorem whole_takeId (h : Whole s) (ix : Nat) : Whole (takeId s ix).2 := whole_mk h ..
@[bound] theorem whole_createTicket (h : Whole s) (t : TarnIx) (q : QpIx) (e : Entry) :
    Whole (createTicket s t q e).2 := by
  simp only [createTicket]; bound

end Sys2Proof.Machine
end

section
/-! The tables under completions and fences. -/

namespace Sys2Proof.Machine
variable {s : State}

@[bound] theorem whole_sealRegion (h : Whole s) (t : TarnIx) (a len : Nat) :
    Whole (sealRegion s t a len) := by
  simp only [sealRegion]; bound
@[bound] theorem whole_beforeCommit (h : Whole s) (k : Ticket) :
    Whole (beforeCommit s k) := by
  simp only [beforeCommit]; bound
@[bound] theorem whole_commitTicket (h : Whole s) (uid : Nat) :
    Whole (commitTicket s uid) := by
  simp only [commitTicket]; bound
@[bound] theorem whole_commitTickets (h : Whole s) : Whole (commitTickets s) := by simp only [commitTickets]; bound
@[bound] theorem whole_releaseTicket (h : Whole s) (uid : Nat) :
    Whole (releaseTicket s uid) := by
  simp only [releaseTicket]; bound
@[bound] theorem whole_postComp (h : Whole s) (t : TarnIx) (q : QpIx) (x : PostItem) (c : Comp) (fails : Bool) :
    Whole (postComp s t q x c fails) := by
  simp only [postComp]; bound
@[bound] theorem whole_postQp (h : Whole s) (may : PostItem → Bool) (t : TarnIx) (q : QpIx) (fails : Bool) (fuel : Nat) :
    Whole (postQp may t q fails fuel s) := by
  induction fuel generalizing s with
  | zero => exact h
  | succ fuel ih =>
    unfold postQp
    split
    · exact h
    next x _ _ =>
      split
      · exact h
      next c _ =>
        apply ih
        split
        · exact whole_releaseTicket (whole_postComp h ..) ..
        · exact whole_postComp h ..
@[bound] theorem whole_postTarn (h : Whole s) (cqFail : List (TarnIx × QpIx)) (t : TarnIx) (may : PostItem → Bool) :
    Whole (postTarn s cqFail t may) := by
  unfold postTarn
  apply whole_foldl
  · exact fun s q h => whole_postQp h ..
  · exact h
@[bound] theorem whole_postAll (h : Whole s) (cqFail : List (TarnIx × QpIx)) :
    Whole (postAll s cqFail) := by
  unfold postAll
  apply whole_foldl
  · exact fun s uid h => whole_releaseTicket h uid
  · apply whole_foldl
    · exact fun s t h => whole_postTarn h ..
    · exact h
@[bound] theorem whole_raiseIrqs (h : Whole s) (t : TarnIx) :
    Whole (raiseIrqs s t) := by
  unfold raiseIrqs
  apply whole_foldl
  · exact fun s q h => whole_modQp h ..
  · apply whole_foldl
    · exact fun s v h => whole_sendVector h ..
    · exact h
@[bound] theorem whole_raiseAll (h : Whole s) :
    Whole (raiseAll s) := by
  unfold raiseAll
  apply whole_foldl
  · exact fun s t h => whole_raiseIrqs h t
  · exact h

end Sys2Proof.Machine
end

section
/-! The tables under rounds, their records and their release. -/

namespace Sys2Proof.Machine
variable {s : State}

@[bound] theorem whole_combineNote (h : Whole s) (t : TarnIx) (r : Round) (kind : Nat) :
    Whole (combineNote s t r kind) := by
  simp only [combineNote]; bound
@[bound] theorem whole_takeMsg (h : Whole s) (x : LinkIx × InMsg) : Whole (takeMsg s x) := whole_modLink h ..
@[bound] theorem whole_tallyMove (h : Whole s) (t : TarnIx) (r : Round) (dst : RState) (st : Status) (certDigest : Bytes) :
    Whole (tallyMove s t r dst st certDigest) := by
  simp only [tallyMove]; bound
@[bound] theorem whole_moveRound (h : Whole s) (t : TarnIx) (rid : Nat) (dst : RState) (st : Status) (certDigest : Bytes) :
    Whole (moveRound s t rid dst st certDigest) := by
  simp only [moveRound]; bound
@[bound] theorem whole_roundEvent (h : Whole s) (t : TarnIx) (rid code : Nat) (st : Status) :
    Whole (roundEvent s t rid code st) := by
  simp only [roundEvent]; bound
@[bound] theorem whole_retireRound (h : Whole s) (t : TarnIx) (rid : Nat) : Whole (retireRound s t rid) := whole_modTarn h ..
@[bound] theorem whole_writeOutcomes (h : Whole s) (k : Ticket) (unit : Nat) :
    Whole (writeOutcomes s k unit).2 := by
  simp only [writeOutcomes]; bound
@[bound] theorem whole_entryOutcome (h : Whole s) (uid m unit : Nat) (st : Status) :
    Whole (entryOutcome s uid m unit st) := by
  simp only [entryOutcome]; bound
@[bound] theorem whole_recOutcome (h : Whole s) (src : Option RecSource) (unit rid c : Nat) (st : Status) :
    Whole (recOutcome s src unit rid c st) := by
  simp only [recOutcome]; bound
@[bound] theorem whole_openChecked (h : Whole s) (k : Ticket) (raw : Bytes) (p : Plan) (roster : Bytes) :
    Whole (openChecked s k raw p roster) := by
  simp only [openChecked]; bound
@[bound] theorem whole_serveRoundOpen (h : Whole s) (k : Ticket) :
    Whole (serveRoundOpen s k) := by
  have hplain : ∀ operand p, Whole (plainOf s k operand p k.buf).2 := fun _ _ => whole_plainOf h ..
  unfold serveRoundOpen
  refine whole_ite ?_ (whole_ite ?_ h)
  · split
    next st s' e => exact whole_failTicket (whole_of_snd e (hplain ..)) ..
    next raw s' e =>
      have hs' := whole_of_snd e (hplain ..)
      bound
  · split
    next p roster s' _ e =>
      have hs' := whole_of_snd e (hplain ..)
      bound
    next st s' e => exact whole_failTicket (whole_of_snd e (hplain ..)) ..
    · exact h
@[bound] theorem whole_zeroRound (h : Whole s) (t : TarnIx) (rid : Nat) :
    Whole (zeroRound s t rid) := by
  simp only [zeroRound]; bound
@[bound] theorem whole_becomeOpen (h : Whole s) (t : TarnIx) (rid : Nat) :
    Whole (becomeOpen s t rid) := by
  simp only [becomeOpen]; bound
theorem whole_contribStep (h : Whole s) (uid : Nat) {s' : State} (hs : contribStep s uid = some s') :
    Whole s' := by
  simp only [contribStep] at hs
  repeat' split at hs
  all_goals cases hs
  all_goals bound
@[bound] theorem whole_contribSteps (h : Whole s) (uid : Nat) (fuel : Nat) :
    Whole (contribSteps uid fuel s) := by
  induction fuel generalizing s with
  | zero => exact h
  | succ fuel ih =>
    rw [contribSteps]
    split
    · exact h
    next s' e => exact ih (whole_contribStep h uid e)
@[bound] theorem whole_serveContrib (h : Whole s) (k : Ticket) :
    Whole (serveContrib s k) := by
  simp only [serveContrib]; bound
@[bound] theorem whole_arriveSlot (h : Whole s) (t : TarnIx) (rid i : Nat) :
    Whole (arriveSlot s t rid i) := by
  simp only [arriveSlot]; bound
@[bound] theorem whole_foldSlot (h : Whole s) (t : TarnIx) (rid i : Nat) :
    Whole (foldSlot s t rid i) := by
  simp only [foldSlot]; bound
@[bound] theorem whole_commitFolds (h : Whole s) (t : TarnIx) (rid : Nat) :
    Whole (commitFolds s t rid) := by
  simp only [commitFolds]; bound
@[bound] theorem whole_stageExpire (h : Whole s) (t : TarnIx) (rid i : Nat) :
    Whole (stageExpire s t rid i) := by
  simp only [stageExpire]; bound
@[bound] theorem whole_setPart (h : Whole s) (n : LinkIx) (q q' : IntakePart) : Whole (setPart s n q q') := whole_modLink h ..
@[bound] theorem whole_dropPart (h : Whole s) (n : LinkIx) (q : IntakePart) : Whole (dropPart s n q) := whole_modLink h ..
@[bound] theorem whole_streamPart (h : Whole s) (n : LinkIx) (t : TarnIx) (q : IntakePart) (i : Nat) :
    Whole (streamPart s n t q i) := by
  simp only [streamPart]; bound
@[bound] theorem whole_pumpPart (h : Whole s) (t : TarnIx) (x : LinkIx × IntakePart) :
    Whole (pumpPart s t x) := by
  simp only [pumpPart]; bound
@[bound] theorem whole_expirePart (h : Whole s) (t : TarnIx) (x : LinkIx × IntakePart) :
    Whole (expirePart s t x) := by
  simp only [expirePart]; bound
@[bound] theorem whole_pumpIntake (h : Whole s) (t : TarnIx) :
    Whole (pumpIntake s t) := by
  simp only [pumpIntake]; bound
@[bound] theorem whole_resumeIntake (h : Whole s) (t : TarnIx) :
    Whole (resumeIntake s t) := by
  simp only [resumeIntake]; bound
@[bound] theorem whole_dropParts (h : Whole s) (t : TarnIx) (rid : Nat) (st : Status) :
    Whole (dropParts s t rid st) := by
  simp only [dropParts]; bound
@[bound] theorem whole_discardReceiving (h : Whole s) (t : TarnIx) (rid : Nat) (r : Round) (st : Status) :
    Whole (discardReceiving s t rid r st) := by
  simp only [discardReceiving]; bound
@[bound] theorem whole_arriveAll (h : Whole s) (t : TarnIx) (y : Nat) (all : Bool) :
    Whole (arriveAll s t y all) := by
  simp only [arriveAll]; bound
@[bound] theorem whole_closeRound (h : Whole s) (t : TarnIx) (rid : Nat) :
    Whole (closeRound s t rid) := by
  unfold closeRound
  split
  · exact h
  apply whole_ite h
  extract_lets quiet arrived
  have harrived : Whole arrived := whole_arriveAll h ..
  clear_value arrived
  split
  · exact harrived
  rename_i moved stamped _ r _
  extract_lets discarded told opened answered
  have hmoved : Whole moved := whole_moveRound harrived ..
  have hstamped : Whole stamped := whole_modRound hmoved ..
  clear_value stamped
  have htold : Whole told := whole_roundEvent (whole_arriveAll (whole_discardReceiving hstamped ..) ..) ..
  clear_value told
  have hopened : Whole opened := whole_ite (whole_tallyGovernorOpen htold ..) htold
  clear_value opened
  have hanswered : Whole answered := by
    apply whole_foldl _ _ hopened
    exact fun s k h => whole_finishTicket h ..
  exact whole_ite (whole_combineNote hanswered ..) hanswered
@[bound] theorem whole_serveRoundClose (h : Whole s) (k : Ticket) :
    Whole (serveRoundClose s k) := by
  simp only [serveRoundClose]; bound
@[bound] theorem whole_certify (h : Whole s) (t : TarnIx) (rid : Nat) (dst : RState) (st : Status) (sumDigest : Bytes) :
    Whole (certify s t rid dst st sumDigest) := by
  simp only [certify]; bound
@[bound] theorem whole_eraseSecrets (h : Whole s) (t : TarnIx) (rid : Nat) : Whole (eraseSecrets s t rid) :=
  whole_mk (whole_modRound (whole_modTarn h ..) ..) ..
@[bound] theorem whole_endRoundTickets (h : Whole s) (t : TarnIx) (rid : Nat) (st : Status) :
    Whole (endRoundTickets s t rid st) := by
  simp only [endRoundTickets]; bound
@[bound] theorem whole_dropSlots (h : Whole s) (t : TarnIx) (rid : Nat) (st : Status) :
    Whole (dropSlots s t rid st) := by
  simp only [dropSlots]; bound
@[bound] theorem whole_refuseRound (h : Whole s) (t : TarnIx) (rid : Nat) (st : Status) :
    Whole (refuseRound s t rid st) := by
  simp only [refuseRound]; bound
@[bound] theorem whole_abortRound (h : Whole s) (t : TarnIx) (rid : Nat) (st : Status) :
    Whole (abortRound s t rid st) := by
  simp only [abortRound]; bound
@[bound] theorem whole_releaseRound (h : Whole s) (t : TarnIx) (rid : Nat) :
    Whole (releaseRound s t rid) := by
  simp only [releaseRound]; bound
@[bound] theorem whole_regionScrubbed (h : Whole s) (t : TarnIx) (rid : Nat) :
    Whole (regionScrubbed s t rid) := by
  simp only [regionScrubbed]; bound
@[bound] theorem whole_serveRoundAbort (h : Whole s) (k : Ticket) :
    Whole (serveRoundAbort s k) := by
  simp only [serveRoundAbort]; bound
@[bound] theorem whole_serveRoundStatus (h : Whole s) (k : Ticket) :
    Whole (serveRoundStatus s k) := by
  unfold serveRoundStatus
  split
  · exact h
  next r _ =>
    dsimp only
    split
    next st s' e => exact whole_failTicket (whole_of_snd e (whole_hostOut h ..)) ..
    next s' e => exact whole_answerTicket (whole_of_snd e (whole_hostOut h ..)) ..
@[bound] theorem whole_serveCertRead (h : Whole s) (k : Ticket) :
    Whole (serveCertRead s k) := by
  unfold serveCertRead
  split
  · exact h
  next r _ =>
    refine whole_ite (whole_answerTicket h ..) ?_
    dsimp only
    split
    next st s' e => exact whole_failTicket (whole_of_snd e (whole_hostOut h ..)) ..
    next s' e => exact whole_answerTicket (whole_of_snd e (whole_hostOut h ..)) ..
@[bound] theorem whole_execRoundOpen (h : Whole s) (uid : Nat) : Whole (nextOf s (execRoundOpen uid s)) := by
  simp only [execRoundOpen, nextOf]; bound
@[bound] theorem whole_execRoundOpened (h : Whole s) (t : TarnIx) (round : BitVec 32) :
    Whole (nextOf s (execRoundOpened t round s)) := by
  simp only [execRoundOpened, nextOf]; bound
@[bound] theorem whole_execContribSubmit (h : Whole s) (uid : Nat) :
    Whole (nextOf s (execContribSubmit uid s)) := by
  simp only [execContribSubmit, nextOf]; bound
@[bound] theorem whole_execRecordArrival (h : Whole s) (t : TarnIx) (round : BitVec 32) (slot : Nat) :
    Whole (nextOf s (execRecordArrival t round slot s)) := by
  simp only [execRecordArrival, nextOf]; bound
@[bound] theorem whole_execFoldComplete (h : Whole s) (t : TarnIx) (round : BitVec 32) (slot : Nat) :
    Whole (nextOf s (execFoldComplete t round slot s)) := by
  simp only [execFoldComplete, nextOf]; bound
@[bound] theorem whole_execStageTimeout (h : Whole s) (t : TarnIx) (round : BitVec 32) (slot : Nat) :
    Whole (nextOf s (execStageTimeout t round slot s)) := by
  simp only [execStageTimeout, nextOf]; bound
@[bound] theorem whole_execRecordIntakeResume (h : Whole s) (t : TarnIx) :
    Whole (nextOf s (execRecordIntakeResume t s)) := by
  simp only [execRecordIntakeResume, nextOf]; bound
@[bound] theorem whole_execClose (h : Whole s) (t : TarnIx) (round : BitVec 32) :
    Whole (nextOf s (execClose t round s)) := by
  simp only [execClose, nextOf]; bound
@[bound] theorem whole_execRoundClose (h : Whole s) (uid : Nat) : Whole (nextOf s (execRoundClose uid s)) := by
  simp only [execRoundClose, nextOf]; bound
@[bound] theorem whole_execRoundRelease (h : Whole s) (t : TarnIx) (round : BitVec 32) :
    Whole (nextOf s (execRoundRelease t round s)) := by
  simp only [execRoundRelease, nextOf]; bound
@[bound] theorem whole_execRoundRegionScrubbed (h : Whole s) (t : TarnIx) (round : BitVec 32) :
    Whole (nextOf s (execRoundRegionScrubbed t round s)) := by
  simp only [execRoundRegionScrubbed, nextOf]; bound
@[bound] theorem whole_execRoundAbort (h : Whole s) (uid : Nat) : Whole (nextOf s (execRoundAbort uid s)) := by
  simp only [execRoundAbort, nextOf]; bound
@[bound] theorem whole_execUnmaskTimeout (h : Whole s) (t : TarnIx) (round : BitVec 32) :
    Whole (nextOf s (execUnmaskTimeout t round s)) := by
  simp only [execUnmaskTimeout, nextOf]; bound
@[bound] theorem whole_execRoundStatus (h : Whole s) (uid : Nat) : Whole (nextOf s (execRoundStatus uid s)) := by
  simp only [execRoundStatus, nextOf]; bound
@[bound] theorem whole_execCertRead (h : Whole s) (uid : Nat) : Whole (nextOf s (execCertRead uid s)) := by
  simp only [execCertRead, nextOf]; bound

end Sys2Proof.Machine
end

section
/-! The tables under change sets and the map. -/

namespace Sys2Proof.Machine
variable {s : State}

@[bound] theorem whole_swapTable (h : Whole s) (tb : SchedTable) :
    Whole (swapTable s tb) := by
  simp only [swapTable]; bound
@[bound] theorem whole_stepSchedule (h : Whole s) : Whole (stepSchedule s) := by simp only [stepSchedule]; bound
@[bound] theorem whole_acceptSet (h : Whole s) (c : ChangeSet) :
    Whole (acceptSet s c) := by
  unfold acceptSet
  dsimp only
  have hset :
    Whole { s with sets := (s.sets ++ [{ c with id := s.nextSet }]).drop (s.sets.length + 1 - 256), nextSet := s.nextSet % 0xFFFF + 1 } :=
    whole_mk h ..
  exact whole_ite (whole_tallySet (whole_tallySet hset ..) ..) (whole_tallySet hset ..)
@[bound] theorem whole_refuseSet (h : Whole s) (t : Nat) (digest : Bytes) (st : Status) :
    Whole (refuseSet s t digest st) := by
  simp only [refuseSet]; bound
@[bound] theorem whole_submitHost (h : Whole s) (t : TarnIx) (uid : Nat) (raw : Bytes) (len : Nat) :
    Whole (submitHost s t uid raw len).2 := by
  unfold submitHost
  dsimp only
  split
  · exact whole_refuseSet h ..
  · refine whole_ite_snd (whole_refuseSet h ..) (whole_ite_snd (whole_refuseSet h ..) ?_)
    split
    · exact whole_ite_snd (whole_refuseSet h ..) (whole_pair _ (whole_acceptSet h ..))
    · exact whole_refuseSet h ..
@[bound] theorem whole_submitMgmt (h : Whole s) (raw : Bytes) (force : Bool) (gmp : Option (GmpChannel × Nat)) :
    Whole (submitMgmt s raw force gmp).2 := by
  simp only [submitMgmt]; bound
@[bound] theorem whole_modSet (h : Whole s) (id : Nat) (g : ChangeSet → ChangeSet) : Whole (modSet s id g) := whole_mk h ..
@[bound] theorem whole_serveChangeStatus (h : Whole s) (k : Ticket) :
    Whole (serveChangeStatus s k) := by
  unfold serveChangeStatus
  split
  · exact whole_answerTicket h ..
  · refine whole_ite (whole_answerTicket h ..) ?_
    dsimp only
    split
    next st s' e => exact whole_failTicket (whole_of_snd e (whole_hostOut h ..)) ..
    next s' e => exact whole_answerTicket (whole_of_snd e (whole_hostOut h ..)) ..
@[bound] theorem whole_serveChangeSubmit (h : Whole s) (k : Ticket) :
    Whole (serveChangeSubmit s k) := by
  unfold serveChangeSubmit
  refine whole_ite h ?_
  have hplain := whole_plainOf h k 0 (opW k 1) k.buf
  split
  next st s' e => exact whole_failTicket (whole_of_snd e hplain) ..
  next raw s' e =>
    have hsubmit := whole_submitHost (whole_of_snd e hplain) k.tarn k.uid raw (opW k 1)
    split
    next s'' e' => exact whole_modTicket (whole_of_snd e' hsubmit) ..
    next st s'' _ e' => exact whole_answerTicket (whole_of_snd e' hsubmit) ..
@[bound] theorem whole_failPhase (h : Whole s) (c : ChangeSet) (st : Status) :
    Whole (failPhase s c st) := by
  simp only [failPhase]; bound
@[bound] theorem whole_forceAborts (h : Whole s) (ph : Phase) :
    Whole (forceAborts s ph) := by
  simp only [forceAborts]; bound
@[bound] theorem whole_endTarn (h : Whole s) (t : TarnIx) :
    Whole (endTarn s t) := by
  unfold endTarn
  apply whole_commitTickets
  apply whole_foldl
  · bound
  · exact whole_mk h ..
@[bound] theorem whole_applyPhase (h : Whole s) (c : ChangeSet) (ph : Phase) (breaks : Bool) :
    Whole (applyPhase s c ph breaks) := by
  unfold applyPhase
  extract_lets n total mapped programmed shadowed counted st noted advised
  have hmapped : Whole mapped := by unfold mapped; bound
  have hprogrammed : Whole programmed := by unfold programmed; bound
  have hshadowed : Whole shadowed := by unfold shadowed; bound
  have hcounted : Whole counted := whole_modSet hshadowed ..
  have hadvised : Whole advised := by unfold advised noted; bound
  bound
@[bound] theorem whole_takePhase (h : Whole s) (c : ChangeSet) (ph : Phase) :
    Whole (takePhase s c ph) := by
  unfold takePhase
  split
  · exact whole_failPhase h ..
  · apply whole_applyPhase
    apply whole_foldl
    · exact fun s t h => whole_postTarn (whole_endTarn h t) ..
    · exact whole_forceAborts h ph
@[bound] theorem whole_takeDue (h : Whole s) (kind : ChangeSet → Phase → Bool) :
    Whole (takeDue s kind) := by
  simp only [takeDue]; bound
@[bound] theorem whole_expirePhases (h : Whole s) : Whole (expirePhases s) := by simp only [expirePhases]; bound
@[bound] theorem whole_completeHostSet (h : Whole s) (uid id e : Nat) :
    Whole (completeHostSet s uid id e) := by
  unfold completeHostSet
  split
  next k c _ _ =>
    refine whole_ite h ?_
    split
    next st s' e => exact whole_failTicket (whole_of_snd e (whole_hostOut h ..)) ..
    next s' e => exact whole_finishTicket (whole_of_snd e (whole_hostOut h ..)) ..
  · exact h
@[bound] theorem whole_settleSets (h : Whole s) : Whole (settleSets s) := whole_mk h ..
@[bound] theorem whole_drainEffect (h : Whole s) (r : RuleChange) :
    Whole (drainEffect s r) := by
  simp only [drainEffect]; bound
@[bound] theorem whole_drainRule (h : Whole s) (id : Nat) :
    Whole (drainRule s id) := by
  simp only [drainRule]; bound
@[bound] theorem whole_drainRules (h : Whole s) : Whole (drainRules s) := by simp only [drainRules]; bound
@[bound] theorem whole_closeRule (h : Whole s) (r : RuleChange) :
    Whole (closeRule s r) := by
  simp only [closeRule]; bound
@[bound] theorem whole_closeRules (h : Whole s) : Whole (closeRules s) := by simp only [closeRules]; bound
@[bound] theorem whole_execScheduleSwap (h : Whole s) : Whole (nextOf s (execScheduleSwap s)) := by
  simp only [execScheduleSwap, nextOf]; bound
@[bound] theorem whole_execChangeStatus (h : Whole s) (uid : Nat) : Whole (nextOf s (execChangeStatus uid s)) := by
  simp only [execChangeStatus, nextOf]; bound
@[bound] theorem whole_execChangeSubmit (h : Whole s) (uid : Nat) : Whole (nextOf s (execChangeSubmit uid s)) := by
  simp only [execChangeSubmit, nextOf]; bound
@[bound] theorem whole_execMapChangeApply (h : Whole s) : Whole (nextOf s (execMapChangeApply s)) := by
  simp only [execMapChangeApply, nextOf]; bound
@[bound] theorem whole_execPhaseApply (h : Whole s) : Whole (nextOf s (execPhaseApply s)) := by
  simp only [execPhaseApply, nextOf]; bound
@[bound] theorem whole_execHostSetApply (h : Whole s) : Whole (nextOf s (execHostSetApply s)) := by
  simp only [execHostSetApply, nextOf]; bound
@[bound] theorem whole_execPhaseTimeout (h : Whole s) : Whole (nextOf s (execPhaseTimeout s)) := by
  simp only [execPhaseTimeout, nextOf]; bound
@[bound] theorem whole_execRuleChangeDrained (h : Whole s) : Whole (nextOf s (execRuleChangeDrained s)) := by
  simp only [execRuleChangeDrained, nextOf]; bound

end Sys2Proof.Machine
end

section
/-! The tables under shares, rebuilds, KAE jobs and combining. -/

namespace Sys2Proof.Machine
variable {s : State}

@[bound] theorem whole_requireSecrets (h : Whole s) (t : TarnIx) (rid : Nat) : Whole (requireSecrets s t rid) := whole_modRound h ..
@[bound] theorem whole_addJob (h : Whole s) (t : TarnIx) (rid kind owner other : Nat) (secret : Bytes) :
    Whole (addJob s t rid kind owner other secret) := whole_modTarn h ..
@[bound] theorem whole_dropJob (h : Whole s) (t : TarnIx) (id : Nat) : Whole (dropJob s t id) := whole_modTarn h ..
@[bound] theorem whole_startUnmasking (h : Whole s) (t : TarnIx) (rid : Nat) :
    Whole (startUnmasking s t rid) := by
  simp only [startUnmasking]; bound
@[bound] theorem whole_sendCombineData (h : Whole s) (t : TarnIx) (r : Round) :
    Whole (sendCombineData s t r) := by
  simp only [sendCombineData]; bound
@[bound] theorem whole_dropData (h : Whole s) (rid : Nat) : Whole (dropData s rid) := whole_mapLinks h _
@[bound] theorem whole_leaveClosed (h : Whole s) (t : TarnIx) (rid : Nat) :
    Whole (leaveClosed s t rid) := by
  simp only [leaveClosed]; bound
@[bound] theorem whole_putShares (h : Whole s) (t : TarnIx) (rid owner kind : Nat) (g : ShareSet → ShareSet) :
    Whole (putShares s t rid owner kind g) := whole_modRound h ..
@[bound] theorem whole_acceptShare (h : Whole s) (t : TarnIx) (r : Round) (e : Bytes) :
    Whole (acceptShare s t r e) := by
  simp only [acceptShare]; bound
@[bound] theorem whole_shareNext (h : Whole s) (t : TarnIx) (rid : Nat) :
    Whole (shareNext s t rid) := by
  simp only [shareNext]; bound
@[bound] theorem whole_serveShares (h : Whole s) (k : Ticket) :
    Whole (serveShares s k) := by
  simp only [serveShares]; bound
@[bound] theorem whole_countRebuild (h : Whole s) (t : TarnIx) (rid kind : Nat) :
    Whole (countRebuild s t rid kind) := whole_modRound h ..
@[bound] theorem whole_rebuildFails (h : Whole s) (t : TarnIx) (rid owner kind : Nat) (st : Status) :
    Whole (rebuildFails s t rid owner kind st) := by
  simp only [rebuildFails]; bound
@[bound] theorem whole_rebuildHead (h : Whole s) : Whole (rebuildHead s) := by simp only [rebuildHead]; bound
@[bound] theorem whole_settleSecret (h : Whole s) (t : TarnIx) (rid owner kind : Nat) :
    Whole (settleSecret s t rid owner kind) := by
  simp only [settleSecret]; bound
@[bound] theorem whole_flagEntry (h : Whole s) (t : TarnIx) (rid i other : Nat) (st : Status) :
    Whole (flagEntry s t rid i other st) := by
  simp only [flagEntry]; bound
@[bound] theorem whole_failEdge (h : Whole s) (t : TarnIx) (rid i j : Nat) (st : Status) :
    Whole (failEdge s t rid i j st) := by
  simp only [failEdge]; bound
@[bound] theorem whole_validateDone (h : Whole s) (t : TarnIx) (r : Round) (j : KaeJob) :
    Whole (validateDone s t r j) := by
  simp only [validateDone]; bound
@[bound] theorem whole_verifyDone (h : Whole s) (t : TarnIx) (r : Round) (j : KaeJob) :
    Whole (verifyDone s t r j) := by
  simp only [verifyDone]; bound
@[bound] theorem whole_pairDone (h : Whole s) (t : TarnIx) (r : Round) (j : KaeJob) :
    Whole (pairDone s t r j) := by
  simp only [pairDone]; bound
@[bound] theorem whole_jobDone (h : Whole s) (t : TarnIx) (j : KaeJob) :
    Whole (jobDone s t j) := by
  simp only [jobDone]; bound
@[bound] theorem whole_hkdfDone (h : Whole s) (t : TarnIx) (j : KaeJob) :
    Whole (hkdfDone s t j) := by
  simp only [hkdfDone]; bound
@[bound] theorem whole_correctImage (h : Whole s) (t : TarnIx) (rid id : Nat) :
    Whole (correctImage s t rid id) := by
  simp only [correctImage]; bound
@[bound] theorem whole_attachIfAll (h : Whole s) (t : TarnIx) (rid : Nat) :
    Whole (attachIfAll s t rid) := by
  simp only [attachIfAll]; bound
@[bound] theorem whole_serveAttach (h : Whole s) (k : Ticket) :
    Whole (serveAttach s k) := by
  have hplain := whole_plainOf h k 1 (opW k 2) k.buf
  unfold serveAttach
  split
  · exact h
  next st s' _ e => exact whole_failTicket (whole_of_snd e hplain) ..
  next r raw s' _ e =>
    have hs' := whole_of_snd e hplain
    bound
@[bound] theorem whole_confirmMember (h : Whole s) (t : TarnIx) (rid : Nat) (serial : Bytes) :
    Whole (confirmMember s t rid serial) := by
  simp only [confirmMember]; bound
@[bound] theorem whole_attachExpire (h : Whole s) (uid : Nat) :
    Whole (attachExpire s uid) := by
  simp only [attachExpire]; bound
@[bound] theorem whole_memberNote (h : Whole s) (t : TarnIx) (rid kind : Nat) (g : Round → Round) :
    Whole (memberNote s t rid kind g) := by
  simp only [memberNote]; bound
@[bound] theorem whole_addMember (h : Whole s) (t : TarnIx) (rid i : Nat) (bitmap image : Bytes) :
    Whole (addMember s t rid i bitmap image) := by
  simp only [addMember]; bound
@[bound] theorem whole_addEarly (h : Whole s) (t : TarnIx) (rid : Nat) :
    Whole (addEarly s t rid) := by
  simp only [addEarly]; bound
@[bound] theorem whole_missMember (h : Whole s) (t : TarnIx) (rid i : Nat) :
    Whole (missMember s t rid i) := by
  simp only [missMember]; bound
@[bound] theorem whole_roundStep (h : Whole s) (t : TarnIx) (rid : Nat) :
    Whole (roundStep s t rid) := by
  simp only [roundStep]; bound
@[bound] theorem whole_roundsStep (h : Whole s) : Whole (roundsStep s) := by simp only [roundsStep]; bound
@[bound] theorem whole_applyHold (h : Whole s) (t : TarnIx) (rid : Nat) : Whole (applyHold s t rid) := whole_addRule (whole_modRound h ..) _
@[bound] theorem whole_applyRelease (h : Whole s) (t : TarnIx) (rid : Nat) : Whole (applyRelease s t rid) := whole_addRule (whole_modRound h ..) _
@[bound] theorem whole_execRoundLeaveClosed (h : Whole s) (t : TarnIx) (round : BitVec 32) :
    Whole (nextOf s (execRoundLeaveClosed t round s)) := by
  simp only [execRoundLeaveClosed, nextOf]; bound
@[bound] theorem whole_execShareEntry (h : Whole s) (t : TarnIx) (round : BitVec 32) :
    Whole (nextOf s (execShareEntry t round s)) := by
  simp only [execShareEntry, nextOf]; bound
@[bound] theorem whole_execSharesSubmit (h : Whole s) (uid : Nat) : Whole (nextOf s (execSharesSubmit uid s)) := by
  simp only [execSharesSubmit, nextOf]; bound
@[bound] theorem whole_execRebuildComplete (h : Whole s) : Whole (nextOf s (execRebuildComplete s)) := by
  simp only [execRebuildComplete, nextOf]; bound
@[bound] theorem whole_execKaeJobComplete (h : Whole s) (t : TarnIx) (job : Nat) :
    Whole (nextOf s (execKaeJobComplete t job s)) := by
  simp only [execKaeJobComplete, nextOf]; bound
@[bound] theorem whole_execHkdfComplete (h : Whole s) (t : TarnIx) (job : Nat) :
    Whole (nextOf s (execHkdfComplete t job s)) := by
  simp only [execHkdfComplete, nextOf]; bound
@[bound] theorem whole_execMaskCorrectionDone (h : Whole s) (t : TarnIx) (round : BitVec 32) (corr : Nat) :
    Whole (nextOf s (execMaskCorrectionDone t round corr s)) := by
  simp only [execMaskCorrectionDone, nextOf]; bound
@[bound] theorem whole_execCombineAttach (h : Whole s) (uid : Nat) :
    Whole (nextOf s (execCombineAttach uid s)) := by
  simp only [execCombineAttach, nextOf]; bound
@[bound] theorem whole_execCombineConfirm (h : Whole s) (t : TarnIx) (round : BitVec 32) (member : Nat) (planDigest descDigest : Bytes) :
    Whole (nextOf s (execCombineConfirm t round member planDigest descDigest s)) := by
  simp only [execCombineConfirm, nextOf]; bound
@[bound] theorem whole_execCombineAttachTimeout (h : Whole s) (uid : Nat) :
    Whole (nextOf s (execCombineAttachTimeout uid s)) := by
  simp only [execCombineAttachTimeout, nextOf]; bound
@[bound] theorem whole_execLeaderCloseMessage (h : Whole s) (t : TarnIx) (round : BitVec 32) :
    Whole (nextOf s (execLeaderCloseMessage t round s)) := by
  simp only [execLeaderCloseMessage, nextOf]; bound
@[bound] theorem whole_execLeaderReleaseMessage (h : Whole s) (t : TarnIx) (round : BitVec 32) :
    Whole (nextOf s (execLeaderReleaseMessage t round s)) := by
  simp only [execLeaderReleaseMessage, nextOf]; bound
@[bound] theorem whole_execLeaderAbortMessage (h : Whole s) (t : TarnIx) (round : BitVec 32) :
    Whole (nextOf s (execLeaderAbortMessage t round s)) := by
  simp only [execLeaderAbortMessage, nextOf]; bound
@[bound] theorem whole_execCombineData (h : Whole s) (t : TarnIx) (round : BitVec 32) (member : Nat) (bitmap image : Bytes) :
    Whole (nextOf s (execCombineData t round member bitmap image s)) := by
  simp only [execCombineData, nextOf]; bound
@[bound] theorem whole_execMemberMissing (h : Whole s) (t : TarnIx) (round : BitVec 32) (member : Nat) :
    Whole (nextOf s (execMemberMissing t round member s)) := by
  simp only [execMemberMissing, nextOf]; bound
@[bound] theorem whole_execMemberOrphanAbort (h : Whole s) (t : TarnIx) (round : BitVec 32) :
    Whole (nextOf s (execMemberOrphanAbort t round s)) := by
  simp only [execMemberOrphanAbort, nextOf]; bound

end Sys2Proof.Machine
end

section
/-! The tables under timing and holdover. -/

namespace Sys2Proof.Machine
variable {s : State}

@[bound] theorem whole_tallyAlign (h : Whole s) (action : Nat) (leader : Bytes) (old new : Nat) :
    Whole (tallyAlign s action leader old new) := by
  simp only [tallyAlign]; bound
@[bound] theorem whole_enterHoldover (h : Whole s) : Whole (enterHoldover s) := by simp only [enterHoldover]; bound
@[bound] theorem whole_leaveHoldover (h : Whole s) : Whole (leaveHoldover s) := by simp only [leaveHoldover]; bound
@[bound] theorem whole_chooseLeader (h : Whole s) : Whole (chooseLeader s) := by simp only [chooseLeader]; bound
@[bound] theorem whole_correctPhase (h : Whole s) (ps : Int) :
    Whole (correctPhase s ps) := by
  simp only [correctPhase]; bound
@[bound] theorem whole_sendBeat (h : Whole s) (n : LinkIx) (corr : Int) :
    Whole (sendBeat s n corr) := by
  simp only [sendBeat]; bound
@[bound] theorem whole_takeBeat (h : Whole s) (n : LinkIx) (flit : Bytes) (arrivalPs : Int) :
    Whole (takeBeat s n flit arrivalPs) := by
  simp only [takeBeat]; bound
@[bound] theorem whole_applyJoin (h : Whole s) :
    Whole (applyJoin s) := by
  unfold applyJoin
  split
  · exact h
  next off _ =>
    extract_lets old new timing joined
    have hjoined : Whole joined := whole_of_tables h rfl
    bound
@[bound] theorem whole_execDomainJoin (h : Whole s) (offsetNs : Nat) :
    Whole (nextOf s (execDomainJoin offsetNs s)) := by
  simp only [execDomainJoin, nextOf]; bound
@[bound] theorem whole_execLeaderLoss (h : Whole s) : Whole (nextOf s (execLeaderLoss s)) := by
  simp only [execLeaderLoss, nextOf]; bound
@[bound] theorem whole_execBeatInPulse (h : Whole s) (widthNs : Nat) (offsetNs : Int) :
    Whole (nextOf s (execBeatInPulse widthNs offsetNs s)) := by
  simp only [execBeatInPulse, nextOf]; bound
@[bound] theorem whole_execPinHoldover (h : Whole s) (missed periodErrPpm : Nat) :
    Whole (nextOf s (execPinHoldover missed periodErrPpm s)) := by
  simp only [execPinHoldover, nextOf]; bound
@[bound] theorem whole_execPinHoldoverExit (h : Whole s) : Whole (nextOf s (execPinHoldoverExit s)) := by
  simp only [execPinHoldoverExit, nextOf]; bound

end Sys2Proof.Machine
end

section
/-! The tables under links, flits and remote accesses. -/

namespace Sys2Proof.Machine
variable {s : State}

@[bound] theorem whole_failRemote (h : Whole s) (m : Remote) (st : Status) :
    Whole (failRemote s m st) := by
  simp only [failRemote]; bound
@[bound] theorem whole_endLinkMessages (h : Whole s) (n : LinkIx) :
    Whole (endLinkMessages s n) := by
  simp only [endLinkMessages]; bound
@[bound] theorem whole_resendData (h : Whole s) (n : LinkIx) :
    Whole (resendData s n) := by
  simp only [resendData]; bound
@[bound] theorem whole_sendEphemeral (h : Whole s) (n : LinkIx) :
    Whole (sendEphemeral s n) := by
  simp only [sendEphemeral]; bound
@[bound] theorem whole_linkMove (h : Whole s) (n : LinkIx) (dst : LinkState) (cause : Nat) :
    Whole (linkMove s n dst cause) := by
  simp only [linkMove]; bound
@[bound] theorem whole_linkDown (h : Whole s) (n : LinkIx) (cause : Nat) :
    Whole (linkDown s n cause) := by
  simp only [linkDown]; bound
@[bound] theorem whole_linkDrain (h : Whole s) (n : LinkIx) (cause : Nat) :
    Whole (linkDrain s n cause) := by
  simp only [linkDrain]; bound
@[bound] theorem whole_tryUp (h : Whole s) (n : LinkIx) : Whole (tryUp s n) := by simp only [tryUp]; bound
@[bound] theorem whole_helloExpire (h : Whole s) (n : LinkIx) :
    Whole (helloExpire s n) := by
  simp only [helloExpire]; bound
@[bound] theorem whole_drainExpire (h : Whole s) (n : LinkIx) :
    Whole (drainExpire s n) := by
  simp only [drainExpire]; bound
@[bound] theorem whole_loseLane (h : Whole s) (n : LinkIx) (lane : Fin 8) :
    Whole (loseLane s n lane) := by
  simp only [loseLane]; bound
@[bound] theorem whole_newRoutes (h : Whole s) : Whole (newRoutes s) := whole_mk h ..
@[bound] theorem whole_flitIn (h : Whole s) (n : LinkIx) (flit : Bytes) :
    Whole (flitIn s n flit).2 := by
  have hkeys := whole_replaceKeys h n
  have hmod : ∀ g, Whole (modLink (replaceKeys s n) n g) := fun g => whole_modLink hkeys n g
  have hmods : ∀ g g', Whole (modLink (modLink (replaceKeys s n) n g) n g') := fun g g' => whole_modLink (hmod g) n g'
  unfold flitIn
  refine whole_ite_snd hkeys (whole_ite_snd (whole_ite_snd (hmod _) (whole_ite_snd ?_ (whole_ite_snd ?_
    (whole_ite_snd (hmods ..) (hmods ..))))) (whole_ite_snd (hmod _) hkeys))
  · exact whole_ite (hmods ..) (hmod _)
  · exact whole_ite (hmods ..) (hmod _)
@[bound] theorem whole_sendAck (h : Whole s) (n : LinkIx) : Whole (sendAck s n) := by simp only [sendAck]; bound
@[bound] theorem whole_takeTopo (h : Whole s) (n : LinkIx) (b : Bytes) : Whole (takeTopo s n b) :=
  whole_mk (whole_modLink h ..) ..
@[bound] theorem whole_acceptData (h : Whole s) (n : LinkIx) (flit : Bytes) :
    Whole (acceptData s n flit) := by
  simp only [acceptData]; bound
@[bound] theorem whole_replayAll (h : Whole s) (n : LinkIx) :
    Whole (replayAll s n) := by
  simp only [replayAll]; bound
@[bound] theorem whole_sendHello (h : Whole s) (n : LinkIx) :
    Whole (sendHello s n) := by
  simp only [sendHello]; bound
@[bound] theorem whole_takeHello (h : Whole s) (n : LinkIx) (p : Peer) :
    Whole (takeHello s n p) := by
  simp only [takeHello]; bound
@[bound] theorem whole_otherMode (h : Whole s) (n : LinkIx) (here : LinkMode) : Whole (otherMode s n here) := whole_modLink h ..
@[bound] theorem whole_respond (h : Whole s) (n : LinkIx) (h : MsgHeader) (op : Nat) (st : Status) (data : Bytes) :
    Whole (respond s n h op st data) := by
  simp only [respond]; bound
@[bound] theorem whole_remoteServe (h : Whole s) (n : LinkIx) (op : Nat) :
    Whole (remoteServe s n op) := by
  have hpop := whole_popMessage h n 1
  unfold remoteServe
  split
  · exact h
  next m _ =>
    apply whole_ite h
    split
    · exact whole_respond hpop ..
    · apply whole_ite h
      apply whole_ite (whole_respond (whole_devWrite hpop ..) ..)
      apply whole_ite
      · exact whole_ite (whole_respond hpop ..) (whole_respond hpop ..)
      · have hatomic := whole_atomicApply hpop (msgOf m.bytes).ty (msgOf m.bytes).addr (m.bytes.drop 32)
        split
        next s' e => exact whole_respond (whole_of_snd e hatomic) ..
        next st s' e => exact whole_respond (whole_of_snd e hatomic) ..
@[bound] theorem whole_remoteDone (h : Whole s) (m : Remote) : Whole (remoteDone s m) :=
  whole_modTile (whole_mk h ..) ..
@[bound] theorem whole_remoteExpire (h : Whole s) (tag : BitVec 32) :
    Whole (remoteExpire s tag) := by
  simp only [remoteExpire]; bound
@[bound] theorem whole_ownEphemeral (h : Whole s) (n : LinkIx) :
    Whole (ownEphemeral s n).2 := by
  simp only [ownEphemeral]; bound
@[bound] theorem whole_sendIdentity (h : Whole s) (n : LinkIx) (sig : Bytes) :
    Whole (sendIdentity s n sig) := by
  simp only [sendIdentity]; bound
@[bound] theorem whole_refusePartner (h : Whole s) (n : LinkIx) :
    Whole (refusePartner s n) := by
  simp only [refusePartner]; bound
@[bound] theorem whole_sendWaiting (h : Whole s) (n : LinkIx) :
    Whole (sendWaiting s n) := by
  simp only [sendWaiting]; bound
@[bound] theorem whole_agreeKeys (h : Whole s) (n : LinkIx) (p : LinkPartner) :
    Whole (agreeKeys s n p) := by
  simp only [agreeKeys]; bound
@[bound] theorem whole_intakeIn (h : Whole s) (n : LinkIx) (frame : Bytes) (fcsOk : Bool) :
    Whole (intakeIn s n frame fcsOk).2 := by
  unfold intakeIn
  dsimp only
  split
  · exact h
  · refine whole_ite_snd h (whole_ite_snd (whole_replaceKeys ?_ n) ?_)
    · exact whole_modLink h ..
    · exact whole_modLink h ..
@[bound] theorem whole_endPart (h : Whole s) (n : LinkIx) (t : TarnIx) (q : IntakePart) (st : Status) :
    Whole (endPart s n t q st) := by
  simp only [endPart]; bound
@[bound] theorem whole_addPart (h : Whole s) (n : LinkIx) (t : TarnIx) (h data : Bytes) :
    Whole (addPart s n t h data) := by
  simp only [addPart]; bound
@[bound] theorem whole_intakeOwned (h : Whole s) (n : LinkIx) :
    Whole (intakeOwned s n) := by
  simp only [intakeOwned]; bound
@[bound] theorem whole_linksBarEnd (h : Whole s) :
    Whole (linksBarEnd s) := by
  unfold linksBarEnd
  apply whole_foldl
  · bound
  · exact whole_mapLinks h _
@[bound] theorem whole_linksBeatStart (h : Whole s) :
    Whole (linksBeatStart s) := by
  unfold linksBeatStart
  extract_lets led greeted
  have hled : Whole led := by
    apply whole_ite _ h
    apply whole_foldl _ _ h
    exact fun s n h => whole_sendBeat h ..
  have hgreeted : Whole greeted := by
    apply whole_foldl
    · exact fun s n h => whole_sendTopo h n
    · apply whole_foldl _ _ hled
      exact fun s n h => whole_sendHello h n
  apply whole_ite hled
  split
  · exact whole_ite (whole_sendFlit hgreeted ..) hgreeted
  · exact hgreeted
@[bound] theorem whole_remotesExpire (h : Whole s) : Whole (remotesExpire s) := by simp only [remotesExpire]; bound
@[bound] theorem whole_execNakReceived (h : Whole s) (n : LinkIx) (flit : Bytes) :
    Whole (nextOf s (execNakReceived n flit s)) := by
  have hs := whole_flitIn h n flit
  simp only [execNakReceived, nextOf]
  exact whole_ite (whole_ite (whole_linkPump (whole_replayAll hs n) n) hs) h
@[bound] theorem whole_execDelayReq (h : Whole s) (n : LinkIx) (flit : Bytes) (stamps : Ps × Ps) :
    Whole (nextOf s (execDelayReq n flit stamps s)) := by
  have hs := whole_flitIn h n flit
  simp only [execDelayReq, nextOf]
  exact whole_ite (whole_ite (whole_sendFlit hs ..) hs) h
@[bound] theorem whole_execRecordPart (h : Whole s) (n : LinkIx) (frame : Bytes) (fcsOk : Bool) :
    Whole (nextOf s (execRecordPart n frame fcsOk s)) := by
  have hs := whole_intakeIn (whole_otherMode (whole_otherMode h n .fabric) n .edge) n frame fcsOk
  simp only [execRecordPart, nextOf]
  refine whole_ite ?_ h
  split
  next s' e => exact whole_modLink (whole_of_snd e hs) ..
  next head data s' e =>
    have hs' := whole_of_snd e hs
    split
    · exact whole_ite (whole_addPart hs' ..) hs'
    · exact hs'
@[bound] theorem whole_execLinkSignalDetect (h : Whole s) (n : LinkIx) :
    Whole (nextOf s (execLinkSignalDetect n s)) := by
  simp only [execLinkSignalDetect, nextOf]; bound
@[bound] theorem whole_execTrainingRetry (h : Whole s) (n : LinkIx) :
    Whole (nextOf s (execTrainingRetry n s)) := by
  simp only [execTrainingRetry, nextOf]; bound
@[bound] theorem whole_execLinkTrained (h : Whole s) (n : LinkIx) : Whole (nextOf s (execLinkTrained n s)) := by
  simp only [execLinkTrained, nextOf]; bound
@[bound] theorem whole_execTrainingTimeout (h : Whole s) (n : LinkIx) :
    Whole (nextOf s (execTrainingTimeout n s)) := by
  simp only [execTrainingTimeout, nextOf]; bound
@[bound] theorem whole_execFecLockLoss (h : Whole s) (n : LinkIx) : Whole (nextOf s (execFecLockLoss n s)) := by
  simp only [execFecLockLoss, nextOf]; bound
@[bound] theorem whole_execHelloTimeout (h : Whole s) (n : LinkIx) : Whole (nextOf s (execHelloTimeout n s)) := by
  simp only [execHelloTimeout, nextOf]; bound
@[bound] theorem whole_execDrainTimeout (h : Whole s) (n : LinkIx) : Whole (nextOf s (execDrainTimeout n s)) := by
  simp only [execDrainTimeout, nextOf]; bound
@[bound] theorem whole_execOperatorDrain (h : Whole s) (n : LinkIx) (complete : Bool) :
    Whole (nextOf s (execOperatorDrain n complete s)) := by
  simp only [execOperatorDrain, nextOf]; bound
@[bound] theorem whole_execLinkTagFailureLimit (h : Whole s) (n : LinkIx) :
    Whole (nextOf s (execLinkTagFailureLimit n s)) := by
  simp only [execLinkTagFailureLimit, nextOf]; bound
@[bound] theorem whole_execLaneFault (h : Whole s) (n : LinkIx) (lane : Fin 8) :
    Whole (nextOf s (execLaneFault n lane s)) := by
  simp only [execLaneFault, nextOf]; bound
@[bound] theorem whole_execRouteUpdate (h : Whole s) : Whole (nextOf s (execRouteUpdate s)) := by
  simp only [execRouteUpdate, nextOf]; bound
@[bound] theorem whole_execDataFlit (h : Whole s) (n : LinkIx) (flit : Bytes) :
    Whole (nextOf s (execDataFlit n flit s)) := by
  simp only [execDataFlit, nextOf]; bound
@[bound] theorem whole_execReplayTimeout (h : Whole s) (n : LinkIx) :
    Whole (nextOf s (execReplayTimeout n s)) := by
  simp only [execReplayTimeout, nextOf]; bound
@[bound] theorem whole_execAckDeadline (h : Whole s) (n : LinkIx) : Whole (nextOf s (execAckDeadline n s)) := by
  simp only [execAckDeadline, nextOf]; bound
@[bound] theorem whole_execIdleFlit (h : Whole s) (n : LinkIx) (flit : Bytes) :
    Whole (nextOf s (execIdleFlit n flit s)) := by
  simp only [execIdleFlit, nextOf]; bound
@[bound] theorem whole_execBeatFlit (h : Whole s) (n : LinkIx) (flit : Bytes) (arrivalPs : Ps) :
    Whole (nextOf s (execBeatFlit n flit arrivalPs s)) := by
  simp only [execBeatFlit, nextOf]; bound
@[bound] theorem whole_execDelayResp (h : Whole s) (n : LinkIx) (header rest : Bytes) (t1 t4 : Ps) :
    Whole (nextOf s (execDelayResp n header rest t1 t4 s)) := by
  simp only [execDelayResp, nextOf]; bound
@[bound] theorem whole_execHelloReceived (h : Whole s) (n : LinkIx) (flit : Bytes) :
    Whole (nextOf s (execHelloReceived n flit s)) := by
  simp only [execHelloReceived, nextOf]; bound
@[bound] theorem whole_execRemoteWrite (h : Whole s) (n : LinkIx) : Whole (nextOf s (execRemoteWrite n s)) := by
  simp only [execRemoteWrite, nextOf]; bound
@[bound] theorem whole_execRemoteAtomic (h : Whole s) (n : LinkIx) : Whole (nextOf s (execRemoteAtomic n s)) := by
  simp only [execRemoteAtomic, nextOf]; bound
@[bound] theorem whole_execRemoteRead (h : Whole s) (n : LinkIx) : Whole (nextOf s (execRemoteRead n s)) := by
  simp only [execRemoteRead, nextOf]; bound
@[bound] theorem whole_execReadData (h : Whole s) (n : LinkIx) : Whole (nextOf s (execReadData n s)) := by
  simp only [execReadData, nextOf]; bound
@[bound] theorem whole_execDone (h : Whole s) (n : LinkIx) : Whole (nextOf s (execDone n s)) := by
  simp only [execDone, nextOf]; bound
@[bound] theorem whole_execRefused (h : Whole s) (n : LinkIx) : Whole (nextOf s (execRefused n s)) := by
  simp only [execRefused, nextOf]; bound
@[bound] theorem whole_execRemoteResponseTimeout (h : Whole s) (tag : BitVec 32) :
    Whole (nextOf s (execRemoteResponseTimeout tag s)) := by
  simp only [execRemoteResponseTimeout, nextOf]; bound
@[bound] theorem whole_execMessageForward (h : Whole s) (n : LinkIx) :
    Whole (nextOf s (execMessageForward n s)) := by
  simp only [execMessageForward, nextOf]; bound
@[bound] theorem whole_execLinkKeyAgreement (h : Whole s) (n : LinkIx) (p : LinkPartner) :
    Whole (nextOf s (execLinkKeyAgreement n p s)) := by
  simp only [execLinkKeyAgreement, nextOf]; bound
@[bound] theorem whole_execLinkKeyReplace (h : Whole s) (n : LinkIx) :
    Whole (nextOf s (execLinkKeyReplace n s)) := by
  simp only [execLinkKeyReplace, nextOf]; bound
@[bound] theorem whole_execLinkSessionRenew (h : Whole s) (n : LinkIx) (p : LinkPartner) :
    Whole (nextOf s (execLinkSessionRenew n p s)) := by
  simp only [execLinkSessionRenew, nextOf]; bound

end Sys2Proof.Machine
end

section
/-! The tables under units, repairs and scrubs. -/

namespace Sys2Proof.Machine
variable {s : State}

@[bound] theorem whole_noteUnit (h : Whole s) (u : UnitId) (action : Nat) (ticketId : BitVec 32) :
    Whole (noteUnit s u action ticketId) := by
  simp only [noteUnit]; bound
@[bound] theorem whole_reportUnit (h : Whole s) (u : UnitId) (failed : Bool) :
    Whole (reportUnit s u failed) := by
  simp only [reportUnit]; bound
@[bound] theorem whole_recoverTicket (h : Whole s) (uid : Nat) :
    Whole (recoverTicket s uid) := by
  simp only [recoverTicket]; bound
@[bound] theorem whole_killFigure (h : Whole s) (g : Nat) (st : Status) :
    Whole (killFigure s g st) := by
  simp only [killFigure]; bound
@[bound] theorem whole_retireRes (h : Whole s) (r : Resource) :
    Whole (retireRes s r) := by
  simp only [retireRes]; bound
@[bound] theorem whole_setTesting (h : Whole s) (u : UnitId) (on : Bool) :
    Whole (setTesting s u on) := by
  simp only [setTesting]; bound
@[bound] theorem whole_bistEnds (h : Whole s) (u : UnitId) (st : Status) (sig expected : BitVec 32) :
    Whole (bistEnds s u st sig expected) := by
  simp only [bistEnds]; bound
@[bound] theorem whole_failTest (h : Whole s) (u : UnitId) : Whole (failTest s u) := by simp only [failTest]; bound
@[bound] theorem whole_settleBist (h : Whole s) (b : Bist) :
    Whole (settleBist s b) := by
  simp only [settleBist]; bound
@[bound] theorem whole_settleBists (h : Whole s) : Whole (settleBists s) := by simp only [settleBists]; bound
@[bound] theorem whole_retireGroup (h : Whole s) (g : GroupIx) :
    Whole (retireGroup s g) := by
  simp only [retireGroup]; bound
@[bound] theorem whole_retireTile (h : Whole s) (tile : Nat) (failed : Bool) :
    Whole (retireTile s tile failed) := by
  simp only [retireTile]; bound
@[bound] theorem whole_stepSpares (h : Whole s) : Whole (stepSpares s) :=
  whole_units h rfl (by simp)
@[bound] theorem whole_spareTest (h : Whole s) (tile code : Nat) (pass : Bool) :
    Whole (spareTest s tile code pass) := by
  simp only [spareTest]; bound
@[bound] theorem whole_placeSpare (h : Whole s) (q : Nat) :
    Whole (placeSpare s q) := by
  simp only [placeSpare]; bound
@[bound] theorem whole_poisonSlice (h : Whole s) (ch u from_ : Nat) :
    Whole (poisonSlice s ch u from_) := by
  simp only [poisonSlice]; bound
@[bound] theorem whole_retireMem (h : Whole s) (k : Nat) (failed : Bool) :
    Whole (retireMem s k failed) := by
  simp only [retireMem]; bound
@[bound] theorem whole_imageFails (h : Whole s) (t : TarnIx) (rid : Nat) (staged : Bool) :
    Whole (imageFails s t rid staged) := by
  simp only [imageFails]; bound
@[bound] theorem whole_imagesFail (h : Whole s) (hit : Plan → Bool) (staged : Bool) :
    Whole (imagesFail s hit staged) := by
  simp only [imagesFail]; bound
@[bound] theorem whole_rebuildImages (h : Whole s) (ch : Nat) :
    Whole (rebuildImages s ch) := by
  simp only [rebuildImages]; bound
@[bound] theorem whole_retireMems (h : Whole s) (st : Nat) (us : List Nat) :
    Whole (retireMems s st us) := by
  simp only [retireMems]; bound
@[bound] theorem whole_setChan (h : Whole s) (ch : Nat) (x : ChanState) :
    Whole { s with units := { s.units with chans := s.units.chans.set ch x } } := whole_units h (List.length_set ..) rfl
@[bound] theorem whole_retireChan (h : Whole s) (ch : Nat) (lost failed rate : Bool) :
    Whole (retireChan s ch lost failed rate) := by
  unfold retireChan
  apply whole_ite h
  apply whole_ite
  · have hreported :
    Whole (reportUnit { s with units := { s.units with chans := s.units.chans.set ch .lost } } (mkUnit kChan ch) true) :=
      whole_reportUnit (whole_setChan h ..) ..
    apply whole_ite _ hreported
    split
    apply whole_imagesFail
    apply whole_foldl (fun s x h => whole_rebuildImages h x)
    apply whole_foldl (fun s x h => whole_poisonSlice h ..)
    apply whole_foldl (fun s x h => whole_poisonSlice h ..)
    exact whole_of_tables hreported rfl
  · extract_lets st reported moved src shrunk src'
    have hreported : Whole reported := whole_reportUnit (whole_setChan (whole_failTest h _) ..) ..
    have hshrunk : Whole shrunk := whole_units hreported (by rfl) (by rfl)
    clear_value reported
    split
    next placed left _ =>
      extract_lets refilled noted poisoned rebuilt retired
      have hnoted : Whole noted := whole_noteUnit (whole_units hshrunk (by rfl) (by rfl)) ..
      have hpoisoned : Whole poisoned := by
        apply whole_foldl (fun s x h => whole_poisonSlice h ..)
        exact hnoted
      have hrebuilt : Whole rebuilt := by
        apply whole_ite _ hnoted
        apply whole_foldl (fun s x h => whole_rebuildImages h x)
        exact whole_noteUnit hpoisoned ..
      have hretired : Whole retired := whole_retireMems hrebuilt ..
      exact whole_ite (whole_imagesFail hretired ..) hretired
@[bound] theorem whole_retireReel (h : Whole s) (ch : Nat) (failed rate : Bool) :
    Whole (retireReel s ch failed rate) := by
  unfold retireReel
  apply whole_ite h
  apply whole_ite
  · exact whole_imagesFail (whole_reportUnit (whole_units h (by rfl) (by rfl)) ..) ..
  · exact whole_reportUnit (whole_units h (by rfl) (by rfl)) ..
@[bound] theorem whole_dropLane (h : Whole s) (t : TarnIx) (j : LaneIx) :
    Whole (dropLane s t j) := by
  simp only [dropLane]; bound
@[bound] theorem whole_retireLane (h : Whole s) (j : LaneIx) (failed : Bool) :
    Whole (retireLane s j failed) := by
  simp only [retireLane]; bound
@[bound] theorem whole_retireKae (h : Whole s) (c : Nat) (failed : Bool) :
    Whole (retireKae s c failed) := by
  simp only [retireKae]; bound
@[bound] theorem whole_retireField (h : Whole s) (failed : Bool) :
    Whole (retireField s failed) := by
  simp only [retireField]; bound
@[bound] theorem whole_retireLink (h : Whole s) (n : LinkIx) (failed : Bool) :
    Whole (retireLink s n failed) := by
  simp only [retireLink]; bound
@[bound] theorem whole_setFatal (h : Whole s) :
    Whole (setFatal s) := by
  unfold setFatal
  split
  · exact h
  · exact whole_of_tables h (by simp [tables, fnTables])
@[bound] theorem whole_retireCore (h : Whole s) (c : Nat) (failed : Bool) :
    Whole (retireCore s c failed) := by
  simp only [retireCore]; bound
@[bound] theorem whole_retireUnit (h : Whole s) (u : UnitId) (failed lost rate : Bool) :
    Whole (retireUnit s u failed lost rate) := by
  unfold retireUnit
  extract_lets i
  split
  · exact whole_retireTile h ..
  · apply whole_foldl _ _ h
    exact fun s x h => whole_retireTile h ..
  · exact whole_retireChan h ..
  · exact whole_retireReel h ..
  · exact whole_imagesFail (whole_retireMem h ..) ..
  · exact whole_retireLane h ..
  · exact whole_retireKae h ..
  · exact whole_retireField h ..
  · exact whole_loseLane h ..
  · exact whole_retireLink h ..
  · exact whole_retireCore h ..
  · exact h
@[bound] theorem whole_queueUnit (h : Whole s) (u : UnitId) (code : Nat) :
    Whole (queueUnit s u code) := by
  simp only [queueUnit]; bound
@[bound] theorem whole_takeFailures (h : Whole s) : Whole (takeFailures s) := by simp only [takeFailures]; bound
@[bound] theorem whole_takeRetirements (h : Whole s) (rates : Bool) :
    Whole (takeRetirements s rates) := by
  simp only [takeRetirements]; bound

end Sys2Proof.Machine
end

section
/-! The tables under the governor. -/

namespace Sys2Proof.Machine
variable {s : State}

@[bound] theorem whole_applyBounds (h : Whole s) (b : Bounds) :
    Whole (applyBounds s b) := by
  simp only [applyBounds]; bound
@[bound] theorem whole_stepClock (h : Whole s) (i : SeamIn) :
    Whole (stepClock s i) := by
  simp only [stepClock]; bound
@[bound] theorem whole_acceptBounds (h : Whole s) : Whole (acceptBounds s) := by simp only [acceptBounds]; bound
@[bound] theorem whole_stepVoltage (h : Whole s) : Whole (stepVoltage s) := by simp only [stepVoltage]; bound
@[bound] theorem whole_lowerVoltage (h : Whole s) (v : Nat) :
    Whole (lowerVoltage s v) := by
  simp only [lowerVoltage]; bound
@[bound] theorem whole_hdmServe (h : Whole s) (p : Port) (a : Nat) (req : CxlReq) :
    Whole (hdmServe s p a req) := by
  simp only [hdmServe]; bound
@[bound] theorem whole_releaseParked (h : Whole s) (uid : Nat) :
    Whole (releaseParked s uid) := by
  simp only [releaseParked]; bound
@[bound] theorem whole_releaseHeld (h : Whole s) : Whole (releaseHeld s) := by simp only [releaseHeld]; bound
@[bound] theorem whole_setStack (h : Whole s) (k : Nat) (x : Stack) : Whole { s with dram := s.dram.set k x } :=
  whole_of_tables h (by simp [tables])
@[bound] theorem whole_stepStacks (h : Whole s) (i : SeamIn) :
    Whole (stepStacks s i) := by
  simp only [stepStacks]; bound
@[bound] theorem whole_setThrottle (h : Whole s) (t : TarnIx) :
    Whole (setThrottle s t) := by
  simp only [setThrottle]; bound
@[bound] theorem whole_liftThrottle (h : Whole s) (t : TarnIx) :
    Whole (liftThrottle s t) := by
  simp only [liftThrottle]; bound
@[bound] theorem whole_noteLending (h : Whole s) : Whole (noteLending s) := by simp only [noteLending]; bound
@[bound] theorem whole_stepGovernorDown (h : Whole s) (i : SeamIn) :
    Whole (stepGovernorDown s i) := by
  simp only [stepGovernorDown]; bound
@[bound] theorem whole_stepGovernor (h : Whole s) (i : SeamIn) :
    Whole (stepGovernor s i) := by
  unfold stepGovernor
  apply whole_takeRetirements
  apply whole_noteLending
  apply whole_foldl (fun s t h => whole_liftThrottle h t)
  apply whole_foldl (fun s t h => whole_setThrottle h t)
  apply whole_stepStacks
  apply whole_acceptBounds
  apply whole_stepVoltage
  apply whole_stepClock
  apply whole_mk
  exact whole_foldl (fun s b h => whole_applyBounds h b) _ h
@[bound] theorem whole_execThrottleSet (h : Whole s) (t : TarnIx) : Whole (nextOf s (execThrottleSet t s)) := by
  simp only [execThrottleSet, nextOf]; bound
@[bound] theorem whole_execThrottleLift (h : Whole s) (t : TarnIx) : Whole (nextOf s (execThrottleLift t s)) := by
  simp only [execThrottleLift, nextOf]; bound

end Sys2Proof.Machine
end

section
/-! The tables under admission and placement. -/

namespace Sys2Proof.Machine
variable {s : State}

@[bound] theorem whole_countAdmitted (h : Whole s) (cls : Nat) : Whole (countAdmitted s cls) := whole_mk h ..
@[bound] theorem whole_consumeOne (h : Whole s) (t : TarnIx) (q : QpIx) :
    Whole (consumeOne s t q) := by
  simp only [consumeOne]; bound
@[bound] theorem whole_admitFence (h : Whole s) (t : TarnIx) (q : QpIx) (b : Bytes) :
    Whole (admitFence s t q b) := by
  simp only [admitFence]; bound
@[bound] theorem whole_takeNext (h : Whole s) (t : TarnIx) (q : QpIx) :
    Whole (takeNext s t q) := by
  simp only [takeNext]; bound
theorem whole_consumeQp {bs : Nat × State} (h : Whole bs.2) (x : Pass) (t : TarnIx) (q : QpIx) (fuel : Nat) :
    Whole (consumeQp x t q fuel bs).2 := by
  induction fuel generalizing bs with
  | zero => exact h
  | succ fuel ih =>
    obtain ⟨budget, s⟩ := bs
    unfold consumeQp
    split
    · split
      · exact ih (whole_takeNext h t q)
      · exact h
    · exact h
theorem whole_admitPass {bs : Nat × State} (h : Whole bs.2) (ts : List TarnIx) (x : Pass) :
    Whole (admitPass ts bs x).2 := by
  unfold admitPass
  apply whole_foldl_snd _ _ h
  intro bs t h
  apply whole_foldl_snd _ _ h
  exact fun bs q h => whole_consumeQp h ..
@[bound] theorem whole_stepAdmit (h : Whole s) :
    Whole (stepAdmit s) := by
  unfold stepAdmit
  apply whole_ite h
  apply whole_foldl
  · intro s t h
    apply whole_foldl _ _ h
    exact fun s q h => whole_ringPump h t q
  · exact whole_foldl_snd (fun bs x h => whole_admitPass h _ x) _ h
@[bound] theorem whole_takeFigure (h : Whole s) (uid n : Nat) : Whole (takeFigure s uid n) := whole_modTicket h ..
@[bound] theorem whole_deferFigure (h : Whole s) (f : FigRun) : Whole (deferFigure s f) := whole_modTicket h ..
theorem whole_pickFigure (h : Whole s) (t : TarnIx) (cls : TClass) (l : List Nat) :
    Whole (pickFigure t cls l s).2 := by
  induction l generalizing s with
  | nil => exact h
  | cons uid rest ih =>
    unfold pickFigure
    split
    · exact ih h
    next k _ =>
      apply whole_ite_snd (ih h)
      split
      · exact ih h
      · split
        · exact ih h
        · apply whole_ite_snd (ih h)
          split
          · exact whole_takeFigure h ..
          · exact ih (whole_failTicket h ..)
theorem whole_fillClass {ps : Plan9 × State} (h : Whole ps.2) (cls : TClass) (v : List SlotView) (skip : Nat → Bool) :
    Whole (fillClass cls v skip ps).2 := by
  refine whole_foldl_snd (fun ps x h => whole_ite_snd h ?_) _ h
  have hpick := whole_pickFigure h x.tarn cls (ps.2.tickets.map (·.uid))
  split
  next f s' e => exact whole_of_snd e hpick
  next s' e => exact whole_of_snd e hpick
theorem whole_fillLent {ps : Plan9 × State} (h : Whole ps.2) (v : List SlotView) (skip : Nat → Bool) :
    Whole (fillLent v skip ps).2 := by
  refine whole_foldl_snd (fun ps x h => whole_ite_snd h ?_) _ h
  have hpick := whole_pickFigure h x.tarn .steady (ps.2.tickets.map (·.uid))
  split
  next f s' e =>
    have hs' : Whole s' := whole_of_snd e hpick
    exact whole_pair _ (whole_mk (whole_modTarn hs' ..) ..)
  next s' e => exact whole_of_snd e hpick
@[bound] theorem whole_noteMove (h : Whole s) (f : FigRun) (action g : Nat) :
    Whole (noteMove s f action g) := by
  simp only [noteMove]; bound
@[bound] theorem whole_deferIt (h : Whole s) (f : FigRun) (g : Nat) :
    Whole (deferIt s f g) := by
  simp only [deferIt]; bound
theorem whole_displace {x : Plan9 × Moved × State} (h : Whole x.2.2) (v : List SlotView) (spill : Nat → Bool) (g : Nat) :
    Whole (displace v spill x g).2.2 := by
  obtain ⟨pl, mv, s⟩ := x
  change Whole s at h
  unfold displace
  dsimp only
  split
  · exact h
  · split
    · exact whole_deferIt h ..
    · apply whole_noteMove
      split
      · exact whole_deferIt h ..
      · exact whole_ite (whole_mk (whole_tallyOverrun h ..) ..) h
@[bound] theorem whole_putPlan (h : Whole s) (pl : Plan9) : Whole (putPlan s pl) :=
  whole_of_tables h (by simp [putPlan, tables])
@[bound] theorem whole_stepPlace (h : Whole s) (lend : Bool) :
    Whole (stepPlace s lend) := by
  unfold stepPlace
  extract_lets s₁ v held spill ps
  have h₁ : Whole s₁ := whole_foldl (fun s q h => whole_placeSpare h q) _ h
  have hps : Whole ps.2 := whole_fillClass (whole_fillClass h₁ ..) ..
  have hdisplaced : ∀ (l : List Nat) {x : Plan9 × Moved × State}, Whole x.2.2 → Whole (l.foldl (displace v spill) x).2.2 := by
    intro l
    induction l with
    | nil => exact fun h => h
    | cons g l ih => exact fun h => ih (whole_displace h v spill g)
  split
  next pl mv s₂ e =>
    have h₂ : Whole s₂ := by
      have := hdisplaced held (x := (ps.1, [], ps.2)) hps
      rwa [e] at this
    apply whole_putPlan
    have hfilled : ∀ skip, Whole (fillClass .steady v skip (fillClass .express v skip (pl, s₂))).2 :=
      fun skip => whole_fillClass (whole_fillClass h₂ ..) ..
    split
    · exact whole_fillLent (hfilled _) ..
    · exact hfilled _
@[bound] theorem whole_execSubmitGraph (h : Whole s) (t : TarnIx) (q : QpIx) :
    Whole (nextOf s (execSubmitGraph t q s)) := by
  simp only [execSubmitGraph, nextOf]; bound

end Sys2Proof.Machine
end

section
/-! The tables under telemetry. -/

namespace Sys2Proof.Machine
variable {s : State}

@[bound] theorem whole_telemStep (h : Whole s) (atEnd : Bool) : Whole (telemStep s atEnd) := whole_mk h ..

end Sys2Proof.Machine
end

section
/-! The tables under the steps of a seam and the next beat. -/

namespace Sys2Proof.Machine
variable {s : State}

@[bound] theorem whole_countOverrun (h : Whole s) (f : FigRun) (g : Nat) :
    Whole (countOverrun s f g) := by
  simp only [countOverrun]; bound
@[bound] theorem whole_noteOverrun (h : Whole s) (f : FigRun) (cycles action g : Nat) :
    Whole (noteOverrun s f cycles action g) := by
  simp only [noteOverrun]; bound
@[bound] theorem whole_stopSpill (h : Whole s) (g : Nat) : Whole (stopSpill s g) := by simp only [stopSpill]; bound
@[bound] theorem whole_dropDead (h : Whole s) :
    Whole (dropDead s) := by
  unfold dropDead
  apply whole_foldl _ _ h
  intro s g h
  split
  · exact whole_ite (whole_leaveSlot h g) h
  · exact h
@[bound] theorem whole_closeSlot (h : Whole s) (g : Nat) : Whole (closeSlot s g) := by simp only [closeSlot]; bound
@[bound] theorem whole_stepClose (h : Whole s) :
    Whole (stepClose s) := by
  unfold stepClose
  apply whole_dropDead
  apply whole_foldl (fun s g h => whole_closeSlot h g)
  exact whole_dropDead (whole_takeFailures h)
@[bound] theorem whole_commitFigure (h : Whole s) (g : Nat) :
    Whole (commitFigure s g) := by
  simp only [commitFigure]; bound
@[bound] theorem whole_restartTicket (h : Whole s) (uid : Nat) :
    Whole (restartTicket s uid) := by
  simp only [restartTicket]; bound
@[bound] theorem whole_restartTickets (h : Whole s) :
    Whole (restartTickets s) := by
  unfold restartTickets
  apply whole_dropDead
  apply whole_commitTickets
  apply whole_foldl (fun s uid h => whole_restartTicket h uid)
  exact whole_commitTickets h
@[bound] theorem whole_prepareDue (h : Whole s) (d : Due) :
    Whole (prepareDue s d) := by
  unfold prepareDue
  split
  · split
    · exact whole_answerTicket h ..
    · exact h
  · apply whole_foldl (fun s t h => whole_endTarn h t)
    exact whole_forceAborts h d.phase
@[bound] theorem whole_stepCommit (h : Whole s) (restart : Bool) :
    Whole (stepCommit s restart).2 := by
  unfold stepCommit
  extract_lets committed forced rounds restarted loaded due prepared
  have hcommitted : Whole committed := by
    apply whole_foldl _ _ h
    exact fun s g h => whole_commitFigure h g
  clear_value committed forced
  have hrounds : Whole rounds := by
    unfold rounds
    apply whole_roundsStep
    split
    · exact whole_forceAborts hcommitted _
    · exact hcommitted
  clear_value rounds
  have hrestarted : Whole restarted := whole_ite (whole_restartTickets hrounds) hrounds
  clear_value restarted
  have hloaded : Whole loaded := by
    apply whole_foldl _ _ hrestarted
    exact fun s uid h => whole_commitTicket h uid
  clear_value loaded due
  apply whole_commitTickets
  unfold prepared
  split
  · exact whole_prepareDue hloaded _
  · exact hloaded
@[bound] theorem whole_stepRetire (h : Whole s) (cqFail : List (TarnIx × QpIx)) :
    Whole (stepRetire s cqFail) := by
  have hdrained : Whole ((upto 16).foldl journalIdle (drainRules s)) :=
    whole_foldl (fun s j h => whole_journalIdle h j) _ (whole_drainRules h)
  unfold stepRetire
  apply whole_ite (whole_postAll hdrained _)
  exact whole_foldl (fun s t h => whole_postTarn h ..) _ hdrained
@[bound] theorem whole_applyGrant (h :
    Whole s) (gmp : Option (GmpChannel × Nat)) (t : TarnIx) (dev : Fin 64) (src : TarnIx) (add : Bool) :
    Whole (applyGrant s gmp t dev src add) := by
  simp only [applyGrant]; bound
@[bound] theorem whole_applyTest (h : Whole s) (uid : Nat) (t : TarnIx) (u : UnitId) :
    Whole (applyTest s uid t u) := by
  simp only [applyTest]; bound
@[bound] theorem whole_applyPend (h : Whole s) (p : PendRule) :
    Whole (applyPend s p) := by
  simp only [applyPend]; bound
@[bound] theorem whole_applyRank (h : Whole s) (ps : List PendRule) (r : Nat) :
    Whole (applyRank ps s r) := by
  simp only [applyRank]; bound
@[bound] theorem whole_applyPends (h : Whole s) :
    Whole (applyPends s) := by
  unfold applyPends
  apply whole_foldl (fun s r h => whole_applyRank h ..)
  apply whole_foldl (fun s j h => whole_commitReplace h j)
  apply whole_foldl (fun s r h => whole_applyRank h ..)
  exact whole_mk h ..
@[bound] theorem whole_stepRules (h : Whole s) (due : Option Due) :
    Whole (stepRules s due) := by
  unfold stepRules
  apply whole_applyPends
  have hclosed := whole_closeRules (whole_settleDying (whole_freeScrubbed (whole_settleBists h)))
  split
  · split
    · exact whole_failPhase hclosed ..
    · exact whole_applyPhase hclosed ..
  · exact hclosed
@[bound] theorem whole_stepScrubs (h : Whole s) : Whole (stepScrubs s) := whole_mk h ..
@[bound] theorem whole_postAdvisory (h : Whole s) (t : TarnIx) (fails : Bool) (a : Advisory) :
    Whole (postAdvisory s t fails a) := by
  simp only [postAdvisory]; bound
@[bound] theorem whole_postAdvisories (h : Whole s) (advFail : List TarnIx) (t : TarnIx) :
    Whole (postAdvisories s advFail t) := by
  simp only [postAdvisories]; bound
@[bound] theorem whole_stepBar (h : Whole s) : Whole (stepBar s) := by simp only [stepBar]; bound
@[bound] theorem whole_addRecord (h : Whole s) : Whole (addRecord s) := whole_mk h ..
@[bound] theorem whole_autoCheckpoint (h : Whole s) :
    Whole (autoCheckpoint s) := by
  unfold autoCheckpoint
  have hbegun := whole_beginCheckpoint h
  exact whole_ite h (whole_ite (whole_mk hbegun ..) hbegun)
@[bound] theorem whole_tallyFirmware (h : Whole s) (half event : Nat) (release : BitVec 32) (digest : Bytes) (st : Status) :
    Whole (tallyFirmware s half event release digest st) := by
  simp only [tallyFirmware]; bound
@[bound] theorem whole_setNextBank (h : Whole s) (half : Nat) (b : Bank) : Whole (setNextBank s half b) := whole_mk h ..
@[bound] theorem whole_answerStage (h : Whole s) (asker : Option (GmpChannel × Nat)) (st : Status) :
    Whole (answerStage s asker st) := by
  simp only [answerStage]; bound
@[bound] theorem whole_refuseStage (h : Whole s) (img : Bytes) (asker : Option (GmpChannel × Nat)) (st : Status) :
    Whole (refuseStage s img asker st) := by
  simp only [refuseStage]; bound
@[bound] theorem whole_beginStage (h : Whole s) (img : Bytes) (asker : Option (GmpChannel × Nat)) :
    Whole (beginStage s img asker) := by
  simp only [beginStage]; bound
@[bound] theorem whole_endStage (h : Whole s) (x : Staging) :
    Whole (endStage s x) := by
  simp only [endStage]; bound
@[bound] theorem whole_endStages (h : Whole s) : Whole (endStages s) := by simp only [endStages]; bound
@[bound] theorem whole_stepHouse (h : Whole s) (advFail : List TarnIx) :
    Whole (stepHouse s advFail) := by
  unfold stepHouse
  extract_lets recorded checked
  have hrecorded : Whole recorded := whole_addRecord (whole_stepBar (whole_stepScrubs h))
  have hchecked : Whole checked := whole_autoCheckpoint (whole_endStages hrecorded)
  apply whole_ite _ hchecked
  apply whole_telemStep
  apply whole_foldl _ _ hchecked
  exact fun s t h => whole_postAdvisories h advFail t
@[bound] theorem whole_endBar (h : Whole s) :
    Whole (endBar s) := by
  unfold endBar
  apply whole_expirePhases
  exact whole_of_tables (whole_linksBarEnd h) (by simp [tables, fnTables])
@[bound] theorem whole_nextBeat (h : Whole s) (us : Nat) (atEnd : Bool) :
    Whole (nextBeat s us atEnd) := by
  unfold nextBeat
  extract_lets ps timing moved c timing' corrected joined board pulsed
  have hmoved : Whole moved := whole_of_tables h rfl
  have hcorrected : Whole corrected := whole_timing hmoved (by rfl)
  have hpulsed : Whole pulsed := whole_mk (whole_ite (whole_applyJoin hcorrected) hcorrected) ..
  clear_value pulsed
  apply whole_linksBeatStart
  apply whole_ite _ hpulsed
  apply whole_foldl _ _ hpulsed
  exact fun s t h => whole_pumpIntake h t
@[bound] theorem whole_declareFault (h : Whole s) : Whole (declareFault s) := by
  have hdown : Whole { s with
      fw := { s.fw with faulty := false, down := some s.beat, faults := (s.timeUs :: s.fw.faults).take 4 }
      fns := s.fns.map fun f => { f with recoverAll := true } } := whole_of_tables h (by simp [tables, fnTables])
  have htold := whole_tallyFault hdown anyTarn (mkUnit kFw 0) 1 0 0xFFFFFFFF
  refine whole_ite h ?_
  dsimp only
  split
  · exact whole_ite (whole_setFatal htold) htold
  · exact htold
@[bound] theorem whole_beginRestart (h : Whole s) : Whole (beginRestart s) := by
  have hraised : Whole { s with
      fw := { s.fw with down := none }
      fuses := { s.fuses with rollback := max s.fuses.rollback (min 96 s.fw.ctrl.svn) } } := whole_of_tables h rfl
  exact whole_ite hraised (whole_tallyFirmware hraised ..)
@[bound] theorem whole_endRestart (h : Whole s) : Whole (endRestart s) :=
  whole_of_tables h (by simp [endRestart, tables, fnTables])
@[bound] theorem whole_answerDrain (h : Whole s) : Whole (answerDrain s) := by simp only [answerDrain]; bound
@[bound] theorem whole_seamRules (h : Whole s) (i : SeamIn) (restart : Bool) :
    Whole (seamRules s i restart) := by
  have hclosed := whole_stepClose h
  have hcommitted := whole_stepCommit hclosed restart
  unfold seamRules
  apply whole_ite hclosed
  split
  next due s₁ e =>
    have h₁ := whole_of_snd e hcommitted
    have hposted : Whole (if fwUp s₁ then postAll s₁ i.cqFail else s₁) := whole_ite (whole_postAll h₁ _) h₁
    have hruled := whole_stepRules (whole_raiseAll (whole_stepRetire hposted i.cqFail)) due
    exact whole_ite (whole_stepSchedule hruled) hruled
@[bound] theorem whole_seamWork (h : Whole s) (i : SeamIn) :
    Whole (seamWork s i) := by
  unfold seamWork
  extract_lets up governed v placed house atEnd next
  have hgoverned : Whole governed := whole_ite (whole_stepGovernor h i) (whole_stepGovernorDown h i)
  have hplaced : Whole placed := whole_ite (whole_stepPlace (whole_stepAdmit hgoverned) _) hgoverned
  have hhouse : Whole house := whole_remotesExpire (whole_newRoutes (whole_stepHouse hplaced _))
  have hnext : Whole next := whole_nextBeat (whole_ite (whole_endBar hhouse) hhouse) ..
  exact whole_ite (whole_lowerVoltage hnext _) hnext
@[bound] theorem whole_seam (h : Whole s) (i : SeamIn) :
    Whole (seam s i) := by
  unfold seam
  extract_lets restart begun ruled worked
  have hbegun : Whole begun := by
    apply whole_stepSpares
    exact whole_ite (whole_beginRestart h) (whole_declareFault h)
  clear_value begun
  have hruled : Whole ruled := by unfold ruled; exact whole_seamRules hbegun i restart
  clear_value ruled
  have hworked : Whole worked := whole_ite hruled (whole_seamWork hruled i)
  clear_value worked
  apply whole_ite hbegun
  exact whole_ite (whole_endRestart (whole_answerDrain hworked)) hworked
@[bound] theorem whole_execSpillStop (h : Whole s) (g : GroupIx) : Whole (nextOf s (execSpillStop g s)) := by
  simp only [execSpillStop, nextOf]; bound
@[bound] theorem whole_execSeam (h : Whole s) (i : SeamIn) : Whole (nextOf s (execSeam i s)) := by
  simp only [execSeam, nextOf]; bound

end Sys2Proof.Machine
end

section
/-! The tables under faults, self-tests and views. -/

namespace Sys2Proof.Machine
variable {s : State}

@[bound] theorem whole_tileFails (h : Whole s) (tile : Fin 128) :
    Whole (tileFails s tile) := by
  simp only [tileFails]; bound
@[bound] theorem whole_setCount (h : Whole s) (u : UnitId) (ce : Nat) : Whole (setCount s u ce) :=
  whole_units h rfl rfl
@[bound] theorem whole_ratePassed (h : Whole s) (u : UnitId) :
    Whole (ratePassed s u) := by
  simp only [ratePassed]; bound
@[bound] theorem whole_reelStops (h : Whole s) (ch : Nat) (gt : Nat × Nat) :
    Whole (reelStops ch s gt) := by
  simp only [reelStops]; bound
@[bound] theorem whole_reelFails (h : Whole s) (ch : Nat) :
    Whole (reelFails s ch) := by
  unfold reelFails
  apply whole_ite h
  apply whole_queueUnit
  apply whole_foldl _ _ h
  exact fun s gt h => whole_reelStops h ch gt
@[bound] theorem whole_countWord (h : Whole s) (ch : Nat) (bad : Bool) : Whole (countWord s ch bad) :=
  whole_units h rfl rfl
@[bound] theorem whole_poisonWord (h : Whole s) (ch offset : Nat) :
    Whole (poisonWord s ch offset) := by
  simp only [poisonWord]; bound
@[bound] theorem whole_patrolWord (h : Whole s) (ch offset outcome : Nat) :
    Whole (patrolWord s ch offset outcome) := by
  simp only [patrolWord]; bound
@[bound] theorem whole_swapControl (h : Whole s) : Whole (swapControl s) := whole_mk h ..
@[bound] theorem whole_serveBistRun (h : Whole s) (k : Ticket) :
    Whole (serveBistRun s k) := by
  simp only [serveBistRun]; bound
@[bound] theorem whole_bistDone (h : Whole s) (u : UnitId) (code : Nat) (r : BistResult) :
    Whole (bistDone s u code r) := by
  simp only [bistDone]; bound
@[bound] theorem whole_hdmAccess (h : Whole s) (p : Port) (t : TarnIx) (x : Nat) (req : CxlReq) :
    Whole (hdmAccess s p t x req) := by
  simp only [hdmAccess]; bound
@[bound] theorem whole_execTileFault (h : Whole s) (tile : Fin 128) : Whole (nextOf s (execTileFault tile s)) := by
  simp only [execTileFault, nextOf]; bound
@[bound] theorem whole_execSparePlaced (h : Whole s) (quadrant : Fin 4) :
    Whole (nextOf s (execSparePlaced quadrant s)) := by
  simp only [execSparePlaced, nextOf]; bound
@[bound] theorem whole_execErrorRateRetire (h : Whole s) (u : UnitId) (count : Nat) :
    Whole (nextOf s (execErrorRateRetire u count s)) := by
  simp only [execErrorRateRetire, nextOf]; bound
@[bound] theorem whole_execChannelRetire (h : Whole s) (s_ : StackIx) (c : ChanIx) :
    Whole (nextOf s (execChannelRetire s_ c s)) := by
  simp only [execChannelRetire, nextOf]; bound
@[bound] theorem whole_execChannelCopyDone (h : Whole s) (s_ : StackIx) (c : ChanIx) :
    Whole (nextOf s (execChannelCopyDone s_ c s)) := by
  simp only [execChannelCopyDone, nextOf]; bound
@[bound] theorem whole_execChannelLost (h : Whole s) (s_ : StackIx) (c : ChanIx) :
    Whole (nextOf s (execChannelLost s_ c s)) := by
  simp only [execChannelLost, nextOf]; bound
@[bound] theorem whole_execReelUnitFault (h : Whole s) (s_ : StackIx) (c : ChanIx) :
    Whole (nextOf s (execReelUnitFault s_ c s)) := by
  simp only [execReelUnitFault, nextOf]; bound
@[bound] theorem whole_execPatrolScrub (h : Whole s) (s_ : StackIx) (c : ChanIx) (offset outcome : Nat) :
    Whole (nextOf s (execPatrolScrub s_ c offset outcome s)) := by
  simp only [execPatrolScrub, nextOf]; bound
@[bound] theorem whole_execTargetedRefresh (h : Whole s) (s_ : StackIx) (c : ChanIx) (row activations : Nat) :
    Whole (nextOf s (execTargetedRefresh s_ c row activations s)) :=
  whole_ite (whole_of_tables h (by simp [tables])) h
@[bound] theorem whole_execBasinLaneFault (h : Whole s) (j : LaneIx) :
    Whole (nextOf s (execBasinLaneFault j s)) := by
  simp only [execBasinLaneFault, nextOf]; bound
@[bound] theorem whole_execKaeCoreFault (h : Whole s) (core : Fin 64) :
    Whole (nextOf s (execKaeCoreFault core s)) := by
  simp only [execKaeCoreFault, nextOf]; bound
@[bound] theorem whole_execFieldUnitFault (h : Whole s) : Whole (nextOf s (execFieldUnitFault s)) := by
  simp only [execFieldUnitFault, nextOf]; bound
@[bound] theorem whole_execControlCoreFault (h : Whole s) (core : Fin 8) :
    Whole (nextOf s (execControlCoreFault core s)) := by
  simp only [execControlCoreFault, nextOf]; bound
@[bound] theorem whole_execFirmwareFault (h : Whole s) : Whole (nextOf s (execFirmwareFault s)) := by
  simp only [execFirmwareFault, nextOf]; bound
@[bound] theorem whole_execFirmwareRestart (h : Whole s) : Whole (nextOf s (execFirmwareRestart s)) := by
  simp only [execFirmwareRestart, nextOf]; bound
@[bound] theorem whole_execFatalFault (h : Whole s) : Whole (nextOf s (execFatalFault s)) := by
  simp only [execFatalFault, nextOf]; bound
@[bound] theorem whole_execBistRun (h : Whole s) (uid : Nat) : Whole (nextOf s (execBistRun uid s)) := by
  simp only [execBistRun, nextOf]; bound
@[bound] theorem whole_execBistComplete (h : Whole s) (u : UnitId) (code : Nat) (r : BistResult) :
    Whole (nextOf s (execBistComplete u code r s)) := by
  simp only [execBistComplete, nextOf]; bound
@[bound] theorem whole_execCxlMemAccess (h : Whole s) (p : Port) (t : TarnIx) (offset : Nat) (req : CxlReq) :
    Whole (nextOf s (execCxlMemAccess p t offset req s)) := by
  simp only [execCxlMemAccess, nextOf]; bound
@[bound] theorem whole_execCxlSnoop (h : Whole s) (p : Port) (_line : Nat) :
    Whole (nextOf s (execCxlSnoop p _line s)) := by
  simp only [execCxlSnoop, nextOf]; bound

end Sys2Proof.Machine
end

section
/-! The tables under function reset and accesses of the host. -/

namespace Sys2Proof.Machine
variable {s : State}

@[bound] theorem whole_abortTickets (h : Whole s) (t : TarnIx) : Whole (abortTickets s t) := whole_mk h ..
@[bound] theorem whole_flrTarn (h : Whole s) (t : TarnIx) : Whole (flrTarn s t) :=
  whole_tallySession (whole_resetFn (whole_abortTickets h t) t fun _ _ => ⟨List.length_replicate, List.length_replicate⟩) ..
@[bound] theorem whole_logAer (h : Whole s) (t : TarnIx) (b : BitVec 32) : Whole (logAer s t b) := whole_modFn h _ fun _ => rfl
@[bound] theorem whole_ticketData (h : Whole s) (k : Ticket) (c : DmaChunk) (bs : Bytes) :
    Whole (ticketData s k c bs) := by
  simp only [ticketData]; bound
@[bound] theorem whole_ringData (h : Whole s) (t : TarnIx) (q : QpIx) (bs : Bytes) :
    Whole (ringData s t q bs) := by
  simp only [ringData]; bound
@[bound] theorem whole_dmaAnswer (h : Whole s) (target : DmaTarget) (r : DmaResult) :
    Whole (dmaAnswer s target r) := by
  simp only [dmaAnswer]; bound
@[bound] theorem whole_dmaTimeout (h : Whole s) (target : DmaTarget) :
    Whole (dmaTimeout s target) := by
  simp only [dmaTimeout]; bound
@[bound] theorem whole_execFlr (h : Whole s) (t : TarnIx) : Whole (nextOf s (execFlr t s)) := by
  simp only [execFlr, nextOf]; bound
@[bound] theorem whole_execDmaCompletion (h : Whole s) (target : DmaTarget) (r : DmaResult) :
    Whole (nextOf s (execDmaCompletion target r s)) := by
  simp only [execDmaCompletion, nextOf]; bound
@[bound] theorem whole_execCompletionTimeout (h : Whole s) (target : DmaTarget) :
    Whole (nextOf s (execCompletionTimeout target s)) := by
  simp only [execCompletionTimeout, nextOf]; bound
@[bound] theorem whole_execRekeyDue (h : Whole s) (t : TarnIx) (session : BitVec 32) :
    Whole (nextOf s (execRekeyDue t session s)) := by
  simp only [execRekeyDue, nextOf]; bound
@[bound] theorem whole_execSessionExhausted (h : Whole s) (t : TarnIx) (session : BitVec 32) :
    Whole (nextOf s (execSessionExhausted t session s)) := by
  simp only [execSessionExhausted, nextOf]; bound
@[bound] theorem whole_execBounceTagFailureLimit (h : Whole s) (t : TarnIx) (session : BitVec 32) :
    Whole (nextOf s (execBounceTagFailureLimit t session s)) := by
  simp only [execBounceTagFailureLimit, nextOf]; bound

end Sys2Proof.Machine
end

section
/-! The tables under the register file of a function. -/

namespace Sys2Proof.Machine
variable {s : State}

@[bound] theorem whole_writeSqTail (h : Whole s) (t : TarnIx) (q : QpIx) (v : BitVec 16) :
    Whole (writeSqTail s t q v) := by
  simp only [writeSqTail]; bound
@[bound] theorem whole_writeCqHead (h : Whole s) (t : TarnIx) (q : QpIx) (v : BitVec 16) :
    Whole (writeCqHead s t q v) := by
  simp only [writeCqHead]; bound
@[bound] theorem whole_writeQpCtrl (h : Whole s) (t : TarnIx) (q : QpIx) (v : Nat) :
    Whole (writeQpCtrl s t q v) := whole_modQp h ..
@[bound] theorem whole_writeAdvCtrl (h : Whole s) (t : TarnIx) (v : Nat) : Whole (writeAdvCtrl s t v) :=
  whole_modFn h t fun f => by unfold advCtrl; split <;> rfl
@[bound] theorem whole_writeAdvHead (h : Whole s) (t : TarnIx) (v : BitVec 16) : Whole (writeAdvHead s t v) :=
  whole_modFn h t fun f => by split <;> rfl
@[bound] theorem whole_writeVectorMask (h : Whole s) (t : TarnIx) (v : Nat) (m : Bool) :
    Whole (writeVectorMask s t v m) := by
  simp only [writeVectorMask]; bound
@[bound] theorem whole_writeQpReg (h : Whole s) (t : TarnIx) (q : QpIx) (off width v : Nat) :
    Whole (writeQpReg s t q off width v) := by
  simp only [writeQpReg]; bound
@[bound] theorem whole_writeTarnReg (h : Whole s) (t : TarnIx) (off width v : Nat) :
    Whole (writeTarnReg s t off width v) := by
  simp only [writeTarnReg]; bound
@[bound] theorem whole_writeMsix (h : Whole s) (t : TarnIx) (off v : Nat) :
    Whole (writeMsix s t off v) := by
  simp only [writeMsix]; bound
@[bound] theorem whole_writeBar0 (h : Whole s) (t : TarnIx) (off width v : Nat) :
    Whole (writeBar0 s t off width v) := by
  unfold writeBar0
  apply whole_ite h
  apply whole_ite (whole_writeTarnReg h ..)
  apply whole_ite (whole_writeQpReg h ..)
  apply whole_ite (whole_ite (whole_writeMsix h ..) h)
  extract_lets q o
  split
  · exact whole_ite (whole_writeSqTail h ..) (whole_ite (whole_writeCqHead h ..) h)
  · exact h
@[bound] theorem whole_readEffect (h : Whole s) (t : TarnIx) (off width : Nat) :
    Whole (readEffect s t off width) := by
  simp only [readEffect]; bound
@[bound] theorem whole_execBusMasterEnable (h : Whole s) (t : TarnIx) (on : Bool) :
    Whole (nextOf s (execBusMasterEnable t on s)) := by
  unfold execBusMasterEnable
  apply whole_ite _ h
  have hset : Whole (modFn s t fun f => { f with busMaster := on }) := whole_modFn h t fun _ => rfl
  apply whole_ite _ hset
  apply whole_foldl _ _ (whole_flushPending hset t)
  exact fun s q h => whole_ringPump h t q
@[bound] theorem whole_execSqDoorbell (h : Whole s) (t : TarnIx) (q : QpIx) (value : BitVec 32) :
    Whole (nextOf s (execSqDoorbell t q value s)) := by
  simp only [execSqDoorbell, nextOf]; bound
@[bound] theorem whole_execCqDoorbell (h : Whole s) (t : TarnIx) (q : QpIx) (value : BitVec 32) :
    Whole (nextOf s (execCqDoorbell t q value s)) := by
  simp only [execCqDoorbell, nextOf]; bound
@[bound] theorem whole_execQpEnable (h : Whole s) (t : TarnIx) (q : QpIx) (value : BitVec 32) :
    Whole (nextOf s (execQpEnable t q value s)) := by
  simp only [execQpEnable, nextOf]; bound
@[bound] theorem whole_execQpDisable (h : Whole s) (t : TarnIx) (q : QpIx) (value : BitVec 32) :
    Whole (nextOf s (execQpDisable t q value s)) := by
  simp only [execQpDisable, nextOf]; bound
@[bound] theorem whole_execAdvEnable (h : Whole s) (t : TarnIx) (value : BitVec 32) :
    Whole (nextOf s (execAdvEnable t value s)) := by
  simp only [execAdvEnable, nextOf]; bound
@[bound] theorem whole_execAdvDisable (h : Whole s) (t : TarnIx) (value : BitVec 32) :
    Whole (nextOf s (execAdvDisable t value s)) := by
  simp only [execAdvDisable, nextOf]; bound
@[bound] theorem whole_execAdvHeadWrite (h : Whole s) (t : TarnIx) (value : BitVec 32) :
    Whole (nextOf s (execAdvHeadWrite t value s)) := by
  simp only [execAdvHeadWrite, nextOf]; bound
@[bound] theorem whole_execBeatRead (h : Whole s) (r : BarRead) : Whole (nextOf s (execBeatRead r s)) := by
  simp only [execBeatRead, nextOf]; bound
@[bound] theorem whole_execMsixUnmask (h : Whole s) (t : TarnIx) (v : Fin 64) :
    Whole (nextOf s (execMsixUnmask t v s)) := by
  simp only [execMsixUnmask, nextOf]; bound

end Sys2Proof.Machine
end

section
/-! The tables under the management channels. -/

namespace Sys2Proof.Machine
variable {s : State}

@[bound] theorem whole_gmpAnswer (h : Whole s) (r : GmpReq) (st : Status) (body : Bytes) :
    Whole (gmpAnswer s r st body) := by
  simp only [gmpAnswer]; bound
@[bound] theorem whole_useNonce (h : Whole s) (r : GmpReq) (signed : Bool) :
    Whole (useNonce s r signed) := by
  simp only [useNonce]; bound
@[bound] theorem whole_gmpRun (h : Whole s) {f : State → State} (hf : ∀ s, Whole s → Whole (f s))
    (r : GmpReq) (role : BitVec 4) (signed onBoard reads : Bool) : Whole (gmpRun s r role signed onBoard reads f) := by
  unfold gmpRun
  apply whole_ite h
  split
  · exact hf _ (whole_useNonce h r signed)
  · exact whole_gmpAnswer h ..
@[bound] theorem whole_giveNonce (h : Whole s) (r : GmpReq) :
    Whole (giveNonce s r) := by
  simp only [giveNonce]; bound
@[bound] theorem whole_readTelemetry (h : Whole s) (r : GmpReq) (items : List Nat) :
    Whole (readTelemetry s r items) := by
  simp only [readTelemetry]; bound
@[bound] theorem whole_readLedger (h : Whole s) (r : GmpReq) (t : TarnIx) (sel : LedgerSel) (max : Nat) :
    Whole (readLedger s r t sel max) := by
  simp only [readLedger]; bound
@[bound] theorem whole_askCheckpoint (h : Whole s) (r : GmpReq) :
    Whole (askCheckpoint s r) := by
  simp only [askCheckpoint]; bound
@[bound] theorem whole_endSigning (h : Whole s) : Whole (endSigning s) := by simp only [endSigning]; bound
@[bound] theorem whole_submitGmp (h : Whole s) (r : GmpReq) (force : Bool) (set : Bytes) :
    Whole (submitGmp s r force set) := by
  unfold submitGmp
  split
  next s' e =>
    have hs := whole_of_snd e (whole_submitMgmt h ..)
    split
    · exact whole_gmpAnswer hs ..
    · exact hs
  next st s' _ e => exact whole_gmpAnswer (whole_of_snd e (whole_submitMgmt h ..)) ..
@[bound] theorem whole_setGovernor (h : Whole s) (r : GmpReq) (b : Bounds) : Whole (setGovernor s r b) := whole_mk h ..
@[bound] theorem whole_runBist (h : Whole s) (r : GmpReq) (u : UnitId) (code : Nat) :
    Whole (runBist s r u code) := by
  simp only [runBist]; bound
@[bound] theorem whole_retireByOperator (h : Whole s) (r : GmpReq) (u : UnitId) :
    Whole (retireByOperator s r u) := by
  simp only [retireByOperator]; bound
@[bound] theorem whole_reenableLink (h : Whole s) (n : LinkIx) : Whole (reenableLink s n) := whole_modLink h ..
@[bound] theorem whole_setTiming (h :
    Whole s) (mode : TimingMode) (domain : BitVec 16) (deviceNo : Fin 64) (priority : BitVec 8) :
    Whole (setTiming s mode domain deviceNo priority) := by
  have hset : Whole { s with
      flash := { s.flash with mode, domain, deviceNo, priority }, timing := { s.timing with mode, domain, deviceNo, priority } } :=
    whole_of_tables h rfl
  exact whole_chooseLeader (whole_ite (whole_leaveHoldover (whole_timing hset rfl)) hset)
@[bound] theorem whole_setPorts (h : Whole s) (r : GmpReq) (x8 : Bool) (assign : List Port) :
    Whole (setPorts s r x8 assign) := by
  simp only [setPorts]; bound
@[bound] theorem whole_linkItem (h : Whole s) (i : LinkSetItem) :
    Whole (linkItem s i) := by
  simp only [linkItem]; bound
@[bound] theorem whole_setLinks (h : Whole s) (r : GmpReq) (items : List LinkSetItem) :
    Whole (setLinks s r items) := by
  simp only [setLinks]; bound
@[bound] theorem whole_setNetwork (h : Whole s) (r : GmpReq) (b : NetBody) :
    Whole (setNetwork s r b) := by
  simp only [setNetwork]; bound
@[bound] theorem whole_modAnchor (h : Whole s) (k : Nat) (g : Anchor → Anchor) : Whole (modAnchor s k g) :=
  whole_fuses h (List.length_modify ..)
@[bound] theorem whole_addTrust (h : Whole s) (r : GmpReq) (digest : Bytes) (roles : BitVec 4) :
    Whole (addTrust s r digest roles) := by
  simp only [addTrust]; bound
@[bound] theorem whole_removeTrust (h : Whole s) (r : GmpReq) (slot : Nat) :
    Whole (removeTrust s r slot) := by
  simp only [removeTrust]; bound
@[bound] theorem whole_setFloor (h : Whole s) (r : GmpReq) (t : TarnIx) (floor : Nat) :
    Whole (setFloor s r t floor) := by
  simp only [setFloor]; bound
@[bound] theorem whole_setAuthority (h : Whole s) (r : GmpReq) (t : TarnIx) (keys : List Bytes) :
    Whole (setAuthority s r t keys) := by
  simp only [setAuthority]; bound
@[bound] theorem whole_setTagKey (h : Whole s) (r : GmpReq) (t : TarnIx) (ephemeral nonce ciphertext tag : Bytes) :
    Whole (setTagKey s r t ephemeral nonce ciphertext tag) := by
  simp only [setTagKey]; bound
@[bound] theorem whole_parentDone (h : Whole s) (r : GmpReq) (op p tarn : Nat) :
    Whole (parentDone s r op p tarn) := by
  simp only [parentDone]; bound
@[bound] theorem whole_assignParent (h : Whole s) (r : GmpReq) (p : Nat) (t : TarnIx) :
    Whole (assignParent s r p t) := by
  unfold assignParent
  apply whole_ite (whole_gmpAnswer h ..)
  apply whole_ite (whole_gmpAnswer h ..)
  apply whole_ite (whole_gmpAnswer h ..)
  exact whole_parentDone (whole_modParent h ..) ..
@[bound] theorem whole_freeParent (h : Whole s) (r : GmpReq) (p : Nat) :
    Whole (freeParent s r p) := by
  simp only [freeParent]; bound
@[bound] theorem whole_createRootBlob (h : Whole s) (r : GmpReq) (p usage : Nat) (label : Bytes) :
    Whole (createRootBlob s r p usage label) := by
  simp only [createRootBlob]; bound
@[bound] theorem whole_readDebug (h : Whole s) (r : GmpReq) (kind : DebugKind) (x : Resource) (offset : Nat) :
    Whole (readDebug s r kind x offset) := by
  simp only [readDebug]; bound
@[bound] theorem whole_newRoot (h : Whole s) : Whole (newRoot s) :=
  whole_of_tables (whole_drawEntropy h 32) rfl
@[bound] theorem whole_tallyKeyBytes (h : Whole s) :
    Whole (tallyKeyBytes s).2 := by
  simp only [tallyKeyBytes]; bound
@[bound] theorem whole_tallyKeyEvent (h : Whole s) : Whole (tallyKeyEvent s) := by simp only [tallyKeyEvent]; bound
@[simp] theorem length_resetParents (l : List Parent) : (resetParents l).length = l.length := by simp [resetParents]
@[bound] theorem whole_lifeSteps (h : Whole s) (dst : LifeCycle) :
    Whole (lifeSteps s dst) := by
  obtain ⟨hs, hmem⟩ := whole_iff_good.mp h
  have hburnt : Whole { s with
      fuses := { s.fuses with lc := s.fuses.lc ||| BitVec.ofNat 3 (2 ^ (lifeCode dst - 1)) }
      keys := List.replicate 512 {}
      replaces := List.replicate 16 none
      bbram := { s.bbram with root := zeros 32, journal := List.replicate 16 {}, parents := resetParents s.bbram.parents } } :=
    whole_iff_good.mpr ⟨{ hs with
      keys := List.length_replicate, replaces := List.length_replicate, journal := List.length_replicate
      parents := (length_resetParents _).trans hs.parents }, hmem⟩
  exact whole_bbram (whole_ite (whole_mk hburnt ..) (whole_newRoot hburnt)) (by rfl) (by rfl)
@[bound] theorem whole_setLife (h : Whole s) (r : GmpReq) (dst : LifeCycle) :
    Whole (setLife s r dst) := by
  simp only [setLife]; bound
@[bound] theorem whole_provisionAgain (h : Whole s) (r : GmpReq) :
    Whole (provisionAgain s r) := by
  unfold provisionAgain
  extract_lets lc cleared s'
  apply whole_ite (whole_gmpAnswer h ..)
  have hs' : Whole s' := by
    unfold s'
    obtain ⟨hs, hmem⟩ := whole_iff_good.mp h
    refine whole_newRoot (whole_iff_good.mpr ⟨{ hs with journal := List.length_replicate, parents := ?_ }, hmem⟩)
    exact (length_resetParents _).trans hs.parents
  clear_value s'
  exact whole_gmpAnswer (whole_tallyKeyEvent (whole_tallyDevice hs' ..)) ..
@[bound] theorem whole_armTamper (h : Whole s) (r : GmpReq) (n : Fin 4) :
    Whole (armTamper s r n) := by
  simp only [armTamper]; bound
@[bound] theorem whole_activate (h : Whole s) (r : GmpReq) (kernel firmware : Bool) (drainBars : Nat) :
    Whole (activate s r kernel firmware drainBars) := by
  simp only [activate]; bound
@[bound] theorem whole_pldmRun (h : Whole s) {f : State → State} (hf : ∀ s, Whole s → Whole (f s)) :
    Whole (pldmRun s f) := whole_ite (hf s h) h
@[bound] theorem whole_pldmMove (h : Whole s) (n : Nat) : Whole (pldmMove s n) := whole_mk h ..
@[bound] theorem whole_readSensor (h : Whole s) (item : Nat) :
    Whole (readSensor s item) := by
  simp only [readSensor]; bound
@[bound] theorem whole_execTlsHandshake (h : Whole s) (anchorSlot : Nat) (clientKey : Bytes) (paramsOk : Bool) :
    Whole (nextOf s (execTlsHandshake anchorSlot clientKey paramsOk s)) := by
  simp only [execTlsHandshake, nextOf]; bound
@[bound] theorem whole_execTlsSessionEnd (h : Whole s) (session : Nat) :
    Whole (nextOf s (execTlsSessionEnd session s)) := by
  simp only [execTlsSessionEnd, nextOf]; bound
@[bound] theorem whole_execGetNonce (h : Whole s) (req : GmpReq) : Whole (nextOf s (execGetNonce req s)) := by
  simp only [execGetNonce, nextOf]; bound
@[bound] theorem whole_execTelemetryRead (h : Whole s) (req : GmpReq) (items : List Nat) :
    Whole (nextOf s (execTelemetryRead req items s)) := by
  simp only [execTelemetryRead, nextOf]; bound
@[bound] theorem whole_execGmpLedgerRead (h : Whole s) (req : GmpReq) (t : TarnIx) (sel : LedgerSel) (max : Nat) :
    Whole (nextOf s (execGmpLedgerRead req t sel max s)) := by
  simp only [execGmpLedgerRead, nextOf]; bound
@[bound] theorem whole_execGmpTallyRead (h : Whole s) (req : GmpReq) (first count : Nat) :
    Whole (nextOf s (execGmpTallyRead req first count s)) := by
  simp only [execGmpTallyRead, nextOf]; bound
@[bound] theorem whole_execTallyAck (h : Whole s) (req : GmpReq) (seq : Nat) :
    Whole (nextOf s (execTallyAck req seq s)) := by
  simp only [execTallyAck, nextOf]; bound
@[bound] theorem whole_execCheckpoint (h : Whole s) (req : GmpReq) : Whole (nextOf s (execCheckpoint req s)) := by
  simp only [execCheckpoint, nextOf]; bound
@[bound] theorem whole_execCheckpointSigned (h : Whole s) : Whole (nextOf s (execCheckpointSigned s)) := by
  simp only [execCheckpointSigned, nextOf]; bound
@[bound] theorem whole_execTallyCheckpointAuto (h : Whole s) : Whole (nextOf s (execTallyCheckpointAuto s)) := by
  simp only [execTallyCheckpointAuto, nextOf]; bound
@[bound] theorem whole_execGmpChangeSubmit (h : Whole s) (req : GmpReq) (force : Bool) (set : Bytes) :
    Whole (nextOf s (execGmpChangeSubmit req force set s)) := by
  simp only [execGmpChangeSubmit, nextOf]; bound
@[bound] theorem whole_execGmpChangeStatus (h : Whole s) (req : GmpReq) (changeId : Nat) :
    Whole (nextOf s (execGmpChangeStatus req changeId s)) := by
  simp only [execGmpChangeStatus, nextOf]; bound
@[bound] theorem whole_execGovernorSet (h : Whole s) (req : GmpReq) (b : Bounds) :
    Whole (nextOf s (execGovernorSet req b s)) := by
  simp only [execGovernorSet, nextOf]; bound
@[bound] theorem whole_execGmpBistRun (h : Whole s) (req : GmpReq) (u : UnitId) (code : Nat) :
    Whole (nextOf s (execGmpBistRun req u code s)) := by
  simp only [execGmpBistRun, nextOf]; bound
@[bound] theorem whole_execUnitRetire (h : Whole s) (req : GmpReq) (u : UnitId) :
    Whole (nextOf s (execUnitRetire req u s)) := by
  simp only [execUnitRetire, nextOf]; bound
@[bound] theorem whole_execLinkReenable (h : Whole s) (req : GmpReq) (n : LinkIx) :
    Whole (nextOf s (execLinkReenable req n s)) := by
  simp only [execLinkReenable, nextOf]; bound
@[bound] theorem whole_execTimingSet (h : Whole s) (req : GmpReq) (mode : TimingMode) (domain : BitVec 16) (deviceNo : Fin 64) (priority : BitVec 8) :
    Whole (nextOf s (execTimingSet req mode domain deviceNo priority s)) := by
  simp only [execTimingSet, nextOf]; bound
@[bound] theorem whole_execPortSet (h : Whole s) (req : GmpReq) (x8 : Bool) (assign : List Port) :
    Whole (nextOf s (execPortSet req x8 assign s)) := by
  simp only [execPortSet, nextOf]; bound
@[bound] theorem whole_execLinkSet (h : Whole s) (req : GmpReq) (items : List LinkSetItem) :
    Whole (nextOf s (execLinkSet req items s)) := by
  simp only [execLinkSet, nextOf]; bound
@[bound] theorem whole_execNetworkSet (h : Whole s) (req : GmpReq) (b : NetBody) :
    Whole (nextOf s (execNetworkSet req b s)) := by
  simp only [execNetworkSet, nextOf]; bound
@[bound] theorem whole_execTrustAdd (h : Whole s) (req : GmpReq) (keyDigest : Bytes) (roles : BitVec 4) :
    Whole (nextOf s (execTrustAdd req keyDigest roles s)) := by
  simp only [execTrustAdd, nextOf]; bound
@[bound] theorem whole_execTrustRemove (h : Whole s) (req : GmpReq) (slot : Nat) :
    Whole (nextOf s (execTrustRemove req slot s)) := by
  simp only [execTrustRemove, nextOf]; bound
@[bound] theorem whole_execFloorSet (h : Whole s) (req : GmpReq) (t : TarnIx) (floor : Nat) :
    Whole (nextOf s (execFloorSet req t floor s)) := by
  simp only [execFloorSet, nextOf]; bound
@[bound] theorem whole_execAuthoritySet (h : Whole s) (req : GmpReq) (t : TarnIx) (keys : List Bytes) :
    Whole (nextOf s (execAuthoritySet req t keys s)) := by
  simp only [execAuthoritySet, nextOf]; bound
@[bound] theorem whole_execTagKeySet (h : Whole s) (req : GmpReq) (t : TarnIx) (ephemeral nonce ciphertext tag : Bytes) :
    Whole (nextOf s (execTagKeySet req t ephemeral nonce ciphertext tag s)) := by
  simp only [execTagKeySet, nextOf]; bound
@[bound] theorem whole_execParentAssign (h : Whole s) (req : GmpReq) (entry : Nat) (t : TarnIx) :
    Whole (nextOf s (execParentAssign req entry t s)) := by
  simp only [execParentAssign, nextOf]; bound
@[bound] theorem whole_execParentFree (h : Whole s) (req : GmpReq) (entry : Nat) :
    Whole (nextOf s (execParentFree req entry s)) := by
  simp only [execParentFree, nextOf]; bound
@[bound] theorem whole_execRootBlobCreate (h : Whole s) (req : GmpReq) (entry usage : Nat) (label : Bytes) :
    Whole (nextOf s (execRootBlobCreate req entry usage label s)) := by
  simp only [execRootBlobCreate, nextOf]; bound
@[bound] theorem whole_execDebugSet (h : Whole s) (req : GmpReq) (sw : DebugSwitch) :
    Whole (nextOf s (execDebugSet req sw s)) := by
  simp only [execDebugSet, nextOf]; bound
@[bound] theorem whole_execDebugReadRequest (h : Whole s) (req : GmpReq) (kind : DebugKind) (r : Resource) (offset : Nat) :
    Whole (nextOf s (execDebugReadRequest req kind r offset s)) := by
  simp only [execDebugReadRequest, nextOf]; bound
@[bound] theorem whole_execTestPortInstruction (h : Whole s) (i : TestInstr) :
    Whole (nextOf s (execTestPortInstruction i s)) := by
  simp only [execTestPortInstruction, nextOf]; bound
@[bound] theorem whole_execLifecycleSet (h : Whole s) (req : GmpReq) (target : LifeCycle) :
    Whole (nextOf s (execLifecycleSet req target s)) := by
  simp only [execLifecycleSet, nextOf]; bound
@[bound] theorem whole_execReprovision (h : Whole s) (req : GmpReq) :
    Whole (nextOf s (execReprovision req s)) := by
  simp only [execReprovision, nextOf]; bound
@[bound] theorem whole_execTamperArm (h : Whole s) (req : GmpReq) (n : Fin 4) :
    Whole (nextOf s (execTamperArm req n s)) := by
  simp only [execTamperArm, nextOf]; bound
@[bound] theorem whole_execFwStage (h : Whole s) (req : GmpReq) (image : Bytes) :
    Whole (nextOf s (execFwStage req image s)) := by
  simp only [execFwStage, nextOf]; bound
@[bound] theorem whole_execFwActivate (h : Whole s) (req : GmpReq) (kernel firmware : Bool) (drainBars : Nat) :
    Whole (nextOf s (execFwActivate req kernel firmware drainBars s)) := by
  simp only [execFwActivate, nextOf]; bound
@[bound] theorem whole_execFirmwareDrainEnd (h : Whole s) : Whole (nextOf s (execFirmwareDrainEnd s)) :=
  whole_ite (whole_of_tables (whole_swapControl h) (by simp [tables])) h
@[bound] theorem whole_execFwStatus (h : Whole s) (req : GmpReq) : Whole (nextOf s (execFwStatus req s)) := by
  simp only [execFwStatus, nextOf]; bound
@[bound] theorem whole_execQueryDeviceIdentifiers (h : Whole s) :
    Whole (nextOf s (execQueryDeviceIdentifiers s)) := by
  simp only [execQueryDeviceIdentifiers, nextOf]; bound
@[bound] theorem whole_execGetFirmwareParameters (h : Whole s) :
    Whole (nextOf s (execGetFirmwareParameters s)) := by
  simp only [execGetFirmwareParameters, nextOf]; bound
@[bound] theorem whole_execRequestUpdate (h : Whole s) : Whole (nextOf s (execRequestUpdate s)) := by
  simp only [execRequestUpdate, nextOf]; bound
@[bound] theorem whole_execPassComponentTable (h : Whole s) (components : List Nat) :
    Whole (nextOf s (execPassComponentTable components s)) := by
  simp only [execPassComponentTable, nextOf]; bound
@[bound] theorem whole_execUpdateComponent (h : Whole s) (component : Nat) (image : Bytes) :
    Whole (nextOf s (execUpdateComponent component image s)) := by
  simp only [execUpdateComponent, nextOf]; bound
@[bound] theorem whole_execActivateFirmware (h : Whole s) : Whole (nextOf s (execActivateFirmware s)) := by
  simp only [execActivateFirmware, nextOf]; bound
@[bound] theorem whole_execGetStatus (h : Whole s) : Whole (nextOf s (execGetStatus s)) := by
  simp only [execGetStatus, nextOf]; bound
@[bound] theorem whole_execCancelUpdateComponent (h : Whole s) :
    Whole (nextOf s (execCancelUpdateComponent s)) := by
  simp only [execCancelUpdateComponent, nextOf]; bound
@[bound] theorem whole_execCancelUpdate (h : Whole s) : Whole (nextOf s (execCancelUpdate s)) := by
  simp only [execCancelUpdate, nextOf]; bound
@[bound] theorem whole_execGetSensorReading (h : Whole s) (sensor : Nat) :
    Whole (nextOf s (execGetSensorReading sensor s)) := by
  simp only [execGetSensorReading, nextOf]; bound
@[bound] theorem whole_execGetStateSensorReadings (h : Whole s) (sensor : Nat) :
    Whole (nextOf s (execGetStateSensorReadings sensor s)) := by
  simp only [execGetStateSensorReadings, nextOf]; bound

end Sys2Proof.Machine
end

section
/-! The tables under ports and configuration space. -/

namespace Sys2Proof.Machine
variable {s : State}

@[bound] theorem whole_dropConn (h : Whole s) (p : Port) : Whole (dropConn s p) := whole_mk h ..
@[bound] theorem whole_writeConfig (h : Whole s) (f : Func) (r : ConfigReg) (v : Nat) :
    Whole (writeConfig s f r v) := by
  simp only [writeConfig]; bound
@[bound] theorem whole_execConfigRetry (h : Whole s) (r : ConfigRead) :
    Whole (nextOf s (execConfigRetry r s)) := by
  simp only [execConfigRetry, nextOf]; bound
@[bound] theorem whole_execRegisterWrite (h : Whole s) (f : Func) (reg : RegAt) (width : Nat) (value : BitVec 64) :
    Whole (nextOf s (execRegisterWrite f reg width value s)) := by
  simp only [execRegisterWrite, nextOf]; bound

end Sys2Proof.Machine
end

section
/-! The tables under power, boot and tamper. -/

namespace Sys2Proof.Machine
variable {s : State}

@[bound] theorem whole_resetFunctions (h : Whole s) (p : Port) :
    Whole (resetFunctions s p) := by
  simp only [resetFunctions]; bound
@[bound] theorem whole_assertPerst (h : Whole s) (p : Port) :
    Whole (assertPerst s p) := by
  simp only [assertPerst]; bound
@[bound] theorem whole_applyPorts (h : Whole s) : Whole (applyPorts s) := whole_mk h ..
@[bound] theorem whole_releasePerst (h : Whole s) (p : Port) :
    Whole (releasePerst s p) := by
  simp only [releasePerst]; bound
@[bound] theorem whole_readsLost (h : Whole s) (p : Port) :
    Whole (readsLost s p) := by
  simp only [readsLost]; bound
@[bound] theorem whole_portDown (h : Whole s) (p : Port) : Whole (portDown s p) := by simp only [portDown]; bound
@[bound] theorem whole_tamperWipe (h : Whole s) (c : TamperCause) : Whole (tamperWipe s c) := by
  obtain ⟨hs, hmem⟩ := whole_iff_good.mp h
  exact whole_iff_good.mpr ⟨{ hs with
    fns := (List.length_map ..).trans hs.fns
    fn := List.forall_mem_map.mpr hs.fn
    links := (List.length_map ..).trans hs.links
    tarns := (List.length_map ..).trans hs.tarns
    keys := List.length_replicate
    replaces := List.length_replicate
    journal := List.length_replicate
    parents := List.length_replicate }, hmem⟩
@[bound] theorem whole_tamperSignal (h : Whole s) (c : TamperCause) :
    Whole (tamperSignal s c) := by
  simp only [tamperSignal]; bound
@[bound] theorem whole_releaseReset (h : Whole s) : Whole (releaseReset s) := by
  unfold releaseReset
  extract_lets timing board released
  have hreleased : Whole released := whole_applyPorts (s := { s with timing := _, board := _ }) (whole_of_tables h rfl)
  clear_value released
  split
  · exact hreleased
  · exact whole_setFatal (whole_tamperWipe hreleased _)
@[bound] theorem whole_bootRom (h : Whole s) : Whole (bootRom s).2 := whole_mk h ..
@[bound] theorem whole_resolveEntry (h : Whole s) (x : JEntry × Nat) :
    Whole (resolveEntry s x) := by
  simp only [resolveEntry]; bound
@[bound] theorem whole_bootEvent (h : Whole s) : Whole (bootEvent s) := by simp only [bootEvent]; bound
@[bound] theorem whole_tallyTamper (h : Whole s) : Whole (tallyTamper s) := by simp only [tallyTamper]; bound
@[bound] theorem whole_kernelBoot (h : Whole s) (rolledBack : Bool × Bool) :
    Whole (kernelBoot s rolledBack) := by
  unfold kernelBoot
  extract_lets present rooted ahead advanced journal booted resolved aheadNoted tamperNoted lostNoted kernelNoted ctrlNoted noted
  have hadvanced : Whole advanced := whole_ite (whole_lifeSteps (whole_mk h ..) _) (whole_mk h ..)
  clear_value advanced
  have hresolved : Whole resolved := by
    apply whole_foldl _ _ (whole_bootEvent hadvanced)
    exact fun s x h => whole_resolveEntry h x
  clear_value resolved
  have haheadNoted : Whole aheadNoted := whole_ite (whole_tallyDevice hresolved ..) hresolved
  clear_value aheadNoted
  have htamperNoted : Whole tamperNoted := whole_ite haheadNoted (whole_tallyTamper haheadNoted)
  clear_value tamperNoted
  have hlostNoted : Whole lostNoted := whole_ite htamperNoted (whole_tallyDevice htamperNoted ..)
  clear_value lostNoted
  have hkernelNoted : Whole kernelNoted := whole_ite (whole_tallyFirmware hlostNoted ..) hlostNoted
  clear_value kernelNoted
  have hctrlNoted : Whole ctrlNoted := whole_ite (whole_tallyFirmware hkernelNoted ..) hkernelNoted
  clear_value ctrlNoted
  have hnoted : Whole noted := whole_ite (whole_tallyDevice hctrlNoted ..) hctrlNoted
  exact whole_fuses hnoted rfl
@[bound] theorem whole_startBeats (h : Whole s) : Whole (startBeats s) := by simp only [startBeats]; bound
@[bound] theorem whole_clockLost (h : Whole s) (n : LinkIx) :
    Whole (clockLost s n) := by
  simp only [clockLost]; bound

/-- The device in reset keeps BBRAM, fuses and units; the other tables are as after reset. -/
theorem whole_inReset (h : Whole s) : Whole (inReset s) := by
  obtain ⟨hs, -⟩ := whole_iff_good.mp h
  obtain ⟨hr, hmem⟩ := whole_iff_good.mp (le_refl (alike State.reset))
  exact whole_iff_good.mpr ⟨{ hr with
    journal := hs.journal
    parents := hs.parents
    anchors := hs.anchors
    chans := (List.length_map ..).trans hs.chans
    spares := (List.length_map ..).trans hs.spares }, hmem⟩

/-- BBRAM is as new. -/
@[bound] theorem whole_blankBbram (h : Whole s) : Whole { s with bbram := blankBbram } := by
  obtain ⟨hs, hmem⟩ := whole_iff_good.mp h
  exact whole_iff_good.mpr ⟨{ hs with journal := List.length_replicate, parents := List.length_replicate }, hmem⟩
@[bound] theorem whole_execPerstAssert (h : Whole s) (p : Port) : Whole (nextOf s (execPerstAssert p s)) := by
  simp only [execPerstAssert, nextOf]; bound
@[bound] theorem whole_execPerstRelease (h : Whole s) (p : Port) : Whole (nextOf s (execPerstRelease p s)) := by
  simp only [execPerstRelease, nextOf]; bound
@[bound] theorem whole_execPortLinkDown (h : Whole s) (p : Port) : Whole (nextOf s (execPortLinkDown p s)) := by
  simp only [execPortLinkDown, nextOf]; bound
@[bound] theorem whole_execPortLinkReturn (h : Whole s) (l : PortLink) :
    Whole (nextOf s (execPortLinkReturn l s)) := by
  simp only [execPortLinkReturn, nextOf]; bound
@[bound] theorem whole_execRefclkStop (h : Whole s) (p : Port) : Whole (nextOf s (execRefclkStop p s)) := by
  simp only [execRefclkStop, nextOf]; bound
@[bound] theorem whole_execTamper (h : Whole s) (c : TamperCause) : Whole (nextOf s (execTamper c s)) := by
  simp only [execTamper, nextOf]; bound
@[bound] theorem whole_execSysResetRelease (h : Whole s) : Whole (nextOf s (execSysResetRelease s)) := by
  simp only [execSysResetRelease, nextOf]; bound
@[bound] theorem whole_execFirstBeat (h : Whole s) : Whole (nextOf s (execFirstBeat s)) := by
  simp only [execFirstBeat, nextOf]; bound
@[bound] theorem whole_execSysClkStop (h : Whole s) : Whole (nextOf s (execSysClkStop s)) := by
  simp only [execSysClkStop, nextOf]; bound
@[bound] theorem whole_execSpwRefclkStop (h : Whole s) (k : Fin 3) : Whole (nextOf s (execSpwRefclkStop k s)) := by
  simp only [execSpwRefclkStop, nextOf]; bound
@[bound] theorem whole_execThermtrip (h : Whole s) (tj : Int) : Whole (nextOf s (execThermtrip tj s)) := by
  simp only [execThermtrip, nextOf]; bound
@[bound] theorem whole_execBatteryAbsent (h : Whole s) (vbatMv : Nat) :
    Whole (nextOf s (execBatteryAbsent vbatMv s)) := by
  simp only [execBatteryAbsent, nextOf]; bound
@[bound] theorem whole_execBatteryRestored (h : Whole s) (vbatMv : Nat) :
    Whole (nextOf s (execBatteryRestored vbatMv s)) := by
  simp only [execBatteryRestored, nextOf]; bound
@[bound] theorem whole_execMainPowerApplied (h : Whole s) : Whole (nextOf s (execMainPowerApplied s)) := by
  simp only [execMainPowerApplied, nextOf]; bound
@[bound] theorem whole_execBatteryRetentionLost (h : Whole s) : Whole (nextOf s (execBatteryRetentionLost s)) :=
  whole_ite h (whole_mk (whole_blankBbram h) ..)
@[bound] theorem whole_execSysReset (h : Whole s) : Whole (nextOf s (execSysReset s)) := by
  have hreset := whole_inReset h
  simp only [execSysReset, nextOf]; bound
@[bound] theorem whole_execBrownOut (h : Whole s) : Whole (nextOf s (execBrownOut s)) := by
  have hreset := whole_inReset h
  simp only [execBrownOut, nextOf]; bound
@[bound] theorem whole_execMainPowerRemoved (h : Whole s) : Whole (nextOf s (execMainPowerRemoved s)) := by
  have hreset := whole_inReset h
  refine whole_ite ?_ h
  dsimp only
  split
  · exact whole_mk (whole_blankBbram hreset) ..
  · exact whole_mk hreset ..

end Sys2Proof.Machine
end

section
/-! The tables under attestation. -/

namespace Sys2Proof.Machine
variable {s : State}

@[bound] theorem whole_spdmError (h : Whole s) (f : Func) (code : Nat) : Whole (spdmError s f code) := whole_mk h ..
@[bound] theorem whole_modConn (h : Whole s) (f : Func) (g : SpdmConn → SpdmConn) :
    Whole (modConn s f g) := by
  simp only [modConn]; bound
@[bound] theorem whole_spdmServe (h :
    Whole s) {g : State → State} (hg : ∀ s, Whole s → Whole (g s)) (f : Func) :
    Whole (spdmServe s f g) := whole_ite h (whole_ite (whole_spdmError h ..) (hg s h))
@[bound] theorem whole_spdmNegotiated (h :
    Whole s) {g : State → State} (hg : ∀ s, Whole s → Whole (g s)) (f : Func) :
    Whole (spdmNegotiated s f g) :=
  whole_spdmServe h (fun s h => whole_ite (hg s h) (whole_spdmError h ..)) f
@[bound] theorem whole_signSpdm (h : Whole s) (key : Nat) (said : Bytes) : Whole (signSpdm s key said).2 := whole_mk h ..
@[bound] theorem whole_withSession (h : Whole s) {g : TarnIx → Session → State → State}
    (hg : ∀ t x s, Whole s → Whole (g t x s)) (f : Func) (session : BitVec 32) :
    Whole (withSession s f session g) := by
  refine whole_spdmServe h (fun s h => ?_) f
  split
  · exact whole_spdmError h ..
  · split
    · exact whole_spdmError h ..
    · exact whole_ite (hg _ _ _ h) (whole_spdmError h ..)
@[bound] theorem whole_execKeyExchange (h : Whole s) (f : Func) (summaryType : BitVec 8) (reqSessionId : BitVec 16) (exchangeData : Bytes) :
    Whole (nextOf s (execKeyExchange f summaryType reqSessionId exchangeData s)) := by
  simp only [execKeyExchange, nextOf]
  refine whole_spdmServe h (fun s h => ?_) f
  split
  · exact whole_spdmError h ..
  next t _ =>
    refine whole_ite (whole_spdmError h ..) (whole_ite (whole_spdmError h ..) (whole_ite (whole_spdmError h ..) ?_))
    split
    · exact whole_spdmError h ..
    next pub _ =>
      have hdrawn : Whole (drawEntropy (drawEntropy s 56).2 34).2 := whole_drawEntropy (whole_drawEntropy h ..) ..
      refine whole_ite (whole_spdmError hdrawn ..) (whole_emit (whole_signSpdm ?_ ..) ..)
      refine whole_modFn hdrawn t ?_
      exact fun _ => rfl
@[bound] theorem whole_execDoeDiscovery (h : Whole s) (f : Func) (index : Nat) :
    Whole (nextOf s (execDoeDiscovery f index s)) := by
  simp only [execDoeDiscovery, nextOf]; bound
@[bound] theorem whole_execGetVersion (h : Whole s) (f : Func) : Whole (nextOf s (execGetVersion f s)) := by
  simp only [execGetVersion, nextOf]; bound
@[bound] theorem whole_execGetCapabilities (h : Whole s) (f : Func) :
    Whole (nextOf s (execGetCapabilities f s)) := by
  simp only [execGetCapabilities, nextOf]; bound
@[bound] theorem whole_execNegotiateAlgorithms (h : Whole s) (f : Func) (offer : AlgOffer) :
    Whole (nextOf s (execNegotiateAlgorithms f offer s)) := by
  simp only [execNegotiateAlgorithms, nextOf]; bound
@[bound] theorem whole_execGetDigests (h : Whole s) (f : Func) : Whole (nextOf s (execGetDigests f s)) := by
  simp only [execGetDigests, nextOf]; bound
@[bound] theorem whole_execGetCertificate (h : Whole s) (f : Func) (slot offset length : Nat) :
    Whole (nextOf s (execGetCertificate f slot offset length s)) := by
  simp only [execGetCertificate, nextOf]; bound
@[bound] theorem whole_execChallenge (h : Whole s) (f : Func) (slot : Nat) (nonce : Bytes) :
    Whole (nextOf s (execChallenge f slot nonce s)) := by
  simp only [execChallenge, nextOf]; bound
@[bound] theorem whole_execGetMeasurements (h : Whole s) (f : Func) (index : Nat) (nonce : Bytes) :
    Whole (nextOf s (execGetMeasurements f index nonce s)) := by
  simp only [execGetMeasurements, nextOf]; bound
@[bound] theorem whole_execFinish (h : Whole s) (f : Func) (session : BitVec 32) (verifyOk : Bool) :
    Whole (nextOf s (execFinish f session verifyOk s)) := by
  simp only [execFinish, nextOf]; bound
@[bound] theorem whole_execKeyUpdate (h : Whole s) (f : Func) (session : BitVec 32) :
    Whole (nextOf s (execKeyUpdate f session s)) := by
  simp only [execKeyUpdate, nextOf]; bound
@[bound] theorem whole_execEndSession (h : Whole s) (f : Func) (session : BitVec 32) :
    Whole (nextOf s (execEndSession f session s)) := by
  simp only [execEndSession, nextOf]; bound
@[bound] theorem whole_execSpdmUnsupported (h : Whole s) (f : Func) (code : BitVec 8) :
    Whole (nextOf s (execSpdmUnsupported f code s)) := by
  simp only [execSpdmUnsupported, nextOf]; bound

end Sys2Proof.Machine
end

section
/-! The tables under a step. -/

namespace Sys2Proof.Machine

theorem whole_exec {s : State} (h : Whole s) (c : Instr) : Whole (nextOf s (exec c s)) := by
  cases c
  all_goals simp only [exec]; bound

end Sys2Proof.Machine

open Sys2Proof.Machine

/-- Settles O58: every command keeps the tables as they are after reset. -/
theorem goodKeptByEveryStep : Obligations.GoodKeptByEveryStep := by
  intro s s' hgood hstep
  have h : Whole s := whole_iff_good.mpr hgood
  unfold step at hstep
  split at hstep
  next =>
    cases hstep
    exact hgood
  next c rest hpending =>
    have hrest : Whole { s with pending := rest } := whole_mk h ..
    have hexec := whole_exec hrest c
    rw [hstep] at hexec
    exact whole_iff_good.mp hexec

end

section
/-! A spare that takes a tile's number in a map that lists no tiles. -/

namespace Sys2Proof.Machine

/-- A running device whose first quadrant has a spare ready for tile 0, and whose map of tiles is empty. -/
def unmappedSpare : State := { State.reset with
  board := { State.reset.board with running := true }
  units := { State.reset.units with
    tileMap := []
    spares := .ready :: List.replicate 3 .idle
    spareFor := some 0 :: List.replicate 3 none } }

theorem shaped_unmappedSpare : Shaped unmappedSpare := { shaped_reset with spares := rfl }

/-- The map has no entry for the spare to replace. -/
theorem tileMap_placeSpare_unmappedSpare : (placeSpare unmappedSpare 0).units.tileMap = [] := rfl

end Sys2Proof.Machine
open Sys2Proof.Machine

/-- Refutes O48: `Shaped` does not ask that the map of logical tiles is whole, and where it lists no tiles the spare of the first
quadrant takes the number of tile 0 without becoming its physical tile. -/
theorem not_failuresAreTaken : ¬ Obligations.FailuresAreTaken := by
  intro h
  obtain ⟨-, -, -, -, -, -, -, -, -, hspare, -⟩ := h unmappedSpare shaped_unmappedSpare rfl
  obtain ⟨s', hexec, -, -, hmap, -⟩ := (hspare 0).1 0 rfl rfl rfl (by decide)
  obtain rfl : placeSpare unmappedSpare 0 = s' := Host.Outcome.next.inj hexec
  rw [tileMap_placeSpare_unmappedSpare] at hmap
  exact absurd hmap (by decide)
end

section
/-! Figures and their tiles under the updates that the meanings share (R128, R567). -/

namespace Sys2Proof.Machine

section
variable {s : State} {g ti : Nat} {f : FigRun}

theorem figOf_modFig (s : State) (g : Nat) (h : FigRun → FigRun) : figOf (modFig s g h) g = (figOf s g).map h := by
  simp only [figOf, modFig, List.getD_eq_getElem?_getD, List.getElem?_modify_eq]
  cases s.figs[g]? <;> rfl

theorem figOf_modFig_of_some (hf : figOf s g = some f) (h : FigRun → FigRun) : figOf (modFig s g h) g = some (h f) := by
  rw [figOf_modFig, hf]; rfl

theorem lt_of_figOf {s : State} {g : Nat} {f : FigRun} (hf : figOf s g = some f) : g < s.figs.length := by
  by_contra hge
  simp [figOf, List.getD_eq_getElem?_getD, hge] at hf

theorem figOf_set {s : State} {g : Nat} (hg : g < s.figs.length) (x : Option FigRun) :
    figOf { s with figs := s.figs.set g x } g = x := by
  simp [figOf, List.getD_eq_getElem?_getD, hg]

theorem modFig_modFig (s : State) (g : Nat) (h k : FigRun → FigRun) : modFig (modFig s g h) g k = modFig s g (k ∘ h) := by
  simp only [modFig, List.modify_modify_eq, Option.map_comp_map]

theorem modFig_of_fixed {s : State} {g : Nat} {f : FigRun} (hf : figOf s g = some f) {k : FigRun → FigRun} (hk : k f = f) :
    modFig s g k = s := by
  have hfigs : s.figs.modify g (Option.map k) = s.figs := by
    refine List.ext_getElem? fun i => ?_
    by_cases hi : g = i
    · subst hi
      have hg : s.figs[g]? = some (some f) := by
        simpa [figOf, List.getD_eq_getElem?_getD, List.getElem?_eq_getElem (lt_of_figOf hf)] using hf
      simp [hg, hk]
    · simp [hi]
  rw [modFig, hfigs]

/-- A figure with one of its tiles changed. -/
def withTile (ti : Nat) (h : TileRun → TileRun) (f : FigRun) : FigRun := { f with tiles := f.tiles.modify ti h }

theorem figOf_modTile (hf : figOf s g = some f) (h : TileRun → TileRun) : figOf (modTile s g ti h) g = some (withTile ti h f) :=
  figOf_modFig_of_some hf _

theorem tiles_withTile {r : TileRun} (hr : f.tiles[ti]? = some r) (h : TileRun → TileRun) : (withTile ti h f).tiles[ti]? = some (h r) := by
  simp [withTile, hr]

/-- A figure that a fault stops: the first fault stays. -/
def faulted (st : Status) (f : FigRun) : FigRun := { f with fault := some (f.fault.getD st) }

theorem figFault_of_some (hf : figOf s g = some f) (st : Status) : figFault s g st = failTicket (modFig s g (faulted st)) f.uid st := by
  simp only [figFault, hf]; rfl

theorem figOf_figFault (hf : figOf s g = some f) (st : Status) : figOf (figFault s g st) g = some (faulted st f) := by
  rw [figFault_of_some hf]; exact figOf_modFig_of_some hf _

theorem mem_figFault (s : State) (g : Nat) (st : Status) : (figFault s g st).mem = s.mem := by
  unfold figFault; split <;> rfl

end
end Sys2Proof.Machine
end

section
/-! Responses to remote accesses (R128, R346, R347), and the statement about them. -/

namespace Sys2Proof.Machine

section
variable {s : State} {n : LinkIx} {h : MsgHeader} {data : Bytes} {m : Remote}

/-- The accesses outstanding once one is answered. -/
def remotesWithout (s : State) (m : Remote) : List Remote := s.remotes.filter fun x => x.tag != m.tag

/-- A tile that waits for an access no longer. -/
def awaitsNot (m : Remote) (r : TileRun) : TileRun := { r with remote := r.remote.filter (· != m.tag) }

theorem not_mem_awaitsNot (m : Remote) (r : TileRun) : m.tag ∉ (awaitsNot m r).remote := by simp [awaitsNot]

theorem remoteDone_eq (s : State) (m : Remote) :
    remoteDone s m = modTile { s with remotes := remotesWithout s m } m.group m.tile (awaitsNot m) := rfl

theorem figOf_remoteDone {f : FigRun} (hf : figOf s m.group = some f) :
    figOf (remoteDone s m) m.group = some (withTile m.tile (awaitsNot m) f) := by
  rw [remoteDone_eq]
  exact figOf_modTile (s := { s with remotes := remotesWithout s m }) hf _

/-- The tile that issued an access waits for it no longer, and is otherwise as it was. -/
theorem remoteDone_tile {f : FigRun} {r : TileRun} (hf : figOf s m.group = some f) (hr : f.tiles[m.tile.val]? = some r) :
    ∃ f', figOf (remoteDone s m) m.group = some f' ∧ f'.tiles[m.tile.val]? = some (awaitsNot m r) :=
  ⟨_, figOf_remoteDone hf, tiles_withTile hr _⟩

/-! The end of an access without an answer of its own (R346) -/

section
variable (s m) (st : Status)

theorem failRemote_figFault {f : FigRun} (hf : figOf s m.group = some f) (hu : f.uid = m.uid) :
    failRemote s m st = figFault { s with remotes := remotesWithout s m } m.group st := by
  have hf' : figOf { s with remotes := remotesWithout s m } m.group = some f := hf
  simp only [remotesWithout] at hf' ⊢
  simp only [failRemote, hf', hu, beq_self_eq_true, if_true]

theorem failRemote_failTicket (h : ∀ f, figOf s m.group = some f → f.uid ≠ m.uid) :
    failRemote s m st = failTicket { s with remotes := remotesWithout s m } m.uid st := by
  have hfig : figOf { s with remotes := remotesWithout s m } m.group = figOf s m.group := rfl
  simp only [remotesWithout] at hfig ⊢
  cases hf : figOf s m.group with
  | none => simp only [failRemote, hfig, hf]
  | some f => simp only [failRemote, hfig, hf, beq_iff_eq, h f hf, if_false]

/-- Whether its figure still runs or is gone, the ticket of an access that fails has the status among its faults. -/
theorem failRemote_cases : (∃ f, figOf s m.group = some f ∧ f.uid = m.uid ∧
      failRemote s m st = failTicket (modFig { s with remotes := remotesWithout s m } m.group (faulted st)) m.uid st) ∨
    ((∀ f, figOf s m.group = some f → f.uid ≠ m.uid) ∧
      failRemote s m st = failTicket { s with remotes := remotesWithout s m } m.uid st) := by
  by_cases hfig : ∃ f, figOf s m.group = some f ∧ f.uid = m.uid
  · obtain ⟨f, hf, hu⟩ := hfig
    refine .inl ⟨f, hf, hu, ?_⟩
    rw [failRemote_figFault s m st hf hu, figFault_of_some (s := { s with remotes := remotesWithout s m }) hf, hu]
  · have hne : ∀ f, figOf s m.group = some f → f.uid ≠ m.uid := fun f hf hu => hfig ⟨f, hf, hu⟩
    exact .inr ⟨hne, failRemote_failTicket s m st hne⟩

theorem remotes_failRemote : (failRemote s m st).remotes = remotesWithout s m := by
  rcases failRemote_cases s m st with ⟨f, -, -, e⟩ | ⟨-, e⟩ <;> rw [e] <;> rfl

theorem figOf_failRemote {f : FigRun} (hf : figOf s m.group = some f) (hu : f.uid = m.uid) :
    figOf (failRemote s m st) m.group = some (faulted st f) := by
  rw [failRemote_figFault s m st hf hu]
  exact figOf_figFault (s := { s with remotes := remotesWithout s m }) hf st

theorem faults_failRemote {k : Ticket} (hk : ticketOf s m.uid = some k) :
    ∃ k', ticketOf (failRemote s m st) m.uid = some k' ∧ k'.faults = k.faults ++ [st] := by
  rcases failRemote_cases s m st with ⟨f, -, -, e⟩ | ⟨-, e⟩
  all_goals rw [e]; exact ⟨_, ticketOf_failTicket hk, rfl⟩

end

/-! The commands -/

/-- Data put in the scratchpad of the tile that issued the access, where its figure still runs. -/
def dataLanded (s : State) (m : Remote) (data : Bytes) : State :=
  match figOf s m.group with
  | some f => if f.uid == m.uid then
      modTile s m.group m.tile fun r => { r with scratch := (scrWrite (scrOf f m.tile r) m.spOff (data.take m.len)).cells }
    else s
  | none => s

section
variable (hrun : running s = true)
include hrun

theorem exec_readData_answers (hr : responseOf s n 4 = some (h, data)) (hm : answered s n h = some m) (hop : m.op = 3) :
    exec (.readData n) s = .next (remoteDone (dataLanded (popMessage s n 2) m data) m) := by
  have hfilter : (answered (popMessage s n 2) n h).filter (fun m => m.op == 3) = some m := by
    rw [show answered (popMessage s n 2) n h = answered s n h from rfl, hm]
    simp [hop]
  simp only [exec, execReadData, hrun, hr, hfilter, if_true]
  rfl

theorem exec_readData_drops (hr : responseOf s n 4 = some (h, data)) (hm : ∀ m, answered s n h = some m → m.op ≠ 3) :
    exec (.readData n) s = .next (popMessage s n 2) := by
  have hfilter : (answered (popMessage s n 2) n h).filter (fun m => m.op == 3) = none := by
    rw [show answered (popMessage s n 2) n h = answered s n h from rfl, Option.filter_eq_none_iff]
    simpa using hm
  simp only [exec, execReadData, hrun, hr, hfilter, if_true]

theorem exec_done_answers (hr : responseOf s n 5 = some (h, data)) (hm : answered s n h = some m) :
    exec (.done n) s = .next (remoteDone (popMessage s n 2) m) := by
  have hm' : answered (popMessage s n 2) n h = some m := hm
  simp only [exec, execDone, hrun, hr, hm', if_true]

theorem exec_done_drops (hr : responseOf s n 5 = some (h, data)) (hm : answered s n h = none) :
    exec (.done n) s = .next (popMessage s n 2) := by
  have hm' : answered (popMessage s n 2) n h = none := hm
  simp only [exec, execDone, hrun, hr, hm', if_true]

theorem exec_refused_answers (hr : responseOf s n 6 = some (h, data)) (hm : answered s n h = some m) :
    exec (.refused n) s = .next (failRemote (popMessage s n 2) m (statusOfCode h.status)) := by
  have hm' : answered (popMessage s n 2) n h = some m := hm
  simp only [exec, execRefused, hrun, hr, hm', if_true]

theorem exec_refused_drops (hr : responseOf s n 6 = some (h, data)) (hm : answered s n h = none) :
    exec (.refused n) s = .next (popMessage s n 2) := by
  have hm' : answered (popMessage s n 2) n h = none := hm
  simp only [exec, execRefused, hrun, hr, hm', if_true]

theorem exec_remoteResponseTimeout (tag : BitVec 32) : exec (.remoteResponseTimeout tag) s = .next (remoteExpire s tag) := by
  simp only [exec, execRemoteResponseTimeout, hrun, if_true]

end

theorem exec_response_none (s : State) (n : LinkIx) : (responseOf s n 4 = none → exec (.readData n) s = .next s) ∧
    (responseOf s n 5 = none → exec (.done n) s = .next s) ∧ (responseOf s n 6 = none → exec (.refused n) s = .next s) :=
  ⟨fun hr => by simp only [exec, execReadData, hr, ite_self], fun hr => by simp only [exec, execDone, hr, ite_self],
    fun hr => by simp only [exec, execRefused, hr, ite_self]⟩

theorem mem_dataLanded (s : State) (m : Remote) (data : Bytes) : (dataLanded s m data).mem = s.mem := by
  unfold dataLanded; split <;> [split; skip] <;> rfl

theorem remotes_dataLanded (s : State) (m : Remote) (data : Bytes) : (dataLanded s m data).remotes = s.remotes := by
  unfold dataLanded; split <;> [split; skip] <;> rfl

/-- The data stand in the scratchpad of the tile that issued the READ, which waits for it no longer. -/
theorem readData_tile {f : FigRun} {r : TileRun} (hf : figOf s m.group = some f) (hu : f.uid = m.uid)
    (hr : f.tiles[m.tile.val]? = some r) (data : Bytes) :
    ∃ f', figOf (remoteDone (dataLanded s m data) m) m.group = some f' ∧ f'.tiles[m.tile.val]? =
      some (awaitsNot m { r with scratch := (scrWrite (scrOf f m.tile r) m.spOff (data.take m.len)).cells }) := by
  have hlanded : dataLanded s m data = modTile s m.group m.tile fun r =>
      { r with scratch := (scrWrite (scrOf f m.tile r) m.spOff (data.take m.len)).cells } := by
    simp [dataLanded, hf, hu]
  rw [hlanded]
  exact remoteDone_tile (figOf_modTile hf _) (tiles_withTile hr _)

end
end Sys2Proof.Machine
open Sys2Proof.Machine

/-- Settles O31: each response by its command's two cases, an answer and none; the timeout by the beat of the access. -/
theorem remoteAnswersReachTheTicket : Obligations.RemoteAnswersReachTheTicket := by
  intro s _ hrun
  refine ⟨fun n h data => ⟨fun hr => ⟨fun m hm hop => ?_, exec_readData_drops hrun hr⟩,
    fun hr => ⟨fun m hm => ?_, exec_done_drops hrun hr⟩, fun hr => ⟨fun m hm => ?_, exec_refused_drops hrun hr⟩⟩,
    exec_response_none s, fun tag => ⟨fun hnone => ?_, fun m hm => ⟨fun hlate => ?_, fun hearly => ?_⟩⟩⟩
  · refine ⟨_, exec_readData_answers hrun hr hm hop, ?_, mem_dataLanded (popMessage s n 2) m data, fun f hf hu r hr => ?_⟩
    · exact congrArg (List.filter _) (remotes_dataLanded (popMessage s n 2) m data)
    · obtain ⟨f', hf', hr'⟩ := readData_tile (s := popMessage s n 2) hf hu hr data
      exact ⟨f', _, hf', hr', rfl, not_mem_awaitsNot m _⟩
  · refine ⟨_, exec_done_answers hrun hr hm, rfl, fun f hf r hr => ?_⟩
    obtain ⟨f', hf', hr'⟩ := remoteDone_tile (s := popMessage s n 2) hf hr
    exact ⟨f', _, hf', hr', not_mem_awaitsNot m _⟩
  · exact ⟨_, exec_refused_answers hrun hr hm, remotes_failRemote .., fun f hf hu => ⟨_, figOf_failRemote _ m _ hf hu, rfl⟩,
      fun k hk => faults_failRemote (popMessage s n 2) m _ hk⟩
  · simp only [exec_remoteResponseTimeout hrun, remoteExpire, hnone]
  · refine ⟨failRemote s m .timeout, ?_, remotes_failRemote .., fun f hf hu => ⟨_, figOf_failRemote s m _ hf hu, rfl⟩,
      fun k hk => faults_failRemote s m _ hk⟩
    simp only [exec_remoteResponseTimeout hrun, remoteExpire, hm, if_pos hlate]
  · simp only [exec_remoteResponseTimeout hrun, remoteExpire, hm, if_neg (Nat.not_le.mpr hearly)]
end

section
/-! What the operations of a figure keep while it waits for a remote access (R128, R347). -/

namespace Sys2Proof.Machine

/-! Requests that arrive leave every figure as it was -/

theorem figs_settle (s : State) (bad : Nat → Bool) (a : Nat) (bs : Bytes) : (settle s bad a bs).2.figs = s.figs := by
  unfold settle; dsimp only; split <;> rfl

theorem figs_devWrite (s : State) (a : Nat) (bs : Bytes) : (devWrite s a bs).figs = s.figs := rfl

theorem figs_atomicApply (s : State) (ty a : Nat) (y : Bytes) : (atomicApply s ty a y).2.figs = s.figs := by
  unfold atomicApply; dsimp only; split <;> [skip; split] <;> rfl

/-- A fold keeps what each of its steps keeps. -/
theorem foldl_inv {α β : Type} (p : β → Prop) {f : β → α → β} (hf : ∀ b a, p b → p (f b a)) (l : List α) {b : β} (h : p b) :
    p (l.foldl f b) := List.foldlRecOn l f h fun b hb a _ => hf b a hb

/-- The sources of a Reel command are read. -/
theorem figs_reelRead (s : State) (bad : Nat → Bool) (l : List (Nat × Nat)) : (l.foldl (fun (acc : List Bytes × State) x =>
    (acc.1 ++ [(settle acc.2 bad x.1 (devRead acc.2 x.1 x.2)).1], (settle acc.2 bad x.1 (devRead acc.2 x.1 x.2)).2)) ([], s)).2.figs =
    s.figs :=
  foldl_inv (fun x : List Bytes × State => x.2.figs = s.figs) (fun _ _ h => (figs_settle ..).trans h) _ rfl

/-- Its destination is written, and poisoned where its sources were. -/
theorem figs_reelStored (s : State) (bad : Nat → Bool) (a : Nat) (bs : Bytes) (l : List Nat) :
    (l.foldl (fun s i => markPoison s (a + 32 * i) 32) (devWrite (settle s bad a bs).2 a (settle s bad a bs).1)).figs = s.figs := by
  refine foldl_inv (fun s' : State => s'.figs = s.figs) ?_ _ ((figs_devWrite ..).trans (figs_settle ..))
  exact fun _ _ h => h

theorem figs_reelApply (s : State) (f : FigRun) (ti : Nat) (c : List Nat) : (reelApply s f ti c).2.figs = s.figs := by
  unfold reelApply
  dsimp only
  split
  · rfl
  · rw [figs_reelStored, figs_reelRead]

theorem figs_arrive (s : State) (g ti : Nat) (q : Req) : (arrive s g ti q).2.figs = s.figs := by
  unfold arrive
  split
  · rfl
  · split
    · exact (figs_devWrite ..).trans (figs_settle ..)
    next ty a y =>
      have happly := figs_atomicApply s ty a y
      split
      next st s' e => rwa [e] at happly
      next s' e =>
        rw [e] at happly
        exact (figs_devWrite ..).trans ((figs_settle ..).trans happly)
    · exact figs_reelApply ..

theorem figs_sendMessage (s : State) (n : LinkIx) (vc rank : Nat) (msg : Bytes) : (sendMessage s n vc rank msg).figs = s.figs :=
  (congrArg State.figs (agree_le_iff.mp (agree_sendMessage (rest := sentRest) (fun _ _ => rfl) (fun _ _ => rfl) (fun _ _ => rfl)
    le_rfl n vc rank msg)).symm :)

/-! A remote access that no response has answered keeps its figure from its end -/

/-- A figure that has not finished and waits for a remote access on some tile. -/
def Owes (f : FigRun) : Prop := f.cycles = none ∧ ∃ (i : Nat) (r : TileRun), f.tiles[i]? = some r ∧ r.remote ≠ []

/-- The figure in a slot is one that waits for a remote access. -/
def Unanswered (g : Nat) (s : State) : Prop := ∃ f, figOf s g = some f ∧ Owes f

theorem Owes.withTile {f : FigRun} (h : Owes f) {ti : Nat} {k : TileRun → TileRun}
    (hk : ∀ r, f.tiles[ti]? = some r → r.remote ≠ [] → (k r).remote ≠ []) : Owes (withTile ti k f) := by
  obtain ⟨hcycles, i, r, hr, howed⟩ := h
  by_cases hi : ti = i
  · subst hi
    exact ⟨hcycles, ti, k r, tiles_withTile hr k, hk r hr howed⟩
  · exact ⟨hcycles, i, r, by simpa [Machine.withTile, List.getElem?_modify, hi] using hr, howed⟩

theorem Owes.map {f : FigRun} (h : Owes f) {k : TileRun → TileRun} (hk : ∀ r, (k r).remote = r.remote) (accs) :
    Owes { f with accs := accs, tiles := f.tiles.map k } := by
  obtain ⟨hcycles, i, r, hr, howed⟩ := h
  exact ⟨hcycles, i, k r, by simp [hr], by rwa [hk]⟩

section
variable {g : Nat} {s : State}

theorem Unanswered.of_figs {s' : State} (h : Unanswered g s) (e : s'.figs = s.figs) : Unanswered g s' := by
  obtain ⟨f, hf, howes⟩ := h
  exact ⟨f, by rwa [figOf, e], howes⟩

theorem Unanswered.modFig (h : Unanswered g s) {k : FigRun → FigRun} (hk : ∀ f, Owes f → Owes (k f)) : Unanswered g (modFig s g k) := by
  obtain ⟨f, hf, howes⟩ := h
  exact ⟨k f, figOf_modFig_of_some hf k, hk f howes⟩

theorem Unanswered.modTile (h : Unanswered g s) (ti : Nat) {k : TileRun → TileRun} (hk : ∀ r, r.remote ≠ [] → (k r).remote ≠ []) :
    Unanswered g (modTile s g ti k) := h.modFig fun _ howes => howes.withTile fun r _ => hk r

theorem Unanswered.figFault (h : Unanswered g s) (st : Status) : Unanswered g (figFault s g st) := by
  obtain ⟨f, hf, howes⟩ := h
  exact ⟨_, figOf_figFault hf st, howes⟩

theorem Unanswered.arrive (h : Unanswered g s) (g' ti : Nat) (q : Req) : Unanswered g (arrive s g' ti q).2 := h.of_figs (figs_arrive ..)

theorem Unanswered.landOne (h : Unanswered g s) (own : Nat → Bool) (force : Bool) : Unanswered g (landOne g own force s) := by
  unfold Machine.landOne
  split
  · exact h
  next f _ =>
    dsimp only
    split
    · exact h
    next x _ =>
      have harrive := Unanswered.arrive (Unanswered.modFig (h.of_figs (s' := (drawArrival s).2) rfl)
        (k := fun f => { f with flying := f.flying.erase x }) fun _ howes => howes) g x.1 x.2
      split
      next s' e => rwa [e] at harrive
      next st s' e => exact Unanswered.figFault (by rwa [e] at harrive) st

theorem Unanswered.landAll (h : Unanswered g s) (own : Nat → Bool) (force : Bool) : Unanswered g (landAll s g own force) :=
  iter_inv (Unanswered g) _ (fun _ h => h.landOne own force) _ _ h

theorem Unanswered.landSome (h : Unanswered g s) : Unanswered g (landSome s g) := by
  unfold Machine.landSome
  split
  · exact h
  · exact iter_inv (Unanswered g) _ (fun _ h => h.landOne _ false) _ _ (h.of_figs rfl)

theorem Unanswered.noteAccess (h : Unanswered g s) (ti kind a len : Nat) : Unanswered g (noteAccess s g ti kind a len) :=
  h.modFig fun _ howes => howes

theorem untilFault_inv {α : Type} (p : State → Prop) {f : State → α → Option Status × State} (hf : ∀ s x, p s → p (f s x).2) (l : List α)
    (h : p s) : p (untilFault f l s).2 := by
  induction l generalizing s with
  | nil => exact h
  | cons x l ih =>
    have hx := hf s x h
    unfold untilFault
    split
    next s' e => exact ih (by rwa [e] at hx)
    · exact hx

theorem Unanswered.issue (h : Unanswered g s) (ti : Nat) (q : Req) (f : FigRun) : Unanswered g (issue s g ti q f).2 := by
  have hnote {s} (h : Unanswered g s) :
      Unanswered g ((reqAccesses q).foldl (fun s (x : Nat × Nat × Nat) => Machine.noteAccess s g ti x.1 x.2.1 x.2.2) s) :=
    foldl_inv (Unanswered g) (fun _ x h => h.noteAccess ti x.1 x.2.1 x.2.2) _ h
  have hlate : Unanswered g (drawArrival (Machine.landSome s g)).2 := h.landSome.of_figs rfl
  unfold Machine.issue
  split
  · exact h
  · dsimp only
    have hnow {s} (h : Unanswered g s) : Unanswered g (match Machine.arrive s g ti q with
        | (none, s) => (none, (reqAccesses q).foldl (fun s (x : Nat × Nat × Nat) => Machine.noteAccess s g ti x.1 x.2.1 x.2.2) s)
        | e => e).2 := by
      have harrive := h.arrive g ti q
      split
      next s' e => exact hnote (by rwa [e] at harrive)
      · exact harrive
    split
    · split
      · exact hnote (hlate.modFig fun _ howes => howes)
      · exact hnow hlate
    · exact hnow h

theorem Unanswered.tileRead (h : Unanswered g s) (ti a len : Nat) (f : FigRun) : Unanswered g (tileRead s g ti a len f).2 := by
  unfold Machine.tileRead
  split
  · exact h
  · dsimp only
    split
    · exact h.landSome
    · exact Unanswered.noteAccess (h.landSome.of_figs (figs_settle ..)) ..

theorem Unanswered.remoteIssue {g : GroupIx} (h : Unanswered g s) (ti : TileIx) (w : List Nat) (f : FigRun) (r : TileRun) :
    Unanswered g (remoteIssue s g ti w f r).2 := by
  unfold Machine.remoteIssue
  dsimp only
  split
  · exact h
  · refine Unanswered.of_figs (Unanswered.modTile (h.of_figs ?_) ti ?_) (figs_sendMessage ..)
    · rfl
    · simp

theorem Unanswered.outputRows (h : Unanswered g s) (ti : Nat) (w : List Nat) (f : FigRun) (r : TileRun) :
    Unanswered g (outputRows s g ti w f r).2 := by
  refine untilFault_inv (Unanswered g) (fun s i h => ?_) _ h
  generalize outRowBytes (scrOf f ti r) w r f.srSeed f.figIndex i = row
  have hrow (fmt a : Nat) : Unanswered g (if bit (ow w 1) 32
      then untilFault (fun s (x : Nat × Bytes) => Machine.issue s g ti (.atomic fmt (a + 64 * x.1) x.2) f)
        ((chunks 64 row.1).zipIdx.map fun x => (x.2, x.1)) s
      else if row.1.isEmpty then (none, s) else Machine.issue s g ti (.write a row.1) f).2 := by
    split
    · exact untilFault_inv (Unanswered g) (fun _ _ h => h.issue ..) _ h
    · split
      · exact h
      · exact h.issue ..
  dsimp only
  split
  next s' e =>
    have hs' := hrow (bits (ow w 1) 2 0) ((outShape f.args w).1.1 + i * (outShape f.args w).1.2.2.2)
    rw [e] at hs'
    split
    · exact hs'
    · exact hs'.issue ..
  · exact hrow _ _

theorem Unanswered.opDone {x : Option Status × State} (h : Unanswered g x.2) (ti : Nat) : Unanswered g (opDone g ti x).1 := by
  unfold Machine.opDone
  split
  · exact h.modTile ti fun _ hr => hr
  · exact h.figFault _

end

/-- A tile of the figure that has reached its group WAIT. -/
theorem Unanswered.of_atGroup {s : State} {g : Nat} {f : FigRun} (hf : figOf s g = some f) (h : Unanswered g s) (ti : Nat) :
    Unanswered g { s with figs := s.figs.set g (some (withTile ti (fun r => { r with atGroup := true }) f)) } := by
  obtain ⟨f', hf', howes⟩ := h
  obtain rfl : f = f' := by simpa [hf] using hf'
  refine ⟨_, figOf_set (lt_of_figOf hf) _, howes.withTile fun _ _ hr => hr⟩

theorem remote_runMatmul (z : Scr) (w : List Nat) (r : TileRun) : (runMatmul z w r).remote = r.remote := by
  unfold runMatmul; dsimp only; split <;> rfl

theorem Unanswered.tileStep {s : State} {g : GroupIx} (h : Unanswered g s) (ti : TileIx) : Unanswered g (tileStep s g ti).1 := by
  unfold Machine.tileStep
  split
  · exact h
  next f hf =>
    have hput (r' : TileRun) (hr' : r'.remote = (f.tiles.getD ti {}).remote) :
        Unanswered g (Machine.opDone g ti (none, Machine.modTile s g ti fun _ => r')).1 := by
      refine Unanswered.opDone ?_ ti
      obtain ⟨f', hf', howes⟩ := h
      obtain rfl : f = f' := by simpa [hf] using hf'
      refine ⟨_, figOf_modTile hf _, howes.withTile fun r hr howed => ?_⟩
      have : f.tiles.getD ti {} = r := by simp [List.getD_eq_getElem?_getD, hr]
      rwa [hr', this]
    dsimp only
    split
    · exact h
    next w _ _ =>
      split
      · exact h
      split
      · refine Unanswered.opDone (untilFault_inv (Unanswered g) (fun s x h => ?_) _ h) ti
        have hread := h.tileRead ti x.1.1 x.1.2 f
        split
        next st s' e => rwa [e] at hread
        next bs s' e => exact Unanswered.modTile (by rwa [e] at hread) ti fun _ hr => hr
      · exact Unanswered.opDone (untilFault_inv (Unanswered g) (fun s x h => h.issue ..) _ h) ti
      · exact hput _ (remote_runMatmul ..)
      · split
        · exact hput _ rfl
        · exact Unanswered.opDone (h.outputRows ..) ti
      · exact hput _ rfl
      · exact hput _ rfl
      · exact hput _ rfl
      · exact Unanswered.opDone (untilFault_inv (Unanswered g) (fun s x h => h.issue ..) _ h) ti
      · exact hput _ rfl
      · exact Unanswered.opDone (h.issue ..) ti
      · exact Unanswered.opDone (h.remoteIssue ..) ti
      · split
        · have hgroup := Unanswered.of_atGroup hf h ti
          split
          · have hall := Unanswered.landAll hgroup (fun _ => true) false
            split
            · exact hall.modFig fun _ howes => howes.map (fun r => by split <;> rfl) _
            · exact hall
          · exact hgroup
        · split
          · have hall := h.landAll (· == ti.val) false
            split
            · refine Unanswered.opDone (hall.modFig ?_) ti
              exact fun _ howes => howes
            · exact hall
          · exact h
      · exact hput _ rfl

end Sys2Proof.Machine
end

section
/-! The steps of a tile in order, and of a figure (R128). -/

namespace Sys2Proof.Machine

section
variable {s : State} {g : GroupIx} {ti : TileIx} {f : FigRun} {r : TileRun} {w : List Nat} {rest : List (List Nat)}

/-- A tile of a figure with the operation at the head of its stream. -/
structure AtHead (s : State) (g : GroupIx) (ti : TileIx) (f : FigRun) (r : TileRun) (w : List Nat) (rest : List (List Nat)) : Prop where
  fig : figOf s g = some f
  tile : f.tiles[ti.val]? = some r
  ops : r.ops = w :: rest

/-- Nothing keeps the operation from being run. -/
structure MayGo (s : State) (f : FigRun) (r : TileRun) (w : List Nat) : Prop where
  fault : f.fault = none
  cycles : f.cycles = none
  held : opHeld s f.args w = false
  awaits : awaitsRead s r w = false

theorem getD_tile (hr : f.tiles[ti.val]? = some r) : f.tiles.getD ti.val {} = r := by
  rw [List.getD_eq_getElem?_getD, hr]; rfl

theorem tileStep_waits (h : AtHead s g ti f r w rest)
    (hw : (f.fault.isSome || f.cycles.isSome || opHeld s f.args w || awaitsRead s r w) = true) : tileStep s g ti = (s, false) := by
  simp only [tileStep, h.fig, getD_tile h.tile, h.ops, hw, if_true]

theorem tileStep_done (hf : figOf s g = some f) (hr : f.tiles[ti.val]? = some r) (hops : r.ops = []) : tileStep s g ti = (s, false) := by
  simp only [tileStep, hf, getD_tile hr, hops]

theorem tileStep_end (h : AtHead s g ti f r w rest) (hgo : MayGo s f r w) (hop : opCode w = 0) :
    tileStep s g ti = (modTile (modTile s g ti fun _ => r) g ti fun r => { r with ops := r.ops.drop 1 }, true) := by
  simp only [tileStep, h.fig, getD_tile h.tile, h.ops, hgo.fault, hgo.cycles, hgo.held, hgo.awaits, hop, opDone, Option.isSome_none,
    Bool.or_self, Bool.false_eq_true, if_false]

theorem tileRunOn_inv (p : State → Prop) (hstep : ∀ s, p s → p (tileStep s g ti).1) (fuel : Nat) (h : p s) : p (tileRunOn g ti fuel s) := by
  induction fuel generalizing s with
  | zero => exact h
  | succ fuel ih =>
    have hs := hstep s h
    rw [tileRunOn]
    split
    next s' e => exact ih (by rwa [e] at hs)
    next s' e => rwa [e] at hs

theorem figRunOn_inv (p : State → Prop) (hstep : ∀ s ti, p s → p (tileStep s g ti).1) (h : p s) : p (figRunOn s g) := by
  unfold figRunOn
  split
  · exact h
  · exact iter_inv p _ (fun _ h => foldl_inv p (fun _ ti h => tileRunOn_inv p (fun s => hstep s ti) _ h) _ h) _ _ h

end
end Sys2Proof.Machine
end

section
/-! Figures whose streams stand at their END (R128). -/

namespace Sys2Proof.Machine

section
variable {s₀ s : State} {g : GroupIx} {f : FigRun}

/-- A figure with other tiles. -/
def withTiles (tiles : List TileRun) (f : FigRun) : FigRun := { f with tiles }

/-- From `s₀` on, tiles have only run their END: those of the slot's figure stand at it or have run it, and the ones in `done` have. -/
def Ending (s₀ : State) (g : GroupIx) (done : Nat → Prop) (s : State) : Prop :=
  ∃ tiles, s = modFig s₀ g (withTiles tiles) ∧ tiles.length = 8 ∧ ∀ i r, tiles[i]? = some r →
    r.remote = [] ∧ (r.ops = [] ∨ ¬ done i ∧ ∃ w, r.ops = [w] ∧ opCode w = 0)

variable {done : Nat → Prop}

theorem Ending.mono (h : Ending s₀ g done s) {done' : Nat → Prop} (hle : ∀ i, done' i → done i) : Ending s₀ g done' s := by
  obtain ⟨tiles, hs, hlen, hall⟩ := h
  exact ⟨tiles, hs, hlen, fun i r hr => (hall i r hr).imp_right (Or.imp_right (And.imp_left (mt (hle i))))⟩

variable (hf : figOf s₀ g = some f) (hfault : f.fault = none) (hcycles : f.cycles = none)
include hf hfault hcycles

/-- A tile that has not run its END runs it, and one that has does nothing. -/
theorem Ending.tileStep_cases (h : Ending s₀ g done s) (ti : TileIx) :
    tileStep s g ti = (s, false) ∧ Ending s₀ g (fun i => done i ∨ i = ti) s ∨
    ∃ s', tileStep s g ti = (s', true) ∧ Ending s₀ g (fun i => done i ∨ i = ti) s' := by
  obtain ⟨tiles, rfl, hlen, hall⟩ := h
  have hfig : figOf (modFig s₀ g (withTiles tiles)) g = some (withTiles tiles f) := figOf_modFig_of_some hf _
  obtain ⟨r, hr⟩ : ∃ r, tiles[ti.val]? = some r := ⟨tiles[ti.val], List.getElem?_eq_getElem (by omega)⟩
  obtain ⟨hremote, hdone | ⟨-, w, hops, hop⟩⟩ := hall ti r hr
  · refine .inl ⟨tileStep_done hfig hr hdone, tiles, rfl, hlen, fun i r' hr' => ?_⟩
    by_cases hi : i = ti
    · subst hi
      obtain rfl : r = r' := by simpa [hr] using hr'
      exact ⟨hremote, .inl hdone⟩
    · simpa [hi] using hall i r' hr'
  · have hgo : MayGo (modFig s₀ g (withTiles tiles)) (withTiles tiles f) r w := by
      refine ⟨hfault, hcycles, ?_, ?_⟩
      · simp [opHeld, opAccesses, hop]
      · simp [awaitsRead, hop, hremote]
    refine .inr ⟨_, tileStep_end ⟨hfig, hr, hops⟩ hgo hop, tiles.modify ti fun _ => { r with ops := [] }, ?_, by simpa using hlen, ?_⟩
    · simp only [modTile, modFig_modFig]
      congr 1
      funext f'
      simp only [Function.comp_apply, withTiles, List.modify_modify_eq]
      congr 2
      funext _
      simp [hops]
    · intro i r' hr'
      by_cases hi : i = ti
      · subst hi
        obtain rfl : { r with ops := [] } = r' := by simpa [hr] using hr'
        exact ⟨hremote, .inl rfl⟩
      · have hr' : tiles[i]? = some r' := by simpa [List.getElem?_modify, Ne.symm hi] using hr'
        simpa [hi] using hall i r' hr'

theorem Ending.tileStep (h : Ending s₀ g done s) (ti : TileIx) : Ending s₀ g done (tileStep s g ti).1 := by
  obtain ⟨e, h'⟩ | ⟨s', e, h'⟩ := h.tileStep_cases hf hfault hcycles ti
  all_goals rw [e]; exact h'.mono fun _ => .inl

theorem Ending.tileRunOn (h : Ending s₀ g done s) (ti : TileIx) (fuel : Nat) :
    Ending s₀ g (fun i => done i ∨ i = ti) (tileRunOn g ti (fuel + 1) s) := by
  obtain ⟨e, h'⟩ | ⟨s', e, h'⟩ := h.tileStep_cases hf hfault hcycles ti
  · rwa [Machine.tileRunOn, e]
  · rw [Machine.tileRunOn, e]
    exact tileRunOn_inv _ (fun s h => h.tileStep hf hfault hcycles ti) fuel h'

theorem Ending.foldl_tileRunOn (h : Ending s₀ g done s) (fuel : Nat) (l : List TileIx) :
    Ending s₀ g (fun i => done i ∨ ∃ ti ∈ l, i = ti.val) (l.foldl (fun s ti => Machine.tileRunOn g ti (fuel + 1) s) s) := by
  induction l generalizing s done with
  | nil => exact h.mono (by simp)
  | cons ti l ih =>
    refine (ih (h.tileRunOn hf hfault hcycles ti fuel)).mono fun i hi => ?_
    simpa [or_assoc] using hi

/-- A figure of eight tiles at their END runs to the end of every stream, and nothing else changes. -/
theorem figRunOn_ends (hlen : f.tiles.length = 8)
    (hall : ∀ r ∈ f.tiles, r.remote = [] ∧ (r.ops = [] ∨ ∃ w, r.ops = [w] ∧ opCode w = 0)) :
    ∃ tiles, figRunOn s₀ g = modFig s₀ g (withTiles tiles) ∧ ∀ r ∈ tiles, r.ops = [] ∧ r.remote = [] := by
  have hstart : Ending s₀ g (fun _ => False) s₀ := by
    refine ⟨f.tiles, ?_, hlen, fun i r hr => ?_⟩
    · exact (modFig_of_fixed hf rfl).symm
    · simpa using hall r (List.mem_of_getElem? hr)
  have hend : Ending s₀ g (fun i => i < 8) (figRunOn s₀ g) := by
    have hkeeps (ti : TileIx) (fuel : Nat) (s : State) (h : Ending s₀ g (fun i => i < 8) s) :
        Ending s₀ g (fun i => i < 8) (tileRunOn g ti fuel s) :=
      tileRunOn_inv (Ending s₀ g fun i => i < 8) (fun _ h => h.tileStep hf hfault hcycles ti) fuel h
    simp only [figRunOn, hf, iter]
    refine iter_inv (Ending s₀ g fun i => i < 8) _
      (fun s h => foldl_inv (Ending s₀ g fun i => i < 8) (fun s ti => hkeeps ti _ s) _ h) _ _ ?_
    exact (hstart.foldl_tileRunOn hf hfault hcycles _ _).mono fun i hi => .inr ⟨⟨i, hi⟩, List.mem_finRange _, rfl⟩
  obtain ⟨tiles, hs, hlen, hends⟩ := hend
  refine ⟨tiles, hs, fun r hr => ?_⟩
  obtain ⟨i, hi, rfl⟩ := List.mem_iff_getElem.mp hr
  obtain ⟨hremote, hops | ⟨hi', -⟩⟩ := hends i _ (List.getElem?_eq_getElem hi)
  · exact ⟨hops, hremote⟩
  · exact absurd (hlen ▸ hi) hi'

end
end Sys2Proof.Machine
end

section
/-! The end of a figure (R128, R216, R347), and the statement about FIGURE_FINISH. -/

namespace Sys2Proof.Machine

section
variable {s : State} {g : GroupIx} {f : FigRun}

theorem digestIfLast_eq (s : State) (uid : Nat) : digestIfLast s uid = { s with tickets := (digestIfLast s uid).tickets } := by
  unfold digestIfLast
  split
  · rfl
  · split
    · rfl
    · dsimp only; split <;> rfl

theorem figEnd_of_not_ended (hf : figOf s g = some f) (h : figEnded f = false) (c : Nat) : figEnd s g c = s := by
  simp only [figEnd, hf, h, Bool.false_and, Bool.false_eq_true, if_false]

theorem figEnded_iff (f : FigRun) : figEnded f = true ↔ f.fault = none ∧ ∀ r ∈ f.tiles, r.ops = [] ∧ r.remote = [] := by
  simp [figEnded]

/-- With no request under way there is nothing to land. -/
theorem landAll_of_none (hf : figOf s g = some f) (hflying : f.flying = []) (own : Nat → Bool) (force : Bool) :
    landAll s g own force = s := by
  simp [landAll, flyingCount, hf, hflying, iter]

/-- Requests that all wait for a stack in thermal hold stay under way. -/
theorem landAll_of_held (hf : figOf s g = some f) (hheld : ∀ x ∈ f.flying, reqHeld s x.2 = true) (own : Nat → Bool) :
    landAll s g own = s := by
  refine iter_inv (· = s) _ (fun s' h => ?_) _ s rfl
  subst h
  have hcan : f.flying.filter (fun x => own x.1 && (false || !reqHeld s' x.2)) = [] := by
    simpa [List.filter_eq_nil_iff] using fun a b hx _ => hheld (a, b) hx
  simp only [landOne, hf, hcan, List.getElem?_nil]

theorem exec_figureFinish (hrun : figuresRun s = true) (c : Nat) : exec (.figureFinish g c) s = .next (figEnd (figRunOn s g) g c) := by
  simp only [exec, execFigureFinish, hrun, if_true]

section
variable (hf : figOf s g = some f) (hfault : f.fault = none) (hcycles : f.cycles = none) (hlen : f.tiles.length = 8)
  (hall : ∀ r ∈ f.tiles, r.remote = [] ∧ (r.ops = [] ∨ ∃ w, r.ops = [w] ∧ opCode w = 0)) (c : Nat)
include hf hfault hcycles hlen hall

theorem figEnd_finishes (hflying : f.flying = []) : ∃ f', figOf (figEnd (figRunOn s g) g c) g = some f' ∧ f'.cycles = some c ∧
    f'.fault = none ∧ (figEnd (figRunOn s g) g c).mem = s.mem := by
  obtain ⟨tiles, hran, hends⟩ := figRunOn_ends hf hfault hcycles hlen hall
  have hfig : figOf (figRunOn s g) g = some (withTiles tiles f) := by rw [hran]; exact figOf_modFig_of_some hf _
  have hland := landAll_of_none hfig hflying (fun _ => true) false
  have hopen : (figEnded (withTiles tiles f) && (withTiles tiles f).cycles.isNone) = true := by
    have hended : figEnded (withTiles tiles f) = true := (figEnded_iff _).mpr ⟨hfault, hends⟩
    have hopen : (withTiles tiles f).cycles = none := hcycles
    rw [hended, hopen]; rfl
  have hlanded : landed (landAll (figRunOn s g) g fun _ => true) g (fun _ => true) = true := by
    rw [hland]
    simp [landed, hfig, withTiles, hfault, hflying]
  rw [figEnd_of_landed hfig hopen hlanded, hland, digestIfLast_eq]
  exact ⟨_, figOf_modFig_of_some hfig _, rfl, hfault, by rw [hran]; rfl⟩

theorem figEnd_waits (hflying : f.flying ≠ []) (hheld : ∀ x ∈ f.flying, reqHeld s x.2 = true) :
    ∃ f', figOf (figEnd (figRunOn s g) g c) g = some f' ∧ f'.cycles = none ∧ f'.flying = f.flying ∧
      (figEnd (figRunOn s g) g c).mem = s.mem := by
  obtain ⟨tiles, hran, -⟩ := figRunOn_ends hf hfault hcycles hlen hall
  have hfig : figOf (figRunOn s g) g = some (withTiles tiles f) := by rw [hran]; exact figOf_modFig_of_some hf _
  have hland : landAll (figRunOn s g) g (fun _ => true) = figRunOn s g :=
    landAll_of_held hfig (by rw [hran]; exact hheld) _
  have hlanded : landed (figRunOn s g) g (fun _ => true) = false := by
    obtain ⟨x, l, hx⟩ := List.exists_cons_of_ne_nil hflying
    simp [landed, hfig, withTiles, hx]
  have hend : figEnd (figRunOn s g) g c = figRunOn s g := by
    simp only [figEnd, hfig, hland, hlanded, Bool.false_eq_true, if_false, ite_self]
  rw [hend, hran]
  exact ⟨_, figOf_modFig_of_some hf _, hcycles, rfl, rfl⟩

end

theorem tileStep_of_fault (hf : figOf s g = some f) (hfault : f.fault ≠ none) (ti : TileIx) : (tileStep s g ti).1 = s := by
  have h : f.fault.isSome = true := Option.isSome_iff_ne_none.mpr hfault
  simp only [tileStep, hf, h, Bool.true_or, if_true]
  split <;> rfl

/-- A figure with a fault does not finish. -/
theorem figEnd_of_fault (hf : figOf s g = some f) (hfault : f.fault ≠ none) (c : Nat) : figEnd (figRunOn s g) g c = s := by
  have hran : figRunOn s g = s := figRunOn_inv (· = s) (fun s' ti h => by rw [h]; exact tileStep_of_fault hf hfault ti) rfl
  rw [hran]
  refine figEnd_of_not_ended hf ?_ c
  rw [Bool.eq_false_iff, ne_eq, figEnded_iff]
  exact fun h => hfault h.1

/-- A figure that waits for a remote access on some tile does not finish, whatever its other operations do. -/
theorem figEnd_of_unanswered (h : Unanswered g s) (c : Nat) : Unanswered g (figEnd (figRunOn s g) g c) := by
  have hran : Unanswered g (figRunOn s g) := figRunOn_inv (Unanswered g) (fun s ti h => h.tileStep ti) h
  obtain ⟨f, hf, howes⟩ := hran
  obtain ⟨hcycles, i, r, hr, howed⟩ := howes
  rw [figEnd_of_not_ended hf ?_ c]
  · exact ⟨f, hf, hcycles, i, r, hr, howed⟩
  · rw [Bool.eq_false_iff, ne_eq, figEnded_iff]
    exact fun h => howed (h.2 r (List.mem_of_getElem? hr)).2

end
end Sys2Proof.Machine
open Sys2Proof.Machine

/-- Settles O36: a figure at its ENDs by what is under way, one that waits for a remote access by the invariant `Unanswered`. -/
theorem figuresFinish : Obligations.FiguresFinish := by
  intro s g f c _ hrun hf hcycles hlen
  refine ⟨fun hfault hall => ⟨fun hflying => ?_, fun hflying hheld => ?_⟩, fun hopen => ?_⟩
  · obtain ⟨f', hend⟩ := figEnd_finishes hf hfault hcycles hlen hall c hflying
    exact ⟨_, f', exec_figureFinish hrun c, hend⟩
  · obtain ⟨f', hend⟩ := figEnd_waits hf hfault hcycles hlen hall c hflying hheld
    exact ⟨_, f', exec_figureFinish hrun c, hend⟩
  · refine ⟨figEnd (figRunOn s g) g c, ?_⟩
    rcases hopen with ⟨r, hr, howed⟩ | hfault
    · obtain ⟨i, hi⟩ := List.getElem?_of_mem hr
      obtain ⟨f', hf', howes⟩ := figEnd_of_unanswered ⟨f, hf, hcycles, i, r, hi, howed⟩ c
      exact ⟨f', exec_figureFinish hrun c, hf', howes.1⟩
    · refine ⟨f, exec_figureFinish hrun c, ?_, hcycles⟩
      rwa [figEnd_of_fault hf hfault c]
end

section
/-! The keys of the two views (R199, R200), and ranges that share a byte (R128). -/

namespace Sys2Proof.Machine

theorem bits_eq (v hi lo : Nat) : bits v hi lo = v / 2 ^ lo % 2 ^ (hi + 1 - lo) := by rw [bits, Nat.shiftRight_eq_div_pow]

theorem xor_xor_cancel (a b c : Nat) : a ^^^ b ^^^ c ^^^ b ^^^ c = a := by
  rw [Nat.xor_right_comm (a ^^^ b) c b, Nat.xor_xor_cancel_right, Nat.xor_xor_cancel_right]

theorem bits_lt (v hi lo : Nat) : bits v hi lo < 2 ^ (hi + 1 - lo) := Nat.mod_lt _ (Nat.two_pow_pos _)

/-- What the inverse equations do to the fields of a key. -/
theorem keyToInterleaved_chanKey {st c u h k lo : Nat} (hc : c < 32) (hu : u < 32) (hh : h < 2 ^ 13) (hk : k < 16) (hlo : lo < 256) :
    keyToInterleaved (chanKey st c (u * 2 ^ 25 + (h * 16 + k) * 2 ^ 8 + lo)) =
      let g1 := h * 2 ^ 12
      let g2 := g1 + (k ^^^ bits g1 19 16) * 2 ^ 8
      u * 2 ^ 33 + (g2 + (st ^^^ bits g2 10 8 ^^^ bits g2 18 16) + (c ^^^ bits g2 15 11 ^^^ bits g2 24 20) * 8) * 2 ^ 8 + lo := by
  have hkst : chanKey st c (u * 2 ^ 25 + (h * 16 + k) * 2 ^ 8 + lo) / 2 ^ 35 = st := by unfold chanKey; omega
  have hkc : chanKey st c (u * 2 ^ 25 + (h * 16 + k) * 2 ^ 8 + lo) / 2 ^ 30 % 32 = c := by unfold chanKey; omega
  have hkco : chanKey st c (u * 2 ^ 25 + (h * 16 + k) * 2 ^ 8 + lo) % 2 ^ 30 = u * 2 ^ 25 + (h * 16 + k) * 2 ^ 8 + lo := by
    unfold chanKey; omega
  have hku : (u * 2 ^ 25 + (h * 16 + k) * 2 ^ 8 + lo) / 2 ^ 25 = u := by omega
  have hkup : (u * 2 ^ 25 + (h * 16 + k) * 2 ^ 8 + lo) / 2 ^ 8 % 2 ^ 17 = h * 16 + k := by omega
  have hklo : (u * 2 ^ 25 + (h * 16 + k) * 2 ^ 8 + lo) % 256 = lo := by omega
  have hkh : (h * 16 + k) / 16 = h := by omega
  have hkk : (h * 16 + k) % 16 = k := by omega
  simp only [keyToInterleaved, hkst, hkc, hkco, hku, hkup, hklo, hkh, hkk]

/-- The low fields of a granule number, with what is above them. -/
theorem granule_fields (g : Nat) : g / 2 ^ 8 * 2 ^ 8 + bits g 2 0 + bits g 7 3 * 8 = g := by
  simp only [bits_eq]; omega

/-- The fields of an interleaved address: band, granule and byte. -/
theorem address_fields {a : Nat} (ha : a < 2 ^ 38) : bits a 37 33 * 2 ^ 33 + bits a 32 8 * 2 ^ 8 + a % 256 = a := by
  simp only [bits_eq]
  have : a / 2 ^ 8 / 2 ^ 25 = a / 2 ^ 33 := Nat.div_div_eq_div_mul ..
  omega

/-- The stack, channel and offset of an interleaved address give it back. -/
theorem keyToInterleaved_interleave {a : Nat} (ha : a < viewLen) :
    keyToInterleaved (chanKey (interleave a).1 (interleave a).2.1 (interleave a).2.2) = a := by
  simp only [interleave]
  generalize hg : bits a 32 8 = g
  have hst : bits g 2 0 ^^^ bits g 10 8 ^^^ bits g 18 16 < 2 ^ 3 :=
    Nat.xor_lt_two_pow (Nat.xor_lt_two_pow (bits_lt ..) (bits_lt ..)) (bits_lt ..)
  have hc : bits g 7 3 ^^^ bits g 15 11 ^^^ bits g 24 20 < 2 ^ 5 :=
    Nat.xor_lt_two_pow (Nat.xor_lt_two_pow (bits_lt ..) (bits_lt ..)) (bits_lt ..)
  have hk : bits g 11 8 ^^^ bits g 19 16 < 2 ^ 4 := Nat.xor_lt_two_pow (bits_lt ..) (bits_lt ..)
  rw [keyToInterleaved_chanKey hc (bits_lt ..) (bits_lt ..) hk (Nat.mod_lt _ (by decide))]
  have hg1 : bits (bits g 24 12 * 2 ^ 12) 19 16 = bits g 19 16 := by simp only [bits_eq]; omega
  have hg2 : bits g 24 12 * 2 ^ 12 + bits g 11 8 * 2 ^ 8 = g / 2 ^ 8 * 2 ^ 8 := by
    have : g < 2 ^ 25 := hg ▸ bits_lt a 32 8
    simp only [bits_eq]; omega
  have h1 : bits (g / 2 ^ 8 * 2 ^ 8) 10 8 = bits g 10 8 := by simp only [bits_eq]; omega
  have h2 : bits (g / 2 ^ 8 * 2 ^ 8) 18 16 = bits g 18 16 := by simp only [bits_eq]; omega
  have h3 : bits (g / 2 ^ 8 * 2 ^ 8) 15 11 = bits g 15 11 := by simp only [bits_eq]; omega
  have h4 : bits (g / 2 ^ 8 * 2 ^ 8) 24 20 = bits g 24 20 := by simp only [bits_eq]; omega
  simp only [hg1, Nat.xor_xor_cancel_right, hg2, h1, h2, h3, h4, xor_xor_cancel, granule_fields]
  rw [← hg, address_fields ha]

theorem addrKey_names {a key : Nat} (h : addrKey a = some key) : keyToInterleaved key = a ∨ linBase + key = a := by
  unfold addrKey at h
  split at h
  next ha =>
    obtain rfl : chanKey (interleave a).1 (interleave a).2.1 (interleave a).2.2 = key := by simpa using h
    exact .inl (keyToInterleaved_interleave ha)
  · split at h
    next hb =>
      simp only [Bool.and_eq_true, decide_eq_true_eq] at hb
      obtain rfl : a - linBase = key := by simpa using h
      exact .inr (by omega)
    · cases h

/-- A range holds the keys of its addresses. -/
theorem rangeHasKey_of_mem {a len key : Nat} (h : some key ∈ rangeKeys a len) : rangeHasKey a len key = true := by
  obtain ⟨i, hi, hkey⟩ := List.mem_map.mp h
  have hi : i < len := List.mem_range.mp hi
  rw [rangeHasKey]
  rcases addrKey_names hkey with e | e
  · simp [e, hi]
  · simp [e, hi]

/-- A range that shares a byte with another has one, and so shares it with itself. -/
theorem sharesByte_self {a la b lb : Nat} (h : sharesByte a la b lb = true) : sharesByte a la a la = true := by
  obtain ⟨k, hk, hb⟩ := List.any_eq_true.mp h
  cases k with
  | none => cases hb
  | some key => exact List.any_eq_true.mpr ⟨some key, hk, rangeHasKey_of_mem hk⟩

end Sys2Proof.Machine
end

section
/-! A tile run up to its next operation of a kind, and what the order of an access depends on (R128). -/

namespace Sys2Proof.Machine

section
variable {s : State} {g : GroupIx} {ti : TileIx} {f : FigRun} {r : TileRun} {w : List Nat} {rest : List (List Nat)}

theorem length_le_wordsLeft (hr : r ∈ f.tiles) : r.ops.length ≤ wordsLeft f := by
  have hmono (l : List Nat) (n : Nat) : n ≤ l.foldl max n ∧ ∀ x ∈ l, x ≤ l.foldl max n := by
    induction l generalizing n with
    | nil => simp
    | cons x l ih =>
      obtain ⟨hn, hl⟩ := ih (max n x)
      refine ⟨(le_max_left n x).trans hn, fun y hy => ?_⟩
      rcases List.mem_cons.mp hy with rfl | hy
      · exact (le_max_right n y).trans hn
      · exact hl y hy
  exact (hmono _ 0).2 _ (List.mem_map_of_mem hr)

/-- An operation of the kind at the head of the stream is the one that runs. -/
theorem nextOfKind_of_head (hrun : figuresRun s = true) (h : AtHead s g ti f r w rest) {isKind : List Nat → Bool} (hw : isKind w = true) :
    nextOfKind s g ti isKind = (tileStep s g ti).1 := by
  obtain ⟨n, hn⟩ : ∃ n, wordsLeft f = n + 1 := by
    have := length_le_wordsLeft (List.mem_of_getElem? h.tile)
    rw [h.ops, List.length_cons] at this
    exact ⟨wordsLeft f - 1, by omega⟩
  simp only [nextOfKind, h.fig, getD_tile h.tile, h.ops, hrun, List.any_cons, hw, Bool.true_or, Bool.and_self, if_true, hn, tileUpTo]
  rcases tileStep s g ti with ⟨s', _ | _⟩ <;> rfl

theorem exec_memoryRequest (hrun : figuresRun s = true) (h : AtHead s g ti f r w rest) (hop : opCode w = 1 ∨ opCode w = 2) :
    exec (.memoryRequest g ti) s = .next (tileStep s g ti).1 := by
  refine congrArg Host.Outcome.next (nextOfKind_of_head hrun h ?_)
  rcases hop with hop | hop <;> simp [hop]

end

/-! Requests in order -/

section
variable {α : Type} {step : State → α → Option Status × State}

/-- Requests none of which ends the ticket go from state to state. -/
theorem untilFault_of_ok {l : List α} (after : List α → State)
    (hok : ∀ pre x suf, l = pre ++ x :: suf → step (after pre) x = (none, after (pre ++ [x]))) :
    untilFault step l (after []) = (none, after l) := by
  have hfrom (pre suf : List α) (e : l = pre ++ suf) : untilFault step suf (after pre) = (none, after l) := by
    induction suf generalizing pre with
    | nil => rw [e, List.append_nil]; rfl
    | cons x suf ih =>
      rw [untilFault, hok pre x suf e]
      exact ih (pre ++ [x]) (by simpa using e)
  exact hfrom [] l rfl

theorem untilFault_of_fault {x : α} {l : List α} {s s' : State} {st : Status} (h : step s x = (some st, s')) :
    untilFault step (x :: l) s = (some st, s') := by rw [untilFault, h]

end

theorem opDone_ok (g ti : Nat) (s : State) : (opDone g ti (none, s)).1 = modTile s g ti fun r => { r with ops := r.ops.drop 1 } := rfl
theorem opDone_fault (g ti : Nat) (st : Status) (s : State) : (opDone g ti (some st, s)).1 = figFault s g st := rfl

/-! The order of accesses -/

/-- Bytes that no other access leaves undefined are as they are. -/
theorem settle_of_defined {bad : Nat → Bool} {a : Nat} {bs : Bytes} (h : ∀ key, some key ∈ rangeKeys a bs.length → bad key = false)
    (s : State) : settle s bad a bs = (bs, s) := by
  have hany : ((rangeKeys a bs.length).map fun k => match k with
      | some key => bad key
      | none => false).any id = false := by
    rw [List.any_eq_false]
    intro b hb
    obtain ⟨k, hk, rfl⟩ := List.mem_map.mp hb
    cases k with
    | none => simp
    | some key => simp [h key hk]
  unfold settle
  dsimp only
  rw [if_neg]
  exact fun hbad => absurd (hany.symm.trans hbad) (by decide)

/-- Two figures with the same streams and the same accesses of the tiles other than `ti`. -/
structure SameForOthers (ti : Nat) (f f' : FigRun) : Prop where
  args : f'.args = f.args
  streams : f'.tiles.map (·.ops) = f.tiles.map (·.ops)
  accs : f'.accs.filter (fun x => x.1 != ti) = f.accs.filter (fun x => x.1 != ti)

section
variable {ti : Nat} {f f' : FigRun}

theorem zipIdx_any_streams (tiles : List TileRun) (p : List (List Nat) → Nat → Bool) :
    tiles.zipIdx.any (fun r => p r.1.ops r.2) = (tiles.map (·.ops)).zipIdx.any fun x => p x.1 x.2 := by
  rw [List.zipIdx_map, List.any_map]; rfl

theorem otherClash_of_sameForOthers (h : SameForOthers ti f f') (kind key : Nat) : otherClash f' ti kind key = otherClash f ti kind key := by
  have haccs (p : Nat × Nat × Nat × Nat × Bool → Bool) :
      (f'.accs.any fun x => x.1 != ti && p x) = f.accs.any fun x => x.1 != ti && p x := by
    rw [← List.any_filter, h.accs, List.any_filter]
  have htiles (p : Nat × Nat × Nat → Bool) :
      (f'.tiles.zipIdx.any fun r => r.2 != ti && (accessesUntil f'.args isGroupWait r.1.ops).any p) =
        f.tiles.zipIdx.any fun r => r.2 != ti && (accessesUntil f.args isGroupWait r.1.ops).any p := by
    rw [zipIdx_any_streams f'.tiles fun ops i => i != ti && (accessesUntil f'.args isGroupWait ops).any p,
      zipIdx_any_streams f.tiles fun ops i => i != ti && (accessesUntil f.args isGroupWait ops).any p, h.streams, h.args]
  simp only [otherClash, Bool.and_assoc, haccs, htiles]

theorem laterOps_of_sameForOthers (h : SameForOthers ti f f') : laterOps f' ti = laterOps f ti := by
  have hops (f : FigRun) : (f.tiles.getD ti {}).ops = (f.tiles.map (·.ops)).getD ti [] := by
    simp only [List.getD_eq_getElem?_getD, List.getElem?_map]
    cases f.tiles[ti]? <;> rfl
  rw [laterOps, laterOps, hops f', hops f, h.streams]

theorem overtaken_of_sameForOthers (h : SameForOthers ti f f') (key : Nat) : overtaken f' ti key = overtaken f ti key := by
  rw [overtaken, overtaken, laterOps_of_sameForOthers h, h.args]

end
end Sys2Proof.Machine
end

section
/-! The rows of a LOAD and of a STORE (R125, R126, R128, R203, R218), and the statement about them. -/

namespace Sys2Proof.Machine

/-- The rows of device memory that a LOAD or a STORE names. -/
def opRows (args : Bytes) (w : List Nat) : List (Nat × Nat) :=
  rowRanges ((resolveAddr args (ow w 1)).getD 0) (bits (ow w 3) 31 0) (bits (ow w 2) 63 32) (ow w 4)

/-- The scratchpad offset of row `i`. -/
def rowOffset (w : List Nat) (i : Nat) : Nat := bits (ow w 2) 21 0 + i * bits (ow w 5) 21 0

/-- One row of a LOAD. -/
def loadRow (g ti : Nat) (f : FigRun) (w : List Nat) (s : State) (x : (Nat × Nat) × Nat) : Option Status × State :=
  match tileRead s g ti x.1.1 x.1.2 f with
  | (.error st, s) => (some st, s)
  | (.ok bs, s) => (none, modTile s g ti fun r => { r with scratch := (scrWrite (scrOf f ti r) (rowOffset w x.2) bs).cells })

/-- One row of a STORE. -/
def storeRow (g ti : Nat) (f : FigRun) (z : Scr) (w : List Nat) (s : State) (x : (Nat × Nat) × Nat) : Option Status × State :=
  issue s g ti (.write x.1.1 (scrBytes z (rowOffset w x.2) x.1.2)) f

@[simp] theorem length_scrBytes (z : Scr) (o n : Nat) : (scrBytes z o n).length = n := by simp [scrBytes]

@[simp] theorem length_devRead (s : State) (a n : Nat) : (devRead s a n).length = n := by simp [devRead, rangeKeys]

section
variable {s : State} {g : GroupIx} {ti : TileIx} {f : FigRun} {r : TileRun} {w : List Nat} {rest : List (List Nat)}

theorem tileStep_load (h : AtHead s g ti f r w rest) (hgo : MayGo s f r w) (hop : opCode w = 1) :
    tileStep s g ti = opDone g ti (untilFault (loadRow g ti f w) (opRows f.args w).zipIdx s) := by
  simp only [tileStep, h.fig, getD_tile h.tile, h.ops, hgo.fault, hgo.cycles, hgo.held, hgo.awaits, hop, Option.isSome_none,
    Bool.or_self, Bool.false_eq_true, if_false]
  rfl

theorem tileStep_store (h : AtHead s g ti f r w rest) (hgo : MayGo s f r w) (hop : opCode w = 2) :
    tileStep s g ti = opDone g ti (untilFault (storeRow g ti f (scrOf f ti r) w) (opRows f.args w).zipIdx s) := by
  simp only [tileStep, h.fig, getD_tile h.tile, h.ops, hgo.fault, hgo.cycles, hgo.held, hgo.awaits, hop, Option.isSome_none,
    Bool.or_self, Bool.false_eq_true, if_false]
  rfl

/-! A row that ends the ticket -/

theorem zipIdx_of_head {α : Type} {l : List α} {x : α} (h : l.head? = some x) : ∃ l', l.zipIdx = (x, 0) :: l' := by
  cases l with
  | nil => cases h
  | cons y l =>
    obtain rfl : y = x := by simpa using h
    exact ⟨l.zipIdx 1, rfl⟩

theorem loadRow_refused {x : (Nat × Nat) × Nat} {st : Status} (h : accessCheck s f.tarn x.1.1 x.1.2 = some st) :
    loadRow g ti f w s x = (some st, s) := by simp only [loadRow, tileRead, h]

theorem storeRow_refused {z : Scr} {x : (Nat × Nat) × Nat} {st : Status} (h : accessCheck s f.tarn x.1.1 x.1.2 = some st) :
    storeRow g ti f z w s x = (some st, s) := by
  simp only [storeRow, issue, reqAccesses, List.findSome?_cons, length_scrBytes, h]

theorem landSome_of_none (hf : figOf s g = some f) (hflying : f.flying = []) : landSome s g = s := by
  simp [landSome, flyingCount, hf, hflying]

theorem loadRow_poisoned (hf : figOf s g = some f) (hflying : f.flying = []) {x : (Nat × Nat) × Nat}
    (hcheck : accessCheck s f.tarn x.1.1 x.1.2 = none) (hbad : poisoned s x.1.1 x.1.2 = true) :
    loadRow g ti f w s x = (some .dataLost, s) := by
  simp only [loadRow, tileRead, hcheck, landSome_of_none hf hflying, hbad, if_true]

/-- The figure has the status as its fault, and no memory has changed. -/
theorem figFault_ends (hf : figOf s g = some f) (hfault : f.fault = none) (st : Status) :
    ∃ f', figOf (figFault s g st) g = some f' ∧ f'.fault = some st ∧ (figFault s g st).mem = s.mem :=
  ⟨_, figOf_figFault hf st, by simp [faulted, hfault], mem_figFault ..⟩

/-! The rows of a LOAD, one after another -/

/-- The scratchpad with rows read from memory in it. -/
def scratchLoaded (s : State) (w : List Nat) (rows : List ((Nat × Nat) × Nat)) (z : Scr) : Scr :=
  rows.foldl (fun z x => scrWrite z (rowOffset w x.2) (devRead s x.1.1 x.1.2)) z

/-- The accesses that rows of a tile leave noted. -/
def rowNotes (ti kind : Nat) (rows : List ((Nat × Nat) × Nat)) : List (Nat × Nat × Nat × Nat × Bool) :=
  rows.map fun x => (ti, kind, x.1.1, x.1.2, true)

/-- The figure with some rows of a LOAD in the scratchpad of its tile. -/
def figLoaded (s : State) (ti : Nat) (w : List Nat) (rows : List ((Nat × Nat) × Nat)) (f : FigRun) : FigRun :=
  withTile ti (fun r => { r with scratch := (scratchLoaded s w rows (scrOf f ti r)).cells }) { f with accs := f.accs ++ rowNotes ti accRead rows }

theorem filter_rowNotes (ti kind : Nat) (rows : List ((Nat × Nat) × Nat)) : (rowNotes ti kind rows).filter (fun x => x.1 != ti) = [] := by
  simp +contextual [rowNotes]

theorem streams_withTile (ti : Nat) {k : TileRun → TileRun} (hk : ∀ r, (k r).ops = r.ops) (f : FigRun) :
    (withTile ti k f).tiles.map (·.ops) = f.tiles.map (·.ops) := by
  refine List.ext_getElem? fun i => ?_
  simp only [withTile, List.getElem?_map, List.getElem?_modify]
  cases f.tiles[i]? with
  | none => rfl
  | some r => by_cases hi : ti = i <;> simp [hi, hk]

theorem sameForOthers_figLoaded (s : State) (ti : Nat) (w : List Nat) (rows : List ((Nat × Nat) × Nat)) (f : FigRun) :
    SameForOthers ti f (figLoaded s ti w rows f) where
  args := rfl
  streams := by
    refine streams_withTile ti ?_ _
    exact fun _ => rfl
  accs := by simp [figLoaded, withTile, List.filter_append, filter_rowNotes]

theorem scrOf_scratchLoaded (s : State) (w : List Nat) (rows : List ((Nat × Nat) × Nat)) (f : FigRun) (ti : Nat) (r : TileRun) :
    scrOf f ti { r with scratch := (scratchLoaded s w rows (scrOf f ti r)).cells } = scratchLoaded s w rows (scrOf f ti r) :=
  foldl_inv (fun z : Scr => scrOf f ti { r with scratch := z.cells } = z) (fun ⟨cells, left, uid, fig, tile⟩ x h => by cases h; rfl) rows rfl

theorem figLoaded_nil (s : State) (ti : Nat) (w : List Nat) (f : FigRun) : figLoaded s ti w [] f = f := by
  have htiles : f.tiles.modify ti (fun r => { r with scratch := (scratchLoaded s w [] (scrOf f ti r)).cells }) = f.tiles :=
    List.modify_id ..
  simp only [figLoaded, withTile, rowNotes, List.map_nil, List.append_nil, htiles]

theorem figLoaded_snoc (s : State) (ti : Nat) (w : List Nat) (rows : List ((Nat × Nat) × Nat)) (x : (Nat × Nat) × Nat) (f : FigRun) :
    withTile ti (fun r => { r with scratch := (scrWrite (scrOf f ti r) (rowOffset w x.2) (devRead s x.1.1 x.1.2)).cells })
      { figLoaded s ti w rows f with accs := (figLoaded s ti w rows f).accs ++ [(ti, accRead, x.1.1, x.1.2, true)] } =
    figLoaded s ti w (rows ++ [x]) f := by
  simp only [figLoaded, withTile, List.modify_modify_eq]
  congr 1
  · congr 1
    funext r
    simp only [Function.comp_apply, scrOf_scratchLoaded]
    simp [scratchLoaded]
  · simp [rowNotes]

/-- The state after some rows of a LOAD. -/
def loaded (s : State) (g ti : Nat) (f : FigRun) (w : List Nat) (rows : List ((Nat × Nat) × Nat)) : State :=
  modFig s g fun _ => figLoaded s ti w rows f

theorem loaded_nil (hf : figOf s g = some f) : loaded s g ti f w [] = s := modFig_of_fixed hf (figLoaded_nil ..)

/-- One row more is read; what the rows before it noted changes nothing for it. -/
theorem loadRow_ok (hf : figOf s g = some f) (hflying : f.flying = []) {rows : List ((Nat × Nat) × Nat)} {x : (Nat × Nat) × Nat}
    (hcheck : accessCheck s f.tarn x.1.1 x.1.2 = none) (hgood : poisoned s x.1.1 x.1.2 = false)
    (hquiet : ∀ key, some key ∈ rangeKeys x.1.1 x.1.2 → otherClash f ti accRead key = false ∧ overtaken f ti key = false) :
    loadRow g ti f w (loaded s g ti f w rows) x = (none, loaded s g ti f w (rows ++ [x])) := by
  have hfig : figOf (loaded s g ti f w rows) g = some (figLoaded s ti w rows f) := figOf_modFig_of_some hf _
  have hcheck' : accessCheck (loaded s g ti f w rows) f.tarn x.1.1 x.1.2 = none := hcheck
  have hgood' : poisoned (loaded s g ti f w rows) x.1.1 x.1.2 = false := hgood
  have hmem : devRead (loaded s g ti f w rows) x.1.1 x.1.2 = devRead s x.1.1 x.1.2 := rfl
  have hothers := sameForOthers_figLoaded s ti w rows f
  have hsettle := settle_of_defined (a := x.1.1) (bs := devRead s x.1.1 x.1.2)
    (bad := fun key => otherClash (figLoaded s ti w rows f) ti accRead key || overtaken (figLoaded s ti w rows f) ti key)
    (fun key hkey => by
      obtain ⟨hclash, hover⟩ := hquiet key (by rwa [length_devRead] at hkey)
      rw [otherClash_of_sameForOthers hothers, overtaken_of_sameForOthers hothers, hclash, hover]; rfl)
    (loaded s g ti f w rows)
  simp only [loadRow, tileRead, hcheck', landSome_of_none hfig hflying, hgood', hfig, Option.getD_some, hmem, hsettle,
    Bool.false_eq_true, if_false]
  simp only [noteAccess, modTile, loaded, modFig_modFig]
  congr 2
  funext f'
  exact figLoaded_snoc s ti w rows x f

/-- A LOAD whose rows all pass puts them in the scratchpad. -/
theorem tileStep_load_ok (h : AtHead s g ti f r w rest) (hgo : MayGo s f r w) (hop : opCode w = 1) (hflying : f.flying = [])
    (hrows : ∀ x ∈ opRows f.args w, accessCheck s f.tarn x.1 x.2 = none ∧ poisoned s x.1 x.2 = false ∧
      ∀ key, some key ∈ rangeKeys x.1 x.2 → otherClash f ti accRead key = false ∧ overtaken f ti key = false) :
    (tileStep s g ti).1 = modTile (loaded s g ti f w (opRows f.args w).zipIdx) g ti fun r => { r with ops := r.ops.drop 1 } := by
  have hrun := untilFault_of_ok (step := loadRow g ti f w) (l := (opRows f.args w).zipIdx) (loaded s g ti f w) fun pre x suf e => by
    obtain ⟨hcheck, hgood, hquiet⟩ := hrows x.1 (List.fst_mem_of_mem_zipIdx (by rw [e]; simp))
    exact loadRow_ok h.fig hflying hcheck hgood hquiet
  rw [loaded_nil h.fig] at hrun
  rw [tileStep_load h hgo hop, hrun, opDone_ok]

/-! The rows of a STORE, one after another -/

/-- A write that has an order, and whose bytes no other tile's access leaves undefined, arrives at once. -/
theorem issue_write (hf : figOf s g = some f) (f₀ : FigRun) {a : Nat} {bs : Bytes} (hcheck : accessCheck s f₀.tarn a bs.length = none)
    (horder : unordered f ti (accWrite, a, bs.length) = false)
    (hquiet : ∀ key, some key ∈ rangeKeys a bs.length → otherClash f ti accWrite key = false) :
    issue s g ti (.write a bs) f₀ = (none, noteAccess (devWrite s a bs) g ti accWrite a bs.length) := by
  simp only [issue, reqAccesses, List.findSome?_cons, List.findSome?_nil, hcheck, hf, Option.getD_some, List.any_cons, List.any_nil,
    horder, Bool.or_self, Bool.false_eq_true, if_false, arrive, settle_of_defined hquiet, List.foldl_cons, List.foldl_nil]

/-- The figure with some rows of a STORE noted. -/
def figStored (ti : Nat) (rows : List ((Nat × Nat) × Nat)) (f : FigRun) : FigRun := { f with accs := f.accs ++ rowNotes ti accWrite rows }

theorem sameForOthers_figStored (ti : Nat) (rows : List ((Nat × Nat) × Nat)) (f : FigRun) : SameForOthers ti f (figStored ti rows f) where
  args := rfl
  streams := rfl
  accs := by simp [figStored, List.filter_append, filter_rowNotes]

/-- Of the accesses of a STORE itself, only those that share a byte with a row take its order from it. -/
theorem unordered_figStored {rows : List ((Nat × Nat) × Nat)} {x : Nat × Nat} (horder : unordered f ti (accWrite, x.1, x.2) = false)
    (hapart : ∀ y ∈ rows, sharesByte x.1 x.2 y.1.1 y.1.2 = false) :
    unordered (figStored ti rows f) ti (accWrite, x.1, x.2) = false := by
  simp only [unordered, Bool.or_eq_false_iff] at horder ⊢
  obtain ⟨⟨⟨haccs, hlater⟩, hself⟩, hothers⟩ := horder
  refine ⟨⟨⟨?_, hlater⟩, hself⟩, hothers⟩
  simp only [figStored, List.any_append, haccs, Bool.false_or]
  simpa [rowNotes] using hapart

theorem two_le_length_filter {α : Type} {p : α → Bool} {pre suf : List α} {x y : α} (hy : y ∈ pre) (hpy : p y = true) (hpx : p x = true) :
    1 < ((pre ++ x :: suf).filter p).length := by
  have : 0 < (pre.filter p).length := List.length_pos_of_mem (List.mem_filter.mpr ⟨hy, hpy⟩)
  rw [List.filter_append, List.filter_cons_of_pos hpx, List.length_append, List.length_cons]
  omega

/-- Rows of one STORE that share a byte have no order. -/
theorem rows_apart (h : AtHead s g ti f r w rest) (hop : opCode w = 2) {pre suf : List (Nat × Nat)} {x y : Nat × Nat}
    (hrows : opRows f.args w = pre ++ x :: suf) (hy : y ∈ pre) (horder : unordered f ti (accWrite, x.1, x.2) = false) :
    sharesByte x.1 x.2 y.1 y.2 = false := by
  by_contra hshare
  rw [Bool.not_eq_false] at hshare
  simp only [unordered, Bool.or_eq_false_iff, decide_eq_false_iff_not] at horder
  obtain ⟨⟨-, hself⟩, -⟩ := horder
  refine hself ?_
  have hacc : opAccesses f.args w = (opRows f.args w).map fun r => (accWrite, r.1, r.2) := by simp only [opAccesses, hop]; rfl
  rw [getD_tile h.tile, h.ops, List.headD_cons, hacc, hrows, List.map_append, List.map_cons]
  refine two_le_length_filter (List.mem_map_of_mem hy) ?_ ?_
  · simpa using hshare
  · simpa using sharesByte_self hshare

/-- Memory with some rows of a STORE written. -/
def rowsWritten (z : Scr) (w : List Nat) (s : State) (rows : List ((Nat × Nat) × Nat)) : State :=
  rows.foldl (fun m x => devWrite m x.1.1 (scrBytes z (rowOffset w x.2) x.1.2)) s

/-- The state after some rows of a STORE. -/
def stored (s : State) (g ti : Nat) (f : FigRun) (z : Scr) (w : List Nat) (rows : List ((Nat × Nat) × Nat)) : State :=
  modFig (rowsWritten z w s rows) g fun _ => figStored ti rows f

theorem stored_nil (hf : figOf s g = some f) (z : Scr) : stored s g ti f z w [] = s :=
  modFig_of_fixed hf (by simp [figStored, rowNotes])

theorem stored_snoc (z : Scr) (rows : List ((Nat × Nat) × Nat)) (x : (Nat × Nat) × Nat) :
    noteAccess (devWrite (stored s g ti f z w rows) x.1.1 (scrBytes z (rowOffset w x.2) x.1.2)) g ti accWrite x.1.1 x.1.2 =
      stored s g ti f z w (rows ++ [x]) := by
  have hwrite : devWrite (stored s g ti f z w rows) x.1.1 (scrBytes z (rowOffset w x.2) x.1.2) =
      modFig (rowsWritten z w s (rows ++ [x])) g fun _ => figStored ti rows f := by
    simp only [rowsWritten, List.foldl_append, List.foldl_cons, List.foldl_nil]
    rfl
  rw [hwrite, noteAccess, modFig_modFig, stored]
  congr 1
  funext _
  simp [figStored, rowNotes]

theorem accessCheck_devWrite (s : State) (b : Nat) (bs : Bytes) (t : TarnIx) (a len : Nat) :
    accessCheck (devWrite s b bs) t a len = accessCheck s t a len := rfl

theorem accessCheck_stored (z : Scr) (rows : List ((Nat × Nat) × Nat)) (t : TarnIx) (a len : Nat) :
    accessCheck (stored s g ti f z w rows) t a len = accessCheck s t a len :=
  foldl_inv (fun m : State => accessCheck m t a len = accessCheck s t a len) (fun _ _ h => (accessCheck_devWrite ..).trans h) rows rfl

theorem figOf_stored (hf : figOf s g = some f) (z : Scr) (rows : List ((Nat × Nat) × Nat)) :
    figOf (stored s g ti f z w rows) g = some (figStored ti rows f) := by
  have hfigs : (rowsWritten z w s rows).figs = s.figs :=
    foldl_inv (fun m : State => m.figs = s.figs) (fun _ _ h => (figs_devWrite ..).trans h) rows rfl
  exact figOf_modFig_of_some (f := f) (by rwa [figOf, hfigs]) _

/-- A STORE whose rows all pass and have an order writes them. -/
theorem tileStep_store_ok (h : AtHead s g ti f r w rest) (hgo : MayGo s f r w) (hop : opCode w = 2)
    (hrows : ∀ x ∈ opRows f.args w, accessCheck s f.tarn x.1 x.2 = none ∧ unordered f ti (accWrite, x.1, x.2) = false ∧
      ∀ key, some key ∈ rangeKeys x.1 x.2 → otherClash f ti accWrite key = false) :
    (tileStep s g ti).1 =
      modTile (stored s g ti f (scrOf f ti r) w (opRows f.args w).zipIdx) g ti fun r => { r with ops := r.ops.drop 1 } := by
  have hrun := untilFault_of_ok (step := storeRow g ti f (scrOf f ti r) w) (l := (opRows f.args w).zipIdx)
    (stored s g ti f (scrOf f ti r) w) fun pre x suf e => by
      obtain ⟨hcheck, horder, hquiet⟩ := hrows x.1 (List.fst_mem_of_mem_zipIdx (by rw [e]; simp))
      have hsplit : opRows f.args w = pre.map (·.1) ++ x.1 :: suf.map (·.1) := by
        have := congrArg (List.map Prod.fst) e
        simpa using this
      have hapart : ∀ y ∈ pre, sharesByte x.1.1 x.1.2 y.1.1 y.1.2 = false :=
        fun y hy => rows_apart h hop hsplit (List.mem_map_of_mem hy) horder
      rw [storeRow, issue_write (figOf_stored h.fig ..), length_scrBytes, stored_snoc]
      · rwa [accessCheck_stored, length_scrBytes]
      · rw [length_scrBytes]
        exact unordered_figStored horder hapart
      · intro key hkey
        rw [length_scrBytes] at hkey
        rw [otherClash_of_sameForOthers (sameForOthers_figStored ti pre f), hquiet key hkey]
  rw [stored_nil h.fig] at hrun
  rw [tileStep_store h hgo hop, hrun, opDone_ok]

end
end Sys2Proof.Machine
open Sys2Proof.Machine

/-- Settles O34: a row that ends the ticket is the first one; where every row passes, `tileStep_load_ok` and `tileStep_store_ok` take the
rows one after another. -/
theorem loadsAndStoresMoveRows : Obligations.LoadsAndStoresMoveRows := by
  intro s g ti f r w rest _ hrun hf hfault hcycles hr hops hop rows off
  have hhead : AtHead s g ti f r w rest := ⟨hf, hr, hops⟩
  have hexec := exec_memoryRequest hrun hhead hop
  refine ⟨fun hwaits => ?_, fun hheld hawaits => ?_⟩
  · rw [hexec, tileStep_waits hhead (by rcases hwaits with h | h <;> simp [h])]
  have hgo : MayGo s f r w := ⟨hfault, hcycles, hheld, hawaits⟩
  rw [hexec]
  refine ⟨fun x st hx hcheck => ?_, fun hflying hload => ⟨fun x hx hcheck hbad => ?_, fun hrows => ?_⟩, fun hflying hstore hrows => ?_⟩
  · obtain ⟨l, hl⟩ := zipIdx_of_head (show (opRows f.args w).head? = some x from hx)
    obtain ⟨f', hend⟩ := figFault_ends hf hfault st
    refine ⟨_, f', rfl, ?_⟩
    rcases hop with hop | hop
    · rwa [tileStep_load hhead hgo hop, hl, untilFault_of_fault (loadRow_refused (x := (x, 0)) hcheck), opDone_fault]
    · rwa [tileStep_store hhead hgo hop, hl, untilFault_of_fault (storeRow_refused (x := (x, 0)) hcheck), opDone_fault]
  · obtain ⟨l, hl⟩ := zipIdx_of_head (show (opRows f.args w).head? = some x from hx)
    obtain ⟨f', hend⟩ := figFault_ends hf hfault .dataLost
    refine ⟨_, f', rfl, ?_⟩
    rwa [tileStep_load hhead hgo hload, hl, untilFault_of_fault (loadRow_poisoned (x := (x, 0)) hf hflying hcheck hbad), opDone_fault]
  · rw [tileStep_load_ok hhead hgo hload hflying hrows]
    refine ⟨_, _, _, rfl, rfl, figOf_modTile (figOf_modFig_of_some hf _) _, hfault,
      tiles_withTile (tiles_withTile (f := { f with accs := f.accs ++ rowNotes ti accRead rows.zipIdx }) hr _) _, ?_, rfl⟩
    rw [hops]; rfl
  · rw [tileStep_store_ok hhead hgo hstore hrows]
    refine ⟨_, _, _, rfl, figOf_modTile (figOf_stored hf ..) _, hfault, hflying,
      tiles_withTile (f := figStored ti rows.zipIdx f) hr _, ?_, rfl, rfl⟩
    rw [hops]; rfl
end

section
/-! MICROPROG_LOAD and MODEL_LOAD (R176, R218, R236, R530, R531), and the statement about them. -/

namespace Sys2Proof.Machine

/-- A ticket whose serial number the change keeps is there with the change. -/
theorem ticketOf_modTicket_same {s : State} {uid : Nat} {k : Ticket} (hk : ticketOf s uid = some k) {g : Ticket → Ticket}
    (hg : ∀ j : Ticket, (g j).uid = j.uid) : ticketOf (modTicket s uid g) uid = some (g k) := by
  rw [ticketOf_modTicket s uid uid g fun j hj => (hg j).trans hj, if_pos rfl, hk]
  rfl

theorem final_of_ticketRuns {k : Ticket} (hr : ticketRuns k = true) : k.final = none := by
  rw [ticketRuns, Bool.and_eq_true, Option.isNone_iff_eq_none] at hr
  exact hr.1

/-! MICROPROG_LOAD -/

section
variable {s : State} {uid : Nat} {k : Ticket}

theorem exec_microprogLoad (h : servable s uid 0x12 = some k) (hstage : k.stage = 0) :
    exec (.microprogLoad uid) s = .next (serveMicroprog s k) :=
  congrArg _ ((serve_some h).trans (if_pos (beq_iff_eq.mpr hstage)))

theorem serveMicroprog_refused {st : Status} (hcheck : accessCheck s k.tarn (opW k 0) (opW k 1) = some st) :
    serveMicroprog s k = failTicket s k.uid st := by
  rw [serveMicroprog, hcheck]

section
variable (hcheck : accessCheck s k.tarn (opW k 0) (opW k 1) = none)
include hcheck

theorem serveMicroprog_held (hheld : touchesHold s (opW k 0) (opW k 1) = true) : serveMicroprog s k = s := by
  rw [serveMicroprog, hcheck]
  exact if_pos hheld

variable (hheld : touchesHold s (opW k 0) (opW k 1) = false)
include hheld

theorem serveMicroprog_poisoned (hbad : poisoned s (opW k 0) (opW k 1) = true) :
    serveMicroprog s k = failTicket s k.uid .dataLost := by
  simp only [serveMicroprog, hcheck, hheld, hbad, Bool.false_eq_true, if_false, if_true]

theorem serveMicroprog_legal (hbad : poisoned s (opW k 0) (opW k 1) = false)
    (hsteps : (microSteps (devRead s (opW k 0) (opW k 1))).all microStepOk = true) :
    serveMicroprog s k =
      modTicket s k.uid fun j => { j with stage := 1, plain := devRead s (opW k 0) (opW k 1), dirty := true } := by
  simp only [serveMicroprog, hcheck, hheld, hbad, hsteps, Bool.false_eq_true, if_false, if_true]

theorem serveMicroprog_illegal (hbad : poisoned s (opW k 0) (opW k 1) = false)
    (hsteps : (microSteps (devRead s (opW k 0) (opW k 1))).all microStepOk = false) :
    serveMicroprog s k = answerTicket s k.uid .badCommand 0 0 := by
  simp only [serveMicroprog, hcheck, hheld, hbad, hsteps, Bool.false_eq_true, if_false]

end
end

/-! MODEL_LOAD -/

theorem exec_modelLoad {s : State} {uid : Nat} {k : Ticket} (h : servable s uid 0x11 = some k) :
    exec (.modelLoad uid) s = .next (serveModelLoad s k) := by
  obtain ⟨hk, -, hop, hr, -, -, hrun, hfw⟩ := of_servable h
  have hserve : serveRunning s uid 0x11 serveModelLoad = serveModelLoad s k := by simp [serveRunning, hk, hop, hr, hrun, hfw]
  exact congrArg _ hserve

/-- A ticket whose host bytes have been taken as they are. -/
def takenClear (k : Ticket) : Ticket := { k with plain := k.plain ++ k.buf, taken := k.taken + k.buf.length, buf := [] }

@[simp] theorem takenClear_rest (k : Ticket) : let k' := takenClear k
    k'.uid = k.uid ∧ k'.tarn = k.tarn ∧ k'.stage = k.stage ∧ k'.faults = k.faults ∧ ticketRuns k' = ticketRuns k ∧
    ∀ i, opW k' i = opW k i := by
  intro k'; and_intros <;> intros <;> rfl

theorem takePlain_clear {s : State} {uid : Nat} {k : Ticket} (hk : ticketOf s uid = some k) (hc : isConf s k.tarn = false)
    (operand need : Nat) : takePlain s uid operand need = modTicket s uid takenClear := by
  simp only [takePlain, hk, hc, Bool.false_eq_true, if_false]
  rfl

/-- The ticket of a MODEL_LOAD on a standard Tarn with its key in hand, of whose package at least the header has arrived and nothing
has been taken. -/
structure ModelArrived (s : State) (k : Ticket) (key : Nat × Bytes × Nat) : Prop where
  ticket : ticketOf s k.uid = some k
  runs : ticketRuns k = true
  standard : isConf s k.tarn = false
  key : k.key = some key
  stage : k.stage = 0
  plain : k.plain = []
  header : 128 ≤ k.buf.length

/-- The header of the package that has arrived. -/
abbrev arrivedPkg (k : Ticket) : Pkg := pkgOf (k.buf.take 128)

/-- The ticket of a MODEL_LOAD after its header has passed. -/
def headerPassed (s : State) (p : Pkg) (k : Ticket) : Ticket :=
  { k with
    stage := 1, need := modelReads s k p, hand := [(k.received, s.beat)]
    ledger := { k.ledger with figuresTotal := cdiv p.plainLen (2 ^ p.log2) } }

section
variable {s : State} {k : Ticket} {key : Nat × Bytes × Nat}

theorem ModelArrived.taken (h : ModelArrived s k key) : ticketOf (modTicket s k.uid takenClear) k.uid = some (takenClear k) :=
  ticketOf_modTicket_same h.ticket fun _ => rfl

/-- What MODEL_LOAD makes of a header that has arrived (R530). -/
theorem serveModelLoad_header (h : ModelArrived s k key) :
    serveModelLoad s k =
      if pkgFormOk (k.buf.take 128) = false ∨ opW k 1 ≠ pkgLen (arrivedPkg k) then
        failTicket (modTicket s k.uid takenClear) k.uid .badCommand
      else if (arrivedPkg k).kcv ≠ kcvOf 2 key.2.1 ∨ rangeCheck s k.tarn (opW k 2) (arrivedPkg k).plainLen ≠ none then
        failTicket (modTicket s k.uid takenClear) k.uid .notPermitted
      else modelChunks (modTicket (modTicket s k.uid takenClear) k.uid (headerPassed s (arrivedPkg k)))
        { takenClear k with stage := 1 } key.2.1 (k.buf.take 128) (k.buf.drop 128) := by
  have hbytes : (takenClear k).plain = k.buf := by simp [takenClear, h.plain]
  have hgo : ¬ (!ticketRuns (takenClear k) || decide (k.buf.length < 128)) = true := by simpa [h.runs] using h.header
  simp only [serveModelLoad, withKey, h.key, takePlain_clear h.ticket h.standard, h.taken, hbytes]
  rw [if_neg hgo, if_pos (by simp [h.stage])]
  by_cases hform : pkgFormOk (k.buf.take 128) = false ∨ opW k 1 ≠ pkgLen (arrivedPkg k)
  · rw [if_pos hform]
    exact if_pos (by simpa using hform)
  rw [if_neg hform, if_neg (by simpa using hform)]
  by_cases hkcv : (arrivedPkg k).kcv = kcvOf 2 key.2.1
  · have hsame : rangeCheck (modTicket s k.uid takenClear) (takenClear k).tarn (opW (takenClear k) 2) (arrivedPkg k).plainLen =
        rangeCheck s k.tarn (opW k 2) (arrivedPkg k).plainLen := rfl
    rw [if_neg (by simpa using hkcv), hsame]
    cases hrange : rangeCheck s k.tarn (opW k 2) (arrivedPkg k).plainLen with
    | none => exact (if_neg (by simp [hkcv])).symm
    | some st => exact (if_pos (by simp)).symm
  · rw [if_pos (Or.inl hkcv)]
    exact if_pos (by simpa using hkcv)

end

section
variable {s : State} {k k₀ : Ticket} {m h body pt : Bytes} {n : Nat} (hcursor : k.cursor = 0) (haccepted : k.accepted = 0)
  (hopen : openChunks (pkgOf h) (chunkKey (pkgOf h) m) (cdiv (pkgOf h).plainLen (2 ^ (pkgOf h).log2) + 1) 0 body [] = (pt, [], n, false))
  (hlen : pt.length = (pkgOf h).plainLen) (hpt : pt ≠ []) (hretired : touchesRetired s (opW k 2) (pkgOf h).plainLen = false)
  (hheld : touchesHold s (opW k 2) (pkgOf h).plainLen = false)
include hcursor haccepted hopen hlen hpt hretired hheld

/-- A whole plaintext whose chunks verify is written, and its load ends after a MODEL event (R531). -/
theorem modelChunks_whole : ∃ (g : Ticket → Ticket) (event : Bytes),
    (∀ j : Ticket, (g j).uid = j.uid ∧ ticketRuns (g j) = ticketRuns j) ∧
    modelChunks s k m h body =
      finishTicket (tally (modTicket (devWrite s (opW k 2) pt) k.uid g) 0x0032 2 k.tarn false .ok event) k.uid (pkgOf h).plainLen 0 := by
  refine ⟨?taken, ?event, ?keeps, ?whole⟩
  case whole =>
    simp only [modelChunks, haccepted, hopen, hcursor, hlen, Nat.add_zero, Nat.zero_add, hheld, hretired, beq_self_eq_true,
      List.isEmpty_iff, hpt, Bool.false_eq_true, if_false, if_true]
    rfl
  case keeps => exact fun _ => ⟨rfl, rfl⟩

theorem modelChunks_ends (hk : ticketOf s k.uid = some k₀) (hr : ticketRuns k₀ = true) :
    EndsWith (modelChunks s k m h body) k.uid .ok (pkgOf h).plainLen 0 ∧
      (modelChunks s k m h body).mem = (devWrite s (opW k 2) pt).mem ∧ s.tally.next < (modelChunks s k m h body).tally.next := by
  obtain ⟨g, event, hg, hwhole⟩ := modelChunks_whole hcursor haccepted hopen hlen hpt hretired hheld
  rw [hwhole]
  generalize hw : modTicket (devWrite s (opW k 2) pt) k.uid g = w
  have hticket : ticketOf w k.uid = some (g k₀) := hw ▸ ticketOf_modTicket_same hk fun j => (hg j).1
  have hnext : s.tally.next = w.tally.next := by simp [← hw]
  have hevent := next_tally w 0x0032 2 k.tarn false .ok event
  refine ⟨endsWith_finishTicket hticket ((hg k₀).2.trans hr) .., by simp [← hw], ?_⟩
  simp only [finishTicket_rest]
  omega

end

/-- A package whose form passes holds some plaintext (R528). -/
theorem plainLen_pos_of_pkgFormOk {h : Bytes} (hform : pkgFormOk h = true) : 0 < (pkgOf h).plainLen := by
  simp only [pkgFormOk, Bool.and_eq_true, decide_eq_true_eq] at hform
  exact hform.2.trans_lt' (by decide)

end Sys2Proof.Machine

open Sys2Proof.Machine

/-- Settles O17: MICROPROG_LOAD by the cases of its check, MODEL_LOAD by those of its header and, past it, by `modelChunks_ends`. -/
theorem loadsCheckThenAct : Obligations.LoadsCheckThenAct := by
  intro s uid k _
  refine ⟨fun h hstage => ?_, fun h hc hstage hplain hcursor haccepted hlen key hkey => ?_⟩
  · have hk := ticketOf_of_servable h
    have hr := ticketRuns_of_servable h
    obtain rfl := uid_of_ticketOf hk
    rw [exec_microprogLoad h hstage]
    refine ⟨fun st hcheck => ?_, fun hcheck => ⟨fun hheld => ?_, fun hheld hbad => ?_, fun hheld hbad =>
      ⟨fun hsteps => ?_, fun hsteps => ?_⟩⟩⟩
    · rw [serveMicroprog_refused hcheck]
      exact ⟨_, _, rfl, ticketOf_failTicket hk, rfl⟩
    · rw [serveMicroprog_held hcheck hheld]
    · rw [serveMicroprog_poisoned hcheck hheld hbad]
      exact ⟨_, _, rfl, ticketOf_failTicket hk, rfl⟩
    · rw [serveMicroprog_legal hcheck hheld hbad hsteps]
      exact ⟨_, _, rfl, ticketOf_modTicket_same hk fun _ => rfl, rfl, final_of_ticketRuns hr, rfl⟩
    · rw [serveMicroprog_illegal hcheck hheld hbad hsteps]
      exact ⟨_, rfl, endsWith_answerTicket hk hr ..⟩
  · have hk := ticketOf_of_servable h
    obtain rfl := uid_of_ticketOf hk
    have harrived : ModelArrived s k key := ⟨hk, ticketRuns_of_servable h, hc, hkey, hstage, hplain, hlen⟩
    intro p
    rw [exec_modelLoad h, serveModelLoad_header harrived]
    refine ⟨fun hbad => ?_, fun hform hall hbad => ?_, fun pt hform hall hkcv hrange hretired hheld hopen hpt => ?_⟩
    · rw [if_pos hbad]
      exact ⟨_, _, rfl, ticketOf_failTicket harrived.taken, rfl, rfl⟩
    · rw [if_neg (by simp [hform, hall, p]), if_pos hbad]
      exact ⟨_, _, rfl, ticketOf_failTicket harrived.taken, rfl, rfl⟩
    · rw [if_neg (by simp [hform, hall, p]), if_neg (by simp [hkcv, hrange, p])]
      have hsome : pt ≠ [] := List.ne_nil_of_length_pos ((plainLen_pos_of_pkgFormOk hform).trans_eq hpt.symm)
      exact ⟨_, rfl, modelChunks_ends hcursor haccepted hopen hpt hsome hretired hheld
        (ticketOf_modTicket_same harrived.taken fun _ => rfl) harrived.runs⟩
end

section
/-! Poison of a range and of its parts, and bytes written back where they were read (R218, R221). -/

namespace Sys2Proof.Machine

theorem poisoned_iff {s : State} {a len : Nat} :
    poisoned s a len = true ↔ ∃ key, some key ∈ rangeKeys a len ∧ wordBad s.poison (key / 32) = true := by
  have hempty (w : Nat) : s.poison = [] → wordBad s.poison w = false := fun h => by rw [h]; rfl
  simp only [poisoned, rangeWords, Bool.and_eq_true, Bool.not_eq_true', List.isEmpty_eq_false_iff, List.any_eq_true, List.mem_dedup,
    List.mem_filterMap]
  constructor
  · rintro ⟨-, w, ⟨k, hk, hw⟩, hbad⟩
    cases k with
    | none => cases hw
    | some key =>
      obtain rfl : key / 32 = w := by simpa using hw
      exact ⟨key, hk, hbad⟩
  · rintro ⟨key, hkey, hbad⟩
    refine ⟨fun h => ?_, key / 32, ⟨some key, hkey, rfl⟩, hbad⟩
    rw [hempty _ h] at hbad
    cases hbad

/-- A range within another has no other keys. -/
theorem rangeKeys_subset {a len b m : Nat} (hlo : a ≤ b) (hhi : b + m ≤ a + len) : rangeKeys b m ⊆ rangeKeys a len := by
  intro k hk
  obtain ⟨i, hi, rfl⟩ := List.mem_map.mp hk
  have hi : i < m := List.mem_range.mp hi
  refine List.mem_map.mpr ⟨b - a + i, List.mem_range.mpr (by omega), ?_⟩
  rw [show a + (b - a + i) = b + i by omega]

theorem not_poisoned_part {s : State} {a len b m : Nat} (h : poisoned s a len = false) (hlo : a ≤ b) (hhi : b + m ≤ a + len) :
    poisoned s b m = false := by
  rw [← Bool.not_eq_true, poisoned_iff] at h ⊢
  rintro ⟨key, hkey, hbad⟩
  exact h ⟨key, rangeKeys_subset hlo hhi hkey, hbad⟩

theorem wordBad_of_ivSub {lo hi w : Nat} {l : List (Nat × Nat)} (h : wordBad (ivSub lo hi l) w = true) : wordBad l w = true := by
  induction l with
  | nil => exact h
  | cons x l ih =>
    obtain ⟨a, b⟩ := x
    simp only [ivSub, wordBad, List.any_append, List.any_cons, Bool.or_eq_true, Bool.and_eq_true, decide_eq_true_eq] at h ih ⊢
    rcases h with (h | h) | h
    · split at h
      · simp at h; left; omega
      · simp at h
    · split at h
      · simp at h; left; omega
      · simp at h
    · exact .inr (ih h)

/-- A write poisons nothing. -/
theorem wordBad_of_devWrite {s : State} {b w : Nat} {bs : Bytes} (h : wordBad (devWrite s b bs).poison w = true) :
    wordBad s.poison w = true := by
  simp only [devWrite] at h
  split at h
  · cases h
  · have hkeep : ∀ l : List (Nat × Nat), (wordBad l w = true → wordBad s.poison w = true) →
        wordBad (List.foldl (fun l w => ivSub w (w + 1) l) l (coveredWords b bs.length)) w = true → wordBad s.poison w = true :=
      fun l hl => foldl_inv (fun l => wordBad l w = true → wordBad s.poison w = true) (fun _ _ ih hbad => ih (wordBad_of_ivSub hbad)) _ hl
    exact hkeep _ id h

theorem not_poisoned_devWrite {s : State} {a len : Nat} (h : poisoned s a len = false) (b : Nat) (bs : Bytes) :
    poisoned (devWrite s b bs) a len = false := by
  rw [← Bool.not_eq_true, poisoned_iff] at h ⊢
  rintro ⟨key, hkey, hbad⟩
  exact h ⟨key, hkey, wordBad_of_devWrite hbad⟩

/-- A byte written back where it was read changes nothing. -/
theorem cellPut_cellGet {m : List Host.Cell} (h : memWf m = true) (key : Nat) : cellPut m key (cellGet m key) = m := by
  obtain ⟨hp, hv⟩ := (memWf_iff m).mp h
  clear h
  induction m with
  | nil => rfl
  | cons d l ih =>
    obtain ⟨k, w⟩ := d
    rw [List.pairwise_cons] at hp
    rw [cellGet]
    split
    next hk =>
      obtain rfl : k = key := by simpa using hk
      have hw : w ≠ memUnlisted := hv _ List.mem_cons_self
      simp [cellPut, hw]
    next hk =>
      split
      next hlt => simp [cellPut, hlt]
      next hlt =>
        rw [cellPut, if_neg hlt, if_neg hk, ih hp.2 fun c hc => hv c (List.mem_cons_of_mem _ hc)]

theorem cellPuts_read {m : List Host.Cell} (h : memWf m = true) (keys : List (Option Nat)) :
    cellPuts m (keys.zip (keys.map fun k => match k with
      | some k => cellGet m k
      | none => memUnlisted)) = m := by
  induction keys with
  | nil => rfl
  | cons k keys ih =>
    cases k with
    | none => exact ih
    | some k =>
      rw [List.map_cons, List.zip_cons_cons, cellPuts, cellPut_cellGet h]
      exact ih

theorem mem_devWrite_devRead {s : State} (h : memWf s.mem = true) (a len : Nat) : (devWrite s a (devRead s a len)).mem = s.mem := by
  simp only [devWrite, length_devRead]
  exact cellPuts_read h _

end Sys2Proof.Machine
end

section
/-! A request that arrives at its Reel unit at once, and the accesses it leaves noted (R128, R203, R221). -/

namespace Sys2Proof.Machine

section
variable {s : State} {g : GroupIx} {ti : TileIx} {f : FigRun} {r : TileRun} {w : List Nat} {rest : List (List Nat)}

/-- A figure with further accesses noted. -/
def withNotes (notes : List (Nat × Nat × Nat × Nat × Bool)) (f : FigRun) : FigRun := { f with accs := f.accs ++ notes }

/-- What the accesses of a tile's request leave noted. -/
def accNotes (ti : Nat) (accs : List (Nat × Nat × Nat)) : List (Nat × Nat × Nat × Nat × Bool) :=
  accs.map fun x => (ti, x.1, x.2.1, x.2.2, true)

/-- A state with the accesses of a tile's request noted. -/
def noteAll (s : State) (g ti : Nat) (accs : List (Nat × Nat × Nat)) : State :=
  accs.foldl (fun s x => noteAccess s g ti x.1 x.2.1 x.2.2) s

theorem noteAll_eq (hf : figOf s g = some f) (ti : Nat) (accs : List (Nat × Nat × Nat)) :
    noteAll s g ti accs = modFig s g (withNotes (accNotes ti accs)) := by
  induction accs generalizing s f with
  | nil => exact (modFig_of_fixed hf (by simp [withNotes, accNotes])).symm
  | cons x accs ih =>
    have hstep : noteAll s g ti (x :: accs) = noteAll (noteAccess s g ti x.1 x.2.1 x.2.2) g ti accs := rfl
    have hf' : figOf (noteAccess s g ti x.1 x.2.1 x.2.2) g = some _ := figOf_modFig_of_some hf _
    rw [hstep, ih hf', noteAccess, modFig_modFig]
    congr 1
    funext f'
    simp [withNotes, accNotes]

theorem issue_refused {q : Req} {f₀ : FigRun} {st : Status}
    (h : (reqAccesses q).findSome? (fun x => accessCheck s f₀.tarn x.2.1 x.2.2) = some st) : issue s g ti q f₀ = (some st, s) := by
  simp only [issue, h]

section
variable {q : Req} {f₀ : FigRun} (hf : figOf s g = some f) (hcheck : ∀ x ∈ reqAccesses q, accessCheck s f₀.tarn x.2.1 x.2.2 = none)
  (horder : ∀ x ∈ reqAccesses q, unordered f ti x = false)
include hf hcheck horder

/-- A request that passes its checks and has an order arrives at once. -/
theorem issue_arrives {s' : State} (harrive : arrive s g ti q = (none, s')) :
    issue s g ti q f₀ = (none, noteAll s' g ti (reqAccesses q)) := by
  have hchecks : (reqAccesses q).findSome? (fun x => accessCheck s f₀.tarn x.2.1 x.2.2) = none := List.findSome?_eq_none_iff.mpr hcheck
  have horders : (reqAccesses q).any (unordered f ti) = false := by simpa using horder
  simp only [issue, hchecks, hf, Option.getD_some, horders, harrive, Bool.false_eq_true, if_false]
  rfl

theorem issue_fails {s' : State} {st : Status} (harrive : arrive s g ti q = (some st, s')) : issue s g ti q f₀ = (some st, s') := by
  have hchecks : (reqAccesses q).findSome? (fun x => accessCheck s f₀.tarn x.2.1 x.2.2) = none := List.findSome?_eq_none_iff.mpr hcheck
  have horders : (reqAccesses q).any (unordered f ti) = false := by simpa using horder
  simp only [issue, hchecks, hf, Option.getD_some, horders, harrive, Bool.false_eq_true, if_false]

end

theorem exec_reelCommand (hrun : figuresRun s = true) (h : AtHead s g ti f r w rest) (hop : opCode w = 0x0A) :
    exec (.reelCommand g ti) s = .next (tileStep s g ti).1 :=
  congrArg Host.Outcome.next (nextOfKind_of_head hrun h (by simp [hop]))

theorem exec_atomicRequest (hrun : figuresRun s = true) (h : AtHead s g ti f r w rest) (hop : opCode w = 8) :
    exec (.atomicRequest g ti) s = .next (tileStep s g ti).1 :=
  congrArg Host.Outcome.next (nextOfKind_of_head hrun h (by simp [hop]))

end
end Sys2Proof.Machine
end

section
/-! A Reel command (R206 to R214, R218, R233). -/

namespace Sys2Proof.Machine

section
variable {s : State} {g : GroupIx} {ti : TileIx} {f : FigRun} {r : TileRun} {w : List Nat} {rest : List (List Nat)} {c : List Nat}

theorem tileStep_reel (h : AtHead s g ti f r w rest) (hgo : MayGo s f r w) (hop : opCode w = 0x0A) :
    tileStep s g ti = opDone g ti (issue s g ti (.reel (w.drop 1)) f) := by
  simp only [tileStep, h.fig, getD_tile h.tile, h.ops, hgo.fault, hgo.cycles, hgo.held, hgo.awaits, hop, Option.isSome_none,
    Bool.or_self, Bool.false_eq_true, if_false]

/-- Bytes of an element of a Reel command. -/
def reelWidth (c : List Nat) : Nat := (atomWidth (bits (ow c 0) 11 8)).getD 1

/-- Element `e` of a Reel command's destination, from the elements of its sources (R207, R208, R213). -/
def reelOutElem (c : List Nat) (elems : List (List Nat)) (e : Nat) : Nat :=
  if bits (ow c 0) 7 0 = 5 then chainElem (bits (ow c 0) 11 8) (elems.map fun l => l.getD e 0)
  else reelElem (bits (ow c 0) 7 0) (bits (ow c 0) 11 8) (bits (ow c 0) 15 13) (bit (ow c 0) 12) (bits (ow c 3) 31 0)
    (bits (ow c 3) 63 32) ((elems.getD 0 []).getD e 0) ((elems.getD 1 []).getD e 0)

theorem reelOutElem_of_chain (h : bits (ow c 0) 7 0 = 5) :
    reelOutElem c = fun elems e => chainElem (bits (ow c 0) 11 8) (elems.map fun l => l.getD e 0) := funext₂ fun _ _ => if_pos h

theorem reelOutElem_of_pair (h : bits (ow c 0) 7 0 ≠ 5) :
    reelOutElem c = fun elems e => reelElem (bits (ow c 0) 7 0) (bits (ow c 0) 11 8) (bits (ow c 0) 15 13) (bit (ow c 0) 12)
      (bits (ow c 3) 31 0) (bits (ow c 3) 63 32) ((elems.getD 0 []).getD e 0) ((elems.getD 1 []).getD e 0) := funext₂ fun _ _ => if_neg h

/-- The bytes that a Reel command computes from its sources. -/
def reelOut (c : List Nat) (srcs : List Bytes) : Bytes :=
  (((upto ((reelRanges c).2.2 / reelWidth c)).map (reelOutElem c (srcs.map fun b => (chunks (reelWidth c) b).map leNat))).map
    (leBytes (reelWidth c))).flatten

theorem length_reelOut (c : List Nat) (srcs : List Bytes) : (reelOut c srcs).length ≤ (reelRanges c).2.2 := by
  have hlen : (reelOut c srcs).length = (reelRanges c).2.2 / reelWidth c * reelWidth c := by
    simp [reelOut, List.length_flatten, Function.comp_def]
  rw [hlen]
  exact Nat.div_mul_le_self ..

/-- The sources of a Reel command as its unit reads them, with the state after. -/
def reelRead (s : State) (bad : Nat → Bool) (l : List (Nat × Nat)) : List Bytes × State :=
  l.foldl (fun acc x => (acc.1 ++ [(settle acc.2 bad x.1 (devRead acc.2 x.1 x.2)).1], (settle acc.2 bad x.1 (devRead acc.2 x.1 x.2)).2))
    ([], s)

theorem reelRead_of_defined {bad : Nat → Bool} {l : List (Nat × Nat)}
    (h : ∀ a ∈ l, ∀ key, some key ∈ rangeKeys a.1 a.2 → bad key = false) (s : State) :
    reelRead s bad l = (l.map fun a => devRead s a.1 a.2, s) := by
  have hfrom (got : List Bytes) : l.foldl (fun (acc : List Bytes × State) x =>
      (acc.1 ++ [(settle acc.2 bad x.1 (devRead acc.2 x.1 x.2)).1], (settle acc.2 bad x.1 (devRead acc.2 x.1 x.2)).2)) (got, s) =
        (got ++ l.map fun a => devRead s a.1 a.2, s) := by
    induction l generalizing got with
    | nil => simp
    | cons a l ih =>
      have hsettle := settle_of_defined (a := a.1) (bs := devRead s a.1 a.2) (bad := bad)
        (by rw [length_devRead]; exact h a List.mem_cons_self) s
      rw [List.foldl_cons, hsettle, ih fun b hb => h b (List.mem_cons_of_mem _ hb)]
      simp
  exact hfrom []

theorem poison_settle (s : State) (bad : Nat → Bool) (a : Nat) (bs : Bytes) : (settle s bad a bs).2.poison = s.poison := by
  unfold settle; dsimp only; split <;> rfl

theorem poison_reelRead (s : State) (bad : Nat → Bool) (l : List (Nat × Nat)) : (reelRead s bad l).2.poison = s.poison :=
  foldl_inv (fun x : List Bytes × State => x.2.poison = s.poison) (fun _ _ h => (poison_settle ..).trans h) _ rfl

/-- The words of a Reel command's destination for which a source word is poisoned (R218). -/
def reelBadWords (s : State) (c : List Nat) : List Nat :=
  (upto ((reelRanges c).2.2 / 32)).filter fun i => (reelRanges c).1.any fun x => poisoned s (x.1 + 32 * i) 32

theorem reelBadWords_of_poison {s s' : State} (h : s'.poison = s.poison) (c : List Nat) : reelBadWords s' c = reelBadWords s c := by
  simp only [reelBadWords, poisoned, h]

theorem reelApply_unitFailed (h : ∃ p ∈ reelPositions c, stackReels s (p / 32) = false) : reelApply s f ti c = (some .unitFailed, s) := by
  have hany : (reelPositions c).any (fun p => !stackReels s (p / 32)) = true := by simpa using h
  simp only [reelApply, hany, if_true]

/-- What a Reel command whose units work stores and answers. -/
theorem reelApply_eq (h : ∀ p ∈ reelPositions c, stackReels s (p / 32) = true) :
    reelApply s f ti c =
      let x := reelRead s (otherClash f ti accRead) (reelRanges c).1
      let y := settle x.2 (otherClash f ti accWrite) (reelRanges c).2.1 (reelOut c x.1)
      (if (reelBadWords s c).isEmpty then none else some .dataLost,
        (reelBadWords s c).foldl (fun s i => markPoison s ((reelRanges c).2.1 + 32 * i) 32) (devWrite y.2 (reelRanges c).2.1 y.1)) := by
  have hany : (reelPositions c).any (fun p => !stackReels s (p / 32)) = false := by simpa using h
  rw [← reelBadWords_of_poison (poison_reelRead s (otherClash f ti accRead) (reelRanges c).1) c]
  by_cases hchain : bits (ow c 0) 7 0 = 5
  · simp only [reelApply, hany, Bool.false_eq_true, if_false, hchain, beq_self_eq_true, if_true, reelOut,
      reelOutElem_of_chain hchain]
    rfl
  · simp only [reelApply, hany, Bool.false_eq_true, if_false, beq_iff_eq, hchain, reelOut,
      reelOutElem_of_pair hchain]
    rfl

theorem reelBadWords_of_clean (h : ∀ a ∈ (reelRanges c).1, poisoned s a.1 a.2 = false) : reelBadWords s c = [] := by
  have hlen : ∀ a ∈ (reelRanges c).1, a.2 = (reelRanges c).2.2 := by
    intro a ha
    simp only [reelRanges, List.mem_append, List.mem_map] at ha
    rcases ha with ⟨p, -, rfl⟩ | ha
    · rfl
    · split at ha
      · obtain ⟨p, -, rfl⟩ := List.mem_map.mp ha
        rfl
      · cases ha
  rw [reelBadWords, List.filter_eq_nil_iff]
  intro i hi
  have hi : i < (reelRanges c).2.2 / 32 := List.mem_range.mp hi
  rw [Bool.not_eq_true, List.any_eq_false]
  intro a ha
  rw [Bool.not_eq_true]
  have hlen := hlen a ha
  exact not_poisoned_part (h a ha) (by omega) (by omega)

/-- A Reel command whose accesses no other tile leaves undefined stores what it computes. -/
theorem reelApply_ok (hunits : ∀ p ∈ reelPositions c, stackReels s (p / 32) = true)
    (hclean : ∀ a ∈ (reelRanges c).1, poisoned s a.1 a.2 = false)
    (hreads : ∀ a ∈ (reelRanges c).1, ∀ key, some key ∈ rangeKeys a.1 a.2 → otherClash f ti accRead key = false)
    (hwrite : ∀ key, some key ∈ rangeKeys (reelRanges c).2.1 (reelRanges c).2.2 → otherClash f ti accWrite key = false) :
    reelApply s f ti c =
      (none, devWrite s (reelRanges c).2.1 (reelOut c ((reelRanges c).1.map fun a => devRead s a.1 a.2))) := by
  have hsettle := settle_of_defined (a := (reelRanges c).2.1) (bs := reelOut c ((reelRanges c).1.map fun a => devRead s a.1 a.2))
    (bad := otherClash f ti accWrite)
    (fun key hkey => hwrite key (rangeKeys_subset le_rfl (Nat.add_le_add_left (length_reelOut ..) _) hkey)) s
  simp only [reelApply_eq hunits, reelRead_of_defined hreads, hsettle, reelBadWords_of_clean hclean, List.isEmpty_nil, if_true,
    List.foldl_nil]

theorem reelApply_poisoned (hunits : ∀ p ∈ reelPositions c, stackReels s (p / 32) = true) {i : Nat} {a : Nat × Nat}
    (hi : i < (reelRanges c).2.2 / 32) (ha : a ∈ (reelRanges c).1) (hbad : poisoned s (a.1 + 32 * i) 32 = true) :
    (reelApply s f ti c).1 = some .dataLost := by
  have hmem : i ∈ reelBadWords s c := List.mem_filter.mpr ⟨List.mem_range.mpr hi, List.any_eq_true.mpr ⟨a, ha, hbad⟩⟩
  rw [reelApply_eq hunits]
  exact if_neg (by simpa using List.ne_nil_of_mem hmem)

/-! The command at the head of a tile's stream -/

theorem arrive_reel (hf : figOf s g = some f) : arrive s g ti (.reel c) = reelApply s f ti c := by simp only [arrive, hf]

theorem mem_reqAccesses_reel {x : Nat × Nat × Nat} (hx : x ∈ reqAccesses (.reel c)) :
    (x.2.1, x.2.2) ∈ (reelRanges c).1 ++ [(reelRanges c).2] := by
  simp only [reqAccesses, List.mem_append, List.mem_map, List.mem_singleton] at hx ⊢
  rcases hx with ⟨a, ha, rfl⟩ | rfl
  · exact .inl ha
  · exact .inr rfl

theorem findSome_reqAccesses_reel (p : Nat → Nat → Option Status) :
    (reqAccesses (.reel c)).findSome? (fun x => p x.2.1 x.2.2) =
      ((reelRanges c).1 ++ [(reelRanges c).2]).findSome? fun a => p a.1 a.2 := by
  simp only [reqAccesses, List.findSome?_append, List.findSome?_map]
  rfl

theorem figOf_of_figs {s' : State} (h : s'.figs = s.figs) (g : Nat) : figOf s' g = figOf s g := by rw [figOf, h, figOf]

section
variable (h : AtHead s g ti f r w rest) (hgo : MayGo s f r w) (hop : opCode w = 0x0A)
include h hgo hop

/-- A Reel command one of whose ranges fails its check ends the figure (R203). -/
theorem reel_refused {st : Status}
    (hst : ((reelRanges (w.drop 1)).1 ++ [(reelRanges (w.drop 1)).2]).findSome? (fun a => accessCheck s f.tarn a.1 a.2) = some st) :
    (tileStep s g ti).1 = figFault s g st := by
  rw [tileStep_reel h hgo hop, issue_refused ((findSome_reqAccesses_reel _).trans hst), opDone_fault]

variable (hcheck : ∀ a ∈ (reelRanges (w.drop 1)).1 ++ [(reelRanges (w.drop 1)).2], accessCheck s f.tarn a.1 a.2 = none)
  (horder : ∀ y ∈ reqAccesses (.reel (w.drop 1)), unordered f ti y = false)
include hcheck horder

/-- A Reel command that its units fail ends the figure. -/
theorem reel_fails {s' : State} {st : Status} (happly : reelApply s f ti (w.drop 1) = (some st, s')) :
    (tileStep s g ti).1 = figFault s' g st := by
  rw [tileStep_reel h hgo hop, issue_fails h.fig (fun x hx => hcheck _ (mem_reqAccesses_reel hx)) horder ((arrive_reel h.fig).trans happly),
    opDone_fault]

theorem reel_ends {s' : State} (hfigs : s'.figs = s.figs) (happly : reelApply s f ti (w.drop 1) = (none, s')) :
    ∃ f', figOf (tileStep s g ti).1 g = some f' ∧ f'.fault = none ∧ (tileStep s g ti).1.mem = s'.mem := by
  have hf : figOf s' g = some f := (figOf_of_figs hfigs g).trans h.fig
  rw [tileStep_reel h hgo hop, issue_arrives h.fig (fun x hx => hcheck _ (mem_reqAccesses_reel hx)) horder ((arrive_reel h.fig).trans happly),
    opDone_ok, noteAll_eq hf]
  exact ⟨_, figOf_modTile (figOf_modFig_of_some hf _) _, hgo.fault, rfl⟩

end
end
end Sys2Proof.Machine
end

section
/-! An ATOMIC's requests, one after another (R218, R220, R221), and the statement about Reel commands and ATOMICs. -/

namespace Sys2Proof.Machine

section
variable {s : State} {g : GroupIx} {ti : TileIx} {f : FigRun} {r : TileRun} {w : List Nat} {rest : List (List Nat)}

/-- The kind of access of an atomic request. -/
def atomKind (ty : Nat) : Nat := if atomFloat ty then accFloat else accRing

theorem reqAccesses_atomic (ty a : Nat) (y : Bytes) : reqAccesses (.atomic ty a y) = [(atomKind ty, a, y.length)] := rfl

/-- A state with an atomic request's elements added to memory. -/
def atomAdded (ty : Nat) (s : State) (a : Nat) (y : Bytes) : State :=
  devWrite s a (atomBytes ty ((atomWidth ty).getD 1) (devRead s a y.length) y)

/-- A state with the bytes of a range written back as they are. -/
def writtenBack (s : State) (a len : Nat) : State := devWrite s a (devRead s a len)

theorem atomicApply_clean {ty a : Nat} {y : Bytes} (hunits : ∀ u ∈ rangeUnits a y.length, stackReels s (u / 32) = true)
    (hclean : poisoned s a y.length = false) : atomicApply s ty a y = (none, atomAdded ty s a y) := by
  have hany : (rangeUnits a y.length).any (fun u => !stackReels s (u / 32)) = false := by simpa using hunits
  simp only [atomicApply, hany, hclean, Bool.false_eq_true, if_false, atomAdded]

theorem atomicApply_poisoned {ty a : Nat} {y : Bytes} (hunits : ∀ u ∈ rangeUnits a y.length, stackReels s (u / 32) = true)
    (hbad : poisoned s a y.length = true) : (atomicApply s ty a y).1 = some .dataLost := by
  have hany : (rangeUnits a y.length).any (fun u => !stackReels s (u / 32)) = false := by simpa using hunits
  simp only [atomicApply, hany, hbad, Bool.false_eq_true, if_false, if_true]

theorem arrive_atomic (hf : figOf s g = some f) {ty a : Nat} {y : Bytes} (hunits : ∀ u ∈ rangeUnits a y.length, stackReels s (u / 32) = true)
    (hclean : poisoned s a y.length = false) (hquiet : ∀ key, some key ∈ rangeKeys a y.length → otherClash f ti (atomKind ty) key = false) :
    arrive s g ti (.atomic ty a y) = (none, writtenBack (atomAdded ty s a y) a y.length) := by
  have hsettle := settle_of_defined (a := a) (bs := devRead (atomAdded ty s a y) a y.length) (bad := otherClash f ti (atomKind ty))
    (by rwa [length_devRead]) (atomAdded ty s a y)
  rw [atomKind] at hsettle
  simp only [arrive, hf, atomicApply_clean hunits hclean, hsettle, writtenBack]

theorem arrive_atomic_fails (hf : figOf s g = some f) {ty a : Nat} {y : Bytes} {st : Status} (h : (atomicApply s ty a y).1 = some st) :
    arrive s g ti (.atomic ty a y) = (some st, (atomicApply s ty a y).2) := by
  have happly : atomicApply s ty a y = (some st, (atomicApply s ty a y).2) := Prod.ext h rfl
  simp only [arrive, hf]
  rw [happly]

/-- One request of an ATOMIC at address `a`. -/
def atomicStep (g ti : Nat) (f : FigRun) (ty a : Nat) (s : State) (x : Bytes × Nat) : Option Status × State :=
  issue s g ti (.atomic ty (a + 64 * x.2) x.1) f

/-- The element type of an ATOMIC. -/
def atomType (w : List Nat) : Nat := bits (ow w 0) 19 16
/-- The address of an ATOMIC. -/
def atomAddr (f : FigRun) (w : List Nat) : Nat := (resolveAddr f.args (ow w 1)).getD 0
/-- The requests of an ATOMIC, of 64 bytes at most, with their numbers (log 71). -/
def atomReqs (z : Scr) (w : List Nat) : List (Bytes × Nat) := (chunks 64 (scrBytes z (bits (ow w 2) 21 0) (bits (ow w 2) 63 32))).zipIdx

/-- A request of an ATOMIC passes its check, finds its Reel units working and has an order, and no other tile's access leaves a byte of
it undefined. -/
def AtomReady (s : State) (f : FigRun) (ti : Nat) (ty a : Nat) (y : Bytes × Nat) : Prop :=
  accessCheck s f.tarn (a + 64 * y.2) y.1.length = none ∧
  (∀ u ∈ rangeUnits (a + 64 * y.2) y.1.length, stackReels s (u / 32) = true) ∧
  unordered f ti (atomKind ty, a + 64 * y.2, y.1.length) = false ∧
  ∀ key, some key ∈ rangeKeys (a + 64 * y.2) y.1.length → otherClash f ti (atomKind ty) key = false

theorem tileStep_atomic (h : AtHead s g ti f r w rest) (hgo : MayGo s f r w) (hop : opCode w = 8) :
    tileStep s g ti = opDone g ti (untilFault (atomicStep g ti f (atomType w) (atomAddr f w)) (atomReqs (scrOf f ti r) w) s) := by
  simp only [tileStep, h.fig, getD_tile h.tile, h.ops, hgo.fault, hgo.cycles, hgo.held, hgo.awaits, hop, Option.isSome_none,
    Bool.or_self, Bool.false_eq_true, if_false]
  rfl

/-! Requests in order -/

/-- Memory after requests that each read, added and wrote back. -/
def atomsDone (ty a : Nat) (s : State) (l : List (Bytes × Nat)) : State :=
  l.foldl (fun m y => writtenBack (atomAdded ty m (a + 64 * y.2) y.1) (a + 64 * y.2) y.1.length) s

/-- Writing back changes no byte, so the requests leave the bytes that the additions alone leave. -/
theorem mem_atomsDone (ty a : Nat) (l : List (Bytes × Nat)) (h : memWf s.mem = true) :
    (atomsDone ty a s l).mem = (l.foldl (fun m y => atomAdded ty m (a + 64 * y.2) y.1) s).mem := by
  have hsame (m m' : State) (hwf : memWf m'.mem = true) (e : m.mem = m'.mem) :
      (atomsDone ty a m l).mem = (l.foldl (fun m y => atomAdded ty m (a + 64 * y.2) y.1) m').mem := by
    induction l generalizing m m' with
    | nil => exact e
    | cons y l ih =>
      have hadd : (atomAdded ty m (a + 64 * y.2) y.1).mem = (atomAdded ty m' (a + 64 * y.2) y.1).mem := by
        simp only [atomAdded, devWrite, devRead, e]
      have hwf' : memWf (atomAdded ty m' (a + 64 * y.2) y.1).mem = true := memWf_devWrite _ _ _ hwf
      exact ih _ _ hwf' ((mem_devWrite_devRead (hadd ▸ hwf') ..).trans hadd)
  exact hsame s s h rfl

/-- The accesses of an ATOMIC's requests. -/
def atomAccs (ty a : Nat) (l : List (Bytes × Nat)) : List (Nat × Nat × Nat) := l.map fun y => (atomKind ty, a + 64 * y.2, y.1.length)

/-- The state after some requests of an ATOMIC. -/
def atomsAfter (s : State) (g ti : Nat) (f : FigRun) (ty a : Nat) (l : List (Bytes × Nat)) : State :=
  modFig (atomsDone ty a s l) g fun _ => withNotes (accNotes ti (atomAccs ty a l)) f

theorem atomsAfter_nil (hf : figOf s g = some f) (ty a : Nat) : atomsAfter s g ti f ty a [] = s :=
  modFig_of_fixed hf (by simp [withNotes, accNotes, atomAccs])

section
variable (ty a : Nat) (l : List (Bytes × Nat))

/-- The requests write memory, and keep what every write keeps. -/
theorem atomsDone_inv (p : State → Prop) (hp : ∀ m b bs, p m → p (devWrite m b bs)) (h : p s) : p (atomsDone ty a s l) :=
  foldl_inv p (fun m _ hm => hp _ _ _ (hp m _ _ hm)) l h

theorem figs_atomsDone : (atomsDone ty a s l).figs = s.figs :=
  atomsDone_inv ty a l (fun m => m.figs = s.figs) (fun _ _ _ h => (figs_devWrite ..).trans h) rfl

theorem figOf_atomsAfter (hf : figOf s g = some f) :
    figOf (atomsAfter s g ti f ty a l) g = some (withNotes (accNotes ti (atomAccs ty a l)) f) := by
  exact figOf_modFig_of_some ((figOf_of_figs (figs_atomsDone ty a l) g).trans hf) _

theorem accessCheck_atomsAfter (t : TarnIx) (b len : Nat) : accessCheck (atomsAfter s g ti f ty a l) t b len = accessCheck s t b len :=
  atomsDone_inv ty a l (fun m => accessCheck m t b len = accessCheck s t b len) (fun _ _ _ h => (accessCheck_devWrite ..).trans h) rfl

theorem stackReels_atomsAfter (st : Nat) : stackReels (atomsAfter s g ti f ty a l) st = stackReels s st :=
  atomsDone_inv ty a l (fun m => stackReels m st = stackReels s st) (fun _ _ _ h => h) rfl

theorem not_poisoned_atomsAfter {b len : Nat} (h : poisoned s b len = false) : poisoned (atomsAfter s g ti f ty a l) b len = false :=
  atomsDone_inv ty a l (fun m => poisoned m b len = false) (fun _ _ _ h => not_poisoned_devWrite h ..) h

theorem atomsAfter_snoc (hf : figOf s g = some f) (x : Bytes × Nat) :
    noteAll (writtenBack (atomAdded ty (atomsAfter s g ti f ty a l) (a + 64 * x.2) x.1) (a + 64 * x.2) x.1.length) g ti
        [(atomKind ty, a + 64 * x.2, x.1.length)] = atomsAfter s g ti f ty a (l ++ [x]) := by
  have hwrite : writtenBack (atomAdded ty (atomsAfter s g ti f ty a l) (a + 64 * x.2) x.1) (a + 64 * x.2) x.1.length =
      modFig (atomsDone ty a s (l ++ [x])) g fun _ => withNotes (accNotes ti (atomAccs ty a l)) f := by
    rw [atomsDone, List.foldl_append]
    rfl
  have hfig : figOf (modFig (atomsDone ty a s (l ++ [x])) g fun _ => withNotes (accNotes ti (atomAccs ty a l)) f) g = some _ :=
    figOf_modFig_of_some ((figOf_of_figs (figs_atomsDone ..) g).trans hf) _
  rw [hwrite, noteAll_eq hfig, modFig_modFig, atomsAfter]
  congr 1
  funext _
  simp [withNotes, accNotes, atomAccs]

end

/-! What the accesses that a tile has noted itself change for its next one -/

theorem sameForOthers_withNotes (ti : Nat) (accs : List (Nat × Nat × Nat)) (f : FigRun) : SameForOthers ti f (withNotes (accNotes ti accs) f) where
  args := rfl
  streams := rfl
  accs := by simp +contextual [withNotes, accNotes, List.filter_append]

theorem unordered_withNotes {accs : List (Nat × Nat × Nat)} {x : Nat × Nat × Nat} (horder : unordered f ti x = false)
    (hapart : ∀ y ∈ accs, sharesByte x.2.1 x.2.2 y.2.1 y.2.2 = false) : unordered (withNotes (accNotes ti accs) f) ti x = false := by
  simp only [unordered, Bool.or_eq_false_iff] at horder ⊢
  obtain ⟨⟨⟨haccs, hlater⟩, hself⟩, hothers⟩ := horder
  refine ⟨⟨⟨?_, hlater⟩, hself⟩, hothers⟩
  simp only [withNotes, List.any_append, haccs, Bool.false_or]
  rw [List.any_eq_false]
  intro z hz
  obtain ⟨y, hy, rfl⟩ := List.mem_map.mp hz
  simp [hapart y hy]

/-- Numbers of a numbered list do not repeat. -/
theorem zipIdx_apart {α : Type} {l : List α} {pre suf : List (α × Nat)} {x y : α × Nat} (h : l.zipIdx = pre ++ x :: suf) (hy : y ∈ pre) :
    x.2 ≠ y.2 := by
  have hnodup : (l.zipIdx.map Prod.snd).Nodup := by rw [List.zipIdx_map_snd]; exact List.nodup_range'
  rw [h, List.map_append, List.map_cons] at hnodup
  exact fun e => (List.disjoint_of_nodup_append hnodup) (List.mem_map_of_mem hy) (e ▸ List.mem_cons_self)

section
variable (h : AtHead s g ti f r w rest) (hgo : MayGo s f r w) (hop : opCode w = 8)
include h hgo hop

theorem atomic_refused {y : Bytes × Nat} {l : List (Bytes × Nat)} {st : Status} (hreqs : atomReqs (scrOf f ti r) w = y :: l)
    (hst : accessCheck s f.tarn (atomAddr f w + 64 * y.2) y.1.length = some st) : (tileStep s g ti).1 = figFault s g st := by
  have hfirst : (reqAccesses (.atomic (atomType w) (atomAddr f w + 64 * y.2) y.1)).findSome?
      (fun x => accessCheck s f.tarn x.2.1 x.2.2) = some st := by simp [reqAccesses_atomic, hst]
  rw [tileStep_atomic h hgo hop, hreqs, untilFault_of_fault (issue_refused hfirst), opDone_fault]

/-- An ATOMIC whose first request meets poison ends the figure, whose slot is as it was until then. -/
theorem atomic_poisoned {y : Bytes × Nat} {l : List (Bytes × Nat)} (hreqs : atomReqs (scrOf f ti r) w = y :: l)
    (hready : AtomReady s f ti (atomType w) (atomAddr f w) y) (hbad : poisoned s (atomAddr f w + 64 * y.2) y.1.length = true) :
    ∃ s', (tileStep s g ti).1 = figFault s' g .dataLost ∧ s'.figs = s.figs := by
  obtain ⟨hcheck, hunits, horder, -⟩ := hready
  have hissue := issue_fails (g := g) (ti := ti) (q := .atomic (atomType w) (atomAddr f w + 64 * y.2) y.1) (f₀ := f) h.fig
    (by simpa [reqAccesses_atomic] using hcheck) (by simpa [reqAccesses_atomic] using horder)
    (arrive_atomic_fails h.fig (atomicApply_poisoned hunits hbad))
  refine ⟨_, ?_, figs_atomicApply s (atomType w) (atomAddr f w + 64 * y.2) y.1⟩
  rw [tileStep_atomic h hgo hop, hreqs, untilFault_of_fault hissue, opDone_fault]

/-- An ATOMIC whose requests pass their checks and share no byte applies them one after another. -/
theorem tileStep_atomic_ok (hapart : ∀ y ∈ atomReqs (scrOf f ti r) w, ∀ z ∈ atomReqs (scrOf f ti r) w, y.2 ≠ z.2 →
      sharesByte (atomAddr f w + 64 * y.2) y.1.length (atomAddr f w + 64 * z.2) z.1.length = false)
    (hready : ∀ y ∈ atomReqs (scrOf f ti r) w, AtomReady s f ti (atomType w) (atomAddr f w) y)
    (hclean : ∀ y ∈ atomReqs (scrOf f ti r) w, poisoned s (atomAddr f w + 64 * y.2) y.1.length = false) :
    (tileStep s g ti).1 = modTile (atomsAfter s g ti f (atomType w) (atomAddr f w) (atomReqs (scrOf f ti r) w)) g ti
      fun r => { r with ops := r.ops.drop 1 } := by
  have hrun := untilFault_of_ok (step := atomicStep g ti f (atomType w) (atomAddr f w)) (l := atomReqs (scrOf f ti r) w)
    (atomsAfter s g ti f (atomType w) (atomAddr f w)) fun pre x suf e => by
      have hx : x ∈ atomReqs (scrOf f ti r) w := by rw [e]; simp
      obtain ⟨hcheck, hunits, horder, hquiet⟩ := hready x hx
      have hfig := figOf_atomsAfter (ti := ti) (atomType w) (atomAddr f w) pre h.fig
      have hown : ∀ y ∈ atomAccs (atomType w) (atomAddr f w) pre,
          sharesByte (atomAddr f w + 64 * x.2) x.1.length y.2.1 y.2.2 = false := by
        intro z hz
        obtain ⟨y, hy, rfl⟩ := List.mem_map.mp hz
        exact hapart x hx y (by rw [e]; simp [hy]) (zipIdx_apart e hy)
      have harrive := arrive_atomic (ti := ti) hfig (ty := atomType w) (a := atomAddr f w + 64 * x.2) (y := x.1)
        (fun u hu => (stackReels_atomsAfter ..).trans (hunits u hu)) (not_poisoned_atomsAfter _ _ _ (hclean x hx))
        (fun key hkey => (otherClash_of_sameForOthers (sameForOthers_withNotes ..) ..).trans (hquiet key hkey))
      have hissue := issue_arrives hfig (q := .atomic (atomType w) (atomAddr f w + 64 * x.2) x.1) (f₀ := f)
        (by simpa [reqAccesses_atomic, accessCheck_atomsAfter] using hcheck)
        (by simpa [reqAccesses_atomic] using unordered_withNotes horder hown) harrive
      exact hissue.trans (congrArg _ (atomsAfter_snoc _ _ _ h.fig x))
  rw [atomsAfter_nil h.fig] at hrun
  rw [tileStep_atomic h hgo hop, hrun, opDone_ok]

end
end

theorem zipIdx_of_head_zipIdx {α : Type} {l : List α} {y : α × Nat} (h : l.zipIdx.head? = some y) : ∃ l', l.zipIdx = y :: l' ∧ y.2 = 0 := by
  cases l with
  | nil => cases h
  | cons x l =>
    obtain rfl : (x, 0) = y := by simpa using h
    exact ⟨l.zipIdx 1, rfl, rfl⟩

end Sys2Proof.Machine

open Sys2Proof.Machine

/-- Settles O35: a request that passes its checks and has an order arrives at once, so a Reel command is its `reelApply`, and an
ATOMIC the requests of `tileStep_atomic_ok` one after another. -/
theorem reelAndAtomicRequestsUpdateMemory : Obligations.ReelAndAtomicRequestsUpdateMemory := by
  intro s g ti f r w rest ⟨_, hwf⟩ hrun hf hfault hcycles hr hops
  have hhead : AtHead s g ti f r w rest := ⟨hf, hr, hops⟩
  refine ⟨fun hwaits => ?_, fun hheld hawaits => ⟨fun hop => ?_, fun hop => ?_⟩⟩
  · have hstep := tileStep_waits hhead (by rcases hwaits with h | h <;> simp [h])
    exact ⟨fun hop => by rw [exec_reelCommand hrun hhead hop, hstep], fun hop => by rw [exec_atomicRequest hrun hhead hop, hstep]⟩
  · have hgo : MayGo s f r w := ⟨hfault, hcycles, hheld, hawaits⟩
    intro c x op ty ew elems out clear
    rw [exec_reelCommand hrun hhead hop]
    refine ⟨fun st hst => ?_, fun _ hcheck horder => ⟨fun hunit => ?_, fun hunits => ⟨fun hclean hclear => ?_, fun i a hi ha hbad => ?_⟩⟩⟩
    · obtain ⟨f', hend⟩ := figFault_ends hf hfault st
      exact ⟨_, f', rfl, by rwa [reel_refused hhead hgo hop hst]⟩
    · obtain ⟨f', hend⟩ := figFault_ends hf hfault .unitFailed
      exact ⟨_, f', rfl, by rwa [reel_fails hhead hgo hop hcheck horder (reelApply_unitFailed hunit)]⟩
    · obtain ⟨hreads, hwrite⟩ := hclear
      obtain ⟨f', hfig, hnone, hmem⟩ :=
        reel_ends hhead hgo hop hcheck horder (figs_devWrite ..) (reelApply_ok hunits hclean hreads hwrite)
      have helems : (x.1.map fun a => devRead s a.1 a.2).map (fun b => (chunks ew b).map leNat) = elems := List.map_map ..
      have hout : reelOut c (x.1.map fun a => devRead s a.1 a.2) = (out.map (leBytes ew)).flatten :=
        congrArg (fun l => (((upto (x.2.2 / ew)).map (reelOutElem c l)).map (leBytes ew)).flatten) helems
      exact ⟨_, f', rfl, hfig, hnone, by rw [hmem, hout]⟩
    · have happly : reelApply s f ti c = (some .dataLost, (reelApply s f ti c).2) := Prod.ext (reelApply_poisoned hunits hi ha hbad) rfl
      have hfig : figOf (reelApply s f ti c).2 g = some f := (figOf_of_figs (figs_reelApply ..) g).trans hf
      obtain ⟨f', hend, hst, -⟩ := figFault_ends hfig hfault .dataLost
      exact ⟨_, f', rfl, by rwa [reel_fails hhead hgo hop hcheck horder happly], hst⟩
  · have hgo : MayGo s f r w := ⟨hfault, hcycles, hheld, hawaits⟩
    intro ty ew kind a reqs
    rw [exec_atomicRequest hrun hhead hop]
    refine ⟨fun y st hy hst => ?_, fun _ hapart hready => ⟨fun hclean => ?_, fun y hy hbad => ?_⟩⟩
    · obtain ⟨l, hl, hzero⟩ := zipIdx_of_head_zipIdx hy
      obtain ⟨f', hend⟩ := figFault_ends hf hfault st
      exact ⟨_, f', rfl, by rwa [atomic_refused hhead hgo hop hl (by rwa [hzero])]⟩
    · rw [tileStep_atomic_ok hhead hgo hop hapart hready hclean]
      refine ⟨_, _, _, rfl, figOf_modTile (figOf_atomsAfter _ _ _ hf) _, hfault, tiles_withTile hr _, ?_, mem_atomsDone _ _ _ hwf⟩
      rw [hops]; rfl
    · obtain ⟨l, hl, hzero⟩ := zipIdx_of_head_zipIdx hy
      obtain ⟨s', hstep, hfigs⟩ := atomic_poisoned hhead hgo hop hl (hready y (List.mem_of_mem_head? hy)) (by rwa [hzero])
      obtain ⟨f', hend, hst, -⟩ := figFault_ends ((figOf_of_figs hfigs g).trans hf) hfault .dataLost
      exact ⟨_, f', rfl, by rwa [hstep], hst⟩
end

section
/-! What a link has received under sending and under the header of a flit (R342 to R351). -/

namespace Sys2Proof.Machine

/-- What reception goes by on a link: its state and mode, the SEQ expected, and the messages that have come, whole or in part. -/
def received (l : Link) : LinkState × LinkMode × Nat × List InMsg × List InMsg := (l.state, l.mode, l.expSeq, l.partials, l.inbox)

section
variable {s : State} {n : LinkIx}

theorem received_modLink {g : Link → Link} (h : received (g (linkOf s n)) = received (linkOf s n)) (m : LinkIx) :
    received (linkOf (modLink s n g) m) = received (linkOf s m) := by
  simp only [linkOf, modLink, getD_modify] at h ⊢
  split
  next hm =>
    obtain ⟨hm, -⟩ := hm
    rwa [hm] at h
  · rfl

theorem received_replaceKeys (s : State) (n m : LinkIx) : received (linkOf (replaceKeys s n) m) = received (linkOf s m) := by
  unfold replaceKeys
  dsimp only
  split
  · exact received_modLink (n := n) (by rfl) m
  · rfl

/-- A flit that comes in replaces the link's keys where that is due, and then changes what reception does not go by. -/
theorem flitIn_inv (p : State → Prop) (hkeys : p (replaceKeys s n))
    (hmod : ∀ (s : State) (g : Link → Link), (∀ l, received (g l) = received l) → p s → p (modLink s n g)) (flit : Bytes) :
    p (flitIn s n flit).2 := by
  have hite {c : Prop} [Decidable c] {x y : Bool × State} (hx : p x.2) (hy : p y.2) : p (if c then x else y).2 := by split <;> assumption
  have hctr := hmod _ (fun l => { l with rx := { l.rx with ctr := l.rx.ctr + 1 } }) (fun _ => rfl) hkeys
  have hheader (s : State) (h : p s) := hmod s (fun l => headerIn l flit) (fun _ => rfl) h
  have hfails := hmod _ (fun l => { l with tagFails := l.tagFails + 1 }) (fun _ => rfl) hctr
  unfold flitIn
  refine hite hkeys (hite (hite hctr (hite ?_ (hite ?_ (hite (hheader _ hctr) hfails)))) (hite (hheader _ hkeys) hkeys))
  · dsimp only
    split
    · exact hheader _ hctr
    · exact hctr
  · dsimp only
    split
    · exact hheader _ hctr
    · exact hctr

theorem received_flitIn (s : State) (n : LinkIx) (flit : Bytes) (m : LinkIx) :
    received (linkOf (flitIn s n flit).2 m) = received (linkOf s m) :=
  flitIn_inv (fun s' => received (linkOf s' m) = received (linkOf s m)) (received_replaceKeys s n m)
    (fun _ _ hg h => (received_modLink (hg _) m).trans h) flit

theorem received_closeFlit (l : Link) (hb : Bytes) : received (closeFlit l hb).2 = received l := by
  unfold closeFlit
  split <;> rfl

theorem received_emit (s : State) (o : Output) (m : LinkIx) : received (linkOf (emit s o) m) = received (linkOf s m) := rfl

theorem received_sendFlit (s : State) (n : LinkIx) (kind vc : Nat) (last : Bool) (seq : Nat) (body : Bytes) (m : LinkIx) :
    received (linkOf (sendFlit s n kind vc last seq body) m) = received (linkOf s m) := by
  unfold sendFlit
  dsimp only
  split
  · exact received_replaceKeys s n m
  · rw [received_emit, received_modLink (received_closeFlit ..), received_replaceKeys]

theorem received_of_sendOne {s' : State} (e : sendOne s n = some s') (m : LinkIx) : received (linkOf s' m) = received (linkOf s m) := by
  simp only [sendOne] at e
  split at e
  · cases e
  split at e
  · cases e
  split at e
  · cases e
    exact received_modLink (by rfl) m
  · cases e
    exact (received_sendFlit ..).trans (received_modLink (by rfl) m)

theorem received_linkPumpAux (fuel : Nat) (s : State) (n m : LinkIx) : received (linkOf (linkPumpAux n fuel s) m) = received (linkOf s m) := by
  induction fuel generalizing s with
  | zero => rfl
  | succ fuel ih =>
    rw [linkPumpAux]
    split
    · rfl
    next s' e => exact (ih s').trans (received_of_sendOne e m)

theorem received_linkPump (s : State) (n m : LinkIx) : received (linkOf (linkPump s n) m) = received (linkOf s m) :=
  received_linkPumpAux ..

theorem received_sendMessage (s : State) (n : LinkIx) (vc rank : Nat) (msg : Bytes) (m : LinkIx) :
    received (linkOf (sendMessage s n vc rank msg) m) = received (linkOf s m) :=
  (received_linkPump ..).trans (received_modLink (by rfl) m)

theorem received_respond (s : State) (n : LinkIx) (h : MsgHeader) (op : Nat) (st : Status) (data : Bytes) (m : LinkIx) :
    received (linkOf (respond s n h op st data) m) = received (linkOf s m) := received_sendMessage ..

theorem inbox_of_received {l l' : Link} (h : received l = received l') : l.inbox = l'.inbox := by
  simp only [received, Prod.mk.injEq] at h
  obtain ⟨-, -, -, -, h⟩ := h
  exact h

theorem mem_sendMessage (s : State) (n : LinkIx) (vc rank : Nat) (msg : Bytes) : (sendMessage s n vc rank msg).mem = s.mem :=
  (congrArg State.mem (agree_le_iff.mp (agree_sendMessage (rest := sentRest) (fun _ _ => rfl) (fun _ _ => rfl) (fun _ _ => rfl)
    le_rfl n vc rank msg)).symm :)

theorem mem_respond (s : State) (n : LinkIx) (h : MsgHeader) (op : Nat) (st : Status) (data : Bytes) :
    (respond s n h op st data).mem = s.mem := mem_sendMessage ..

end
end Sys2Proof.Machine
end

section
/-! A whole message in one DATA flit (R345, R349, R351). -/

namespace Sys2Proof.Machine

section
variable {s : State} {n : LinkIx} {flit : Bytes}

/-- A flit that is taken came on a FABRIC or EDGE link that is not DOWN. -/
theorem state_of_flitIn (h : (flitIn s n flit).1 = true) : (linkOf s n).state ≠ .down := by
  have hreceived := received_replaceKeys s n n
  simp only [received, Prod.mk.injEq] at hreceived
  obtain ⟨hstate, -⟩ := hreceived
  intro hdown
  unfold flitIn at h
  dsimp only at h
  rw [if_pos (by simp [hstate, hdown])] at h
  cases h

theorem links_flitIn (s : State) (n : LinkIx) (flit : Bytes) : (flitIn s n flit).2.links.length = s.links.length := by
  have hmod (s : State) (g : Link → Link) : (modLink s n g).links.length = s.links.length := List.length_modify ..
  have hkeys : (replaceKeys s n).links.length = s.links.length := by
    unfold replaceKeys
    dsimp only
    split
    · exact hmod ..
    · rfl
  exact flitIn_inv (fun s' => s'.links.length = s.links.length) hkeys (fun _ _ _ h => (hmod ..).trans h) flit

/-- The check of a request depends neither on links nor on the Tally. -/
theorem newMessage_flitRest (s : State) (n : LinkIx) (vc : Nat) (body : Bytes) : newMessage (flitRest s) n vc body = newMessage s n vc body :=
  rfl

theorem newMessage_flitIn (s : State) (n : LinkIx) (flit : Bytes) (vc : Nat) (body : Bytes) :
    newMessage (flitIn s n flit).2 n vc body = newMessage s n vc body := by
  rw [← newMessage_flitRest, flitRest_flitIn, newMessage_flitRest]

/-- A DATA flit that begins and ends a message of the REQUEST channel puts it among those received. -/
theorem inbox_acceptData (hlen : s.links.length = 12) (hvc : bits (leNat (flit.take 8)) 5 4 = 1) (hlast : bit (leNat (flit.take 8)) 6 = true)
    (hfirst : ((linkOf s n).partials.getD 1 { vc := 1, bytes := [] }).bytes = []) :
    (linkOf (acceptData s n flit) n).inbox =
      (linkOf s n).inbox ++ [newMessage s n 1 (slice flit 8 (bits (leNat (flit.take 8)) 55 48))] := by
  have hempty : ((linkOf s n).partials.getD 1 { vc := 1, bytes := [] }).bytes.isEmpty = true := by rw [hfirst]; rfl
  simp only [acceptData, hvc, hlast, hempty, if_true, Nat.reduceBEq, Bool.false_and, Bool.not_false, Bool.and_false, Bool.and_true,
    Bool.false_eq_true, if_false]
  split
  · exact (inbox_of_received (received_sendFlit ..)).trans (by rw [linkOf_modLink _ _ _ _ hlen, if_pos rfl])
  · rw [linkOf_modLink _ _ _ _ hlen, if_pos rfl]

/-- Once the flit has been taken, the message waits on its link. -/
theorem inbox_dataFlit (hlen : s.links.length = 12) (hvc : bits (leNat (flit.take 8)) 5 4 = 1) (hlast : bit (leNat (flit.take 8)) 6 = true)
    (hfirst : ((linkOf s n).partials.getD 1 { vc := 1, bytes := [] }).bytes = []) :
    (linkOf (linkPump (acceptData (flitIn s n flit).2 n flit) n) n).inbox =
      (linkOf s n).inbox ++ [newMessage s n 1 (slice flit 8 (bits (leNat (flit.take 8)) 55 48))] := by
  have hreceived := received_flitIn s n flit n
  have hpartials : (linkOf (flitIn s n flit).2 n).partials = (linkOf s n).partials := by
    simp only [received, Prod.mk.injEq] at hreceived
    obtain ⟨-, -, -, h, -⟩ := hreceived
    exact h
  rw [inbox_of_received (received_linkPump ..), inbox_acceptData ((links_flitIn ..).trans hlen) hvc hlast (by rwa [hpartials]),
    newMessage_flitIn, inbox_of_received hreceived]

/-- A DATA flit of the expected SEQ is taken, and what may be sent goes out. -/
theorem exec_dataFlit_taken (hrun : running s = true) (hmode : (linkOf s n).mode = .fabric ∨ (linkOf s n).mode = .edge)
    (hok : (flitIn s n flit).1 = true) (hkind : bits (leNat (flit.take 8)) 3 0 = 1)
    (hseq : bits (leNat (flit.take 8)) 19 8 = (linkOf s n).expSeq) :
    exec (.dataFlit n flit) s = .next (linkPump (acceptData (flitIn s n flit).2 n flit) n) := by
  have hreceived := received_flitIn s n flit n
  simp only [received, Prod.mk.injEq] at hreceived
  obtain ⟨-, -, hexp, -⟩ := hreceived
  have hserves : (running s && (linkOf s n).state != .down && ((linkOf s n).mode == .fabric || (linkOf s n).mode == .edge)) = true := by
    have := state_of_flitIn hok
    rcases hmode with h | h <;> simp [hrun, this, h]
  have hdata : ((flitIn s n flit).1 && bits (leNat (flit.take 8)) 3 0 != 1) = false := by simp [hkind]
  have htaken : ((flitIn s n flit).1 && bits (leNat (flit.take 8)) 19 8 == (linkOf (flitIn s n flit).2 n).expSeq) = true := by
    simp [hok, hexp, hseq]
  simp only [exec, execDataFlit, hserves, hdata, htaken, if_true, Bool.false_eq_true, if_false]

end
end Sys2Proof.Machine
end

section
/-! Requests of other devices at their destination (R236, R345), and messages that go on (R365, R366). -/

namespace Sys2Proof.Machine

section
variable {s : State} {n : LinkIx} {op : Nat} {m : InMsg}

/-- The command that performs the requests of an operation. -/
def ServesRequest (n : LinkIx) (c : Instr) (op : Nat) : Prop :=
  c = .remoteWrite n ∧ op = 1 ∨ c = .remoteAtomic n ∧ op = 2 ∨ c = .remoteRead n ∧ op = 3

theorem exec_remote (hrun : running s = true) {c : Instr} (hc : ServesRequest n c op) : exec c s = .next (remoteServe s n op) := by
  rcases hc with ⟨rfl, rfl⟩ | ⟨rfl, rfl⟩ | ⟨rfl, rfl⟩ <;> exact congrArg Host.Outcome.next (if_pos hrun)

theorem remoteServe_idle
    (h : ∀ m, firstOf (linkOf s n) 1 = some m → (msgOf m.bytes).dest ≠ s.timing.deviceNo.val ∨ (msgOf m.bytes).op ≠ op) :
    remoteServe s n op = s := by
  unfold remoteServe
  split
  · rfl
  next m hm =>
    dsimp only
    rw [if_pos]
    rcases h m hm with h | h <;> simp [h]

/-- Bytes of data that a request of an operation carries. -/
def requestLen (op : Nat) (h : MsgHeader) : Nat := if op = 3 then 0 else h.len

/-- A request of operation `op` for this device is at the head of the REQUEST channel. -/
structure Requested (s : State) (n : LinkIx) (op : Nat) (m : InMsg) : Prop where
  first : firstOf (linkOf s n) 1 = some m
  dest : (msgOf m.bytes).dest = s.timing.deviceNo.val
  code : (msgOf m.bytes).op = op

/-- Its check has let it pass, and its data have the length that it says. -/
structure Passed (s : State) (n : LinkIx) (op : Nat) (m : InMsg) : Prop extends Requested s n op m where
  verdict : m.verdict = none
  len : (m.bytes.drop 32).length = requestLen op (msgOf m.bytes)

theorem remoteServe_refuses (h : Requested s n op m) {st : Status}
    (hst : m.verdict = some st ∨ m.verdict = none ∧ (m.bytes.drop 32).length ≠ requestLen op (msgOf m.bytes) ∧ st = .badCommand) :
    remoteServe s n op = respond (popMessage s n 1) n (msgOf m.bytes) 6 st [] := by
  have hmine : ((msgOf m.bytes).op != op || (msgOf m.bytes).dest != s.timing.deviceNo.val) = false := by simp [h.code, h.dest]
  have hverdict : (if m.verdict.isNone && (m.bytes.drop 32).length != (if op == 3 then 0 else (msgOf m.bytes).len) then
      some Status.badCommand else m.verdict) = some st := by
    rcases hst with hst | ⟨hnone, hlen, rfl⟩
    · simp [hst]
    · rw [if_pos]
      simpa [hnone, requestLen] using hlen
  simp only [remoteServe, h.first, hmine, hverdict, Bool.false_eq_true, if_false]

/-! A request that has passed -/

theorem Passed.mine (h : Passed s n op m) : ((msgOf m.bytes).op != op || (msgOf m.bytes).dest != s.timing.deviceNo.val) = false := by
  simp [h.code, h.dest]

theorem Passed.accepted (h : Passed s n op m) :
    (if m.verdict.isNone && (m.bytes.drop 32).length != (if op == 3 then 0 else (msgOf m.bytes).len) then
      some Status.badCommand else m.verdict) = none := by
  rw [if_neg, h.verdict]
  simpa [h.verdict, requestLen] using h.len

theorem remoteServe_waits (h : Passed s n op m) (hheld : touchesHold s (msgOf m.bytes).addr (msgOf m.bytes).len = true) :
    remoteServe s n op = s := by
  simp only [remoteServe, h.first, h.mine, h.accepted, hheld, Bool.false_eq_true, if_false, if_true]

theorem remoteServe_write (h : Passed s n 1 m) (hheld : touchesHold s (msgOf m.bytes).addr (msgOf m.bytes).len = false) :
    remoteServe s n 1 =
      respond (devWrite (popMessage s n 1) (msgOf m.bytes).addr (m.bytes.drop 32)) n (msgOf m.bytes) 5 .ok [] := by
  simp only [remoteServe, h.first, h.mine, h.accepted, hheld, Bool.false_eq_true, if_false]
  rfl

/-- An ATOMIC is answered with DONE, or with what stopped it. -/
theorem remoteServe_atomic (h : Passed s n 2 m) (hheld : touchesHold s (msgOf m.bytes).addr (msgOf m.bytes).len = false) :
    remoteServe s n 2 =
      let x := atomicApply (popMessage s n 1) (msgOf m.bytes).ty (msgOf m.bytes).addr (m.bytes.drop 32)
      respond x.2 n (msgOf m.bytes) (if x.1.isNone then 5 else 6) (x.1.getD .ok) [] := by
  simp only [remoteServe, h.first, h.mine, h.accepted, hheld, Bool.false_eq_true, if_false]
  rcases atomicApply (popMessage s n 1) (msgOf m.bytes).ty (msgOf m.bytes).addr (m.bytes.drop 32) with ⟨_ | st, s'⟩ <;> rfl

theorem remoteServe_read (h : Passed s n 3 m) (hheld : touchesHold s (msgOf m.bytes).addr (msgOf m.bytes).len = false)
    (hclean : poisoned s (msgOf m.bytes).addr (msgOf m.bytes).len = false) :
    remoteServe s n 3 =
      respond (popMessage s n 1) n (msgOf m.bytes) 4 .ok (devRead s (msgOf m.bytes).addr (msgOf m.bytes).len) := by
  have hclean' : poisoned (popMessage s n 1) (msgOf m.bytes).addr (msgOf m.bytes).len = false := hclean
  simp only [remoteServe, h.first, h.mine, h.accepted, hheld, hclean', Bool.false_eq_true, if_false]
  rfl

theorem remoteServe_read_poisoned (h : Passed s n 3 m) (hheld : touchesHold s (msgOf m.bytes).addr (msgOf m.bytes).len = false)
    (hbad : poisoned s (msgOf m.bytes).addr (msgOf m.bytes).len = true) :
    remoteServe s n 3 = respond (popMessage s n 1) n (msgOf m.bytes) 6 .dataLost [] := by
  have hbad' : poisoned (popMessage s n 1) (msgOf m.bytes).addr (msgOf m.bytes).len = true := hbad
  simp only [remoteServe, h.first, h.mine, h.accepted, hheld, hbad', Bool.false_eq_true, if_false, if_true]
  rfl

/-! What a served request leaves of the link and of memory -/

theorem inbox_popMessage (hlen : s.links.length = 12) (hm : firstOf (linkOf s n) 1 = some m) :
    (linkOf (popMessage s n 1) n).inbox = (linkOf s n).inbox.erase m := by
  rw [popMessage, linkOf_modLink _ _ _ _ hlen, if_pos rfl, hm]

/-- A served request has left the messages received. -/
theorem inbox_respond (hlen : s.links.length = 12) (hm : firstOf (linkOf s n) 1 = some m) {s1 : State}
    (hlinks : s1.links = (popMessage s n 1).links) (h : MsgHeader) (op : Nat) (st : Status) (data : Bytes) :
    (linkOf (respond s1 n h op st data) n).inbox = (linkOf s n).inbox.erase m := by
  rw [inbox_of_received (received_respond ..), linkOf, hlinks]
  exact inbox_popMessage hlen hm

theorem links_atomicApply (s : State) (ty a : Nat) (y : Bytes) : (atomicApply s ty a y).2.links = s.links := by
  unfold atomicApply; dsimp only; split <;> [skip; split] <;> rfl

/-- An atomic update reads and writes no link. -/
theorem atomicApply_popMessage (s : State) (n : LinkIx) (vc ty a : Nat) (y : Bytes) :
    (atomicApply (popMessage s n vc) ty a y).1 = (atomicApply s ty a y).1 ∧
      (atomicApply (popMessage s n vc) ty a y).2.mem = (atomicApply s ty a y).2.mem := by
  have hreels (st : Nat) : stackReels (popMessage s n vc) st = stackReels s st := rfl
  have hpoison : poisoned (popMessage s n vc) a y.length = poisoned s a y.length := rfl
  unfold atomicApply
  simp only [hreels, hpoison]
  split <;> [skip; split] <;> exact ⟨rfl, rfl⟩

section
variable (hlen : s.links.length = 12) (hheld : touchesHold s (msgOf m.bytes).addr (msgOf m.bytes).len = false)
include hlen hheld

/-- A request that has been performed has left the messages received. -/
theorem inbox_remoteServe (h : Passed s n op m) (hop : op = 1 ∨ op = 2 ∨ op = 3) :
    (linkOf (remoteServe s n op) n).inbox = (linkOf s n).inbox.erase m := by
  rcases hop with rfl | rfl | rfl
  · have hlinks : (devWrite (popMessage s n 1) (msgOf m.bytes).addr (m.bytes.drop 32)).links = (popMessage s n 1).links := rfl
    rw [remoteServe_write h hheld]
    exact inbox_respond hlen h.first hlinks ..
  · rw [remoteServe_atomic h hheld]
    exact inbox_respond hlen h.first (links_atomicApply ..) ..
  · cases hpoison : poisoned s (msgOf m.bytes).addr (msgOf m.bytes).len with
    | false =>
      rw [remoteServe_read h hheld hpoison]
      exact inbox_respond hlen h.first rfl ..
    | true =>
      rw [remoteServe_read_poisoned h hheld hpoison]
      exact inbox_respond hlen h.first rfl ..

omit hlen

theorem mem_remoteServe_write (h : Passed s n 1 m) :
    (remoteServe s n 1).mem = (devWrite s (msgOf m.bytes).addr (m.bytes.drop 32)).mem := by
  rw [remoteServe_write h hheld, mem_respond]
  rfl

theorem mem_remoteServe_atomic (h : Passed s n 2 m) :
    (remoteServe s n 2).mem = (atomicApply s (msgOf m.bytes).ty (msgOf m.bytes).addr (m.bytes.drop 32)).2.mem := by
  obtain ⟨-, hmem⟩ := atomicApply_popMessage s n 1 (msgOf m.bytes).ty (msgOf m.bytes).addr (m.bytes.drop 32)
  rw [remoteServe_atomic h hheld, mem_respond, hmem]

theorem remoteServe_atomic_done (h : Passed s n 2 m)
    (hdone : (atomicApply s (msgOf m.bytes).ty (msgOf m.bytes).addr (m.bytes.drop 32)).1 = none) :
    remoteServe s n 2 = respond (atomicApply (popMessage s n 1) (msgOf m.bytes).ty (msgOf m.bytes).addr (m.bytes.drop 32)).2 n
      (msgOf m.bytes) 5 .ok [] := by
  obtain ⟨hanswer, -⟩ := atomicApply_popMessage s n 1 (msgOf m.bytes).ty (msgOf m.bytes).addr (m.bytes.drop 32)
  simp only [remoteServe_atomic h hheld, hanswer, hdone, Option.isNone_none, if_true, Option.getD_none]

theorem mem_remoteServe_read (h : Passed s n 3 m) : (remoteServe s n 3).mem = s.mem := by
  cases hpoison : poisoned s (msgOf m.bytes).addr (msgOf m.bytes).len with
  | false =>
    rw [remoteServe_read h hheld hpoison, mem_respond]
    rfl
  | true =>
    rw [remoteServe_read_poisoned h hheld hpoison, mem_respond]
    rfl

end

/-- A write changes no byte whose key its range does not name. -/
theorem cellGet_devWrite_unnamed (hwf : memWf s.mem = true) {a key : Nat} {bs : Bytes} (h : ∀ i, i < bs.length → addrKey (a + i) ≠ some key) :
    cellGet (devWrite s a bs).mem key = cellGet s.mem key :=
  cellGet_devWrite_outside s a bs key hwf fun hin => by
    obtain ⟨i, hi, hkey⟩ := List.mem_map.mp hin
    exact h i (List.mem_range.mp hi) hkey

/-- The outcome of a request that its check has let pass and that no thermal hold keeps waiting (R345). -/
theorem request_served (hlen : s.links.length = 12) (hwf : memWf s.mem = true) (h : Passed s n op m) (hop : op = 1 ∨ op = 2 ∨ op = 3)
    (hheld : touchesHold s (msgOf m.bytes).addr (msgOf m.bytes).len = false) :
    let h := msgOf m.bytes
    let data := m.bytes.drop 32
    let s1 := popMessage s n 1
    let s' := remoteServe s n op
    (linkOf s' n).inbox = (linkOf s n).inbox.erase m ∧
      (op = 1 → s' = respond (devWrite s1 h.addr data) n h 5 .ok [] ∧ s'.mem = (devWrite s h.addr data).mem ∧
        ∀ key, (∀ i, i < data.length → addrKey (h.addr + i) ≠ some key) → cellGet s'.mem key = cellGet s.mem key) ∧
      (op = 2 → s'.mem = (atomicApply s h.ty h.addr data).2.mem ∧
        ((atomicApply s h.ty h.addr data).1 = none → s' = respond (atomicApply s1 h.ty h.addr data).2 n h 5 .ok [])) ∧
      (op = 3 → s'.mem = s.mem ∧
        (poisoned s h.addr h.len = false → s' = respond s1 n h 4 .ok (devRead s h.addr h.len)) ∧
        (poisoned s h.addr h.len = true → s' = respond s1 n h 6 .dataLost [])) := by
  intro hd data s1 s'
  refine ⟨inbox_remoteServe hlen hheld h hop, ?_, ?_, ?_⟩
  · rintro rfl
    have hmem := mem_remoteServe_write hheld h
    exact ⟨remoteServe_write h hheld, hmem, fun key hkey => by rw [hmem]; exact cellGet_devWrite_unnamed hwf hkey⟩
  · rintro rfl
    exact ⟨mem_remoteServe_atomic hheld h, remoteServe_atomic_done hheld h⟩
  · rintro rfl
    exact ⟨mem_remoteServe_read hheld h, remoteServe_read h hheld, remoteServe_read_poisoned h hheld⟩

/-! Messages that go on -/

theorem forwardLink_none {came : LinkIx} {dest crossed : Nat} {edgeUsed : Bool} (h : ∀ r ∈ s.routes, r.dest = dest → 4 < crossed + r.hops) :
    forwardLink s came dest crossed edgeUsed = none := by
  have hnone : ∀ r ∈ s.routes, r.dest = dest → ¬ crossed + r.hops ≤ 4 := fun r hr hdest => Nat.not_le.mpr (h r hr hdest)
  unfold forwardLink
  dsimp only
  rw [List.filter_eq_nil_iff.mpr]
  · rfl
  intro r hr
  by_cases hdest : r.dest = dest
  · simp [hnone r hr hdest]
  · simp [hdest]

section
variable (hrun : running s = true) (hlen : s.links.length = 12)
  (hm : (linkOf s n).inbox.find? (fun m => byteAt m.bytes 1 != s.timing.deviceNo.val) = some m)

/-- The state once the message at the head of those for another device has been taken. -/
def forwardTaken (s : State) (n : LinkIx) (m : InMsg) : State := modLink s n fun l => { l with inbox := l.inbox.erase m }

/-- The link on which it goes on: its own hop is counted, and an EDGE link that it has crossed. -/
def forwardOut (s : State) (n : LinkIx) (m : InMsg) : Option LinkIx :=
  forwardLink (forwardTaken s n m) n (byteAt m.bytes 1) (byteAt m.bytes 3 % 16 + 1) (bit (byteAt m.bytes 3) 4 || (linkOf s n).mode == .edge)

include hlen in
theorem inbox_forwardTaken (m : InMsg) : (linkOf (forwardTaken s n m) n).inbox = (linkOf s n).inbox.erase m := by
  rw [forwardTaken, linkOf_modLink _ _ _ _ hlen, if_pos rfl]

include hrun hlen hm

theorem exec_messageForward_drops (hout : forwardOut s n m = none) : exec (.messageForward n) s = .next (forwardTaken s n m) := by
  have hmode : (linkOf (forwardTaken s n m) n).mode = (linkOf s n).mode := by rw [forwardTaken, linkOf_modLink _ _ _ _ hlen, if_pos rfl]
  rw [forwardOut, ← hmode] at hout
  simp only [forwardTaken] at hout ⊢
  simp only [exec, execMessageForward, hrun, hm, hout, if_true]

theorem exec_messageForward_sends {out : LinkIx} (hout : forwardOut s n m = some out) :
    exec (.messageForward n) s = .next (sendMessage (forwardTaken s n m) out m.vc (codeRank (byteAt m.bytes 6))
      (m.bytes.set 3 (BitVec.ofNat 8 (byteAt m.bytes 3 % 16 + 1 +
        16 * b2n ((bit (byteAt m.bytes 3) 4 || (linkOf s n).mode == .edge) || (linkOf (forwardTaken s n m) out).mode == .edge))))) := by
  have hmode : (linkOf (forwardTaken s n m) n).mode = (linkOf s n).mode := by rw [forwardTaken, linkOf_modLink _ _ _ _ hlen, if_pos rfl]
  rw [forwardOut, ← hmode] at hout
  rw [← hmode]
  simp only [forwardTaken] at hout ⊢
  simp only [exec, execMessageForward, hrun, hm, hout, if_true]

end

end
end Sys2Proof.Machine

open Sys2Proof.Machine

/-- Settles O30, by what a taken DATA flit leaves of its link, by the outcomes of a request at its head, and by those of a message for another
device. -/
theorem remoteRequestsAreServed : Obligations.RemoteRequestsAreServed := by
  rintro s n ⟨hshaped, hwf⟩ hrun
  have hlen := hshaped.links
  refine ⟨fun flit hmode hok ⟨hkind, hseq, hvc, hlast⟩ hfirst => ?_, fun c op hc => ⟨fun hidle => ?_, fun m hm hdest hop => ?_⟩,
    fun hnone => ?_, fun m hm => ?_⟩
  · exact ⟨_, _, exec_dataFlit_taken hrun hmode hok hkind hseq, inbox_dataFlit hlen hvc hlast hfirst, rfl, rfl, rfl, by simp [newMessage]⟩
  · rw [exec_remote hrun hc, remoteServe_idle hidle]
  · intro h data s1 len
    have hrequest : Requested s n op m := ⟨hm, hdest, hop⟩
    rw [exec_remote hrun hc]
    refine ⟨fun st hst => ?_, fun hverdict hdata => ⟨fun hheld => ?_, fun hheld => ?_⟩⟩
    · have hrefuses := remoteServe_refuses hrequest hst
      exact ⟨_, rfl, hrefuses, by rw [hrefuses, mem_respond]; rfl, by rw [hrefuses, inbox_respond hlen hm rfl]⟩
    · rw [remoteServe_waits ⟨hrequest, hverdict, hdata⟩ hheld]
    · have hop : op = 1 ∨ op = 2 ∨ op = 3 := by rcases hc with ⟨-, h⟩ | ⟨-, h⟩ | ⟨-, h⟩ <;> simp [h]
      exact ⟨_, rfl, request_served hlen hwf ⟨hrequest, hverdict, hdata⟩ hop hheld⟩
  · simp only [exec, execMessageForward, hrun, hnone, if_true]
  · intro s1 hops edge
    cases hout : forwardOut s n m with
    | none =>
      refine ⟨_, exec_messageForward_drops hrun hlen hm hout, inbox_forwardTaken hlen m, rfl, fun _ => rfl, fun out hsome => ?_⟩
      exact absurd (hout.symm.trans hsome) (by simp)
    | some out =>
      refine ⟨_, exec_messageForward_sends hrun hlen hm hout, ?_, mem_sendMessage .., fun hfar => ?_, fun out' hsome => ?_⟩
      · exact (inbox_of_received (received_sendMessage ..)).trans (inbox_forwardTaken hlen m)
      · have hnone : forwardOut s n m = none := forwardLink_none (s := forwardTaken s n m) hfar
        exact absurd (hnone.symm.trans hout) (by simp)
      · obtain rfl : out = out' := Option.some.inj (hout.symm.trans hsome)
        rfl
end

section
/-!
What the Basin's answers leave unchanged: outcomes, notices and advisories change tickets, registers, links, what has been sent and the
Tally, and nothing else. Freeing a staging slot changes beside these the slots of its round and the beat that last saw a record.
-/

namespace Sys2Proof.Machine

/-- The state without tickets, registers, links, what has been sent, and the Tally. -/
def unsent (s : State) : State := { s with tickets := [], fns := [], links := [], outbox := [], tally := {} }

section
variable {s s' : State}

theorem roundOf_of_unsent (h : unsent s' = unsent s) (t : TarnIx) (q : Nat) : roundOf s' t q = roundOf s t q := by
  change roundOf (unsent s') t q = roundOf (unsent s) t q
  rw [h]

theorem mem_of_unsent (h : unsent s' = unsent s) : s'.mem = s.mem := (congrArg State.mem h :)

theorem beat_of_unsent (h : unsent s' = unsent s) : s'.beat = s.beat := (congrArg State.beat h :)

end

/-! The answers -/

section
variable (s : State)

theorem unsent_foldl {α : Type} {f : State → α → State} (hf : ∀ s x, unsent (f s x) = unsent s) (l : List α) :
    unsent (l.foldl f s) = unsent s := by
  induction l generalizing s with
  | nil => rfl
  | cons x l ih => exact (ih _).trans (hf s x)

theorem unsent_hostOut (k : Ticket) (operand addr : Nat) (bs : Bytes) (flags : Nat) :
    unsent (hostOut s k operand addr bs flags).2 = unsent s :=
  (agree_le_iff.mp (agree_hostOut (fun _ _ _ _ => rfl) (fun _ _ => rfl) le_rfl ..)).symm

theorem unsent_plainOf (k : Ticket) (operand p : Nat) (raw : Bytes) : unsent (plainOf s k operand p raw).2 = unsent s :=
  (agree_le_iff.mp (agree_plainOf (fun _ _ _ _ => rfl) le_rfl ..)).symm

theorem unsent_sendMessage (n : LinkIx) (vc rank : Nat) (msg : Bytes) : unsent (sendMessage s n vc rank msg) = unsent s :=
  (agree_le_iff.mp (agree_sendMessage (fun _ _ => rfl) (fun _ _ => rfl) (fun _ _ => rfl) le_rfl ..)).symm

theorem unsent_sendIntake (n : LinkIx) (ty count : Nat) (data : Bytes) : unsent (sendIntake s n ty count data) = unsent s := by
  unfold sendIntake
  extract_lets replaced l
  have hkeys : unsent replaced = unsent s :=
    (agree_le_iff.mp (agree_replaceKeys (fun _ _ => rfl) (fun _ _ => rfl) le_rfl n)).symm
  clear_value l replaced
  split <;> exact hkeys

theorem unsent_advise (t : TarnIx) (a : Advisory) : unsent (advise s t a) = unsent s := by
  rw [advise_frame]; rfl

theorem unsent_roundEvent (t : TarnIx) (q code : Nat) (st : Status) : unsent (roundEvent s t q code st) = unsent s := by
  unfold roundEvent
  split
  · exact unsent_advise ..
  · rfl

theorem unsent_combineNote (t : TarnIx) (r : Round) (kind : Nat) : unsent (combineNote s t r kind) = unsent s := by
  unfold combineNote
  split
  · rfl
  · refine unsent_foldl s (fun s m => ?_) _
    split
    · exact unsent_sendMessage ..
    · rfl

theorem unsent_entryOutcome (uid m unit : Nat) (st : Status) : unsent (entryOutcome s uid m unit st) = unsent s := by
  unfold entryOutcome
  split
  · rfl
  next k _ =>
  split
  · rfl
  split
  next e s₁ hwritten =>
    have h₁ : unsent s₁ = unsent s := by
      split at hwritten
      · rw [← (Prod.mk.inj hwritten).2]
      · rw [← unsent_hostOut s k 1 (opW k 1 + m * unit + 3) [BitVec.ofNat 8 (statusCode st)] 0, hwritten]
    extract_lets ok k' noted
    have hnoted : unsent noted = unsent s := h₁
    clear_value noted
    split
    · exact hnoted
    split
    · exact hnoted
    split
    next e' s₂ hwhole =>
      have h₂ : unsent s₂ = unsent s := by
        split at hwhole
        · rw [writeOutcomes] at hwhole
          exact (congrArg (fun x => unsent x.2) hwhole.symm).trans ((unsent_hostOut ..).trans hnoted)
        · rw [← (Prod.mk.inj hwhole).2]
          exact hnoted
      split <;> exact h₂

theorem unsent_recOutcome (src : Option RecSource) (unit q c : Nat) (st : Status) : unsent (recOutcome s src unit q c st) = unsent s := by
  unfold recOutcome
  split
  · exact unsent_entryOutcome ..
  · split
    · exact unsent_sendIntake ..
    · rfl
  · rfl

theorem unsent_dropParts (t : TarnIx) (q : Nat) (st : Status) : unsent (dropParts s t q st) = unsent s := by
  refine unsent_foldl s (fun s x => ?_) _
  exact (unsent_recOutcome ..).trans rfl

theorem unsent_endRoundTickets (t : TarnIx) (q : Nat) (st : Status) : unsent (endRoundTickets s t q st) = unsent s := by
  refine unsent_foldl s (fun s k => ?_) _
  split
  · rfl
  split
  · rfl
  split
  · dsimp only
    split
    · exact unsent_hostOut ..
    · exact unsent_foldl s (fun _ _ => unsent_hostOut ..) _
  · rfl

end

/-! Staging slots -/

/-- A round without its staging slots and the beat that last saw a record. -/
def unstaged (r : Round) : Round := { r with slots := [], lastActive := none }

/-- The state without what a record's outcome and a change of its slot touch. -/
def slotless (s : State) : State :=
  { unsent s with tarns := s.tarns.map (Option.map fun n => { n with rounds := n.rounds.map unstaged }) }

theorem tarnOf_slotless (s : State) (t : TarnIx) :
    tarnOf (slotless s) t = (tarnOf s t).map fun n => { n with rounds := n.rounds.map unstaged } := by
  simp only [tarnOf, slotless, List.getD_eq_getElem?_getD, List.getElem?_map]
  cases s.tarns[t.val]? <;> rfl

theorem roundOf_slotless (s : State) (t : TarnIx) (q : Nat) : roundOf (slotless s) t q = (roundOf s t q).map unstaged := by
  simp only [roundOf, tarnOf_slotless]
  cases tarnOf s t with
  | none => rfl
  | some n =>
    simp only [Option.map_some, List.find?_map]
    rfl

/-- Where slots alone have changed, a round is as it was but for them. -/
theorem roundOf_of_slotless {s s' : State} (h : slotless s' = slotless s) {t : TarnIx} {q : Nat} {r : Round}
    (hr : roundOf s t q = some r) : ∃ slots last, roundOf s' t q = some { r with slots, lastActive := last } := by
  have hmap : (roundOf s' t q).map unstaged = some (unstaged r) := by rw [← roundOf_slotless, h, roundOf_slotless, hr]; rfl
  obtain ⟨r', hr', e⟩ := Option.map_eq_some_iff.mp hmap
  refine ⟨r'.slots, r'.lastActive, hr'.trans (congrArg some ?_)⟩
  exact congrArg (fun x : Round => { x with slots := r'.slots, lastActive := r'.lastActive }) e

/-- A change of the slots of one round. -/
theorem slotless_modRound (s : State) (t : TarnIx) (q : Nat) {g : Round → Round} (hg : ∀ r, unstaged (g r) = unstaged r) :
    slotless (modRound s t q g) = slotless s := by
  have hrounds (l : List Round) : (l.map fun x => if x.plan.roundId == q then g x else x).map unstaged = l.map unstaged := by
    rw [List.map_map]
    refine List.map_congr_left fun x _ => ?_
    rw [Function.comp_apply]
    split
    · exact hg x
    · rfl
  have htarns : (modRound s t q g).tarns.map (Option.map fun n : Tarn => { n with rounds := n.rounds.map unstaged }) =
      s.tarns.map (Option.map fun n => { n with rounds := n.rounds.map unstaged }) := by
    refine List.ext_getElem? fun i => ?_
    simp only [modRound, modTarn, List.getElem?_map, List.getElem?_modify]
    rcases s.tarns[i]? with _ | _ | n
    · rfl
    · simp
    · split
      · exact congrArg (fun l => some (some { n with rounds := l })) (hrounds n.rounds)
      · rfl
  unfold slotless
  rw [htarns]
  rfl

theorem slotless_of_unsent {s s' : State} (h : unsent s' = unsent s) : slotless s' = slotless s :=
  (congrArg slotless h :)

section
variable (s : State) (t : TarnIx) (q i : Nat)

theorem slotless_modSlotOf (x : Slot) : slotless (modSlotOf s t q i x) = slotless s := slotless_modRound s t q fun _ => rfl

theorem slotless_touchRound : slotless (touchRound s t q) = slotless s := slotless_modRound s t q fun _ => rfl

theorem slotless_clearSlot (x : Slot) : slotless (clearSlot s t q i x) = slotless s := by
  unfold clearSlot
  extract_lets unparted touched
  have hunparted : slotless unparted = slotless s := by
    unfold unparted
    split <;> rfl
  refine (slotless_modSlotOf ..).trans (Eq.trans ?_ hunparted)
  unfold touched
  split
  · exact slotless_touchRound ..
  · rfl

/-- A record leaves its slot with an outcome. -/
theorem slotless_recOutcome_clearSlot (x : Slot) (src : Option RecSource) (unit q' c : Nat) (st : Status) :
    slotless (recOutcome (clearSlot s t q i x) src unit q' c st) = slotless s :=
  (slotless_of_unsent (unsent_recOutcome ..)).trans (slotless_clearSlot ..)

theorem slotless_foldl {α : Type} {f : State → α → State} (hf : ∀ s x, slotless (f s x) = slotless s) (l : List α) :
    slotless (l.foldl f s) = slotless s := by
  induction l generalizing s with
  | nil => rfl
  | cons x l ih => exact (ih _).trans (hf s x)

theorem slotless_discardReceiving (r : Round) (st : Status) : slotless (discardReceiving s t q r st) = slotless s := by
  refine (slotless_of_unsent (unsent_dropParts ..)).trans (slotless_foldl s (fun s x => ?_) _)
  split
  · exact slotless_recOutcome_clearSlot ..
  · rfl

theorem slotless_dropSlots (st : Status) : slotless (dropSlots s t q st) = slotless s := by
  unfold dropSlots
  split
  · rfl
  · refine (slotless_of_unsent (unsent_dropParts ..)).trans (slotless_foldl s (fun s x => ?_) _)
    dsimp only
    split
    · rfl
    all_goals exact slotless_recOutcome_clearSlot ..

end

/-! What lies beside tickets, rounds and links -/

/-- The state without what an answer changes, what the Tarns hold, the rebuild queue and the counter of free values. -/
def roundless (s : State) : State := { unsent s with tarns := [], rebuilds := [], freeCtr := 0 }

section
variable {s s' : State}

theorem roundless_of_unsent (h : unsent s' = unsent s) : roundless s' = roundless s := (congrArg roundless h :)

theorem roundless_of_slotless (h : slotless s' = slotless s) : roundless s' = roundless s := (congrArg roundless h :)

theorem mem_of_roundless (h : roundless s' = roundless s) : s'.mem = s.mem := (congrArg State.mem h :)

theorem pendRules_of_roundless (h : roundless s' = roundless s) : s'.pendRules = s.pendRules := (congrArg State.pendRules h :)

theorem beat_of_roundless (h : roundless s' = roundless s) : s'.beat = s.beat := (congrArg State.beat h :)

theorem next_of_clock (h : clock s ≤ clock s') : s.tally.next ≤ s'.tally.next := by
  obtain ⟨-, -, hnext⟩ := (clock_le_iff ..).mp h
  exact hnext

end

end Sys2Proof.Machine
end

section
/-! Of a round, what its changes, its moves and its retirement leave (R268, R273, R274, R278, R302). -/

namespace Sys2Proof.Machine

/-- The first entry with a property stays the first when it is among those kept. -/
theorem find?_filter_of_find? {α : Type} {l : List α} {p keep : α → Bool} {x : α} (h : l.find? p = some x) (hx : keep x = true) :
    (l.filter keep).find? p = some x := by
  induction l with
  | nil => cases h
  | cons y l ih =>
    by_cases hy : p y = true
    · obtain rfl : y = x := by simpa [List.find?_cons, hy] using h
      simp [hx, hy]
    · have hl : l.find? p = some x := by simpa [List.find?_cons, hy] using h
      rw [List.filter_cons]
      split
      · rw [List.find?_cons, Bool.eq_false_iff.mpr hy]
        exact ih hl
      · exact ih hl

theorem certBody_ne_nil (s : State) (t : TarnIx) (r : Round) (seq beat : Nat) (refused : Bool) (d : Bytes) :
    certBody s t r seq beat refused d ≠ [] := by
  unfold certBody
  extract_lets p sv
  refine List.append_ne_nil_of_right_ne_nil _ ?_
  simp [zeros]

section
variable {s : State} {t : TarnIx} {q : Nat} {r : Round} (hr : roundOf s t q = some r)
include hr

theorem roundId_of_roundOf : r.plan.roundId = q := by
  simp only [roundOf] at hr
  split at hr
  · cases hr
  · simpa using List.find?_some hr

theorem exists_tarnOf_of_roundOf : ∃ n, tarnOf s t = some n := by
  cases h : tarnOf s t with
  | none => simp [roundOf, h] at hr
  | some n => exact ⟨n, rfl⟩

/-- The round after a change that keeps its ID. -/
theorem roundOf_modRound_same {g : Round → Round}
    (hg : ∀ x : Round, x.plan.roundId = q → (g x).plan.roundId = q := by exact fun _ h => h) :
    roundOf (modRound s t q g) t q = some (g r) := by
  rw [roundOf_modRound s t t q q g hg, if_pos ⟨rfl, rfl⟩, hr]
  rfl

/-- A change of what the Tarn holds beside its rounds. -/
theorem roundOf_modTarn_rounds {g : Tarn → Tarn} (hg : ∀ n, (g n).rounds = n.rounds) : roundOf (modTarn s t g) t q = some r := by
  obtain ⟨n, hn⟩ := exists_tarnOf_of_roundOf hr
  rw [← hr]
  simp only [roundOf, tarnOf_modTarn, hn, if_true, Option.map_some, hg]

/-! Moves -/

theorem moveRound_eq (dst : RState) (st : Status) (d : Bytes) :
    moveRound s t q dst st d = modRound (tallyMove s t r dst st d) t q fun r => { r with state := dst } := by
  simp only [moveRound, hr]

theorem roundOf_moveRound (dst : RState) (st : Status) (d : Bytes) :
    roundOf (moveRound s t q dst st d) t q = some { r with state := dst } := by
  rw [moveRound_eq hr]
  exact roundOf_modRound_same (s := tallyMove s t r dst st d) hr

/-- A move of a round has its Tally entry. -/
theorem next_moveRound (dst : RState) (st : Status) (d : Bytes) : s.tally.next < (moveRound s t q dst st d).tally.next := by
  rw [moveRound_eq hr]
  exact lt_of_lt_of_le (Nat.lt_add_of_pos_right (by decide)) (next_tally s 0x0040 2 t false st _)

/-- A move that carries a certificate: it is signed and put in the round's record first. -/
theorem certify_eq (dst : RState) (st : Status) (d : Bytes) : ∃ (key : Nat) (body c : Bytes), c ≠ [] ∧
    certify s t q dst st d = moveRound (modRound (signWith s key body).2 t q fun r => { r with cert := c }) t q dst st (sha384 c) := by
  obtain ⟨n, hn⟩ := exists_tarnOf_of_roundOf hr
  simp only [certify, hr, hn]
  generalize hbody : certBody s t r (tallyRoom s.beat 2 s.tally).next s.beat (dst == .refused) d = body
  rcases hsign : signWith s n.attKey body with ⟨sig, s₁⟩
  refine ⟨n.attKey, body, body ++ sig, And.intro ?_ (by rw [hsign])⟩
  exact List.append_ne_nil_of_left_ne_nil (hbody ▸ certBody_ne_nil _ _ _ _ _ _ _) _

theorem roundOf_certify (dst : RState) (st : Status) (d : Bytes) :
    ∃ c, c ≠ [] ∧ roundOf (certify s t q dst st d) t q = some { r with state := dst, cert := c } := by
  obtain ⟨key, body, c, hc, e⟩ := certify_eq hr dst st d
  rw [e]
  exact ⟨c, hc, roundOf_moveRound (roundOf_modRound_same (s := (signWith s key body).2) hr) ..⟩

theorem next_certify (dst : RState) (st : Status) (d : Bytes) : s.tally.next < (certify s t q dst st d).tally.next := by
  obtain ⟨key, body, c, -, e⟩ := certify_eq hr dst st d
  rw [e]
  exact next_moveRound (s := modRound (signWith s key body).2 t q _) (roundOf_modRound_same (s := (signWith s key body).2) hr) ..

/-! Ends -/

theorem roundOf_eraseSecrets : roundOf (eraseSecrets s t q) t q =
    some { r with shareSets := [], corrections := [], required := [], validating := 0 } := by
  have hjobs := roundOf_modTarn_rounds (g := fun n => { n with kae := n.kae.filter fun j => j.round != q }) hr fun _ => rfl
  exact roundOf_modRound_same hjobs

/-- A round that still counts as open stays in the Tarn's table when it is put behind the others (R278). -/
theorem roundOf_retireRound (hheld : roundHeld r = true) : roundOf (retireRound s t q) t q = some r := by
  obtain ⟨n, hn⟩ := exists_tarnOf_of_roundOf hr
  have hfound : n.rounds.find? (fun x => x.plan.roundId == q) = some r := by simpa only [roundOf, hn] using hr
  have hlast : ((n.rounds.filter fun r => r.plan.roundId != q) ++ n.rounds.filter fun r => r.plan.roundId == q).find?
      (fun x => x.plan.roundId == q) = some r := by
    have hfirst : (n.rounds.filter fun r => r.plan.roundId != q).find? (fun x => x.plan.roundId == q) = none := by
      simp [List.find?_eq_none]
    rw [List.find?_append, hfirst, Option.none_or]
    exact find?_filter_of_find? hfound (by simpa using roundId_of_roundOf hr)
  simp only [roundOf, retireRound, tarnOf_modTarn, hn, if_true, Option.map_some]
  exact find?_filter_of_find? hlast (by simp [hheld])

end

end Sys2Proof.Machine
end

section
/-! How a round ends: refused, aborted or released, and its region scrubbed (R273, R274, R302, R318), and the statement about it. -/

namespace Sys2Proof.Machine

section
variable {s : State} {t : TarnIx} {q : Nat} {r : Round} (hr : roundOf s t q = some r)
include hr

theorem roundless_moveRound (dst : RState) (st : Status) (d : Bytes) : roundless (moveRound s t q dst st d) = roundless s := by
  rw [moveRound_eq hr]; rfl

theorem roundless_certify (dst : RState) (st : Status) (d : Bytes) : roundless (certify s t q dst st d) = roundless s := by
  obtain ⟨key, body, c, -, e⟩ := certify_eq hr dst st d
  rw [e, roundless_moveRound (s := modRound (signWith s key body).2 t q _) (roundOf_modRound_same (s := (signWith s key body).2) hr)]
  rfl

/-! REFUSED -/

theorem roundOf_refuseRound (st : Status) : ∃ r', roundOf (refuseRound s t q st) t q = some r' ∧ r'.state = .refused ∧
    r'.endBeat = s.beat ∧ r'.floorApplied = r.floorApplied ∧ r'.shareSets = [] ∧ r'.cert ≠ [] := by
  have hdropped := slotless_dropSlots s t q .late
  obtain ⟨slots, last, h₁⟩ := roundOf_of_slotless hdropped hr
  obtain ⟨c, hc, h₂⟩ := roundOf_certify h₁ .refused st (zeros 48)
  have hbeat := beat_of_roundless ((roundless_certify h₁ .refused st (zeros 48)).trans (roundless_of_slotless hdropped))
  unfold refuseRound
  extract_lets certified ended erased told
  have h₃ : roundOf ended t q = some _ := roundOf_modRound_same h₂
  have h₄ : roundOf erased t q = some _ := roundOf_eraseSecrets h₃
  have h₅ : roundOf (roundEvent told t q 4 st) t q = some _ :=
    (roundOf_of_unsent ((unsent_roundEvent ..).trans (unsent_endRoundTickets ..)) t q).trans h₄
  exact ⟨_, roundOf_retireRound h₅ (by simp [roundHeld]), rfl, hbeat, rfl, rfl, hc⟩

theorem next_refuseRound (st : Status) : s.tally.next < (refuseRound s t q st).tally.next := by
  obtain ⟨slots, last, h₁⟩ := roundOf_of_slotless (slotless_dropSlots s t q .late) hr
  have hbefore := next_of_clock (le_clock_dropSlots (s := s) le_rfl t q .late)
  have hafter : clock (certify (dropSlots s t q .late) t q .refused st (zeros 48)) ≤ clock (refuseRound s t q st) :=
    le_clock_retireRound (le_clock_roundEvent (le_clock_endRoundTickets (le_clock_eraseSecrets (le_clock_modRound le_rfl ..) ..) ..) ..) ..
  exact hbefore.trans_lt ((next_certify h₁ ..).trans_le (next_of_clock hafter))

/-! ABORTED -/

theorem roundOf_abortRound (hlive : rstateLive r.state = true) (st : Status) :
    ∃ r', roundOf (abortRound s t q st) t q = some r' ∧ r'.state = .aborted ∧ r'.scrubbing = true ∧ r'.endBeat = s.beat := by
  have hdropped := slotless_dropSlots s t q .roundAborted
  obtain ⟨slots, last, h₁⟩ := roundOf_of_slotless hdropped hr
  have h₂ := roundOf_moveRound h₁ .aborted .roundAborted (zeros 48)
  have hbeat := beat_of_roundless ((roundless_moveRound h₁ .aborted .roundAborted (zeros 48)).trans (roundless_of_slotless hdropped))
  simp -zeta only [abortRound, hr, hlive, Bool.not_true, Bool.false_eq_true, if_false]
  extract_lets dropped moved noted ended erased told posted sent
  have hnoted : unsent noted = unsent moved := by
    unfold noted
    split <;> rfl
  have h₃ : roundOf ended t q = some _ := roundOf_modRound_same ((roundOf_of_unsent hnoted t q).trans h₂)
  have h₄ : roundOf erased t q = some _ := roundOf_eraseSecrets h₃
  have hposted : unsent posted = unsent erased := (unsent_roundEvent ..).trans (unsent_endRoundTickets ..)
  have hsent : unsent sent = unsent erased := by
    unfold sent
    split
    · exact (unsent_combineNote ..).trans hposted
    · exact hposted
  have h₅ : roundOf sent t q = some _ := (roundOf_of_unsent hsent t q).trans h₄
  exact ⟨_, roundOf_retireRound h₅ (by simp [roundHeld]), rfl, rfl, (beat_of_unsent hnoted).trans hbeat⟩

theorem next_abortRound (hlive : rstateLive r.state = true) (st : Status) : s.tally.next < (abortRound s t q st).tally.next := by
  obtain ⟨slots, last, h₁⟩ := roundOf_of_slotless (slotless_dropSlots s t q .roundAborted) hr
  have hbefore := next_of_clock (le_clock_dropSlots (s := s) le_rfl t q .roundAborted)
  have hafter : clock (moveRound (dropSlots s t q .roundAborted) t q .aborted .roundAborted) ≤ clock (abortRound s t q st) := by
    simp -zeta only [abortRound, hr, hlive, Bool.not_true, Bool.false_eq_true, if_false]
    extract_lets dropped moved noted ended erased told posted sent
    have hnoted : clock moved ≤ clock noted := le_clock_ite (le_clock_tallyNote le_rfl ..) le_rfl
    have hposted : clock moved ≤ clock posted :=
      le_clock_roundEvent (le_clock_endRoundTickets (le_clock_eraseSecrets (le_clock_modRound hnoted ..) ..) ..) ..
    exact le_clock_retireRound (le_clock_ite (le_clock_combineNote hposted ..) hposted) ..
  exact hbefore.trans_lt ((next_moveRound h₁ ..).trans_le (next_of_clock hafter))

end

end Sys2Proof.Machine
end

section
/-! How a round leaves CLOSED, is released and is scrubbed (R273, R274, R281, R302, R313). -/

namespace Sys2Proof.Machine

section
variable {s : State} {t : TarnIx} {q : Nat} {r : Round} (hr : roundOf s t q = some r)
include hr

theorem roundOf_addJobs (rid kind : Nat) (l : List Nat) :
    roundOf (l.foldl (fun s i => addJob s t rid kind i i []) s) t q = some r := by
  induction l generalizing s with
  | nil => exact hr
  | cons i l ih => exact ih (roundOf_modTarn_rounds hr fun _ => rfl)

theorem roundOf_startUnmasking : ∃ r', roundOf (startUnmasking s t q) t q = some r' ∧ r'.state = .unmasking ∧
    r'.unmaskBeat = s.beat ∧ r'.floorApplied = r.floorApplied := by
  have hmoved := roundOf_moveRound hr .unmasking .ok (zeros 48)
  have hbeat : (moveRound s t q .unmasking .ok).beat = s.beat := beat_of_roundless (roundless_moveRound hr ..)
  simp -zeta only [startUnmasking]
  extract_lets moved begun
  have hbegun : roundOf begun t q = some _ := roundOf_modRound_same hmoved
  simp -zeta only [hbegun]
  extract_lets todo counted queued
  have hqueued : roundOf queued t q = some _ := roundOf_addJobs (s := counted) (roundOf_modRound_same hbegun) q 0 todo
  split
  · exact ⟨_, roundOf_modRound_same hqueued, rfl, hbeat, rfl⟩
  · exact ⟨_, hqueued, rfl, hbeat, rfl⟩

theorem next_startUnmasking : s.tally.next < (startUnmasking s t q).tally.next := by
  have hafter : clock (moveRound s t q .unmasking .ok) ≤ clock (startUnmasking s t q) := by
    simp only [startUnmasking]; bound
  exact (next_moveRound hr ..).trans_le (next_of_clock hafter)

/-! CLOSED -/

/-- A leader's round that may leave CLOSED, with its floor applied and its members' data dropped (R302, R376). -/
theorem leaveClosed_leader (hlead : r.isLeader = true) (hready : leaveReady s r = true) : ∃ s₁, leaveClosed s t q =
    (if r.accepted.length < cohortFloor s t r then refuseRound s₁ t q .belowFloor else startUnmasking s₁ t q) ∧
    roundOf s₁ t q = some { r with floorApplied := cohortFloor s t r, memberData := [] } ∧ s₁.beat = s.beat ∧
    s₁.tally = s.tally := by
  refine ⟨modRound (dropData s q) t q fun r' => { r' with floorApplied := cohortFloor s t r, memberData := [] }, ?_,
    roundOf_modRound_same (s := dropData s q) hr, rfl, rfl⟩
  simp only [leaveClosed, hr, hlead, hready, Bool.not_true, Bool.false_eq_true, if_false]

theorem leaveClosed_leader_waits (hlead : r.isLeader = true) (hready : leaveReady s r = false) : leaveClosed s t q = s := by
  simp only [leaveClosed, hr, hlead, hready, Bool.not_true, Bool.not_false, Bool.false_eq_true, if_false, if_true]

theorem leaveClosed_member (hlead : r.isLeader = false) : leaveClosed s t q =
    if r.state == .closed && r.foldLog.isEmpty && foldsDone r && r.abortAsked.isNone && r.dataSentBeat.isNone then
      sendCombineData s t r else s := by
  simp only [leaveClosed, hr, hlead, Bool.not_false, if_true]

/-- A member's data goes to its leader, and the round notes the beat and the link. -/
theorem sendCombineData_sends {lead me : Member} {n : LinkIx} {d : Nat} (hlead : r.members.head? = some lead)
    (hme : myMember s r = some me) (hlink : linkTo s t lead.serial = some (n, d)) :
    roundOf (sendCombineData s t r) t q = some { r with dataSentBeat := some s.beat, dataLink := some n } ∧
    (sendCombineData s t r).mem = s.mem := by
  simp -zeta only [sendCombineData, hlead, hme, hlink]
  extract_lets data sent
  have hsent : unsent sent = unsent s := unsent_foldl s (fun _ _ => unsent_sendMessage ..) _
  have hround := roundOf_modRound_same (g := fun r => { r with dataSentBeat := some sent.beat, dataLink := some n })
    ((roundOf_of_unsent hsent t q).trans hr)
  rw [← roundId_of_roundOf hr] at hround ⊢
  refine ⟨hround.trans ?_, mem_of_unsent (s' := sent) hsent⟩
  rw [beat_of_unsent hsent]

omit hr in
theorem sendCombineData_waits {lead me : Member} (hlead : r.members.head? = some lead) (hme : myMember s r = some me)
    (hlink : linkTo s t lead.serial = none) : sendCombineData s t r = s := by
  simp only [sendCombineData, hlead, hme, hlink]

/-! Release and scrub -/

theorem releaseRound_released (hmem : memWf s.mem = true) (hstate : r.state = .unmasking) (hdone : r.releasing = true)
    (hheld : r.holdOn = true) :
    ∃ r', roundOf (releaseRound s t q) t q = some r' ∧ r'.state = .released ∧ r'.releaseBeat = s.beat ∧ r'.cert ≠ [] ∧
      (releaseRound s t q).pendRules = s.pendRules ++ [.release t q] ∧
      ∀ key, (key % 2 ^ 30 < r.plan.u0 * 2 ^ 25 + 1 * imageLen r.plan ∨
        r.plan.u0 * 2 ^ 25 + imageCount r.plan * imageLen r.plan ≤ key % 2 ^ 30) →
        cellGet (releaseRound s t q).mem key = cellGet s.mem key := by
  have hdropped := slotless_dropSlots s t q .late
  have hless := roundless_of_slotless hdropped
  have hbeat := beat_of_roundless hless
  have hrules := pendRules_of_roundless hless
  obtain ⟨slots, last, h₁⟩ := roundOf_of_slotless hdropped hr
  simp -zeta only [releaseRound, hr, hstate, hdone, beq_self_eq_true, Bool.and_self, if_true]
  extract_lets zeroed marked certified told asked
  have h₂ : roundOf marked t q = some _ := roundOf_modRound_same (s := zeroed) h₁
  obtain ⟨c, hc, h₃⟩ := roundOf_certify h₂ .released .ok (sha384 (imgBytes marked r.plan))
  have hmarked : roundless marked = roundless zeroed := rfl
  have hcertified : roundless certified = roundless zeroed := (roundless_certify h₂ ..).trans hmarked
  have htold : unsent told = unsent certified := (unsent_combineNote ..).trans (unsent_roundEvent ..)
  have htoldless := (roundless_of_unsent htold).trans hcertified
  have hasked : roundOf asked t q = some _ := (roundOf_of_unsent htold t q).trans h₃
  refine ⟨_, roundOf_retireRound hasked (by simp [roundHeld, hheld]), rfl, hbeat, hc, ?_, fun key hkey => ?_⟩
  · exact congrArg (· ++ [_]) ((pendRules_of_roundless htoldless).trans hrules)
  · change cellGet told.mem key = _
    rw [mem_of_roundless htoldless, cellGet_zeroImages _ _ _ _ _ (by rw [mem_of_roundless hless]; exact hmem),
      mem_of_roundless hless, if_neg (by omega)]

theorem releaseRound_waits (h : r.state ≠ .unmasking ∨ r.releasing = false) : releaseRound s t q = s := by
  have hcond : (r.state == .unmasking && r.releasing) = false := by simpa [Decidable.imp_iff_not_or] using h
  simp only [releaseRound, hr, hcond, Bool.false_eq_true, if_false]

theorem regionScrubbed_done (hscrub : r.scrubbing = true) (hended : r.state = .refused ∨ r.state = .aborted) :
    regionScrubbed s t q =
      { modRound (zeroImages s r.plan 0 (imageCount r.plan)) t q fun r => { r with scrubbing := false, slots := [] } with
        pendRules := s.pendRules ++ [.release t q] } := by
  have hcond : (r.scrubbing && (r.state == .refused || r.state == .aborted)) = true := by simpa [hscrub] using hended
  simp only [regionScrubbed, hr, hcond, if_true]
  rfl

theorem regionScrubbed_waits (h : r.scrubbing = false ∨ (r.state ≠ .refused ∧ r.state ≠ .aborted)) : regionScrubbed s t q = s := by
  have hcond : (r.scrubbing && (r.state == .refused || r.state == .aborted)) = false := by
    rcases h with h | ⟨h, h'⟩
    · simp [h]
    · simp [h, h']
  simp only [regionScrubbed, hr, hcond, Bool.false_eq_true, if_false]

end

end Sys2Proof.Machine

open Sys2Proof.Machine

/-- Settles O43, by what each end of a round leaves of it and of memory. -/
theorem roundsEnd : Obligations.RoundsEnd := by
  rintro s t id r ⟨-, hmem⟩ hrun hr
  simp only [exec, execRoundLeaveClosed, execRoundRelease, execUnmaskTimeout, execRoundRegionScrubbed, hrun, if_true, hr]
  refine ⟨fun hlead hready => ?_, fun hlead hready => congrArg _ (leaveClosed_leader_waits hr hlead hready),
    fun hlead => ⟨fun hready => ?_, fun hready lead me hhead hme => ?_⟩, fun hstate hdone hheld => ?_,
    fun hwaits => congrArg _ (releaseRound_waits hr hwaits), fun hdue => ?_, fun hdue => ?_, fun hscrub hended => ?_,
    fun hwaits => congrArg _ (regionScrubbed_waits hr hwaits)⟩
  · obtain ⟨s₁, hleft, hr₁, hbeat, htally⟩ := leaveClosed_leader hr hlead hready
    rw [hleft, ← hbeat, ← htally]
    refine ⟨fun hfew => ?_, fun hmany => ?_⟩
    · obtain ⟨r', hr', hstate, hend, hfloor, hshares, hcert⟩ := roundOf_refuseRound hr₁ .belowFloor
      exact ⟨_, r', congrArg _ (if_pos hfew), hr', hstate, hend, hfloor, hshares, hcert, next_refuseRound hr₁ _⟩
    · obtain ⟨r', hr', hstate, hbegin, hfloor⟩ := roundOf_startUnmasking hr₁
      exact ⟨_, r', congrArg _ (if_neg (by omega)), hr', hstate, hbegin, hfloor, next_startUnmasking hr₁⟩
  · rw [leaveClosed_member hr hlead, hready]; rfl
  · rw [leaveClosed_member hr hlead, hready, if_pos rfl]
    refine ⟨fun hlink => congrArg _ (sendCombineData_waits hhead hme hlink), fun n d hlink => ?_⟩
    have hclosed : r.state = .closed := by
      simp only [Bool.and_eq_true, beq_iff_eq] at hready
      exact hready.1.1.1.1
    obtain ⟨hsent, hkept⟩ := sendCombineData_sends hr hhead hme hlink
    exact ⟨_, _, rfl, hsent, hclosed, rfl, rfl, hkept⟩
  · obtain ⟨r', hreleased⟩ := releaseRound_released hr hmem hstate hdone hheld
    exact ⟨_, r', rfl, hreleased⟩
  · have hlive : rstateLive r.state = true := by
      obtain ⟨hunmasking, -⟩ : r.state = .unmasking ∧ _ := by simpa [unmaskExpired] using hdue
      rw [hunmasking]; rfl
    obtain ⟨r', hr', hstate, hscrub, hend⟩ := roundOf_abortRound hr hlive .timeout
    exact ⟨_, r', congrArg _ (if_pos hdue), hr', hstate, hscrub, hend, next_abortRound hr hlive _⟩
  · rw [hdue]; rfl
  · rw [regionScrubbed_done hr hscrub hended]
    exact ⟨_, _, rfl, roundOf_modRound_same (s := zeroImages ..) hr, rfl, rfl, fun key => cellGet_zeroImages _ _ _ _ _ hmem⟩
end

section
/-! Combined rounds: attachment, confirmations and notices, and the members' data (R279 to R282, R295), and the statement about them. -/

namespace Sys2Proof.Machine

theorem mem_insertNat {x y : Nat} {l : List Nat} : y ∈ insertNat x l ↔ y = x ∨ y ∈ l := by
  induction l with
  | nil => simp [insertNat]
  | cons z l ih =>
    rw [insertNat]
    split
    · rw [List.mem_cons]
    · split
      next h => rw [beq_iff_eq] at h; simp [h]
      next => rw [List.mem_cons, ih, List.mem_cons]; tauto

theorem mem_foldl_insertNat {y : Nat} {new l : List Nat} : y ∈ new.foldl (fun l c => insertNat c l) l ↔ y ∈ l ∨ y ∈ new := by
  induction new generalizing l with
  | nil => simp
  | cons c new ih => rw [List.foldl_cons, ih, mem_insertNat, List.mem_cons]; tauto

/-- Opening a transfer keeps all but what an answer changes. -/
theorem unsent_of_plainOf {s s₁ : State} {k : Ticket} {operand p : Nat} {raw : Bytes} {e : Except Status Bytes}
    (h : plainOf s k operand p raw = (e, s₁)) : unsent s₁ = unsent s := by
  rw [← unsent_plainOf s k operand p raw, h]

theorem ticketOf_of_plainOf {s s₁ : State} {k : Ticket} {operand p : Nat} {raw : Bytes} {e : Except Status Bytes}
    (h : plainOf s k operand p raw = (e, s₁)) (uid : Nat) : ticketOf s₁ uid = ticketOf s uid := by
  rw [← ticketOf_plainOf s k operand p raw uid, h]

/-- A notice changes no ticket. -/
theorem ticketOf_combineNote (s : State) (t : TarnIx) (r : Round) (kind uid : Nat) :
    ticketOf (combineNote s t r kind) uid = ticketOf s uid := by
  refine ticketOf_of_ticketsOnly ?_ uid
  unfold combineNote
  split
  · exact le_rfl
  · refine agree_foldl (fun s m h => ?_) _ le_rfl
    split
    · exact agree_sendMessage (fun _ _ => rfl) (fun _ _ => rfl) (fun _ _ => rfl) h ..
    · exact h

/-! Attachment -/

section
variable {s : State} {t : TarnIx} {q : Nat} {r : Round} (hr : roundOf s t q = some r)
include hr

theorem attachIfAll_all {uid : Nat} (huid : r.attachUid = some uid) (hne : r.members ≠ []) (hall : r.members.all (·.confirmed) = true) :
    attachIfAll s t q =
      finishTicket (modRound s t q fun r => { r with attached := true, attachUid := none }) uid r.members.length 0 := by
  have hcond : (!r.members.isEmpty && r.members.all (·.confirmed)) = true := by simpa [hne] using hall
  simp only [attachIfAll, hr, huid, hcond, if_true]

theorem attachIfAll_some_missing (hall : r.members.all (·.confirmed) = false) : attachIfAll s t q = s := by
  simp only [attachIfAll, hr, hall, Bool.and_false, Bool.false_eq_true, if_false]
  split <;> rfl

/-- An attachment changes at most the round's two fields that say so, and one ticket. -/
theorem roundOf_attachIfAll : ∃ attached uid, roundOf (attachIfAll s t q) t q = some { r with attached, attachUid := uid } := by
  simp only [attachIfAll, hr]
  split
  · exact ⟨_, _, hr⟩
  · split
    · exact ⟨_, _, roundOf_modRound_same hr⟩
    · exact ⟨_, _, hr⟩

theorem links_attachIfAll : (attachIfAll s t q).links = s.links := by
  simp only [attachIfAll, hr]
  split
  · rfl
  · split <;> rfl

end

/-- A descriptor fits the round: it is the plan's, of an OPEN combined round, and names this device, first exactly when it leads. -/
def attachFits (s : State) (r : Round) (raw : Bytes) (ms : List Member) (m : Member) : Bool :=
  r.plan.combined && r.state == .isOpen && sha384 raw == r.plan.combineDigest && (ms.any fun x => x.serial == deviceSerial s) &&
    ((m.serial == deviceSerial s) == r.isLeader)

/-- The members with which a descriptor attaches: this device, and those whose confirmations have come, have confirmed. -/
def attachMembers (s : State) (r : Round) (ms : List Member) : List Member :=
  (if r.members = [] then ms else r.members).map fun x =>
    if x.serial == deviceSerial s || r.confirms.contains x.serial then { x with confirmed := true } else x

theorem attachMembers_ne_nil (s : State) (r : Round) {ms : List Member} (h : ms ≠ []) : attachMembers s r ms ≠ [] := by
  unfold attachMembers
  rw [ne_eq, List.map_eq_nil_iff]
  split <;> assumption

/-- The round while its attachment waits. -/
def attaching (s : State) (r : Round) (ms : List Member) (uid : Nat) : Round :=
  { r with members := attachMembers s r ms, attachUid := some uid, attachBeat := s.beat }

section
variable {s s₁ : State} {k : Ticket} {r : Round} {raw : Bytes} {ms : List Member} {m : Member}
variable (hr : roundOf s k.tarn (opW k 0) = some r) (hplain : plainOf s k 1 (opW k 2) k.buf = (.ok raw, s₁))

include hplain hr

theorem serveAttach_malformed (hbad : descriptorOf r.plan raw = none) : serveAttach s k = answerTicket s₁ k.uid .badCommand 0 0 := by
  simp only [serveAttach, hr, hplain, hbad]

variable (hms : descriptorOf r.plan raw = some ms) (hm : ms.head? = some m)
include hms hm

theorem serveAttach_wellFormed : ∃ s₂, serveAttach s k =
    (if attachFits s r raw ms m then attachIfAll s₂ k.tarn (opW k 0) else answerTicket s₁ k.uid .notPermitted 0 0) ∧
    roundOf s₂ k.tarn (opW k 0) = some (attaching s r ms k.uid) ∧
    ticketOf s₂ k.uid = (ticketOf s k.uid).map fun k => { k with stage := 1 } := by
  have hsame := unsent_of_plainOf hplain
  have hserial : deviceSerial s₁ = deviceSerial s := (congrArg deviceSerial hsame :)
  have hbeat := beat_of_unsent hsame
  simp -zeta only [serveAttach, hr, hplain, hms]
  extract_lets lead ms₀ ms₁ begun noted
  have hlead : lead ms = (m.serial == deviceSerial s) := by simp only [lead, hm, hserial]
  have hcond : (!r.plan.combined || r.state != .isOpen || sha384 raw != r.plan.combineDigest ||
      !(ms.any fun m => m.serial == deviceSerial s₁) || lead ms != r.isLeader) = !attachFits s r raw ms m := by
    simp only [hlead, hserial, attachFits, bne, Bool.not_and]
  rw [hcond]
  have hms₁ : ms₁ = attachMembers s r ms := by
    unfold ms₁ ms₀ attachMembers
    simp only [hserial, List.isEmpty_iff]
  have hnoted : roundOf noted k.tarn (opW k 0) = some (attaching s r ms k.uid) := by
    have h := roundOf_modRound_same (s := begun) ((roundOf_of_unsent hsame ..).trans hr)
      (g := fun r => { r with members := ms₁, attachUid := some k.uid, attachBeat := begun.beat })
    refine h.trans ?_
    rw [attaching, ← hms₁, ← hbeat]
    rfl
  refine ⟨_, ?_, (roundOf_of_unsent (unsent_combineNote noted k.tarn { r with members := ms₁ } 1) _ _).trans hnoted, ?_⟩
  · cases attachFits s r raw ms m <;> rfl
  · rw [ticketOf_combineNote, ← ticketOf_of_plainOf hplain]
    refine (ticketOf_modTicket s₁ k.uid k.uid (fun k => { k with stage := 1 }) fun _ h => h).trans (if_pos rfl)

theorem serveAttach_unfit (hfits : attachFits s r raw ms m = false) : serveAttach s k = answerTicket s₁ k.uid .notPermitted 0 0 := by
  obtain ⟨s₂, hserved, -⟩ := serveAttach_wellFormed hr hplain hms hm
  rw [hserved, if_neg (Bool.eq_false_iff.mp hfits)]

/-- A descriptor that fits attaches at once when all have confirmed, and else waits (R280). -/
theorem serveAttach_fits (hk : ticketOf s k.uid = some k) (hruns : ticketRuns k = true) (hfits : attachFits s r raw ms m = true) :
    ∃ s' r', serveAttach s k = s' ∧ roundOf s' k.tarn (opW k 0) = some r' ∧ r'.attachBeat = s.beat ∧
      r'.members = attachMembers s r ms ∧
      ((attachMembers s r ms).all (·.confirmed) = true →
        r'.attached = true ∧ EndsWith s' k.uid .ok (attachMembers s r ms).length 0) ∧
      ((attachMembers s r ms).all (·.confirmed) = false → r'.attached = r.attached ∧ r'.attachUid = some k.uid) := by
  obtain ⟨s₂, hserved, hr₂, hk₂⟩ := serveAttach_wellFormed hr hplain hms hm
  rw [hserved, if_pos hfits]
  rw [hk] at hk₂
  have hsome : ms ≠ [] := by rintro rfl; cases hm
  cases hall : (attachMembers s r ms).all (·.confirmed) with
  | true =>
    rw [attachIfAll_all hr₂ rfl (attachMembers_ne_nil s r hsome) hall]
    exact ⟨_, _, rfl, roundOf_modRound_same hr₂, rfl, rfl, fun _ => ⟨rfl, endsWith_finishTicket hk₂ hruns ..⟩, nofun⟩
  | false =>
    rw [attachIfAll_some_missing hr₂ hall]
    exact ⟨_, _, rfl, hr₂, rfl, rfl, nofun, fun _ => ⟨rfl, rfl⟩⟩

end

/-! Confirmations and notices -/

/-- The round once a member's confirmation has come. -/
def confirming (serial : Bytes) (r : Round) : Round :=
  { r with confirms := if r.confirms.contains serial then r.confirms else r.confirms ++ [serial]
           members := r.members.map fun m => if m.serial == serial then { m with confirmed := true } else m }

section
variable {s : State} {t : TarnIx} {q : Nat} {r : Round} (hr : roundOf s t q = some r)
include hr

theorem roundOf_confirmMember (serial : Bytes) : ∃ r', roundOf (confirmMember s t q serial) t q = some r' ∧ serial ∈ r'.confirms ∧
    r'.members = r.members.map (fun m => if m.serial == serial then { m with confirmed := true } else m) ∧
    (confirmMember s t q serial).links = s.links := by
  have hmarked := roundOf_modRound_same hr (g := confirming serial)
  obtain ⟨attached, uid, h⟩ := roundOf_attachIfAll hmarked
  refine ⟨_, h, ?_, rfl, links_attachIfAll hmarked⟩
  dsimp only [confirming]
  split
  next hin => simpa using hin
  next => simp

theorem roundOf_takeMsg (x : LinkIx × InMsg) : roundOf (takeMsg s x) t q = some r := hr

theorem memberNote_none {kind : Nat} {g : Round → Round}
    (hnote : noteWaiting s kind q r.plan.planDigest r.plan.combineDigest (r.members.head?.map (·.serial)) = none) :
    memberNote s t q kind g = s := by
  simp only [memberNote, hr, hnote]

theorem memberNote_some {kind : Nat} {g : Round → Round} {x : LinkIx × InMsg} (hcomb : r.plan.combined = true)
    (hmember : r.isLeader = false)
    (hnote : noteWaiting s kind q r.plan.planDigest r.plan.combineDigest (r.members.head?.map (·.serial)) = some x) :
    memberNote s t q kind g = modRound (takeMsg s x) t q g := by
  simp only [memberNote, hr, hnote, hcomb, hmember, Bool.not_false, Bool.and_self, if_true]

/-! The members' data -/

/-- Data of a member that may count at the leader (R281). -/
def memberDataFits (s : State) (r : Round) (m : Member) (bitmap image : Bytes) : Bool :=
  r.plan.combined && r.isLeader && r.attached && m.serial != deviceSerial s && !m.received && !m.missing &&
    image.length == r.plan.l * elemLen r.plan && bitmap.length == cdiv m.count 8

section
variable {i : Nat} {m : Member} (hm : r.members[i]? = some m) {bitmap image : Bytes}
include hm

theorem addMember_refused (hfits : memberDataFits s r m bitmap image = false) : addMember s t q i bitmap image = s := by
  unfold memberDataFits at hfits
  simp only [addMember, hr, hm, hfits, Bool.false_eq_true, if_false]

theorem addMember_kept (hfits : memberDataFits s r m bitmap image = true) (hopen : r.state = .isOpen)
    (hfirst : ∀ y ∈ r.memberData, y.1 ≠ i) :
    addMember s t q i bitmap image = modRound s t q fun r => { r with memberData := r.memberData ++ [(i, bitmap, image)] } := by
  have hnew : (r.memberData.any fun x => x.1 == i) = false := by simpa using hfirst
  unfold memberDataFits at hfits
  simp only [addMember, hr, hm, hfits, hopen, hnew, beq_self_eq_true, if_true, Bool.false_eq_true, if_false]

theorem addMember_added (hfits : memberDataFits s r m bitmap image = true) (hclosed : r.state = .closed) :
    addMember s t q i bitmap image = modRound (imgAdd s r.plan false (vecWords r.plan image)) t q fun r => { r with
      accepted := (bitsOf bitmap m.first m.count).foldl (fun l c => insertNat c l) r.accepted
      members := r.members.modify i fun m => { m with received := true } } := by
  unfold memberDataFits at hfits
  simp only [addMember, hr, hm, hfits, hclosed, beq_self_eq_true, if_true, show (RState.closed == RState.isOpen) = false from rfl,
    Bool.false_eq_true, if_false]

/-- Data of a member are late (R282). -/
theorem missMember_eq : missMember s t q i =
    if r.plan.combined && r.isLeader && r.state == .closed && m.serial != deviceSerial s && !m.received && !m.missing &&
        decide (r.closeBeat + 2 * barBeats s ≤ s.beat) then
      roundEvent (modRound s t q fun r => { r with
        members := r.members.modify i fun m => { m with missing := true }, memberMissing := true }) t q 7 .timeout
    else s := by
  simp only [missMember, hr, hm]

end

end

/-- Data whose fields are those of R281, of a member that has not been counted. -/
theorem memberDataFits_of {s : State} {r : Round} {m : Member} {bitmap image : Bytes} (hcomb : r.plan.combined = true)
    (hlead : r.isLeader = true) (hattached : r.attached = true) (hother : m.serial ≠ deviceSerial s) (hreceived : m.received = false)
    (hmissing : m.missing = false) (himage : image.length = r.plan.l * elemLen r.plan) (hbitmap : bitmap.length = cdiv m.count 8) :
    memberDataFits s r m bitmap image = true := by
  simp [memberDataFits, *]

theorem memberDataFits_counted {s : State} {r : Round} {m : Member} {bitmap image : Bytes} (h : m.received = true ∨ m.missing = true) :
    memberDataFits s r m bitmap image = false := by
  rcases h with h | h <;> simp [memberDataFits, h]

theorem live_of_orphanDue {s : State} {r : Round} (h : orphanDue s r = true) : rstateLive r.state = true := by
  simp only [orphanDue, Bool.and_eq_true] at h
  exact h.1.1.2

theorem inbox_takeMsg {s : State} (hlen : s.links.length = 12) (x : LinkIx × InMsg) :
    (linkOf (takeMsg s x) x.1).inbox = (linkOf s x.1).inbox.erase x.2 := by
  rw [takeMsg, linkOf_modLink _ _ _ _ hlen, if_pos rfl]

end Sys2Proof.Machine

open Sys2Proof.Machine

/-- Settles O44, by what attachment, notices and a member's data each make of the round. -/
theorem combinedRoundsAct : Obligations.CombinedRoundsAct := by
  intro s t id r hshaped hrun hr
  have hlen := hshaped.links
  refine ⟨fun uid k hk hstage => ?_, fun uid k raw s1 hk hstage ht hid hplain => ?_, fun i p d => ?_,
    fun uid k hk hop hstage hruns ht hid huid => ?_, ?_, fun hdue => ?_, fun hdue => ?_, fun i bitmap image hdata => ?_,
    fun i m hm => ⟨fun bitmap image d hdata => ?_, ?_⟩⟩
  · refine congrArg _ ((serve_some hk).trans (if_neg ?_))
    simpa using hstage
  · obtain ⟨hticket, rfl, -, hruns, -⟩ := of_servable hk
    subst ht
    rw [← hid] at hr ⊢
    have hopened : ticketOf s1 k.uid = some k := (ticketOf_of_plainOf hplain k.uid).trans hticket
    have hexec : exec (.combineAttach k.uid) s = .next (serveAttach s k) :=
      congrArg _ ((serve_some hk).trans (if_pos (by simpa using hstage)))
    rw [hexec]
    refine ⟨fun hbad => ?_, fun ms m hms hm => ⟨fun hfits => ?_, fun hfits => ?_⟩⟩
    · rw [serveAttach_malformed hr hplain hbad]
      exact ⟨_, rfl, endsWith_answerTicket hopened hruns ..⟩
    · rw [serveAttach_unfit hr hplain hms hm hfits]
      exact ⟨_, rfl, endsWith_answerTicket hopened hruns ..⟩
    · obtain ⟨s', r', hserved, hattached⟩ := serveAttach_fits hr hplain hms hm hticket hruns hfits
      exact ⟨s', r', congrArg _ hserved, hattached⟩
  · refine ⟨fun hnone => ?_, fun x hx => ⟨fun hother => ?_, fun hcomb hplan hdesc => ?_⟩⟩
    · simp only [exec, execCombineConfirm, hrun, if_true, hr, hnone]
    · have hcond : (r.plan.combined && p == r.plan.planDigest && d == r.plan.combineDigest) = false := by
        rcases hother with h | h | h <;> simp [h]
      simp only [exec, execCombineConfirm, hrun, if_true, hr, hx, hcond, Bool.false_eq_true, if_false]
    · have hcond : (r.plan.combined && p == r.plan.planDigest && d == r.plan.combineDigest) = true := by simp [hcomb, hplan, hdesc]
      obtain ⟨r', hr', hin, hmembers, hlinks⟩ := roundOf_confirmMember (roundOf_takeMsg hr x) (slice x.2.bytes 12 16)
      refine ⟨_, r', ?_, hr', hin, hmembers, ?_⟩
      · simp only [exec, execCombineConfirm, hrun, if_true, hr, hx, hcond]
      · rw [linkOf, hlinks]
        exact inbox_takeMsg hlen x
  · subst ht
    rw [← hid] at hr ⊢
    have hexec : exec (.combineAttachTimeout uid) s = .next (if r.attachBeat + 3 * barBeats s ≤ s.beat then
        answerTicket (modRound s k.tarn (opW k 0) fun r => { r with attachUid := none }) uid .timeout
          (r.members.filter (·.confirmed)).length 0 else s) := by
      simp [exec, execCombineAttachTimeout, attachExpire, hrun, hk, hr, hop, hstage, hruns, huid]
    rw [hexec]
    refine ⟨fun hlate => ?_, fun hearly => congrArg _ (if_neg (by omega))⟩
    rw [if_pos hlate]
    exact ⟨_, _, rfl, endsWith_answerTicket hk hruns .., roundOf_modRound_same hr, rfl, rfl⟩
  · intro note
    simp only [exec, execLeaderCloseMessage, execLeaderReleaseMessage, execLeaderAbortMessage, hrun, if_true]
    refine ⟨fun h => congrArg _ (memberNote_none hr h), fun h => congrArg _ (memberNote_none hr h),
      fun h => congrArg _ (memberNote_none hr h), fun hcomb hmember => ⟨fun x h => congrArg _ (memberNote_some hr hcomb hmember h),
      fun x h => congrArg _ (memberNote_some hr hcomb hmember h), fun x h hlive => ?_⟩⟩
    rw [memberNote_some hr hcomb hmember h]
    exact ⟨_, _, rfl, roundOf_modRound_same (roundOf_takeMsg hr x), if_pos hlive, inbox_takeMsg hlen x⟩
  · obtain ⟨r', hr', hstate, -⟩ := roundOf_abortRound hr (live_of_orphanDue hdue) .roundAborted
    refine ⟨_, r', ?_, hr', hstate⟩
    simp only [exec, execMemberOrphanAbort, hrun, hr, hdue, if_true]
  · simp only [exec, execMemberOrphanAbort, hrun, hr, hdue, if_true, Bool.false_eq_true, if_false]
  · simp only [exec, execCombineData, hrun, hdata, if_true]
  · intro s0
    have hexec : exec (.combineData t id i bitmap image) s = .next (addMember s0 t id.toNat i bitmap image) := by
      simp only [exec, execCombineData, hrun, hdata, if_true]
      rfl
    have hr₀ : roundOf s0 t id.toNat = some r := hr
    rw [hexec]
    refine ⟨fun hcounted => congrArg _ (addMember_refused hr₀ hm (memberDataFits_counted hcounted)),
      fun hcomb hlead hattached hother hreceived hmissing himage hbitmap => ?_⟩
    have hfits := memberDataFits_of (s := s0) hcomb hlead hattached hother hreceived hmissing himage hbitmap
    refine ⟨fun hopen hfirst => congrArg _ (addMember_kept hr₀ hm hfits hopen hfirst), fun hclosed => ?_⟩
    rw [addMember_added hr₀ hm hfits hclosed]
    have hr₁ : roundOf (imgAdd s0 r.plan false (vecWords r.plan image)) t id.toNat = some r := hr
    refine ⟨_, _, rfl, roundOf_modRound_same hr₁, rfl, rfl, ?_, fun c => mem_foldl_insertNat⟩
    simp [hm]
  · intro late
    rw [show exec (.memberMissing t id i) s = .next (missMember s t id.toNat i) from congrArg _ (if_pos hrun), missMember_eq hr hm]
    refine ⟨fun hlate => ?_, fun hlate => congrArg _ (if_neg (Bool.eq_false_iff.mp hlate))⟩
    rw [if_pos hlate]
    exact ⟨_, _, rfl, (roundOf_of_unsent (unsent_roundEvent ..) ..).trans (roundOf_modRound_same hr), by simp [hm], rfl,
      (mem_of_unsent (unsent_roundEvent ..)).trans rfl⟩
end

section
/-! How a round opens and closes: its plan taken up, its opening, and its close over the records that wait (R248 to R255, R269 to R271). -/

namespace Sys2Proof.Machine

/-! Opening -/

section
variable {s s₁ : State} {k : Ticket} {p : Plan} {roster raw : Bytes} {n : Tarn}

/-- A plan that passes every check of R248 opens its round. -/
theorem openChecked_opens (hn : tarnOf s k.tarn = some n) (hsigned : planSigned k.authKeys raw = true)
    (hlater : n.highestRound < p.roundId)
    (hlast : n.highestRound ≠ 0xFFFFFFFF) (hdigest : sha384 roster = p.rosterDigest)
    (hregion : regionOk s k.tarn n p roster.length = true) (hroom : headroomOk raw = true ∨ byteAt raw 6 ≠ 0)
    (hnew : ∀ x ∈ n.rounds, x.plan.roundId ≠ p.roundId) :
    ∃ r, roundOf (openChecked s k raw p roster) k.tarn p.roundId = some r ∧ r.state = .opening ∧ r.plan = p ∧
      r.roster = chunks (rosterEntry p.kex) roster ∧
      (openChecked s k raw p roster).pendRules = s.pendRules ++ [.hold k.tarn p.roundId] ∧
      (openChecked s k raw p roster).mem = s.mem := by
  have hroom' : (!headroomOk raw && byteAt raw 6 == 0) = false := by rcases hroom with h | h <;> simp [h]
  simp -zeta only [openChecked, hn, hsigned, hdigest, hregion, hroom', bne_self_eq_false, Bool.and_false, Bool.not_true,
    Bool.false_eq_true, if_false, beq_eq_false_iff_ne.mpr hlast, if_neg (Nat.not_le.mpr hlater)]
  extract_lets r added marked
  refine ⟨r, ?_, rfl, rfl, rfl, rfl, rfl⟩
  have hold : n.rounds.find? (fun x => x.plan.roundId == p.roundId) = none := by simpa [List.find?_eq_none] using hnew
  change roundOf added k.tarn p.roundId = _
  simp only [added, roundOf, tarnOf_modTarn, hn, if_true, Option.map_some, List.find?_append, hold, Option.none_or]
  rw [List.find?_cons_of_pos (by exact beq_self_eq_true p.roundId)]

end

section
variable {s : State} {t : TarnIx} {q : Nat} {r : Round} (hr : roundOf s t q = some r)
include hr

theorem becomeOpen_opens (hstate : r.state = .opening) (hready : r.slots ≠ []) :
    roundOf (becomeOpen s t q) t q = some { r with state := .isOpen, openBeat := s.beat } ∧
      s.tally.next < (becomeOpen s t q).tally.next := by
  have hcond : (r.state == .opening && !r.slots.isEmpty) = true := by simpa [hstate] using hready
  have hmoved := roundOf_moveRound hr .isOpen .ok (zeros 48)
  have hnext := next_moveRound hr .isOpen .ok (zeros 48)
  have hbeat : (moveRound s t q .isOpen .ok).beat = s.beat := beat_of_roundless (roundless_moveRound hr ..)
  simp -zeta only [becomeOpen, hr, hcond, if_true]
  extract_lets moved begun told
  have htold : unsent told = unsent begun := by
    unfold told
    split
    · exact unsent_roundEvent ..
    · rfl
  have hbegun : clock moved ≤ clock begun := le_clock_modRound le_rfl ..
  have hclock : clock moved ≤ clock told := le_clock_ite (le_clock_roundEvent hbegun ..) hbegun
  have hround : roundOf told t q = some { r with state := .isOpen, openBeat := moved.beat } :=
    (roundOf_of_unsent htold t q).trans (roundOf_modRound_same hmoved)
  rw [← hbeat]
  split
  · exact ⟨hround, hnext.trans_le (next_of_clock hclock)⟩
  · exact ⟨hround, hnext.trans_le (next_of_clock hclock)⟩

theorem becomeOpen_waits (h : r.state ≠ .opening ∨ r.slots = []) : becomeOpen s t q = s := by
  have hcond : (r.state == .opening && !r.slots.isEmpty) = false := by rcases h with h | h <;> simp [h]
  simp only [becomeOpen, hr, hcond, Bool.false_eq_true, if_false]

end

/-! Records that are checked -/

/-- The state without what the check of a record touches: its slots, its outcome, and the memory that holds its vector. -/
def recordless (s : State) : State := slotless { s with mem := [] }

theorem recordless_of_slotless {s s' : State} (h : slotless s' = slotless s) : recordless s' = recordless s :=
  (congrArg (fun x : State => { x with mem := [] }) h :)

theorem roundOf_of_recordless {s s' : State} (h : recordless s' = recordless s) {t : TarnIx} {q : Nat} {r : Round}
    (hr : roundOf s t q = some r) : ∃ slots last, roundOf s' t q = some { r with slots, lastActive := last } :=
  roundOf_of_slotless (s := { s with mem := [] }) (s' := { s' with mem := [] }) h hr

theorem beat_of_recordless {s s' : State} (h : recordless s' = recordless s) : s'.beat = s.beat := (congrArg State.beat h :)

theorem recordless_arriveSlot (s : State) (t : TarnIx) (q i : Nat) : recordless (arriveSlot s t q i) = recordless s := by
  unfold arriveSlot
  split
  · rfl
  next r _ =>
  dsimp only
  split
  · split
    · split
      · exact recordless_of_slotless (slotless_modSlotOf ..)
      · split
        · rfl
        · split
          · rfl
          · exact (recordless_of_slotless (slotless_modSlotOf ..)).trans ((recordless_of_slotless (slotless_clearSlot s t q i _) :))
    · exact recordless_of_slotless (slotless_recOutcome_clearSlot ..)
  · rfl

theorem recordless_arriveAll (s : State) (t : TarnIx) (y : Nat) (all : Bool) : recordless (arriveAll s t y all) = recordless s := by
  unfold arriveAll
  split
  · rfl
  next n hn =>
  clear hn
  generalize arrivedFor n y = l
  induction l generalizing s with
  | nil => rfl
  | cons x l ih =>
    refine (ih _).trans ?_
    dsimp only
    split
    · exact recordless_arriveSlot ..
    · rfl

/-! Closing -/

theorem unsent_tallyGovernorOpen (s : State) (tarn action : Nat) : unsent (tallyGovernorOpen s tarn action) = unsent s := rfl

theorem unsent_finishTicket (s : State) (uid r0 r1 : Nat) : unsent (finishTicket s uid r0 r1) = unsent s := rfl

section
variable {s : State} {t : TarnIx} {q : Nat} {r : Round} (hr : roundOf s t q = some r)
include hr

theorem roundOf_closeRound (hopen : r.state = .isOpen) : ∃ r', roundOf (closeRound s t q) t q = some r' ∧ r'.state = .closed ∧
    r'.closeBeat = s.beat ∧ r'.accepted = r.accepted ∧ s.tally.next < (closeRound s t q).tally.next := by
  have harrived := recordless_arriveAll s t q false
  have hclock := le_clock_arriveAll (s := s) le_rfl t q false
  obtain ⟨slots, last, h₁⟩ := roundOf_of_recordless harrived hr
  simp -zeta only [closeRound, hr, hopen, bne_self_eq_false, Bool.false_eq_true, if_false]
  extract_lets quiet arrived moved begun
  simp -zeta only [show roundOf arrived t q = some _ from h₁]
  extract_lets checked told noted answered
  have h₂ : roundOf moved t q = some _ := roundOf_moveRound h₁ .closed .ok (zeros 48)
  have hbeat : moved.beat = s.beat := (beat_of_roundless (roundless_moveRound h₁ ..)).trans (beat_of_recordless harrived)
  have h₃ : roundOf begun t q = some _ := roundOf_modRound_same h₂
  have hchecked : recordless checked = recordless begun :=
    (recordless_arriveAll ..).trans (recordless_of_slotless (slotless_discardReceiving ..))
  obtain ⟨slots', last', h₄⟩ := roundOf_of_recordless hchecked h₃
  have hnoted : unsent noted = unsent checked := by
    unfold noted
    split
    · exact (unsent_tallyGovernorOpen ..).trans (unsent_roundEvent ..)
    · exact unsent_roundEvent ..
  have hanswered : unsent answered = unsent checked := (unsent_foldl noted (fun _ _ => unsent_finishTicket ..) _).trans hnoted
  have htold : clock moved ≤ clock told :=
    le_clock_roundEvent (le_clock_arriveAll (le_clock_discardReceiving (le_clock_modRound le_rfl ..) ..) ..) ..
  have hclock' : clock moved ≤ clock answered :=
    le_clock_foldl (fun s k h => le_clock_finishTicket h ..) _ (le_clock_ite (le_clock_tallyGovernorOpen htold ..) htold)
  have hnext : s.tally.next < answered.tally.next :=
    (next_of_clock hclock).trans_lt ((next_moveRound h₁ .closed .ok (zeros 48)).trans_le (next_of_clock hclock'))
  have h₅ := (roundOf_of_unsent hanswered t q).trans h₄
  split
  · exact ⟨_, (roundOf_of_unsent (unsent_combineNote ..) t q).trans h₅, rfl, hbeat, rfl,
      hnext.trans_le (next_of_clock (le_clock_combineNote le_rfl ..))⟩
  · exact ⟨_, h₅, rfl, hbeat, rfl, hnext⟩

end

/-! What ROUND_OPEN, ROUND_CLOSE and ROUND_ABORT answer -/

section
variable {s s₁ : State} {k : Ticket} {raw : Bytes} (hstage : k.stage = 0) (hplain : plainOf s k 0 (opW k 1) k.buf = (.ok raw, s₁))
include hstage hplain

theorem serveRoundOpen_malformed (hbad : planOf raw = none) : serveRoundOpen s k = answerTicket s₁ k.uid .badCommand 0 0 := by
  simp only [serveRoundOpen, hstage, beq_self_eq_true, if_true, hplain, hbad]

theorem serveRoundOpen_otherRoster {p : Plan} (hp : planOf raw = some p) (hlen : opW k 3 ≠ p.n * rosterEntry p.kex)
    (hroster : p.combined = false ∨ opW k 3 ≠ 0) : serveRoundOpen s k = answerTicket s₁ k.uid .badCommand 0 0 := by
  have hcond : (opW k 3 != p.n * rosterEntry p.kex && !(p.combined && opW k 3 == 0)) = true := by
    rcases hroster with h | h <;> simp [hlen, h]
  simp only [serveRoundOpen, hstage, beq_self_eq_true, if_true, hplain, hp, hcond]

end

section
variable {s : State} {k : Ticket} {r : Round} (hr : roundOf s k.tarn (opW k 0) = some r)
include hr

theorem serveRoundClose_member (hmember : r.isLeader = false) : serveRoundClose s k = answerTicket s k.uid .notPermitted 0 0 := by
  simp only [serveRoundClose, hr, hmember, Bool.not_false, if_true]

section
variable (hlead : r.isLeader = true)
include hlead

theorem serveRoundClose_open (hstate : r.state = .isOpen) : serveRoundClose s k =
    if bit (opW k 1) 0 then
      modRound (modTicket s k.uid fun k => { k with stage := 1 }) k.tarn (opW k 0) fun r => { r with closeAsked := true }
    else modTicket s k.uid fun k => { k with stage := 1 } := by
  simp only [serveRoundClose, hr, hlead, hstate, Bool.not_true, Bool.false_eq_true, if_false]

theorem serveRoundClose_closed (hstate : r.state = .closed) : serveRoundClose s k = finishTicket s k.uid (claimCount r) r.closeBeat := by
  simp only [serveRoundClose, hr, hlead, hstate, Bool.not_true, Bool.false_eq_true, if_false]

theorem serveRoundClose_past (hstate : r.state = .unmasking ∨ r.state = .released ∨ r.state = .refused) :
    serveRoundClose s k = finishTicket s k.uid r.accepted.length r.closeBeat := by
  rcases hstate with h | h | h <;> simp only [serveRoundClose, hr, hlead, h, Bool.not_true, Bool.false_eq_true, if_false]

theorem serveRoundClose_aborted (hstate : r.state = .aborted) :
    serveRoundClose s k = answerTicket s k.uid .roundAborted 0 r.endBeat := by
  simp only [serveRoundClose, hr, hlead, hstate, Bool.not_true, Bool.false_eq_true, if_false]

end

theorem serveRoundAbort_live (hlive : rstateLive r.state = true) : serveRoundAbort s k =
    modRound (modTicket s k.uid fun k => { k with stage := 1 }) k.tarn (opW k 0) fun r => { r with abortAsked := some .roundAborted } := by
  have hother : (r.state == .aborted) = false := by
    rw [beq_eq_false_iff_ne]
    intro h
    rw [h] at hlive
    cases hlive
  simp only [serveRoundAbort, hr, hother, hlive, Bool.false_eq_true, if_false, if_true]

theorem serveRoundAbort_aborted (hstate : r.state = .aborted) : serveRoundAbort s k = finishTicket s k.uid 0 r.endBeat := by
  simp only [serveRoundAbort, hr, hstate, beq_self_eq_true, if_true]

theorem serveRoundAbort_ended (hended : rstateLive r.state = false) (hother : r.state ≠ .aborted) :
    serveRoundAbort s k = answerTicket s k.uid .notPermitted 0 0 := by
  simp only [serveRoundAbort, hr, beq_eq_false_iff_ne.mpr hother, hended, Bool.false_eq_true, if_false]

end

theorem closeDue_isOpen {s : State} {t : TarnIx} {r : Round} (h : closeDue s t r = true) : r.state = .isOpen := by
  simp only [closeDue, Bool.and_eq_true, beq_iff_eq] at h
  obtain ⟨⟨hopen, -⟩, -⟩ := h
  exact hopen

/-! Answers that are written to the host -/

/-- Bytes that may be written leave, and the ticket is as it was. -/
theorem hostOut_written {s : State} {k : Ticket} {bs : Bytes} (h : HostWritable s k bs) {uid : Nat} (hk : ticketOf s uid = some k)
    (operand addr : Nat) : ∃ s', hostOut s k operand addr bs = (.ok (), s') ∧ ticketOf s' uid = some k :=
  ⟨_, Prod.ext (hostOut_of_writable h operand addr) rfl, (ticketOf_hostOut ..).trans hk⟩

end Sys2Proof.Machine

open Sys2Proof.Machine

/-- Settles O40, by what each command makes of a round in each of its states. -/
theorem roundsOpenAndClose : Obligations.RoundsOpenAndClose := by
  intro s uid k _
  refine ⟨fun hk hstage raw s1 hplain => ?_,
    fun hk hstage p roster s1 n hp hplain hn hsigned hlater hlast hdigest hlen hregion hroom hnew => ?_,
    fun t id r hrun hr => ⟨fun hstate hready => ?_, fun hwaits => ?_, fun hup hdue => ?_, fun hwaits => ?_⟩, fun r hk hstage hr => ?_,
    fun r hk hstage hr => ?_, fun r hk hr => ?_, fun r hk hr => ?_⟩
  · obtain ⟨hticket, rfl, -, hruns, -⟩ := of_servable hk
    have hopened := (ticketOf_of_plainOf hplain k.uid).trans hticket
    have hexec : exec (.roundOpen k.uid) s = .next (serveRoundOpen s k) := congrArg _ (serve_some hk)
    rw [hexec]
    exact ⟨fun hbad => ⟨_, congrArg _ (serveRoundOpen_malformed hstage hplain hbad), endsWith_answerTicket hopened hruns ..⟩,
      fun p hp hlen hroster => ⟨_, congrArg _ (serveRoundOpen_otherRoster hstage hplain hp hlen hroster),
        endsWith_answerTicket hopened hruns ..⟩⟩
  · obtain ⟨r, hr, hstate, hplan, hroster, hrules, hmem⟩ :=
      openChecked_opens (k := k) (raw := k.plain) hn hsigned hlater hlast hdigest hregion hroom hnew
    refine ⟨_, r, (congrArg _ (serve_some hk)).trans ?_, hr, hstate, hplan, hroster, hrules,
      hmem.trans (mem_of_unsent (unsent_of_plainOf hplain))⟩
    simp only [serveRoundOpen, hstage, hp, hplain]
    rfl
  · obtain ⟨hr', hnext⟩ := becomeOpen_opens hr hstate hready
    exact ⟨_, _, congrArg Host.Outcome.next (if_pos hrun), hr', rfl, rfl, hnext⟩
  · exact congrArg _ ((if_pos hrun).trans (becomeOpen_waits hr hwaits))
  · obtain ⟨r', hclosed⟩ := roundOf_closeRound hr (closeDue_isOpen hdue)
    refine ⟨_, r', ?_, hclosed⟩
    simp only [exec, execClose, hrun, hup, Bool.and_self, if_true, hr, hdue]
  · rcases hwaits with h | h <;> simp [exec, execClose, hr, h]
  · obtain ⟨hticket, rfl, -, hruns, -⟩ := of_servable hk
    have hexec : exec (.roundClose k.uid) s = .next (serveRoundClose s k) :=
      congrArg _ ((serve_some hk).trans (if_pos (by simpa using hstage)))
    rw [hexec]
    refine ⟨fun hmember => ?_, fun hlead hopen => ?_, fun hlead hclosed => ?_, fun hlead hpast => ?_, fun hlead haborted => ?_⟩
    · exact ⟨_, congrArg _ (serveRoundClose_member hr hmember), endsWith_answerTicket hticket hruns ..⟩
    · have hwaits := ticketOf_modTicket_same hticket (g := fun k => { k with stage := 1 }) fun _ => rfl
      have hnone := final_of_ticketRuns hruns
      rw [serveRoundClose_open hr hlead hopen]
      cases bit (opW k 1) 0 with
      | true => exact ⟨_, _, _, rfl, roundOf_modRound_same (s := modTicket ..) hr, hopen, (Bool.or_true _).symm, hwaits, rfl, hnone⟩
      | false => exact ⟨_, _, _, rfl, hr, hopen, (Bool.or_false _).symm, hwaits, rfl, hnone⟩
    · exact ⟨_, congrArg _ (serveRoundClose_closed hr hlead hclosed), endsWith_finishTicket hticket hruns ..⟩
    · exact ⟨_, congrArg _ (serveRoundClose_past hr hlead hpast), endsWith_finishTicket hticket hruns ..⟩
    · exact ⟨_, congrArg _ (serveRoundClose_aborted hr hlead haborted), endsWith_answerTicket hticket hruns ..⟩
  · obtain ⟨hticket, rfl, -, hruns, -⟩ := of_servable hk
    have hexec : exec (.roundAbort k.uid) s = .next (serveRoundAbort s k) :=
      congrArg _ ((serve_some hk).trans (if_pos (by simpa using hstage)))
    rw [hexec]
    refine ⟨fun hlive => ?_, fun haborted => ?_, fun hended hother => ?_⟩
    · exact ⟨_, _, congrArg _ (serveRoundAbort_live hr hlive), roundOf_modRound_same (s := modTicket ..) hr, rfl⟩
    · exact ⟨_, congrArg _ (serveRoundAbort_aborted hr haborted), endsWith_finishTicket hticket hruns ..⟩
    · exact ⟨_, congrArg _ (serveRoundAbort_ended hr hended hother), endsWith_answerTicket hticket hruns ..⟩
  · obtain ⟨hticket, rfl, -, hruns, -⟩ := of_servable hk
    intro bm blocks out hwritable
    obtain ⟨s', hout, hk'⟩ := hostOut_written hwritable hticket 1 (opW k 1)
    refine ⟨_, (congrArg _ (serve_some hk)).trans ?_, endsWith_answerTicket hk' hruns ..⟩
    simp -zeta only [serveRoundStatus, hr]
    extract_lets
    rw [hout]
  · obtain ⟨hticket, rfl, -, hruns, -⟩ := of_servable hk
    refine ⟨fun hnot hnot' => ?_, fun hpast => ?_⟩
    · refine ⟨_, (congrArg _ (serve_some hk)).trans ?_, endsWith_answerTicket hticket hruns ..⟩
      simp [serveCertRead, hr, hnot, hnot']
    · intro out hwritable
      obtain ⟨s', hout, hk'⟩ := hostOut_written hwritable hticket 1 (opW k 1)
      refine ⟨_, (congrArg _ (serve_some hk)).trans ?_, endsWith_answerTicket hk' hruns ..⟩
      have hcond : (r.state != .released && r.state != .refused) = false := by rcases hpast with h | h <;> rw [h] <;> rfl
      simp -zeta only [serveCertRead, hr, hcond, Bool.false_eq_true, if_false]
      extract_lets
      rw [hout]
      simp only [List.isEmpty_iff]
end

section
/-! Contribution records: taking a slot, their check, their fold and their discard (R260 to R265), and the staging slots granted to the
INTAKE links (R358). -/

namespace Sys2Proof.Machine

theorem getD_set_same {x : Slot} {l : List Slot} {i : Nat} (h : i < l.length) : (l.set i x).getD i {} = x := by
  simp [List.getD_eq_getElem?_getD, h]

/-- A round in whose slot a record has come to stand. -/
def takesRecord (r : Round) (i : Nat) (x : Slot) (beat : Nat) : Round := { r with slots := r.slots.set i x, lastActive := some beat }

/-- The state once the first bytes of a ticket's plaintext have gone on. -/
def withoutBytes (s : State) (uid len : Nat) : State := modTicket s uid fun k => { k with plain := k.plain.drop len }

theorem lt_length_of_findIx {α : Type} {p : α → Bool} {l : List α} {i : Nat} (h : findIx p l = some i) : i < l.length := by
  obtain ⟨⟨x, j⟩, hfound, rfl⟩ := Option.map_eq_some_iff.mp h
  exact List.snd_lt_of_mem_zipIdx (List.mem_of_find?_eq_some hfound)

theorem lt_length_of_freeSlot {s : State} {t : TarnIx} {r : Round} {i : Nat} {lane : LaneIx} (h : freeSlot s t r = some (i, lane)) :
    i < r.slots.length := by
  unfold freeSlot at h
  split at h
  · cases h
  split at h
  · cases h
  next j hj =>
    obtain ⟨lane', -, e⟩ := Option.map_eq_some_iff.mp h
    obtain ⟨rfl, -⟩ := Prod.mk.inj e
    exact lt_length_of_findIx hj

section
variable {s : State} {t : TarnIx} {q : Nat} {r : Round} (hr : roundOf s t q = some r)
include hr

/-- A change of one round leaves the others. -/
theorem roundOf_modRound_other {y : Nat} (hy : y ≠ q) {g : Round → Round}
    (hg : ∀ x : Round, x.plan.roundId = y → (g x).plan.roundId = y := by exact fun _ h => h) :
    roundOf (modRound s t y g) t q = some r := by
  rw [roundOf_modRound s t t y q g hg, if_neg (by simp [hy]), hr]

theorem roundOf_modSlotOf (i : Nat) (x : Slot) : roundOf (modSlotOf s t q i x) t q = some { r with slots := r.slots.set i x } :=
  roundOf_modRound_same hr

/-- Freeing a slot empties it, and touches beside it at most the beat that last saw a record. -/
theorem roundOf_clearSlot (i : Nat) (x : Slot) :
    ∃ last, roundOf (clearSlot s t q i x) t q = some { r with slots := r.slots.set i {}, lastActive := last } := by
  unfold clearSlot
  extract_lets unparted touched
  have hunparted : roundOf unparted t q = some r := by
    unfold unparted
    split <;> exact hr
  have htouched : ∃ last, roundOf touched t q = some { r with lastActive := last } := by
    unfold touched
    split
    · exact ⟨_, roundOf_modRound_same hunparted⟩
    · exact ⟨_, hunparted⟩
  obtain ⟨last, htouched⟩ := htouched
  exact ⟨last, roundOf_modSlotOf htouched i {}⟩

/-- Nor does it touch another round. -/
theorem roundOf_clearSlot_other {y : Nat} (hy : y ≠ q) (i : Nat) (b : Bytes) (x : Slot) (hx : x.state = .arrived b) :
    roundOf (clearSlot s t y i x) t q = some r := by
  unfold clearSlot
  extract_lets unparted touched
  have hunparted : roundOf unparted t q = some r := by
    unfold unparted
    split <;> exact hr
  have htouched : touched = unparted := by simp only [touched, hx]
  rw [modSlotOf, htouched]
  exact roundOf_modRound_other hunparted hy

/-- A record that leaves its slot with an outcome (R265, R266). -/
theorem roundOf_recOutcome_clearSlot (i : Nat) (x : Slot) (src : Option RecSource) (unit q' c : Nat) (st : Status)
    (hi : i < r.slots.length) :
    ∃ r', roundOf (recOutcome (clearSlot s t q i x) src unit q' c st) t q = some r' ∧ (r'.slots.getD i {}).state = .free ∧
      r'.accepted = r.accepted ∧ (recOutcome (clearSlot s t q i x) src unit q' c st).mem = s.mem := by
  obtain ⟨last, hcleared⟩ := roundOf_clearSlot hr i x
  refine ⟨_, (roundOf_of_unsent (unsent_recOutcome ..) t q).trans hcleared, ?_, rfl,
    mem_of_roundless (roundless_of_slotless (slotless_recOutcome_clearSlot ..))⟩
  simp [hi]

/-! The last bytes of a record -/

theorem fillSlot_arrives {n : Tarn} {i last : Nat} {had b : Bytes} (hn : tarnOf s t = some n)
    (hstate : (r.slots.getD i {}).state = .receiving had last) (hwhole : recLen r.plan ≤ (had ++ b).length) :
    roundOf (fillSlot s t q i b) t q =
      some (takesRecord r i { r.slots.getD i {} with state := .arrived (had ++ b), seq := n.arrivals } s.beat) ∧
    (fillSlot s t q i b).mem = (stageVector s r.plan i (had ++ b)).mem ∧ (fillSlot s t q i b).tickets = s.tickets := by
  simp -zeta only [fillSlot, hr, hn]
  extract_lets x whole touched counted
  have hwhole' : whole = had ++ b := by simp only [whole, x, hstate]
  have htouched : roundOf touched t q = some { r with lastActive := some s.beat } := roundOf_modRound_same hr
  rw [if_neg (by rw [hwhole']; omega), ← hwhole']
  have hcounted : roundOf counted t q = some { r with lastActive := some s.beat } :=
    roundOf_modTarn_rounds (s := stageVector touched r.plan i whole) (g := fun n => { n with arrivals := n.arrivals + 1 }) htouched
      fun _ => rfl
  refine ⟨roundOf_modSlotOf hcounted .., ?_, ?_⟩
  · simp only [counted, touched, modSlotOf, touchRound, stageVector, modRound_rest, modTarn_rest]
  · simp only [counted, touched, modSlotOf, touchRound, stageVector, modRound_rest, modTarn_rest]

/-- A record that comes whole into a slot just taken. -/
theorem fillSlot_fresh {n : Tarn} {i : Nat} {b : Bytes} (hn : tarnOf s t = some n) (hi : i < r.slots.length) (src : Option RecSource)
    (lane : LaneIx) (beat : Nat) (hwhole : recLen r.plan ≤ b.length) :
    let s' := fillSlot (modSlotOf s t q i { src, lane, state := .receiving [] beat }) t q i b
    roundOf s' t q = some (takesRecord r i { src, lane, state := .arrived b, seq := n.arrivals } s.beat) ∧
    s'.mem = (stageVector s r.plan i b).mem ∧ s'.tickets = s.tickets := by
  have hplaced := roundOf_modSlotOf hr i { src, lane, state := .receiving [] beat }
  obtain ⟨n', hn', harrivals⟩ : ∃ n', tarnOf (modSlotOf s t q i { src, lane, state := .receiving [] beat }) t = some n' ∧
      n'.arrivals = n.arrivals := by
    simp only [modSlotOf, modRound, tarnOf_modTarn, hn, if_true, Option.map_some]
    exact ⟨_, rfl, rfl⟩
  obtain ⟨hfilled, hmem, htickets⟩ := fillSlot_arrives (had := []) (b := b) hplaced hn' (by rw [getD_set_same hi]) hwhole
  refine ⟨hfilled.trans ?_, hmem, htickets⟩
  simp only [takesRecord, getD_set_same hi, List.set_set, harrivals]
  rfl

end

/-! CONTRIB_SUBMIT -/

/-- The first record of a CONTRIB_SUBMIT ticket has arrived whole, and its OPEN round has a staging slot and a lane for it. -/
structure RecordWhole (s : State) (uid : Nat) (k : Ticket) (r : Round) (n : Tarn) (i : Nat) (lane : LaneIx) : Prop where
  ticket : ticketOf s uid = some k
  round : roundOf s k.tarn (opW k 0) = some r
  tarn : tarnOf s k.tarn = some n
  runs : ticketRuns k = true
  unit : k.stage = recLen r.plan
  count : 0 < opW k 2
  taken : k.taken = k.plain.length
  whole : k.plain.length = k.stage
  opened : r.state = .isOpen
  slot : freeSlot s k.tarn r = some (i, lane)

theorem recLen_pos (p : Plan) : 0 < recLen p := by unfold recLen; omega

/-- A ticket whose bytes have all been moved to staging slots moves no more. -/
theorem contribStep_none {s : State} {uid : Nat} {k : Ticket} (hk : ticketOf s uid = some k) (hplain : k.plain = []) :
    contribStep s uid = none := by
  simp [contribStep, hk, hplain]

section
variable {s : State} {uid : Nat} {k : Ticket} {r : Round} {n : Tarn} {i : Nat} {lane : LaneIx} (h : RecordWhole s uid k r n i lane)
include h

theorem contribStep_whole : contribStep s uid = some (fillSlot (modSlotOf (withoutBytes s uid k.stage)
    k.tarn (opW k 0) i { src := some (.ticket uid 0), lane, state := .receiving [] s.beat }) k.tarn (opW k 0) i k.plain) := by
  have hpos := recLen_pos r.plan
  have hstage : k.stage ≠ 0 := by have := h.unit; omega
  have hcount : ¬ opW k 2 ≤ 0 := by have := h.count; omega
  have hbytes : k.plain.take k.stage = k.plain := List.take_of_length_le (le_of_eq h.whole)
  simp only [contribStep, withoutBytes, h.ticket, h.round, h.taken, h.whole, h.runs, h.opened, h.slot, hbytes, Nat.sub_self, Nat.zero_div,
    Nat.zero_mod, Nat.sub_zero, Nat.min_self, beq_eq_false_iff_ne.mpr hstage, decide_eq_false hcount, Bool.or_false,
    Bool.not_true, Bool.false_eq_true, if_false, bne_self_eq_false, beq_self_eq_true, if_true]

/-- The record stands in its slot, and its bytes are no more in the ticket (R261, R267). -/
theorem contribStep_arrives : ∃ s', contribStep s uid = some s' ∧
    roundOf s' k.tarn (opW k 0) = some (takesRecord r i
      { src := some (.ticket uid 0), lane, state := .arrived k.plain, seq := n.arrivals } s.beat) ∧
    s'.mem = (stageVector s r.plan i k.plain).mem ∧
    ticketOf s' uid = some { k with plain := [] } := by
  obtain ⟨hround, hmem, htickets⟩ := fillSlot_fresh (s := withoutBytes s uid k.stage) h.round h.tarn
    (lt_length_of_freeSlot h.slot) (some (.ticket uid 0)) lane s.beat (h.whole.trans h.unit).ge
  refine ⟨_, contribStep_whole h, hround, hmem, ?_⟩
  rw [ticketOf, htickets]
  refine (ticketOf_modTicket_same h.ticket (g := fun k' => { k' with plain := k'.plain.drop k.stage }) fun _ => rfl).trans ?_
  rw [List.drop_of_length_le (le_of_eq h.whole)]

/-- Two steps end the moving of one record, with no host read left. -/
theorem serveContrib_arrives (hnow : basinNow s k.tarn = true) (hconf : isConf s k.tarn = false) (hbuf : k.buf = []) (hneed : k.need = []) :
    ∃ s', serveContrib s k = s' ∧ roundOf s' k.tarn (opW k 0) = some (takesRecord r i
        { src := some (.ticket uid 0), lane, state := .arrived k.plain, seq := n.arrivals } s.beat) ∧
      s'.mem = (stageVector s r.plan i k.plain).mem := by
  have huid := uid_of_ticketOf h.ticket
  have htaken : takenClear k = k := by simp only [takenClear, hbuf, List.append_nil, List.length_nil, Nat.add_zero]; rw [← hbuf]
  have hticket : ticketOf (modTicket s uid takenClear) uid = some k := by
    rw [ticketOf_modTicket_same h.ticket (g := takenClear) fun _ => rfl, htaken]
  have hwhole : RecordWhole (modTicket s uid takenClear) uid k r n i lane :=
    { h with ticket := hticket, round := h.round, tarn := h.tarn, slot := h.slot }
  obtain ⟨s', hstep, hround, hmem, hticket'⟩ := contribStep_arrives hwhole
  refine ⟨s', ?_, hround, hmem⟩
  have hsteps (m : Nat) : contribSteps uid (m + 2) (modTicket s uid takenClear) = s' := by
    simp only [contribSteps, hstep, contribStep_none hticket' rfl]
  have hpump : pumpDma s' s'.beat uid = s' := by
    simp only [pumpDma, hticket', hneed]
    cases k.dma <;> rfl
  simp only [serveContrib, hnow, Bool.not_true, Bool.false_eq_true, if_false, huid, takePlain_clear h.ticket hconf,
    hticket, hsteps, hticket']
  simp [hpump]

end

/-! RECORD_ARRIVAL and FOLD_COMPLETE -/

section
variable {s : State} {t : TarnIx} {q : Nat} {r : Round} (hr : roundOf s t q = some r)
variable {i : Nat} {b : Bytes} (hi : i < r.slots.length)
include hr hi

section
variable (hstate : (r.slots.getD i {}).state = .arrived b)
include hstate

omit hi in
theorem arriveSlot_claims (hok : recVerdict s t r.plan b = .ok) (hid : field b 4 4 = q) :
    ∃ s', arriveSlot s t q i = s' ∧ roundOf s' t q = some { r with
      slots := r.slots.set i { r.slots.getD i {} with state := .folding (field b 8 4) b } } ∧ s'.mem = s.mem := by
  simp only [arriveSlot, hr, hstate, hok, hid, beq_self_eq_true, if_true]
  exact ⟨_, rfl, roundOf_modSlotOf hr .., rfl⟩

omit hi in
theorem arriveSlot_waits (hok : recVerdict s t r.plan b = .ok) (hid : field b 4 4 ≠ q) {ry : Round}
    (hry : roundOf s t (field b 4 4) = some ry)
    (hfull : freeSlot s t ry = none) : arriveSlot s t q i = s := by
  simp only [arriveSlot, hr, hstate, hok, beq_eq_false_iff_ne.mpr hid, Bool.false_eq_true, if_false, hry, hfull]

theorem arriveSlot_moves (hok : recVerdict s t r.plan b = .ok) (hid : field b 4 4 ≠ q) {ry : Round}
    (hry : roundOf s t (field b 4 4) = some ry)
    {j : Nat} {lane : LaneIx} (hfree : freeSlot s t ry = some (j, lane)) :
    ∃ s' r' ry', arriveSlot s t q i = s' ∧ roundOf s' t q = some r' ∧ (r'.slots.getD i {}).state = .free ∧
      roundOf s' t (field b 4 4) = some ry' ∧ (ry'.slots.getD j {}).state = .folding (field b 8 4) b ∧
      s'.mem = (stageVector s ry.plan j b).mem := by
  obtain ⟨last, hcleared⟩ := roundOf_clearSlot hr i (r.slots.getD i {})
  have hother := roundOf_clearSlot_other hry hid.symm i b (r.slots.getD i {}) hstate
  have hmem : (clearSlot s t q i (r.slots.getD i {})).mem = s.mem :=
    mem_of_roundless (roundless_of_slotless (slotless_clearSlot ..))
  simp only [arriveSlot, hr, hstate, hok, beq_eq_false_iff_ne.mpr hid, Bool.false_eq_true, if_false, hry, hfree]
  revert hcleared hother hmem
  generalize clearSlot s t q i (r.slots.getD i {}) = cleared
  intro hcleared hother hmem
  refine ⟨_, _, _, rfl, roundOf_modRound_other (s := stageVector cleared ry.plan j b) hcleared hid, ?_,
    roundOf_modSlotOf (s := stageVector cleared ry.plan j b) hother .., ?_, ?_⟩
  · rw [getD_set_same hi]
  · rw [getD_set_same (lt_length_of_freeSlot hfree)]
  · simp only [modSlotOf, modRound, modTarn, stageVector, hmem]

theorem arriveSlot_refuses (hbad : recVerdict s t r.plan b ≠ .ok) :
    ∃ s' r', arriveSlot s t q i = s' ∧ roundOf s' t q = some r' ∧ (r'.slots.getD i {}).state = .free ∧ r'.accepted = r.accepted ∧
      s'.mem = s.mem := by
  simp only [arriveSlot, hr, hstate]
  obtain ⟨r', hcleared⟩ := roundOf_recOutcome_clearSlot hr i (r.slots.getD i {}) (r.slots.getD i {}).src (recLen r.plan) (field b 4 4)
    (field b 8 4) (recVerdict s t r.plan b) hi
  exact ⟨_, r', rfl, hcleared⟩

end

theorem foldSlot_folds {c : Nat} (hstate : (r.slots.getD i {}).state = .folding c b) (hlive : rstateLive r.state = true) :
    ∃ s' r', foldSlot s t q i = s' ∧ roundOf s' t q = some r' ∧ (r'.slots.getD i {}).state = .free ∧
      r'.foldLog = r.foldLog ++ [(c, (r.slots.getD i {}).src)] ∧ r'.accepted = r.accepted ∧
      s'.mem = (imgAdd s r.plan false (stagedWords s r.plan i)).mem := by
  simp only [foldSlot, hr, hstate, hlive, if_true]
  refine ⟨_, _, rfl, roundOf_modRound_same (s := imgAdd ..) hr, ?_, rfl, rfl, rfl⟩
  rw [getD_set_same hi]

omit hi in
theorem foldSlot_waits (h : rstateLive r.state = false ∨ ∀ c b, (r.slots.getD i {}).state ≠ .folding c b) : foldSlot s t q i = s := by
  simp only [foldSlot, hr]
  split
  next hstate =>
    rcases h with h | h
    · rw [h]; rfl
    · exact absurd hstate (h _ _)
  next => rfl

theorem stageExpire_expires {last : Nat} (hstate : (r.slots.getD i {}).state = .receiving b last)
    (hlate : last + r.plan.stageTimeout ≤ s.beat) :
    ∃ s' r', stageExpire s t q i = s' ∧ roundOf s' t q = some r' ∧ (r'.slots.getD i {}).state = .free ∧ r'.accepted = r.accepted ∧
      s'.mem = s.mem := by
  simp only [stageExpire, hr, hstate, if_pos hlate]
  obtain ⟨r', hcleared⟩ := roundOf_recOutcome_clearSlot hr i (r.slots.getD i {}) (r.slots.getD i {}).src (recLen r.plan) q
    (partContrib s q i (r.slots.getD i {}) b) .timeout hi
  exact ⟨_, r', rfl, hcleared⟩

omit hi in
theorem stageExpire_waits {last : Nat} (hstate : (r.slots.getD i {}).state = .receiving b last)
    (hearly : s.beat < last + r.plan.stageTimeout) :
    stageExpire s t q i = s := by
  simp only [stageExpire, hr, hstate, if_neg (Nat.not_le.mpr hearly)]

end

end Sys2Proof.Machine
end

section
/-! Staging slots granted to the INTAKE links (R265, R358), and the statement about contribution records. -/

namespace Sys2Proof.Machine

/-- New keys change a link's keys and their epochs, and no counter of it. -/
theorem linkOf_replaceKeys {s : State} (hlen : s.links.length = 12) (n : LinkIx) :
    ∃ tx rx, linkOf (replaceKeys s n) n = { linkOf s n with tx, rx } ∧ tx.ctr = (linkOf s n).tx.ctr ∧
      rx.ctr = (linkOf s n).rx.ctr := by
  unfold replaceKeys
  extract_lets l
  split
  · have hlink := linkOf_modLink s n n (fun l => { l with tx := keyFor l.tx l.tx.ctr, rx := keyFor l.rx l.rx.ctr }) hlen
    exact ⟨_, _, hlink.trans (if_pos rfl), rfl, rfl⟩
  · exact ⟨_, _, rfl, rfl, rfl⟩

theorem links_length_replaceKeys (s : State) (n : LinkIx) : (replaceKeys s n).links.length = s.links.length := by
  unfold replaceKeys
  extract_lets l
  split
  · exact List.length_modify ..
  · rfl

theorem outbox_replaceKeys (s : State) (n : LinkIx) : (replaceKeys s n).outbox = s.outbox := by
  unfold replaceKeys
  extract_lets l
  split <;> rfl

section
variable {s : State} (hlen : s.links.length = 12) (n : LinkIx) (ty count : Nat) (data : Bytes)
include hlen

/-- A frame sent leaves the credits granted. -/
theorem granted_sendIntake : (linkOf (sendIntake s n ty count data) n).granted = (linkOf s n).granted := by
  obtain ⟨tx, rx, hkeys, -⟩ := linkOf_replaceKeys hlen n
  have hlen' : (replaceKeys s n).links.length = 12 := (links_length_replaceKeys s n).trans hlen
  have hgranted : (linkOf (replaceKeys s n) n).granted = (linkOf s n).granted := by rw [hkeys]
  unfold sendIntake
  extract_lets replaced l
  split
  · exact (congrArg Link.granted ((linkOf_modLink replaced n n _ hlen').trans (if_pos rfl))).trans hgranted
  · exact (congrArg Link.granted ((linkOf_modLink replaced n n _ hlen').trans (if_pos rfl))).trans hgranted

/-- It goes out unless the session has ended (R353, R355). -/
theorem outbox_sendIntake (hover : sessionOver (linkOf s n) = false) :
    (sendIntake s n ty count data).outbox.length = s.outbox.length + 1 := by
  obtain ⟨tx, rx, hkeys, htx, hrx⟩ := linkOf_replaceKeys hlen n
  have hover' : sessionOver (linkOf (replaceKeys s n) n) = false := by
    rw [← hover, hkeys]
    simp only [sessionOver, linkTagged, htx, hrx]
  unfold sendIntake
  extract_lets replaced l
  rw [if_neg (by rw [show sessionOver l = false from hover']; decide)]
  exact (List.length_append ..).trans (congrArg (List.length · + 1) (outbox_replaceKeys s n))

end

section
variable {s : State} {t : TarnIx} {n : Tarn} (hn : tarnOf s t = some n) (hnone : partsOf s t = [])
include hnone

theorem pumpIntake_idle : pumpIntake s t = s := by
  simp only [pumpIntake, hnone, List.foldl_nil]

theorem resumeIntake_idle (hk : ∀ k ∈ s.tickets, k.tarn = t → k.op ≠ 0x21) : resumeIntake s t = grantCredits s t := by
  have hidle : (s.tickets.filter fun k => k.tarn == t && k.op == 0x21 && ticketRuns k) = [] := by
    rw [List.filter_eq_nil_iff]
    intro k hmem
    simpa using fun ht hop => absurd hop (hk k hmem ht)
  simp only [resumeIntake, hidle, List.map_nil, List.foldl_nil, pumpIntake_idle hnone]

include hn

/-- The credits that free staging slots allow beyond those granted (R358). -/
theorem grantCredits_eq {l : LinkIx} {ls : List LinkIx} (hl : intakeLinks s t = l :: ls) :
    let free := (n.rounds.map fun r => if r.state == .isOpen then (r.slots.filter fun x => x.state == .free).length else 0).sum
    let room := min free (4096 * (lanesOf s t).length - inFlight s t)
    let out := ((l :: ls).map fun k => (linkOf s k).granted).sum
    grantCredits s t =
      if out < room then sendIntake (modLink s l fun k => { k with granted := k.granted + (room - out) }) l 3 (room - out) [] else s := by
  simp only [grantCredits, hn, hl, unseated, hnone, List.filter_nil, List.length_nil, Nat.add_zero]

end

end Sys2Proof.Machine

open Sys2Proof.Machine

/-- Settles O41, by what becomes of a slot when its record arrives, is checked, is folded or is discarded. -/
theorem recordsAreClaimedAndFolded : Obligations.RecordsAreClaimedAndFolded := by
  intro s t id r n hshaped hrun hup hn hr
  have hlen := hshaped.links
  refine ⟨fun uid k hk hop ht hruns => ?_, fun i b hstate hi hactive hfirst => ?_, fun i hwaits => ?_,
    fun i c b hstate hi hlive hactive hheld => ?_, fun i hwaits => ?_, fun i b last hstate hi => ?_, fun hk hparts => ?_⟩
  · subst ht
    have hexec : exec (.contribSubmit uid) s = .next (serveContrib s k) := by
      simp [exec, execContribSubmit, serveRunning, hk, hop, hruns, hrun, hup]
    rw [hexec]
    refine ⟨fun hnow => ?_, fun i lane hnow hid hunit hcount hconf htaken hbuf hwhole hneed hdma hopen hslot => ?_⟩
    · simp only [serveContrib, hnow, Bool.not_false, if_true]
    · rw [← hid] at hr ⊢
      have hrecord : RecordWhole s uid k r n i lane := ⟨hk, hr, hn, hruns, hunit, hcount, htaken, hwhole, hopen, hslot⟩
      obtain ⟨s', hserved, hround, hmem⟩ := serveContrib_arrives hrecord hnow hconf hbuf hneed
      exact ⟨s', _, congrArg _ hserved, hround, getD_set_same (lt_length_of_freeSlot hslot), rfl, hmem⟩
  · have hexec : exec (.recordArrival t id i) s = .next (arriveSlot s t id.toNat i) := by
      simp only [exec, execRecordArrival, hrun, hup, hactive, hfirst, Bool.and_self, if_true]
    rw [hexec]
    refine ⟨fun hok hid => ?_, fun hok hid ry hry => ⟨fun hfull => congrArg _ (arriveSlot_waits hr hstate hok hid hry hfull),
      fun j lane hfree => ?_⟩, fun hbad => ?_⟩
    · obtain ⟨s', hclaimed, hround, hmem⟩ := arriveSlot_claims hr hstate hok hid
      refine ⟨s', _, congrArg _ hclaimed, hround, ?_, rfl, hmem⟩
      rw [getD_set_same hi]
    · obtain ⟨s', r', ry', hmoved, hrest⟩ := arriveSlot_moves hr hi hstate hok hid hry hfree
      exact ⟨s', r', ry', congrArg _ hmoved, hrest⟩
    · obtain ⟨s', r', hrefused, hrest⟩ := arriveSlot_refuses hr hi hstate hbad
      exact ⟨s', r', congrArg _ hrefused, hrest⟩
  · rcases hwaits with h | h <;> simp [exec, execRecordArrival, h]
  · obtain ⟨s', r', hfolded, hrest⟩ := foldSlot_folds hr hi hstate hlive
    refine ⟨s', r', ?_, hrest⟩
    simp only [exec, execFoldComplete, hrun, hactive, hheld, Bool.not_false, Bool.and_self, if_true, hfolded]
  · rcases hwaits with h | h | h
    · simp [exec, execFoldComplete, h]
    · simp [exec, execFoldComplete, h]
    · simp only [exec, execFoldComplete, foldSlot_waits hr h, ite_self]
  · have hexec : exec (.stageTimeout t id i) s = .next (stageExpire s t id.toNat i) := congrArg Host.Outcome.next (if_pos hrun)
    rw [hexec]
    refine ⟨fun hlate => ?_, fun hearly => congrArg _ (stageExpire_waits hr hstate hearly)⟩
    obtain ⟨s', r', hexpired, hrest⟩ := stageExpire_expires hr hi hstate hlate
    exact ⟨s', r', congrArg _ hexpired, hrest⟩
  · have hexec : exec (.recordIntakeResume t) s = .next (grantCredits s t) := by
      simp only [exec, execRecordIntakeResume, hrun, hup, Bool.and_self, if_true, resumeIntake_idle hparts hk]
    rw [hexec]
    refine ⟨fun hl => ?_, fun l ls hl => ?_⟩
    · simp only [grantCredits, hn, hl]
    · rw [grantCredits_eq hn hparts hl]
      intro free room out
      refine ⟨fun hfull => congrArg _ (if_neg (Nat.not_lt.mpr hfull)), fun hroom => ?_⟩
      have hlen' : (modLink s l fun k => { k with granted := k.granted + (room - out) }).links.length = 12 :=
        (List.length_modify ..).trans hlen
      have hlink := (linkOf_modLink s l l (fun k => { k with granted := k.granted + (room - out) }) hlen).trans (if_pos rfl)
      refine ⟨_, congrArg _ (if_pos hroom), ?_, fun hover => ?_⟩
      · rw [granted_sendIntake hlen', hlink]
      · rw [outbox_sendIntake hlen']
        · rfl
        · rw [hlink]; exact hover
end

section
/-! What dropout recovery makes of a round and of its key-agreement jobs: share sets, flags, failed edges, secrets that are done with
(R307, R310, R313, R314, R317, R322). -/

namespace Sys2Proof.Machine

/-- What a Tarn holds after a change of it. -/
theorem tarnOf_modTarn_same {s : State} {t : TarnIx} {n : Tarn} (hn : tarnOf s t = some n) (g : Tarn → Tarn) :
    tarnOf (modTarn s t g) t = some (g n) := by
  rw [tarnOf_modTarn, if_pos rfl, hn]
  rfl

/-! Share sets -/

theorem key_shareSetOf (r : Round) (owner kind : Nat) :
    (shareSetOf r owner kind).owner = owner ∧ (shareSetOf r owner kind).kind = kind := by
  unfold shareSetOf
  cases h : r.shareSets.find? fun x => x.owner == owner && x.kind == kind with
  | none => exact ⟨rfl, rfl⟩
  | some x => simpa using List.find?_some h

/-- A round with the share set of one secret changed. -/
def withShares (r : Round) (owner kind : Nat) (g : ShareSet → ShareSet) : Round :=
  { r with shareSets := g (shareSetOf r owner kind) :: r.shareSets.filter fun y => !(y.owner == owner && y.kind == kind) }

theorem shareSetOf_withShares (r : Round) (owner kind : Nat) {g : ShareSet → ShareSet}
    (hg : ∀ z, (g z).owner = z.owner ∧ (g z).kind = z.kind) :
    shareSetOf (withShares r owner kind g) owner kind = g (shareSetOf r owner kind) := by
  obtain ⟨howner, hkind⟩ := key_shareSetOf r owner kind
  obtain ⟨howner', hkind'⟩ := hg (shareSetOf r owner kind)
  have hfound : ((g (shareSetOf r owner kind)).owner == owner && (g (shareSetOf r owner kind)).kind == kind) = true := by
    rw [howner', hkind', howner, hkind, beq_self_eq_true, beq_self_eq_true, Bool.and_self]
  exact congrArg (Option.getD · { owner, kind })
    (List.find?_cons_of_pos (p := fun x : ShareSet => x.owner == owner && x.kind == kind) hfound)

section
variable {s : State} {t : TarnIx} {q : Nat} {r : Round} (hr : roundOf s t q = some r)
include hr

theorem roundOf_putShares (owner kind : Nat) (g : ShareSet → ShareSet) :
    roundOf (putShares s t q owner kind g) t q = some (withShares r owner kind g) := roundOf_modRound_same hr

/-- Counting a rebuild changes the two counts of the round only. -/
theorem roundOf_countRebuild (kind : Nat) : ∃ keys seeds,
    roundOf (countRebuild s t q kind) t q = some { r with keysRebuilt := keys, seedsRebuilt := seeds } := by
  have hcounted := roundOf_modRound_same (g := fun r => if kind == 0 then { r with keysRebuilt := r.keysRebuilt + 1 }
    else { r with seedsRebuilt := r.seedsRebuilt + 1 }) hr (fun _ h => by split <;> exact h)
  unfold countRebuild
  rw [hcounted]
  split <;> exact ⟨_, _, rfl⟩

/-! Jobs -/

theorem roundOf_addJob (rid kind owner other : Nat) (secret : Bytes) :
    roundOf (addJob s t rid kind owner other secret) t q = some r := roundOf_modTarn_rounds hr fun _ => rfl

theorem roundOf_dropJob (x : Nat) : roundOf (dropJob s t x) t q = some r := roundOf_modTarn_rounds hr fun _ => rfl

/-- A job that is queued is the last of its Tarn's (R322). -/
theorem addJob_queued (rid kind owner other : Nat) (secret : Bytes) :
    ∃ n, tarnOf (addJob s t rid kind owner other secret) t = some n ∧ ∃ j ∈ n.kae, j.round = rid ∧ j.kind = kind ∧ j.owner = owner ∧
      j.other = other ∧ j.secret = secret := by
  obtain ⟨n, hn⟩ := exists_tarnOf_of_roundOf hr
  exact ⟨_, tarnOf_modTarn_same hn _, _, List.mem_append_right _ (List.mem_singleton_self _), rfl, rfl, rfl, rfl, rfl⟩

/-- Steps that each keep a round keep it together. -/
theorem roundOf_foldl {α : Type} {f : State → α → State} (hf : ∀ s x, roundOf s t q = some r → roundOf (f s x) t q = some r)
    (l : List α) : roundOf (l.foldl f s) t q = some r := by
  induction l generalizing s with
  | nil => exact hr
  | cons x l ih => exact ih (hf s x hr)

/-! Flags and failed edges (R314) -/

theorem roundOf_flagEntry (i other : Nat) (st : Status) :
    ∃ l, i ∈ l ∧ roundOf (flagEntry s t q i other st) t q = some { r with flagged := l } := by
  simp only [flagEntry, hr]
  split
  next hflagged => exact ⟨r.flagged, List.contains_iff_mem.mp hflagged, hr⟩
  · exact ⟨insertNat i r.flagged, mem_insertNat.mpr (.inl rfl), roundOf_modRound_same hr⟩

theorem roundOf_failEdge (i j : Nat) (st : Status) : ∃ l, r.failedEdges ⊆ l ∧ (min i j, max i j) ∈ l ∧
    roundOf (failEdge s t q i j st) t q = some { r with failedEdges := l } := by
  simp only [failEdge, hr]
  split
  next hfailed => exact ⟨r.failedEdges, fun _ => id, List.contains_iff_mem.mp hfailed, hr⟩
  · exact ⟨_, List.subset_append_left .., List.mem_append_right _ (List.mem_singleton_self _), roundOf_modRound_same hr⟩

/-- Every edge from a contributor to those of a list fails. -/
theorem roundOf_failEdges (i : Nat) (st : Status) (js : List Nat) : ∃ l, r.failedEdges ⊆ l ∧ (∀ j ∈ js, (min i j, max i j) ∈ l) ∧
    roundOf (js.foldl (fun s j => failEdge s t q i j st) s) t q = some { r with failedEdges := l } := by
  induction js generalizing s r with
  | nil => exact ⟨r.failedEdges, fun _ => id, by simp, hr⟩
  | cons j js ih =>
    obtain ⟨l, hkept, hedge, hround⟩ := roundOf_failEdge hr i j st
    obtain ⟨l', hkept', hedges, hround'⟩ := ih hround
    exact ⟨l', fun _ he => hkept' (hkept he), List.forall_mem_cons.mpr ⟨hkept' hedge, hedges⟩, hround'⟩

/-! Secrets that are done with -/

/-- A secret that is done with leaves the required ones; nothing else of the round changes (R317). -/
theorem roundOf_settleSecret (owner kind : Nat) : ∃ required releasing,
    roundOf (settleSecret s t q owner kind) t q = some { r with required, releasing } := by
  obtain ⟨n, hn⟩ := exists_tarnOf_of_roundOf hr
  simp only [settleSecret, hr, hn]
  split
  · exact ⟨_, _, hr⟩
  · exact ⟨_, _, roundOf_modRound_same hr⟩

omit hr in
theorem mem_settleSecret (owner kind : Nat) : (settleSecret s t q owner kind).mem = s.mem := by
  unfold settleSecret
  split
  · dsimp only
    split <;> rfl
  · rfl

/-- The shares of a secret are discarded and their holders barred (R310). -/
def barHolders (z : ShareSet) : ShareSet := { z with barred := z.barred ++ z.shares.map (·.1), shares := [] }

/-- A rebuild that fails discards its shares and bars their holders (R310). -/
theorem roundOf_rebuildFails (owner kind : Nat) (st : Status) : ∃ r', roundOf (rebuildFails s t q owner kind st) t q = some r' ∧
    (shareSetOf r' owner kind).shares = [] ∧
    ∀ h ∈ (shareSetOf r owner kind).shares, h.1 ∈ (shareSetOf r' owner kind).barred := by
  obtain ⟨keys, seeds, hcounted⟩ := roundOf_countRebuild hr kind
  have hround : ∃ refused, roundOf (rebuildFails s t q owner kind st) t q =
      some { withShares { r with keysRebuilt := keys, seedsRebuilt := seeds } owner kind barHolders with refuseAsked := refused } := by
    unfold rebuildFails
    extract_lets counted noted barred
    have hput : roundOf barred t q = some _ := roundOf_putShares (s := noted) hcounted owner kind barHolders
    simp -zeta only [hput]
    extract_lets
    split
    · exact ⟨true, roundOf_modRound_same hput⟩
    · exact ⟨_, hput⟩
  obtain ⟨refused, hround⟩ := hround
  have hset : shareSetOf { withShares { r with keysRebuilt := keys, seedsRebuilt := seeds } owner kind barHolders with
      refuseAsked := refused } owner kind = barHolders (shareSetOf r owner kind) :=
    shareSetOf_withShares _ owner kind fun _ => ⟨rfl, rfl⟩
  refine ⟨_, hround, congrArg ShareSet.shares hset, fun h hh => ?_⟩
  rw [hset]
  exact List.mem_append_right _ (List.mem_map_of_mem hh)

end

end Sys2Proof.Machine
end

section
/-! Shares as they are submitted and checked (R303 to R307). -/

namespace Sys2Proof.Machine

/-! SHARES_SUBMIT -/

/-- A ticket's next host read changes its reads, its faults and its mark only. -/
theorem ticketOf_pumpDma_eq {s : State} {uid : Nat} {k : Ticket} (hk : ticketOf s uid = some k) (stamp : Nat) :
    ∃ need dma faults dirty, ticketOf (pumpDma s stamp uid) uid = some { k with need, dma, faults, dirty } := by
  unfold pumpDma
  simp only [hk]
  split
  next c rest _ _ =>
    split
    · exact ⟨_, _, _, _, hk⟩
    split
    · exact ⟨_, _, _, _, ticketOf_failTicket hk⟩
    split
    · exact ⟨_, _, _, _, ticketOf_failTicket hk⟩
    · exact ⟨_, _, _, _, ticketOf_modTicket_same hk
        (g := fun k => { k with need := rest, dma := some ({ c with us := s.timeUs }, stamp) }) fun _ => rfl⟩
  · exact ⟨_, _, _, _, hk⟩

section
variable {s : State} {k : Ticket}

theorem serveShares_empty (hnone : opW k 2 = 0) : serveShares s k = finishTicket s k.uid 0 0 := by
  simp only [serveShares, hnone, beq_self_eq_true, if_true]

section
variable {r : Round} (hr : roundOf s k.tarn (opW k 0) = some r) (hsome : opW k 2 ≠ 0)
include hr hsome

theorem serveShares_waits (hwaits : r.state = .closed ∨ basinNow s k.tarn = false) : serveShares s k = s := by
  have hcond : (r.state == .closed || !basinNow s k.tarn) = true := by rcases hwaits with h | h <;> simp [h]
  simp only [serveShares, hr, beq_eq_false_iff_ne.mpr hsome, Bool.false_eq_true, if_false, hcond, if_true]

/-- The ticket begins to read its buffer (R303). -/
theorem serveShares_begins (hk : ticketOf s k.uid = some k) (hopen : r.state ≠ .closed) (hnow : basinNow s k.tarn = true)
    (hstage : k.stage = 0) : ∃ k', ticketOf (serveShares s k) k.uid = some k' ∧ k'.stage = 1 := by
  have hcond : (r.state == .closed || !basinNow s k.tarn) = false := by simp [hopen, hnow]
  simp only [serveShares, hr, beq_eq_false_iff_ne.mpr hsome, Bool.false_eq_true, if_false, hcond, hstage, beq_self_eq_true, if_true]
  have hbegun := ticketOf_modTicket_same hk (g := fun k => { k with stage := 1 }) fun _ => rfl
  have hneeds := ticketOf_modTicket_same hbegun
    (g := fun k' => { k' with need := k'.need ++ hostReads s k (opW k 1) (96 * opW k 2) }) fun _ => rfl
  obtain ⟨need, dma, faults, dirty, hpumped⟩ := ticketOf_pumpDma_eq hneeds s.beat
  exact ⟨_, hpumped, rfl⟩

end
end

/-! SHARE_ENTRY -/

theorem ticketOf_writeOutcomes (s : State) (k : Ticket) (unit uid : Nat) :
    ticketOf (writeOutcomes s k unit).2 uid = ticketOf s uid :=
  ticketOf_of_ticketsOnly (agree_hostOut (fun _ _ _ _ => rfl) (fun _ _ => rfl) le_rfl ..) uid

/-- A ticket stands after a choice when it stands after either. -/
theorem ticketOf_of_ite {α : Type} {c : Prop} [Decidable c] {a b : α × State} {e : α} {s : State} {uid : Nat} {k : Ticket}
    (h : (if c then a else b) = (e, s)) (ha : ticketOf a.2 uid = some k) (hb : ticketOf b.2 uid = some k) :
    ticketOf s uid = some k := by
  split at h
  · exact (congrArg (fun x => ticketOf x.2 uid) h).symm.trans ha
  · exact (congrArg (fun x => ticketOf x.2 uid) h).symm.trans hb

/-- An entry's outcome is appended to those of its ticket, whose bytes stay (R306, R412). -/
theorem ticketOf_entryOutcome {s : State} {uid : Nat} {k : Ticket} (hk : ticketOf s uid = some k) (hruns : ticketRuns k = true)
    (m unit : Nat) (st : Status) : ∃ k', ticketOf (entryOutcome s uid m unit st) uid = some k' ∧
      k'.outcomes = k.outcomes ++ [(m, st)] ∧ k'.plain = k.plain := by
  unfold entryOutcome
  split
  next hnone => cases hk.symm.trans hnone
  next k₁ hk₁ =>
  obtain rfl : k = k₁ := Option.some.inj (hk.symm.trans hk₁)
  rw [if_neg (by rw [hruns]; decide)]
  split
  next e s₁ hwritten =>
    have hk₁ : ticketOf s₁ uid = some k := ticketOf_of_ite hwritten hk ((ticketOf_hostOut ..).trans hk)
    have huid := uid_of_ticketOf hk
    extract_lets ok k' noted
    have hnoted : ticketOf noted uid = some k' := by
      rw [show ticketOf noted uid = _ from ticketOf_modTicket s₁ uid uid (fun _ => k') fun _ _ => huid, if_pos rfl, hk₁]
      rfl
    have hruns' : ticketRuns k' = true := hruns
    split
    · exact ⟨_, ticketOf_failTicket hnoted, rfl, rfl⟩
    split
    · exact ⟨_, hnoted, rfl, rfl⟩
    split
    next e' s₂ hwhole =>
      have hk₂ : ticketOf s₂ uid = some k' := ticketOf_of_ite hwhole ((ticketOf_writeOutcomes ..).trans hnoted) hnoted
      split
      · exact ⟨_, ticketOf_failTicket hk₂, rfl, rfl⟩
      · exact ⟨_, ticketOf_answerTicket hk₂ hruns', rfl, rfl⟩

/-- A share is accepted for a secret. -/
def addShare (sh : Nat × Nat × Nat × Nat) (z : ShareSet) : ShareSet := { z with shares := z.shares ++ [sh] }

/-- The share of an entry: holder, point and limbs (R303). -/
def entryShare (e : Bytes) : Nat × Nat × Nat × Nat := (field e 0x0C 4, field e 0x10 4, field e 0x20 32, field e 0x40 32)

/-- A round whose recovery ledger has an entry for a contributor (R307). -/
def inLedger (r : Round) (owner : Nat) (seed : Bool) : Round :=
  { r with recovery := if (assocGet owner r.recovery).isSome then r.recovery else r.recovery ++ [(owner, seed)] }

theorem assocGet_inLedger (r : Round) (owner : Nat) (seed : Bool) : assocGet owner (inLedger r owner seed).recovery ≠ none := by
  unfold inLedger
  dsimp only
  split
  next hin => exact Option.isSome_iff_ne_none.mp hin
  · simp [assocGet]

theorem roundOf_of_tarns {s s' : State} (h : s'.tarns = s.tarns) (t : TarnIx) (q : Nat) : roundOf s' t q = roundOf s t q := by
  simp only [roundOf, tarnOf, h]

section
variable {s : State} {t : TarnIx} {q : Nat} {r : Round}

theorem shareNext_waits (hwaits : sharesWait (roundOf s t q) = true ∨ roundTickets s t q 0x22 = []) : shareNext s t q = s := by
  unfold shareNext
  dsimp only
  split
  next k _ hfirst =>
    rw [hfirst, or_iff_left (List.cons_ne_nil _ _)] at hwaits
    rw [hwaits, Bool.true_or, if_pos rfl]
  · rfl

variable (hr : roundOf s t q = some r)
include hr

/-- An accepted share stands in its secret's set, and its owner in the recovery ledger (R304, R307). -/
theorem roundOf_acceptShare (e : Bytes) : roundOf (acceptShare s t r e) t q =
    some (withShares (inLedger r (field e 8 4) (byteAt e 2 == 1)) (field e 8 4) (byteAt e 2) (addShare (entryShare e))) := by
  unfold acceptShare
  rw [roundId_of_roundOf hr]
  extract_lets rid kind owner noted sh put
  have hnoted : roundOf noted t q = some (inLedger r owner (kind == 1)) := roundOf_modRound_same hr
  have hput : roundOf put t q = some _ := roundOf_putShares hnoted owner kind (addShare sh)
  have hqueued : (if (shareSetOf r owner kind).shares.length + 1 == r.plan.threshold then
      { put with rebuilds := put.rebuilds ++ [(t, rid, owner, kind)] } else put).tarns = put.tarns := by split <;> rfl
  exact (roundOf_of_tarns hqueued t q).trans hput

/-- What an entry's status makes of the round; no ticket changes (R304). -/
def takeShare (s : State) (t : TarnIx) (q : Nat) (r : Round) (e : Bytes) (st : Status) : State :=
  if st == .ok then acceptShare s t r e
  else if st == .recoveryRefused then tallyNote s t q 0x10 (byteAt e 2) (field e 8 4) (field e 0x0C 4) st
  else s

omit hr in
theorem ticketOf_takeShare (s : State) (t : TarnIx) (q : Nat) (r : Round) (e : Bytes) (st : Status) (uid : Nat) :
    ticketOf (takeShare s t q r e st) uid = ticketOf s uid := by
  unfold takeShare
  split
  · unfold acceptShare
    dsimp only
    split <;> rfl
  · split <;> rfl

theorem roundOf_takeShare (e : Bytes) (st : Status) : ∃ r', roundOf (takeShare s t q r e st) t q = some r' ∧
    (st = .ok → (shareSetOf r' (field e 8 4) (byteAt e 2)).shares = (shareSetOf r (field e 8 4) (byteAt e 2)).shares ++ [entryShare e] ∧
      assocGet (field e 8 4) r'.recovery ≠ none) ∧
    (st ≠ .ok → r'.shareSets = r.shareSets ∧ r'.recovery = r.recovery) := by
  by_cases hok : st = .ok
  · have hset := shareSetOf_withShares (inLedger r (field e 8 4) (byteAt e 2 == 1)) (field e 8 4) (byteAt e 2)
      (g := addShare (entryShare e)) fun _ => ⟨rfl, rfl⟩
    refine ⟨_, (congrArg (roundOf · t q) (if_pos (beq_iff_eq.mpr hok))).trans (roundOf_acceptShare hr e), fun _ => ⟨?_, ?_⟩,
      fun h => absurd hok h⟩
    · exact congrArg ShareSet.shares hset
    · exact assocGet_inLedger r _ _
  · refine ⟨r, Eq.trans ?_ hr, fun h => absurd h hok, fun _ => ⟨rfl, rfl⟩⟩
    rw [takeShare, if_neg (by simpa using hok)]
    split <;> rfl

/-- The first entry of the ticket admitted first, at a round that is not CLOSED and whose VALIDATE jobs have ended (R304 to R306). -/
theorem shareNext_eq {k : Ticket} {l : List Ticket} (hfirst : roundTickets s t q 0x22 = k :: l) (hwaits : sharesWait (some r) = false)
    (hlen : 96 ≤ k.plain.length) : shareNext s t q =
      entryOutcome (takeShare (withoutBytes s k.uid 96) t q r (k.plain.take 96)
        (shareVerdict (some r) q (k.plain.take 96))) k.uid k.outcomes.length 96 (shareVerdict (some r) q (k.plain.take 96)) := by
  have hcond : (sharesWait (some r) || decide ((k.plain.take 96).length < 96)) = false := by
    simpa [hwaits, List.length_take] using hlen
  simp only [shareNext, hr, hfirst, hcond, Bool.false_eq_true, if_false]
  rfl

omit hr in
/-- A ticket of a list that its serial number alone tells apart from the others. -/
theorem ticketOf_of_unique {s : State} {k : Ticket} (hmem : k ∈ s.tickets) (hunique : ∀ x ∈ s.tickets, x.uid = k.uid → x = k) :
    ticketOf s k.uid = some k := by
  obtain ⟨x, hx⟩ : ∃ x, ticketOf s k.uid = some x :=
    Option.isSome_iff_exists.mp (List.find?_isSome.mpr ⟨k, hmem, beq_self_eq_true _⟩)
  rw [hx, hunique x (List.mem_of_find?_eq_some hx) (uid_of_ticketOf hx)]

end

end Sys2Proof.Machine
end

section
/-! How a rebuild, the jobs of the key-agreement engine and mask corrections end (R309, R313, R314, R316, R321), and the statement about
them. -/

namespace Sys2Proof.Machine

section
variable {s : State} {t : TarnIx} {q : Nat} {r : Round} (hr : roundOf s t q = some r)
include hr

/-! REBUILD_COMPLETE -/

/-- The secret that a share set's limbs give. -/
def rebuiltSecret (sh : List (Nat × Nat × Nat × Nat)) : Bytes :=
  leBytes 16 (lagrange0 (sh.map fun h => (h.2.1, h.2.2.1))) ++ leBytes 16 (lagrange0 (sh.map fun h => (h.2.1, h.2.2.2)))

/-- A limb of a share set's secret lies outside its range (R309). -/
abbrev limbOutside (sh : List (Nat × Nat × Nat × Nat)) : Prop :=
  2 ^ 128 ≤ lagrange0 (sh.map fun h => (h.2.1, h.2.2.1)) ∨ 2 ^ 128 ≤ lagrange0 (sh.map fun h => (h.2.1, h.2.2.2))

section
variable {owner kind : Nat} {rest : List (TarnIx × Nat × Nat × Nat)} (hq : s.rebuilds = (t, q, owner, kind) :: rest)
include hq

theorem rebuildHead_fails (hout : limbOutside (shareSetOf r owner kind).shares) :
    rebuildHead s = rebuildFails { s with rebuilds := rest } t q owner kind .invalidShare := by
  have hr' : roundOf { s with rebuilds := rest } t q = some r := hr
  simp only [rebuildHead, hq, hr']
  exact if_pos (by simpa only [Bool.or_eq_true, decide_eq_true_eq] using hout)

theorem rebuildHead_key (hin : ¬ limbOutside (shareSetOf r owner kind).shares) (hkind : kind = 0) :
    rebuildHead s = addJob { s with rebuilds := rest } t q 1 owner owner (rebuiltSecret (shareSetOf r owner kind).shares) := by
  have hr' : roundOf { s with rebuilds := rest } t q = some r := hr
  simp only [rebuildHead, hq, hr']
  exact (if_neg (by simpa only [Bool.or_eq_true, decide_eq_true_eq] using hin)).trans (if_pos (beq_iff_eq.mpr hkind))

theorem rebuildHead_seed (hin : ¬ limbOutside (shareSetOf r owner kind).shares) (hkind : kind ≠ 0) :
    rebuildHead s = addJob (putShares (countRebuild { s with rebuilds := rest } t q kind) t q owner kind fun z => { z with rebuilt := true })
      t q 3 owner owner (rebuiltSecret (shareSetOf r owner kind).shares) := by
  have hr' : roundOf { s with rebuilds := rest } t q = some r := hr
  simp only [rebuildHead, hq, hr']
  exact (if_neg (by simpa only [Bool.or_eq_true, decide_eq_true_eq] using hin)).trans (if_neg (by simpa using hkind))

end

omit hr in
theorem rebuilds_rebuildFails (owner kind : Nat) (st : Status) : (rebuildFails s t q owner kind st).rebuilds = s.rebuilds := by
  unfold rebuildFails
  extract_lets counted noted barred
  have hbarred : barred.rebuilds = s.rebuilds := by simp [barred, putShares, noted, tallyNote, counted, countRebuild]
  split
  · exact hbarred
  · dsimp only
    split <;> exact hbarred

/-! KAE_JOB_COMPLETE -/

section
variable {j : KaeJob} (hq : j.round = q)
include hq

theorem jobDone_validate (hkind : j.kind = 0) : jobDone s t j = validateDone (dropJob s t j.id) t r j := by
  subst hq
  simp only [jobDone, roundOf_dropJob hr, hkind]

theorem jobDone_verify (hkind : j.kind = 1) : jobDone s t j = verifyDone (dropJob s t j.id) t r j := by
  subst hq
  simp only [jobDone, roundOf_dropJob hr, hkind]

theorem jobDone_pair (hvalidate : j.kind ≠ 0) (hverify : j.kind ≠ 1) : jobDone s t j = pairDone (dropJob s t j.id) t r j := by
  subst hq
  simp only [jobDone, roundOf_dropJob hr]

end

/-- VALIDATE ends: one job less is awaited, and a contributor whose entry is not good is flagged (R313). -/
theorem roundOf_validateDone (j : KaeJob) : ∃ r', roundOf (validateDone s t r j) t q = some r' ∧ r'.validating = r.validating - 1 ∧
    (validateEntry r.plan.kex (r.roster.getD j.owner []) ≠ .ok → j.owner ∈ r'.flagged) := by
  unfold validateDone
  rw [roundId_of_roundOf hr]
  extract_lets rid st flagged counted
  have hflagged : ∃ l edges, (st ≠ .ok → j.owner ∈ l) ∧
      roundOf flagged t q = some { r with flagged := l, failedEdges := edges } := by
    unfold flagged
    split
    next hok => exact ⟨_, _, fun h => absurd (beq_iff_eq.mp hok) h, hr⟩
    · obtain ⟨l, hmem, hround⟩ := roundOf_flagEntry hr j.owner 0xFFFFFFFF st
      obtain ⟨edges, -, -, hround'⟩ := roundOf_failEdges hround j.owner st (neighbours r.plan j.owner)
      exact ⟨l, edges, fun _ => hmem, hround'⟩
  obtain ⟨l, edges, hmem, hround⟩ := hflagged
  have hcounted : roundOf counted t q = some _ := roundOf_modRound_same hround
  split
  · exact ⟨_, roundOf_modRound_same hcounted, rfl, hmem⟩
  · exact ⟨_, hcounted, rfl, hmem⟩

omit hr in
theorem verifyDone_refused {j : KaeJob} (hbad : verifyKey r.plan.kex j.secret (r.roster.getD j.owner []) ≠ .ok) :
    verifyDone s t r j = rebuildFails s t r.plan.roundId j.owner 0 (verifyKey r.plan.kex j.secret (r.roster.getD j.owner [])) := by
  unfold verifyDone
  dsimp only
  split
  next hok => exact absurd hok hbad
  · rfl

/-- VERIFY of a matching key marks its secret rebuilt (R309, R316). -/
theorem roundOf_verifyDone_ok {j : KaeJob} (hok : verifyKey r.plan.kex j.secret (r.roster.getD j.owner []) = .ok) :
    ∃ r', roundOf (verifyDone s t r j) t q = some r' ∧ (shareSetOf r' j.owner 0).rebuilt = true := by
  simp -zeta only [verifyDone, hok, roundId_of_roundOf hr]
  extract_lets rid counted put queued
  obtain ⟨keys, seeds, hcounted⟩ := roundOf_countRebuild hr 0
  have hput : roundOf put t q = some _ := roundOf_putShares hcounted j.owner 0 fun z => { z with rebuilt := true }
  have hqueued : roundOf queued t q = some _ := roundOf_foldl hput (fun _ _ h => roundOf_addJob h ..) _
  obtain ⟨required, releasing, hsettled⟩ := roundOf_settleSecret hqueued j.owner 0
  exact ⟨_, hsettled, congrArg ShareSet.rebuilt (shareSetOf_withShares _ j.owner 0
    (g := fun z => { z with rebuilt := true }) fun _ => ⟨rfl, rfl⟩)⟩

theorem roundOf_verifyDone (j : KaeJob) : ∃ r', roundOf (verifyDone s t r j) t q = some r' ∧
    (verifyKey r.plan.kex j.secret (r.roster.getD j.owner []) = .ok → (shareSetOf r' j.owner 0).rebuilt = true) := by
  by_cases hok : verifyKey r.plan.kex j.secret (r.roster.getD j.owner []) = .ok
  · obtain ⟨r', hround, hrebuilt⟩ := roundOf_verifyDone_ok hr hok
    exact ⟨r', hround, fun _ => hrebuilt⟩
  · obtain ⟨r', hround, -⟩ := roundOf_rebuildFails hr j.owner 0 (verifyKey r.plan.kex j.secret (r.roster.getD j.owner []))
    rw [verifyDone_refused hok, roundId_of_roundOf hr]
    exact ⟨r', hround, fun h => absurd h hok⟩

theorem pairDone_shared {j : KaeJob} {z : Bytes} (hz : pairSecret r.plan.kex j.secret (r.roster.getD j.other []) = .ok z) :
    pairDone s t r j = addJob s t q 4 j.owner j.other z := by
  simp only [pairDone, hz, roundId_of_roundOf hr]

/-- PAIR without a shared secret: the survivor is flagged, and every edge there fails (R314). -/
theorem roundOf_pairDone_refused {j : KaeJob} {st : Status}
    (hst : pairSecret r.plan.kex j.secret (r.roster.getD j.other []) = .error st) : ∃ r', roundOf (pairDone s t r j) t q = some r' ∧
      j.other ∈ r'.flagged ∧ ∀ i ∈ neighbours r.plan j.other, (min j.other i, max j.other i) ∈ r'.failedEdges := by
  obtain ⟨l, hmem, hflagged⟩ := roundOf_flagEntry hr j.other j.owner st
  obtain ⟨_, -, -, hedge⟩ := roundOf_failEdge hflagged j.owner j.other st
  obtain ⟨edges, -, hedges, hround⟩ := roundOf_failEdges hedge j.other st (neighbours r.plan j.other)
  obtain ⟨required, releasing, hsettled⟩ := roundOf_settleSecret hround j.owner 0
  refine ⟨_, Eq.trans (congrArg (roundOf · t q) ?_) hsettled, hmem, hedges⟩
  simp only [pairDone, hst, roundId_of_roundOf hr]

/-! HKDF_COMPLETE -/

/-- The correction of a derived seed (R256, R316). -/
def correctionOf (r : Round) (j : KaeJob) : Correction :=
  if j.kind == 3 then { id := j.id, add := false, seed := selfKey r.plan j.secret j.owner, owner := j.owner, other := j.owner }
  else { id := j.id, add := j.owner < j.other, seed := pairSeed r.plan j.secret j.owner j.other, owner := j.owner, other := j.other }

omit hr in
theorem correctionOf_seed (r : Round) (j : KaeJob) : (correctionOf r j).id = j.id ∧ (correctionOf r j).seed =
    if j.kind = 3 then selfKey r.plan j.secret j.owner else pairSeed r.plan j.secret j.owner j.other := by
  by_cases h : j.kind = 3 <;> simp [correctionOf, h]

theorem roundOf_hkdfDone {j : KaeJob} (hq : j.round = q) :
    roundOf (hkdfDone s t j) t q = some { r with corrections := r.corrections ++ [correctionOf r j] } := by
  subst hq
  unfold hkdfDone
  extract_lets dropped
  have hdropped : roundOf dropped t j.round = some r := roundOf_dropJob hr j.id
  simp -zeta only [hdropped]
  exact roundOf_modRound_same hdropped

/-! MASK_CORRECTION_DONE -/

theorem correctImage_waits {x : Nat} (hwaits : r.corrections.find? (fun c => c.id == x) = none ∨ r.state ≠ .unmasking) :
    correctImage s t q x = s := by
  simp only [correctImage, hr]
  split
  · rfl
  next hfound =>
    have hstate := hwaits.resolve_left (by rw [hfound]; exact Option.some_ne_none _)
    exact if_pos (by simpa using hstate)

/-- The expansion of a correction goes into image 0 and its mirror, and the correction is no more (R312, R316). -/
theorem correctImage_applies {x : Nat} {c : Correction} (hfound : r.corrections.find? (fun c => c.id == x) = some c)
    (hstate : r.state = .unmasking) : ∃ r', roundOf (correctImage s t q x) t q = some r' ∧
      r'.corrections = r.corrections.filter (fun y => y.id != x) ∧
      (correctImage s t q x).mem = (imgAdd s r.plan (!c.add) (prgWords r.plan c.seed)).mem := by
  have hgo : ¬ (r.state != .unmasking) = true := by simpa using hstate
  simp -zeta only [correctImage, hr, hfound]
  rw [if_neg hgo]
  extract_lets added removed
  have hremoved : roundOf removed t q = some _ := roundOf_modRound_same (s := added) hr
  obtain ⟨required, releasing, hsettled⟩ := roundOf_settleSecret hremoved c.owner (if c.owner == c.other then 1 else 0)
  exact ⟨_, hsettled, rfl, mem_settleSecret ..⟩

end

end Sys2Proof.Machine

open Sys2Proof.Machine

/-- Settles O42, by what each step of the recovery makes of the round and of its jobs. -/
theorem masksAreRecovered : Obligations.MasksAreRecovered := by
  intro s t id r hshaped hrun hr
  refine ⟨fun uid k hk hop ht hruns hid hup => ?_, fun hwaits => ?_, fun k l hfirst hunique hup hnow hwaits hlen => ?_,
    fun hidle => ?_, fun owner kind rest hq hfield => ?_, fun x hnone => ?_, fun j x hstarted hround => ?_, fun x hnone => ?_,
    fun j x hstarted hround => ?_, fun x hwaits => ?_, fun x c hfound hstate hup hnow hheld => ?_⟩
  · subst ht
    have huid := uid_of_ticketOf hk
    subst huid
    rw [← hid] at hr
    have hexec : exec (.sharesSubmit k.uid) s = .next (serveShares s k) := by
      simp [exec, execSharesSubmit, serveRunning, hk, hop, hruns, hrun, hup]
    rw [hexec]
    refine ⟨fun hnone => ?_, fun hsome hwaits => congrArg _ (serveShares_waits hr hsome hwaits), fun hsome hopen hnow hstage => ?_⟩
    · exact ⟨_, congrArg _ (serveShares_empty hnone), endsWith_finishTicket hk hruns ..⟩
    · obtain ⟨k', hbegun⟩ := serveShares_begins hr hsome hk hopen hnow hstage
      exact ⟨_, k', rfl, hbegun⟩
  · rcases hwaits with h | h | h | h
    · simp [exec, execShareEntry, h]
    · simp [exec, execShareEntry, h]
    · simp only [exec, execShareEntry, shareNext_waits (.inl (hr ▸ h)), ite_self]
    · simp only [exec, execShareEntry, shareNext_waits (.inr h), ite_self]
  · intro e owner kind st
    obtain ⟨hmem, hruns⟩ : k ∈ s.tickets ∧ ticketRuns k = true := by
      have hmem : k ∈ roundTickets s t id.toNat 0x22 := hfirst ▸ List.mem_cons_self
      simp only [roundTickets, List.mem_filter, Bool.and_eq_true] at hmem
      obtain ⟨hmem, ⟨-, hruns⟩, -⟩ := hmem
      exact ⟨hmem, hruns⟩
    have htaken := ticketOf_modTicket_same (ticketOf_of_unique hmem hunique)
      (g := fun k => { k with plain := k.plain.drop 96 }) fun _ => rfl
    obtain ⟨r', hround, hkept⟩ := roundOf_takeShare (s := withoutBytes s k.uid 96) hr e st
    have htaken' := (ticketOf_takeShare (withoutBytes s k.uid 96) t id.toNat r e st k.uid).trans htaken
    obtain ⟨k', hticket, houtcomes, hplain⟩ := ticketOf_entryOutcome htaken' hruns k.outcomes.length 96 st
    refine ⟨_, k', r', ?_, hticket, houtcomes, hplain, (roundOf_of_unsent (unsent_entryOutcome ..) ..).trans hround, hkept⟩
    simp only [exec, execShareEntry, hrun, hup, hnow, Bool.and_self, if_true, shareNext_eq hr hfirst hwaits hlen]
    rfl
  · rcases hidle with h | h
    · simp [exec, execRebuildComplete, rebuildHead, h]
    · simp [exec, execRebuildComplete, h]
  · have hexec : exec .rebuildComplete s = .next (rebuildHead s) := by simp [exec, execRebuildComplete, hrun, hfield]
    rw [hexec]
    intro sh l0 l1
    have hr' : roundOf { s with rebuilds := rest } t id.toNat = some r := hr
    by_cases hout : limbOutside sh
    · obtain ⟨r', hround, hfails⟩ := roundOf_rebuildFails hr' owner kind .invalidShare
      obtain ⟨n', hn'⟩ := exists_tarnOf_of_roundOf hround
      refine ⟨_, r', n', congrArg _ (rebuildHead_fails hr hq hout), rebuilds_rebuildFails .., hround, hn', fun _ => hfails,
        fun h0 h1 => ?_⟩
      exact absurd hout (not_or.mpr ⟨Nat.not_le.mpr h0, Nat.not_le.mpr h1⟩)
    · by_cases hkind : kind = 0
      · obtain ⟨n', hn', j, hj, hround, hkind', howner, -, hsecret⟩ := addJob_queued hr' id.toNat 1 owner owner (rebuiltSecret sh)
        refine ⟨_, r, n', congrArg _ (rebuildHead_key hr hq hout hkind), rfl, roundOf_addJob hr' .., hn', fun h => absurd h hout,
          fun _ _ => ⟨⟨j, hj, hround, hkind'.trans (if_pos hkind).symm, howner, hsecret⟩, fun h => absurd hkind h⟩⟩
      · obtain ⟨keys, seeds, hcounted⟩ := roundOf_countRebuild hr' kind
        have hput := roundOf_putShares hcounted owner kind fun z => { z with rebuilt := true }
        obtain ⟨n', hn', j, hj, hround, hkind', howner, -, hsecret⟩ := addJob_queued hput id.toNat 3 owner owner (rebuiltSecret sh)
        have hset := congrArg ShareSet.rebuilt (shareSetOf_withShares { r with keysRebuilt := keys, seedsRebuilt := seeds } owner kind
          (g := fun z => { z with rebuilt := true }) fun _ => ⟨rfl, rfl⟩)
        refine ⟨_, _, n', congrArg _ (rebuildHead_seed hr hq hout hkind), rfl, roundOf_addJob hput .., hn', fun h => absurd h hout,
          fun _ _ => ⟨⟨j, hj, hround, hkind'.trans (if_neg hkind).symm, howner, hsecret⟩, fun _ => hset⟩⟩
  · simp only [exec, execKaeJobComplete, hnone, ite_self]
  · have hexec : exec (.kaeJobComplete t x) s = .next (jobDone s t j) := by simp only [exec, execKaeJobComplete, hrun, if_true, hstarted]
    have hdropped := roundOf_dropJob hr j.id
    rw [hexec]
    by_cases h0 : j.kind = 0
    · obtain ⟨r', hround', hdone⟩ := roundOf_validateDone hdropped j
      exact ⟨_, r', congrArg _ (jobDone_validate hr hround h0), hround', fun _ => hdone, by simp [h0], by simp [h0], by simp [h0]⟩
    by_cases h1 : j.kind = 1
    · obtain ⟨r', hround', hdone⟩ := roundOf_verifyDone hdropped j
      exact ⟨_, r', congrArg _ (jobDone_verify hr hround h1), hround', fun h => absurd h h0, fun _ => hdone, by simp [h1], by simp [h1]⟩
    rw [jobDone_pair hr hround h0 h1]
    cases hpair : pairSecret r.plan.kex j.secret (r.roster.getD j.other []) with
    | ok z =>
      obtain ⟨n, hn, y, hy, -, hkind, howner, hother, hsecret⟩ := addJob_queued hdropped id.toNat 4 j.owner j.other z
      refine ⟨_, r, congrArg _ (pairDone_shared hdropped hpair), roundOf_addJob hdropped .., fun h => absurd h h0, fun h => absurd h h1,
        fun _ z' hz' => ?_, fun _ st hst => nomatch hst⟩
      obtain rfl : z = z' := Except.ok.inj hz'
      exact ⟨n, hn, y, hy, hkind, howner, hother, hsecret⟩
    | error st =>
      obtain ⟨r', hround', hrefused⟩ := roundOf_pairDone_refused hdropped hpair
      exact ⟨_, r', rfl, hround', fun h => absurd h h0, fun h => absurd h h1, fun _ z hz => (nomatch hz), fun _ _ _ => hrefused⟩
  · simp only [exec, execHkdfComplete, hnone, ite_self]
  · have hexec : exec (.hkdfComplete t x) s = .next (hkdfDone s t j) := by simp only [exec, execHkdfComplete, hrun, if_true, hstarted]
    exact ⟨_, _, hexec, roundOf_hkdfDone hr hround, correctionOf r j, rfl, correctionOf_seed r j⟩
  · rcases hwaits with h | h | h | h | h
    · simp only [exec, execMaskCorrectionDone, correctImage_waits hr (.inl h), ite_self]
    · simp only [exec, execMaskCorrectionDone, correctImage_waits hr (.inr h), ite_self]
    all_goals simp [exec, execMaskCorrectionDone, h]
  · obtain ⟨r', happlied⟩ := correctImage_applies hr hfound hstate
    refine ⟨_, r', ?_, happlied⟩
    simp only [exec, execMaskCorrectionDone, hrun, hup, hnow, hheld, Bool.not_false, Bool.and_self, if_true]
end

section
/-! Lengths of what the published algorithms give: SHA-384 and HKDF, AES-256 under its key schedule, and GCM. -/

namespace Sys2Proof.Machine

/-! Lists of pieces of one length -/

/-- A list of `m` pieces, each of `n` entries. -/
def Pieces {α : Type} (n m : Nat) (l : List (List α)) : Prop := l.length = m ∧ ∀ p ∈ l, p.length = n

namespace Pieces
variable {α : Type} {n m : Nat} {l : List (List α)}

theorem cons {p : List α} (hp : p.length = n) (h : Pieces n m l) : Pieces n (m + 1) (p :: l) :=
  ⟨congrArg (· + 1) h.1, List.forall_mem_cons.mpr ⟨hp, h.2⟩⟩

theorem reverse (h : Pieces n m l) : Pieces n m l.reverse := by simpa only [Pieces, List.length_reverse, List.mem_reverse] using h

theorem map {β : Type} (f : α → β) (h : Pieces n m l) : Pieces n m (l.map (List.map f)) :=
  ⟨List.length_map _ |>.trans h.1, by simpa only [List.forall_mem_map, List.length_map] using h.2⟩

theorem take_drop (h : Pieces n m l) {i k : Nat} (hk : i + k ≤ m) : Pieces n k ((l.drop i).take k) := by
  refine ⟨?_, fun p hp => h.2 p (List.mem_of_mem_drop (List.mem_of_mem_take hp))⟩
  rw [List.length_take, List.length_drop, h.1]
  omega

theorem length_getD (h : Pieces n m l) {i : Nat} (hi : i < m) : (l.getD i []).length = n := by
  rw [List.getD_eq_getElem l [] (h.1 ▸ hi)]
  exact h.2 _ (List.getElem_mem _)

theorem length_flatten (h : Pieces n m l) : l.flatten.length = m * n := by
  rw [List.length_flatten, List.map_congr_left h.2, List.map_const', h.1, List.sum_replicate, smul_eq_mul]

end Pieces

/-- A string whose length is a multiple of `n` is cut into whole pieces. -/
theorem pieces_chunks {n m : Nat} (hn : 0 < n) {bs : Bytes} (hlen : bs.length = m * n) : Pieces n m (chunks n bs) := by
  have haux (fuel : Nat) (hfuel : m ≤ fuel) : Pieces n m (chunksAux n fuel bs) := by
    induction m generalizing fuel bs with
    | zero =>
      obtain rfl : bs = [] := List.length_eq_zero_iff.mp (hlen.trans (Nat.zero_mul n))
      cases fuel <;> exact ⟨rfl, fun _ h => nomatch h⟩
    | succ m ih =>
      obtain ⟨fuel, rfl⟩ : ∃ f, fuel = f + 1 := ⟨fuel - 1, by omega⟩
      rw [Nat.succ_mul] at hlen
      have hne : bs.isEmpty = false := by rw [List.isEmpty_eq_false_iff_exists_mem]; exact List.length_pos_iff_exists_mem.mp (by omega)
      rw [chunksAux, hne, if_neg (by decide)]
      exact .cons (by rw [List.length_take]; omega) (ih (by rw [List.length_drop]; omega) fuel (by omega))
  exact haux bs.length (hlen ▸ Nat.le_mul_of_pos_right m hn)

/-! SHA-384 and HKDF -/

theorem length_shaRounds (p : ShaPar) (ks win v : List Nat) (hv : v.length = 8) : (shaRounds p ks win v).length = 8 := by
  fun_induction shaRounds p ks win v with
  | case1 _ _ _ _ _ _ _ _ _ _ _ _ _ _ _ _ ih => exact ih rfl
  | case2 => exact hv

theorem length_shaBlock (p : ShaPar) {h : List Nat} (hh : h.length = 8) (block : Bytes) : (shaBlock p h block).length = 8 := by
  simp only [shaBlock, List.length_zipWith, length_shaRounds _ _ _ _ hh, hh, Nat.min_self]

theorem length_shaHash (p : ShaPar) {h : List Nat} (hh : h.length = 8) (m : Bytes) : (shaHash p h m).length = 8 := by
  unfold shaHash
  induction chunks (2 * p.w) (m ++ shaPad p m.length) generalizing h with
  | nil => exact hh
  | cons b bs ih => exact ih (length_shaBlock p hh b)

@[simp] theorem length_sha384 (m : Bytes) : (sha384 m).length = 48 := by
  have hwords : Pieces 8 8 ((shaHash par512 sha384H0 m).map (beBytes 8)) :=
    ⟨(List.length_map _).trans (length_shaHash par512 rfl m), by simp⟩
  rw [sha384, List.length_take, hwords.length_flatten]
  rfl

theorem length_hkdfBlocks (prk info : Bytes) (n i : Nat) (prev : Bytes) : (hkdfBlocks hmac384 prk info n i prev).length = n * 48 := by
  induction n generalizing i prev with
  | zero => rw [Nat.zero_mul]; rfl
  | succ n ih => rw [hkdfBlocks, List.length_append, ih, hmac384, hmacOf, length_sha384]; omega

@[simp] theorem length_hkdf384 (salt ikm info : Bytes) (len : Nat) : (hkdf384 salt ikm info len).length = len := by
  rw [hkdf384, hkdfExpand384, List.length_take, length_hkdfBlocks, cdiv]
  omega

/-! AES-256 -/

/-- Each further word of the key schedule has four bytes. -/
theorem pieces_aesExpand (n i rcon : Nat) {m : Nat} {acc : List (List Nat)} (hacc : Pieces 4 m acc) (hm : 8 ≤ m) :
    Pieces 4 (m + n) (aesExpand n i rcon acc) := by
  induction n generalizing i rcon m acc with
  | zero => exact hacc
  | succ n ih =>
    have hlast : (acc.getD 0 []).length = 4 := hacc.length_getD (by omega)
    have hback : (acc.getD 7 []).length = 4 := hacc.length_getD (by omega)
    rw [aesExpand, ← Nat.succ_add_eq_add_succ]
    refine ih _ _ (.cons ?_ hacc) (by omega)
    rw [List.length_zipWith, hback]
    generalize acc.getD 0 [] = t at hlast ⊢
    split
    · simp [hlast]
    · split <;> simp [hlast]

theorem pieces_aesKeys {key : Bytes} (hkey : key.length = 32) : Pieces 16 15 (aesKeys key) := by
  have hwords : Pieces 4 8 ((chunks 4 key).map fun w => w.map BitVec.toNat).reverse :=
    ((pieces_chunks (by decide) hkey).map BitVec.toNat).reverse
  have hschedule := (pieces_aesExpand 52 8 1 hwords le_rfl).reverse
  refine ⟨by simp [aesKeys], List.forall_mem_map.mpr fun r hr => ?_⟩
  exact (hschedule.take_drop (by have := List.mem_range.mp hr; omega)).length_flatten

theorem length_aesShift (s : List Nat) : (aesShift s).length = 16 := by simp [aesShift]

theorem length_aesRounds {ks : List (List Nat)} (hks : ∀ k ∈ ks, k.length = 16) (hne : ks ≠ []) (s : List Nat) :
    (aesRounds ks s).length = 16 := by
  fun_induction aesRounds ks s with
  | case1 => exact absurd rfl hne
  | case2 k s => rw [List.length_zipWith, length_aesShift, hks k List.mem_cons_self, Nat.min_self]
  | case3 s k ks hmore ih => exact ih (fun k hk => hks k (List.mem_cons_of_mem _ hk)) fun h => hmore h

theorem length_aesBlockK {ks : List (List Nat)} (hks : Pieces 16 15 ks) (b : Bytes) : (aesBlockK ks b).length = 16 := by
  obtain ⟨hlen, hkeys⟩ := hks
  rw [aesBlockK, List.length_map]
  refine length_aesRounds (fun k hk => hkeys k (List.mem_of_mem_drop hk)) (fun h => ?_) _
  rw [List.drop_eq_nil_iff, hlen] at h
  omega

/-! GCM -/

theorem length_gcmStream {ks : List (List Nat)} (hks : Pieces 16 15 ks) (nonce : Bytes) (c : Nat) {m : Nat} {ps : List Bytes}
    (hps : Pieces 16 m ps) : (gcmStream ks nonce c ps).length = m * 16 := by
  obtain ⟨rfl, hps⟩ := hps
  induction ps generalizing c with
  | nil => rw [List.length_nil, Nat.zero_mul]; rfl
  | cons p ps ih =>
    obtain ⟨hp, hps⟩ := List.forall_mem_cons.mp hps
    rw [gcmStream, List.length_append, ih _ hps, xorBytes, List.length_zipWith, hp, length_aesBlockK hks, List.length_cons]
    omega

theorem length_gcmTag {ks : List (List Nat)} (hks : Pieces 16 15 ks) (nonce aad ct : Bytes) : (gcmTag ks nonce aad ct).length = 16 := by
  rw [gcmTag, xorBytes, List.length_zipWith, length_beBytes, length_aesBlockK hks, Nat.min_self]

/-- Under a 32-byte key, whole blocks are sealed to as many bytes and a 16-byte tag. -/
theorem length_gcmSeal {key pt : Bytes} {m : Nat} (hkey : key.length = 32) (hpt : pt.length = m * 16) (nonce aad : Bytes) :
    (gcmSeal key nonce aad pt).1.length = m * 16 ∧ (gcmSeal key nonce aad pt).2.length = 16 := by
  have hks := pieces_aesKeys hkey
  dsimp only [gcmSeal]
  exact ⟨length_gcmStream hks nonce 2 (pieces_chunks (by decide) hpt), length_gcmTag hks nonce aad _⟩

end Sys2Proof.Machine
end

section
/-! A management request that the shared checks let go on, its answer (R617 to R621), and the trust store (R614, R616). -/

namespace Sys2Proof.Machine

/-! The answer -/

/-- The state in which a request's own effect starts: its nonce may have been used (R619). -/
def withNonces (s : State) (l : List (Bytes × Nat)) : State := { s with mgmt := { s.mgmt with nonces := l } }

/-- The own effect of a request that the shared checks let go on. -/
theorem gmpRun_of_gmpOk {s : State} {r : GmpReq} {role : BitVec 4} {signed onBoard reads : Bool}
    (h : GmpOk s r role signed onBoard reads) :
    ∃ l, ∀ f : State → State, gmpRun s r role signed onBoard reads f = f (withNonces s l) := by
  obtain ⟨hserved, hopen, hverdict⟩ := h
  have hused : ∃ l, useNonce s r signed = withNonces s l := by
    unfold useNonce
    split
    · split
      · exact ⟨_, rfl⟩
      · exact ⟨s.mgmt.nonces, rfl⟩
    · exact ⟨s.mgmt.nonces, rfl⟩
  obtain ⟨l, hl⟩ := hused
  refine ⟨l, fun f => ?_⟩
  simp only [gmpRun, hserved, hopen, hverdict, Bool.not_true, Bool.or_self, Bool.false_eq_true, if_false, hl]

theorem gmpAnswer_of_chanOpen {s : State} {r : GmpReq} (h : chanOpen s r.channel = true) (st : Status) (b : Bytes) :
    gmpAnswer s r st b = emit s (.gmp r.channel r.requestId st b) := if_pos h

/-- A request is refused: it is answered with a status, and nothing else changes but its nonce. -/
def Refuses (s : State) (r : GmpReq) (c : Instr) (st : Status) : Prop :=
  ∃ s', exec c s = .next s' ∧ Answered s s' r st [] ∧ s' = { s with mgmt := s'.mgmt, outbox := s'.outbox }

section
variable {s : State} {r : GmpReq} (hopen : chanOpen s r.channel = true)
include hopen

theorem refuses_of {c : Instr} {st : Status} {l : List (Bytes × Nat)} {s' : State} (hexec : exec c s = .next s')
    (hanswer : s' = gmpAnswer (withNonces s l) r st []) : Refuses s r c st := by
  rw [hanswer, gmpAnswer_of_chanOpen (s := withNonces s l) hopen] at hexec
  exact ⟨_, hexec, rfl, rfl⟩

/-- The answer is the one thing sent where what was done before sent nothing and ended no session. -/
theorem answered_gmpAnswer {s' : State} {st : Status} {b : Bytes} (hout : s'.outbox = s.outbox) (htls : s'.mgmt.tls = s.mgmt.tls) :
    Answered s (gmpAnswer s' r st b) r st b := by
  have hopen' : chanOpen s' r.channel = true := by
    rw [← hopen]
    unfold chanOpen
    rw [htls]
  rw [Answered, gmpAnswer_of_chanOpen hopen', ← hout]
  rfl

end

section
variable (s : State) (r : GmpReq) (st : Status) (b : Bytes)

theorem tally_gmpAnswer : (gmpAnswer s r st b).tally = s.tally := by rw [gmpAnswer, gmpReply_frame]

theorem tarnOf_gmpAnswer (t : TarnIx) : tarnOf (gmpAnswer s r st b) t = tarnOf s t := by rw [gmpAnswer, gmpReply_frame]; rfl

theorem anchorOf_gmpAnswer (k : Nat) : anchorOf (gmpAnswer s r st b) k = anchorOf s k := by rw [gmpAnswer, gmpReply_frame]; rfl

theorem parentOf_gmpAnswer (p : Nat) : parentOf (gmpAnswer s r st b) p = parentOf s p := by rw [gmpAnswer, gmpReply_frame]; rfl

end

theorem next_tally_one (s : State) (kind tarn : Nat) (firmware : Bool) (st : Status) (payload : Bytes) :
    s.tally.next < (tally s kind 1 tarn firmware st payload).tally.next := next_tally s kind 1 tarn firmware st payload

/-! The trust store -/

/-- Changing one anchor slot changes it, and no other. -/
theorem anchorOf_modAnchor (s : State) (i j : Nat) (g : Anchor → Anchor) (h : s.fuses.anchors.length = 32) :
    anchorOf (modAnchor s i g) j = if i = j ∧ j < 32 then g (anchorOf s j) else anchorOf s j := by
  simp only [anchorOf, modAnchor, getD_modify, h]

/-- Some anchor has a property exactly when some slot has it. -/
theorem any_anchors (s : State) (p : Anchor → Bool) (h : s.fuses.anchors.length = 32) :
    s.fuses.anchors.any p = true ↔ ∃ j, j < 32 ∧ p (anchorOf s j) = true := by
  simp only [List.any_eq_true, List.mem_iff_getElem, anchorOf]
  constructor
  · rintro ⟨_, ⟨j, hj, rfl⟩, hp⟩
    exact ⟨j, h ▸ hj, by rwa [List.getD_eq_getElem _ _ hj]⟩
  · rintro ⟨j, hj, hp⟩
    exact ⟨_, ⟨j, h ▸ hj, rfl⟩, by rwa [List.getD_eq_getElem _ _ (h ▸ hj)] at hp⟩

section
variable {s : State} {r : GmpReq}

/-- The anchor that TRUST_ADD burns. -/
def newAnchor (digest : Bytes) (roles : BitVec 4) : Anchor :=
  { burnt := true, revoked := false, digest, roles, pub := (upto 97).map (Config.flashKey digest) }

section
variable {digest : Bytes}

theorem addTrust_malformed (hlen : digest.length ≠ 48) (roles : BitVec 4) : addTrust s r digest roles = gmpAnswer s r .badCommand [] :=
  if_pos (by simpa using hlen)

variable (hlen : digest.length = 48) (roles : BitVec 4)
include hlen

theorem addTrust_full (hfull : ∀ k, k < 32 → (anchorOf s k).burnt = true) :
    addTrust s r digest roles = gmpAnswer s r .counterExhausted [] := by
  have hnone : (upto 32).find? (fun k => !(anchorOf s k).burnt) = none := by
    simpa only [List.find?_eq_none, List.mem_range, Bool.not_eq_true', Bool.not_eq_false] using hfull
  simp only [addTrust, hlen, bne_self_eq_false, Bool.false_eq_true, if_false, hnone]

theorem addTrust_burns {k : Nat} (hfree : (upto 32).find? (fun k => !(anchorOf s k).burnt) = some k) :
    addTrust s r digest roles = gmpAnswer (modAnchor s k fun _ => newAnchor digest roles) r .ok (leBytes 1 k) := by
  simp only [addTrust, hlen, bne_self_eq_false, Bool.false_eq_true, if_false, hfree]
  rfl

/-- What TRUST_ADD leaves: its anchor in the slot, and every other slot as it was (R614). -/
theorem addTrust_leaves {k : Nat} (hfree : (upto 32).find? (fun k => !(anchorOf s k).burnt) = some k)
    (hanchors : s.fuses.anchors.length = 32) (hopen : chanOpen s r.channel = true) :
    Answered s (addTrust s r digest roles) r .ok (leBytes 1 k) ∧ anchorOf (addTrust s r digest roles) k = newAnchor digest roles ∧
      ∀ j, j ≠ k → anchorOf (addTrust s r digest roles) j = anchorOf s j := by
  have hk : k < 32 := List.mem_range.mp (List.mem_of_find?_eq_some hfree)
  rw [addTrust_burns hlen roles hfree]
  refine ⟨answered_gmpAnswer hopen rfl rfl, ?_, fun j hj => ?_⟩
  · rw [anchorOf_gmpAnswer, anchorOf_modAnchor _ _ _ _ hanchors, if_pos ⟨rfl, hk⟩]
  · rw [anchorOf_gmpAnswer, anchorOf_modAnchor _ _ _ _ hanchors, if_neg fun h => hj h.1.symm]

end

/-- An anchor that is revoked. -/
def revokedAnchor (a : Anchor) : Anchor := { a with revoked := true }

theorem removeTrust_malformed {k : Nat} (hk : 32 ≤ k) : removeTrust s r k = gmpAnswer s r .badCommand [] := if_pos hk

section
variable {k : Nat} (hk : k < 32) (hlen : s.fuses.anchors.length = 32)
include hk hlen

/-- Without slot `k` a SECURITY anchor is left exactly when another slot holds one (R616). -/
theorem any_security_modAnchor : (modAnchor s k revokedAnchor).fuses.anchors.any
      (fun a => anchorUnrevoked a && a.roles &&& security == security) = true ↔
    ∃ j, j < 32 ∧ j ≠ k ∧ anchorUnrevoked (anchorOf s j) = true ∧ (anchorOf s j).roles &&& security = security := by
  rw [any_anchors _ _ ((List.length_modify ..).trans hlen)]
  refine exists_congr fun j => and_congr_right fun hj => ?_
  rw [anchorOf_modAnchor _ _ _ _ hlen]
  by_cases h : k = j
  · subst h
    simp [hk, revokedAnchor, anchorUnrevoked]
  · simp [h, Ne.symm h]

theorem removeTrust_refused (hlast : (anchorOf s k).burnt = false ∨
      ∀ j, j < 32 → j ≠ k → anchorUnrevoked (anchorOf s j) = true → (anchorOf s j).roles &&& security ≠ security) :
    removeTrust s r k = gmpAnswer s r .notPermitted [] := by
  have hcond : (!(anchorOf s k).burnt || !((modAnchor s k revokedAnchor).fuses.anchors.any
      fun a => anchorUnrevoked a && a.roles &&& security == security)) = true := by
    rw [Bool.or_eq_true, Bool.not_eq_true', Bool.not_eq_true', ← Bool.not_eq_true, ← Bool.not_eq_true, any_security_modAnchor hk hlen]
    refine hlast.imp (by simp) fun h => ?_
    rintro ⟨j, hj, hne, hlive, hrole⟩
    exact h j hj hne hlive hrole
  exact (if_neg (Nat.not_lt.mpr (Nat.le_of_lt_succ hk))).trans (if_pos hcond)

theorem removeTrust_revokes (hburnt : (anchorOf s k).burnt = true)
    (hother : ∃ j, j < 32 ∧ j ≠ k ∧ anchorUnrevoked (anchorOf s j) = true ∧ (anchorOf s j).roles &&& security = security) :
    removeTrust s r k = gmpAnswer (modAnchor s k revokedAnchor) r .ok [] := by
  have hcond : ¬ (!(anchorOf s k).burnt || !((modAnchor s k revokedAnchor).fuses.anchors.any
      fun a => anchorUnrevoked a && a.roles &&& security == security)) = true := by
    rw [hburnt, (any_security_modAnchor hk hlen).mpr hother]
    decide
  exact (if_neg (Nat.not_lt.mpr (Nat.le_of_lt_succ hk))).trans (if_neg hcond)

/-- What TRUST_REMOVE leaves: its slot revoked, and every other slot as it was (R616). -/
theorem removeTrust_leaves (hburnt : (anchorOf s k).burnt = true)
    (hother : ∃ j, j < 32 ∧ j ≠ k ∧ anchorUnrevoked (anchorOf s j) = true ∧ (anchorOf s j).roles &&& security = security)
    (hopen : chanOpen s r.channel = true) :
    Answered s (removeTrust s r k) r .ok [] ∧ (anchorOf (removeTrust s r k) k).revoked = true ∧
      ∀ j, j ≠ k → anchorOf (removeTrust s r k) j = anchorOf s j := by
  rw [removeTrust_revokes hk hlen hburnt hother]
  refine ⟨answered_gmpAnswer hopen rfl rfl, ?_, fun j hj => ?_⟩
  · rw [anchorOf_gmpAnswer, anchorOf_modAnchor _ _ _ _ hlen, if_pos ⟨rfl, hk⟩]
    rfl
  · rw [anchorOf_gmpAnswer, anchorOf_modAnchor _ _ _ _ hlen, if_neg fun h => hj h.1.symm]

end
end

end Sys2Proof.Machine
end

section
/-! Floors, round authorities, tag keys, the parent table and root blobs (R300, R474, R479, R487, R515, R623, R625). -/

namespace Sys2Proof.Machine

section
variable {s : State} {r : GmpReq} {t : TarnIx}

/-! FLOOR_SET, AUTHORITY_SET, TAG_KEY_SET -/

theorem setFloor_none (hn : tarnOf s t = none) (floor : Nat) : setFloor s r t floor = gmpAnswer s r .notPermitted [] := by
  simp only [setFloor, hn]

section
variable {n : Tarn} (hn : tarnOf s t = some n) {floor : Nat}
include hn

theorem setFloor_high (hhigh : 268435456 < floor) : setFloor s r t floor = gmpAnswer s r .badCommand [] := by
  simp only [setFloor, hn, hhigh, if_true]

theorem setFloor_low (hlow : floor < 64) : setFloor s r t floor = gmpAnswer s r .notPermitted [] := by
  simp only [setFloor, hn, hlow, show ¬ 268435456 < floor by omega, if_false, if_true]

theorem setFloor_sets (hlow : 64 ≤ floor) (hhigh : floor ≤ 268435456) : setFloor s r t floor =
    gmpAnswer (tally (modTarn s t fun n => { n with opFloor := floor }) 0x0073 1 t false .ok (leBytes 4 n.opFloor ++ leBytes 4 floor))
      r .ok [] := by
  simp only [setFloor, hn, Nat.not_lt.mpr hlow, Nat.not_lt.mpr hhigh, if_false]

/-- What FLOOR_SET leaves (R300). -/
theorem setFloor_leaves (hlow : 64 ≤ floor) (hhigh : floor ≤ 268435456) (hopen : chanOpen s r.channel = true) :
    Answered s (setFloor s r t floor) r .ok [] ∧ tarnOf (setFloor s r t floor) t = some { n with opFloor := floor } ∧
      s.tally.next < (setFloor s r t floor).tally.next := by
  rw [setFloor_sets hn hlow hhigh, tarnOf_gmpAnswer, tally_gmpAnswer]
  exact ⟨answered_gmpAnswer hopen rfl rfl, tarnOf_modTarn_same hn _, next_tally_one ..⟩

end

section
variable {keys : List Bytes}

theorem setAuthority_malformed (hbad : 4 < keys.length ∨ ∃ k ∈ keys, List.length k ≠ 97) :
    setAuthority s r t keys = gmpAnswer s r .badCommand [] := if_pos (by simpa using hbad)

variable (hcount : keys.length ≤ 4) (hkeys : ∀ k ∈ keys, List.length k = 97)
include hcount hkeys

theorem setAuthority_eq : setAuthority s r t keys =
    if (tarnOf s t).isNone then gmpAnswer s r .notPermitted [] else gmpAnswer (modTarn s t fun n => { n with authKeys := keys }) r .ok [] :=
  if_neg (by simpa using ⟨hcount, hkeys⟩)

theorem setAuthority_none (hn : tarnOf s t = none) : setAuthority s r t keys = gmpAnswer s r .notPermitted [] :=
  (setAuthority_eq hcount hkeys).trans (if_pos (by rw [hn]; rfl))

/-- What AUTHORITY_SET leaves (R625). -/
theorem setAuthority_leaves {n : Tarn} (hn : tarnOf s t = some n) (hopen : chanOpen s r.channel = true) :
    Answered s (setAuthority s r t keys) r .ok [] ∧ tarnOf (setAuthority s r t keys) t = some { n with authKeys := keys } := by
  rw [setAuthority_eq hcount hkeys, if_neg (by simp [hn]), tarnOf_gmpAnswer]
  exact ⟨answered_gmpAnswer hopen rfl rfl, tarnOf_modTarn_same hn _⟩

end

/-- The lengths that TAG_KEY_SET's fields have (R623). -/
abbrev TagKeyForm (e i c g : Bytes) : Prop := e.length = 97 ∧ i.length = 12 ∧ c.length = 32 ∧ g.length = 16

section
variable {e i c g : Bytes}

theorem setTagKey_malformed (hbad : ¬ TagKeyForm e i c g) : setTagKey s r t e i c g = gmpAnswer s r .badCommand [] := by
  refine if_pos ?_
  simp only [Bool.or_eq_true, bne_iff_ne]
  tauto

variable (hform : TagKeyForm e i c g)
include hform

theorem tagKeyForm_ok : ¬ (e.length != 97 || i.length != 12 || c.length != 32 || g.length != 16) = true := by
  obtain ⟨he, hi, hc, hg⟩ := hform
  rw [he, hi, hc, hg]
  decide

theorem setTagKey_refused (hbad : tarnOf s t = none ∨ isConf s t = true ∨ openTagKey s e i c g = none) :
    setTagKey s r t e i c g = gmpAnswer s r .notPermitted [] := by
  refine (if_neg (tagKeyForm_ok hform)).trans ?_
  split
  · rfl
  next hgo =>
    rw [Bool.or_eq_true, Option.isNone_iff_eq_none, not_or] at hgo
    rw [(hbad.resolve_left hgo.1).resolve_left hgo.2]

/-- What TAG_KEY_SET leaves (R623). -/
theorem setTagKey_leaves {n : Tarn} {k : Bytes} (hn : tarnOf s t = some n) (hclear : isConf s t = false)
    (hopens : openTagKey s e i c g = some k) (hopen : chanOpen s r.channel = true) :
    Answered s (setTagKey s r t e i c g) r .ok [] ∧ tarnOf (setTagKey s r t e i c g) t = some { n with tagKey := some k } := by
  have hsets : setTagKey s r t e i c g = gmpAnswer (modTarn s t fun n => { n with tagKey := some k }) r .ok [] := by
    refine (if_neg (tagKeyForm_ok hform)).trans ((if_neg (by simp [hn, hclear])).trans ?_)
    rw [hopens]
  rw [hsets, tarnOf_gmpAnswer]
  exact ⟨answered_gmpAnswer hopen rfl rfl, tarnOf_modTarn_same hn _⟩

end
end

/-! The parent table -/

/-- A parent entry with its generation raised, and where it is not SPENT by that, changed (R474). -/
def raisedWith (g : Parent → Parent) (e : Parent) : Parent := if (raiseGen e).state == 2 then raiseGen e else g (raiseGen e)

/-- A parent entry assigned to a Tarn. -/
def assignedTo (t : TarnIx) (e : Parent) : Parent := { e with state := 1, owner := BitVec.ofNat 3 t, kcvSet := false, kcvLow := 0 }

/-- A parent entry that is free. -/
def freed (e : Parent) : Parent := { e with state := 0, kcvSet := false, kcvLow := 0 }

theorem raisedWith_last (g : Parent → Parent) {e : Parent} (hlast : e.gen = 0xFFFFFFFF) : raisedWith g e = { e with state := 2 } := by
  have hspent : raiseGen e = { e with state := 2 } := if_pos (beq_iff_eq.mpr hlast)
  rw [raisedWith, hspent]
  exact if_pos rfl

section
variable {e : Parent} (hlast : e.gen ≠ 0xFFFFFFFF)
include hlast

theorem raisedWith_next (g : Parent → Parent) (hspent : e.state ≠ 2) : raisedWith g e = g { e with gen := e.gen + 1 } := by
  have hraised : raiseGen e = { e with gen := e.gen + 1 } := if_neg fun h => hlast (beq_iff_eq.mp h)
  rw [raisedWith, hraised]
  exact if_neg fun h => hspent (beq_iff_eq.mp h)

theorem toNat_gen_add_one : (e.gen + 1).toNat = e.gen.toNat + 1 := by
  have hne : e.gen.toNat ≠ 0xFFFFFFFF := fun h => hlast (BitVec.eq_of_toNat_eq h)
  have hlt := e.gen.isLt
  rw [BitVec.toNat_add]
  exact Nat.mod_eq_of_lt (show e.gen.toNat + 1 < 2 ^ 32 by omega)

end

section
variable {s : State} {r : GmpReq} {p : Nat}

/-- The event and the answer of a changed parent entry: its generation, or 0 when it is SPENT (R487). -/
theorem parentDone_answers (hopen : chanOpen s r.channel = true) (op tarn : Nat) :
    let s' := parentDone s r op p tarn
    s.tally.next < s'.tally.next ∧ (∀ i, parentOf s' i = parentOf s i) ∧
      Answered s s' r .ok (leBytes 4 (if (parentOf s p).state == 2 then 0 else (parentOf s p).gen.toNat)) := by
  dsimp only [parentDone]
  rw [tally_gmpAnswer]
  exact ⟨next_tally_one .., fun i => parentOf_gmpAnswer .., answered_gmpAnswer hopen rfl rfl⟩

theorem assignParent_malformed {t : TarnIx} (hp : p = 0 ∨ 1023 < p) : assignParent s r p t = gmpAnswer s r .badCommand [] :=
  if_pos (by simpa using hp)

theorem freeParent_malformed (hp : p = 0 ∨ 1023 < p) : freeParent s r p = gmpAnswer s r .badCommand [] := if_pos (by simpa using hp)

section
variable (hlow : 1 ≤ p) (hhigh : p ≤ 1023)
include hlow hhigh

theorem parentIx_ok : ¬ (p == 0 || 1023 < p) = true := by simp; omega

theorem assignParent_spent {t : TarnIx} (hspent : (parentOf s p).state = 2) : assignParent s r p t = gmpAnswer s r .counterExhausted [] :=
  (if_neg (parentIx_ok hlow hhigh)).trans (if_pos (beq_iff_eq.mpr hspent))

theorem freeParent_spent (hspent : (parentOf s p).state = 2) : freeParent s r p = gmpAnswer s r .counterExhausted [] :=
  (if_neg (parentIx_ok hlow hhigh)).trans (if_pos (beq_iff_eq.mpr hspent))

variable (hstate : (parentOf s p).state ≠ 2)
include hstate

theorem freeParent_frees :
    freeParent s r p = parentDone (modParent s p (raisedWith freed)) r 7 p (parentOf s p).owner.toNat :=
  (if_neg (parentIx_ok hlow hhigh)).trans (if_neg (by simpa using hstate))

variable {t : TarnIx}

theorem assignParent_full (hfull : ∀ i, 1 ≤ i → i ≤ 1023 → (parentOf s i).state ≠ 0) :
    assignParent s r p t = gmpAnswer s r .notPermitted [] := by
  refine ((if_neg (parentIx_ok hlow hhigh)).trans (if_neg (by simpa using hstate))).trans (if_pos ?_)
  rw [Bool.not_eq_true', List.any_eq_false]
  intro i hi
  simpa using hfull (i + 1) (by omega) (List.mem_range.mp hi)

theorem assignParent_assigns (hfree : ∃ i, 1 ≤ i ∧ i ≤ 1023 ∧ (parentOf s i).state = 0) :
    assignParent s r p t = parentDone (modParent s p (raisedWith (assignedTo t))) r 6 p t := by
  refine ((if_neg (parentIx_ok hlow hhigh)).trans (if_neg (by simpa using hstate))).trans (if_neg ?_)
  obtain ⟨i, hone, hi, hzero⟩ := hfree
  have hany : (upto 1023).any (fun i => (parentOf s (i + 1)).state == 0) = true :=
    List.any_eq_true.mpr ⟨i - 1, List.mem_range.mpr (by omega), by rw [Nat.sub_add_cancel hone]; exact beq_iff_eq.mpr hzero⟩
  rw [hany]
  decide

end

section
variable (hparents : s.bbram.parents.length = 1024) (hopen : chanOpen s r.channel = true) (hhigh : p ≤ 1023)
  (hstate : (parentOf s p).state ≠ 2) (op tarn : Nat)
include hparents hopen hhigh hstate

/-- What becomes of an entry whose generation is raised: it changes as it is to, or is SPENT at the last generation (R474, R487). -/
theorem parentDone_raised (g : Parent → Parent) (hg : ∀ e, (g e).gen = e.gen ∧ (g e).state ≠ 2) :
    let s' := parentDone (modParent s p (raisedWith g)) r op p tarn
    s.tally.next < s'.tally.next ∧
    ((parentOf s p).gen ≠ 0xFFFFFFFF → parentOf s' p = g { parentOf s p with gen := (parentOf s p).gen + 1 } ∧
      Answered s s' r .ok (leBytes 4 ((parentOf s p).gen.toNat + 1))) ∧
    ((parentOf s p).gen = 0xFFFFFFFF → (parentOf s' p).state = 2 ∧ Answered s s' r .ok (zeros 4)) := by
  intro s'
  obtain ⟨hnext, hkept, hanswered⟩ := parentDone_answers (s := modParent s p (raisedWith g)) (p := p) hopen op tarn
  have hentry : parentOf (modParent s p (raisedWith g)) p = raisedWith g (parentOf s p) :=
    (parentOf_modParent s p p _ hparents).trans (if_pos ⟨rfl, Nat.lt_succ_of_le hhigh⟩)
  rw [hentry] at hanswered
  refine ⟨hnext, fun hlast => ?_, fun hlast => ?_⟩
  · rw [raisedWith_next hlast g hstate] at hentry hanswered
    obtain ⟨hgen, hlive⟩ := hg { parentOf s p with gen := (parentOf s p).gen + 1 }
    refine ⟨(hkept p).trans hentry, ?_⟩
    rw [if_neg (by simpa using hlive), hgen, toNat_gen_add_one hlast] at hanswered
    exact hanswered
  · rw [raisedWith_last g hlast] at hentry hanswered
    rw [if_pos (beq_self_eq_true (2 : BitVec 2))] at hanswered
    exact ⟨congrArg Parent.state ((hkept p).trans hentry), hanswered⟩

end

section
variable (hparents : s.bbram.parents.length = 1024) (hopen : chanOpen s r.channel = true) (hlow : 1 ≤ p) (hhigh : p ≤ 1023)
  (hstate : (parentOf s p).state ≠ 2)
include hparents hopen hlow hhigh hstate

/-- What an assignment leaves (R474, R487). -/
theorem assignParent_leaves (t : TarnIx) (hfree : ∃ i, 1 ≤ i ∧ i ≤ 1023 ∧ (parentOf s i).state = 0) :
    let s' := assignParent s r p t
    s.tally.next < s'.tally.next ∧
    ((parentOf s p).gen ≠ 0xFFFFFFFF → parentOf s' p = assignedTo t { parentOf s p with gen := (parentOf s p).gen + 1 } ∧
      Answered s s' r .ok (leBytes 4 ((parentOf s p).gen.toNat + 1))) ∧
    ((parentOf s p).gen = 0xFFFFFFFF → (parentOf s' p).state = 2 ∧ Answered s s' r .ok (zeros 4)) := by
  rw [assignParent_assigns hlow hhigh hstate hfree]
  exact parentDone_raised hparents hopen hhigh hstate 6 t (assignedTo t) fun _ => ⟨rfl, ne_of_beq_false rfl⟩

/-- What freeing leaves (R474, R487). -/
theorem freeParent_leaves :
    let s' := freeParent s r p
    s.tally.next < s'.tally.next ∧
    ((parentOf s p).gen ≠ 0xFFFFFFFF → parentOf s' p = freed { parentOf s p with gen := (parentOf s p).gen + 1 } ∧
      Answered s s' r .ok (leBytes 4 ((parentOf s p).gen.toNat + 1))) ∧
    ((parentOf s p).gen = 0xFFFFFFFF → (parentOf s' p).state = 2 ∧ Answered s s' r .ok (zeros 4)) := by
  rw [freeParent_frees hlow hhigh hstate]
  exact parentDone_raised hparents hopen hhigh hstate 7 _ freed fun _ => ⟨rfl, ne_of_beq_false rfl⟩

end

/-! ROOT_BLOB_CREATE -/

/-- The lengths and ranges that ROOT_BLOB_CREATE's fields have (R479). -/
abbrev BlobForm (p usage : Nat) (label : Bytes) : Prop := 1 ≤ p ∧ p ≤ 1023 ∧ 1 ≤ usage ∧ usage ≤ 4 ∧ label.length = 16

theorem length_rootBlobHeader (usage owner p : Nat) (kcv nonce label : Bytes) :
    (rootBlobHeader usage owner p kcv nonce label).length = 28 + kcv.length + nonce.length + label.length := by
  simp only [rootBlobHeader, List.length_append, length_leBytes, length_zeros]
  omega

theorem length_kcvOf (usage : Nat) (material : Bytes) : (kcvOf usage material).length = 8 := by
  rw [kcvOf, List.length_take, length_sha384]
  rfl

theorem length_storageRoot (s : State) : (storageRoot s).length = 32 := length_hkdf384 ..

/-- The blob of a key under the storage root (Table 11-4, R479). -/
def rootBlob (root : Bytes) (usage owner p : Nat) (key nonce label : Bytes) : Bytes :=
  let h := rootBlobHeader usage owner p (kcvOf usage key) nonce label
  h ++ (gcmSeal root nonce h key).1 ++ (gcmSeal root nonce h key).2

/-- A blob has a header of 64 bytes, the key's 32 sealed, and a tag of 16. -/
theorem length_rootBlob {root key nonce label : Bytes} (hroot : root.length = 32) (usage owner p : Nat) (hkey : key.length = 32)
    (hnonce : nonce.length = 12) (hlabel : label.length = 16) : (rootBlob root usage owner p key nonce label).length = 112 := by
  dsimp only [rootBlob]
  obtain ⟨hsealed, htag⟩ := length_gcmSeal (m := 2) hroot hkey nonce (rootBlobHeader usage owner p (kcvOf usage key) nonce label)
  rw [List.length_append, List.length_append, hsealed, htag, length_rootBlobHeader, length_kcvOf, hnonce, hlabel]

section
variable {usage : Nat} {label : Bytes}

theorem createRootBlob_malformed (hbad : ¬ BlobForm p usage label) : createRootBlob s r p usage label = gmpAnswer s r .badCommand [] := by
  refine if_pos ?_
  simp only [Bool.or_eq_true, decide_eq_true_eq, beq_iff_eq, bne_iff_ne]
  omega

variable (hform : BlobForm p usage label)
include hform

theorem blobForm_ok : ¬ (p == 0 || 1023 < p || usage == 0 || 4 < usage || label.length != 16) = true := by
  simp only [Bool.or_eq_true, decide_eq_true_eq, beq_iff_eq, bne_iff_ne]
  omega

theorem createRootBlob_lost (hroot : rootOk s = false) : createRootBlob s r p usage label = gmpAnswer s r .rootLost [] :=
  (if_neg (blobForm_ok hform)).trans (if_pos (by rw [hroot]; rfl))

variable (hroot : rootOk s = true)
include hroot

theorem createRootBlob_refused (hstate : (parentOf s p).state ≠ 1) :
    createRootBlob s r p usage label = gmpAnswer s r .notPermitted [] :=
  ((if_neg (blobForm_ok hform)).trans (if_neg (by rw [hroot]; decide))).trans (if_pos (by simpa using hstate))

/-- The entry records the fresh key's check, and the answer is its blob. -/
theorem createRootBlob_eq (hstate : (parentOf s p).state = 1) :
    let key := (upto 32).map (Config.entropy s.freeCtr)
    let nonce := (upto 12).map (Config.entropy (s.freeCtr + 1))
    createRootBlob s r p usage label =
      gmpAnswer (modParent { s with freeCtr := s.freeCtr + 1 + 1 } p fun e => { e with kcvSet := true, kcvLow := kcvLow (kcvOf usage key) })
        r .ok (rootBlob (storageRoot s) usage (parentOf s p).owner.toNat p key nonce label) := by
  intro key nonce
  unfold createRootBlob
  rw [if_neg (blobForm_ok hform), if_neg (by rw [hroot]; decide), if_neg (by rw [hstate]; decide)]
  rfl

theorem createRootBlob_creates (hstate : (parentOf s p).state = 1) : ∃ low b, List.length b = 112 ∧ createRootBlob s r p usage label =
    gmpAnswer (modParent { s with freeCtr := s.freeCtr + 1 + 1 } p fun e => { e with kcvSet := true, kcvLow := low }) r .ok b := by
  have hcreates := createRootBlob_eq (r := r) hform hroot hstate
  obtain ⟨-, -, -, -, hlabel⟩ := hform
  have hlen (n ctr : Nat) : ((upto n).map (Config.entropy ctr)).length = n := by rw [List.length_map, List.length_range]
  exact ⟨_, _, length_rootBlob (length_storageRoot s) usage _ p (hlen 32 _) (hlen 12 _) hlabel, hcreates⟩

/-- What ROOT_BLOB_CREATE leaves: the key's check at its entry, and a blob of 112 bytes sent (R476, R479). -/
theorem createRootBlob_leaves (hstate : (parentOf s p).state = 1) (hparents : s.bbram.parents.length = 1024)
    (hopen : chanOpen s r.channel = true) :
    ∃ b, Answered s (createRootBlob s r p usage label) r .ok b ∧ List.length b = 112 ∧
      (parentOf (createRootBlob s r p usage label) p).kcvSet = true ∧
      (parentOf (createRootBlob s r p usage label) p).gen = (parentOf s p).gen ∧ (createRootBlob s r p usage label).keys = s.keys := by
  obtain ⟨low, b, hlen, hcreates⟩ := createRootBlob_creates (r := r) hform hroot hstate
  obtain ⟨-, hhigh, -⟩ := hform
  have hentry (g : Parent → Parent) := (parentOf_modParent { s with freeCtr := s.freeCtr + 1 + 1 } p p g hparents).trans
    (if_pos ⟨rfl, Nat.lt_succ_of_le hhigh⟩)
  rw [hcreates, parentOf_gmpAnswer, hentry]
  refine ⟨b, answered_gmpAnswer hopen rfl rfl, hlen, rfl, rfl, ?_⟩
  rw [gmpAnswer, gmpReply_frame]
  rfl

end
end

end Sys2Proof.Machine
end

section
/-! The life cycle and the root secret (R494, R496, R497, R499, R545), and the statement about the signed security commands. -/

namespace Sys2Proof.Machine

/-! What ends before a transition, and its events -/

/-- The fuses, and the sessions that management requests come over. -/
def credentials (s : State) : Fuses × List (Nat × Nat × BitVec 4) := (s.fuses, s.mgmt.tls)

theorem credentials_gmpReplies (l : List (GmpChannel × Nat)) (st : Status) (s : State) :
    credentials (l.foldl (fun s x => gmpReply s x.1 x.2 st []) s) = credentials s := by
  induction l generalizing s with
  | nil => rfl
  | cons x l ih =>
    rw [List.foldl_cons, ih, gmpReply_frame]
    rfl

theorem credentials_beginCheckpoint (s : State) : credentials (beginCheckpoint s) = credentials s := by
  rw [beginCheckpoint_frame]
  rfl

/-- The end of a signature changes neither. -/
theorem credentials_endSigning (s : State) : credentials (endSigning s) = credentials s := by
  unfold endSigning
  extract_lets _ answered wait _ cleared
  have hcleared : credentials cleared = credentials s := credentials_gmpReplies s.mgmt.cpGmp .ok _
  split
  · exact hcleared
  split
  · exact (credentials_beginCheckpoint _).trans hcleared
  · exact (credentials_gmpReplies ..).trans hcleared

theorem tallyKeyBytes_frame (s : State) : (tallyKeyBytes s).2 = { s with freeCtr := (tallyKeyBytes s).2.freeCtr } := by
  unfold tallyKeyBytes
  split <;> rfl

theorem tallyKeyEvent_frame (s : State) :
    tallyKeyEvent s = { s with tally := (tallyKeyEvent s).tally, freeCtr := (tallyKeyEvent s).freeCtr } := by
  have hevent : tallyKeyEvent s = { (tallyKeyBytes s).2 with tally := (tallyKeyEvent s).tally } := rfl
  exact hevent.trans (congrArg (fun x : State => { x with tally := (tallyKeyEvent s).tally }) (tallyKeyBytes_frame s))

/-- The state in which a transition's own steps begin: signatures in progress are ended, and the Tally has its last checkpoint under
the root that goes (R497, R562). -/
def lifeReady (s : State) : State :=
  let s := if s.tally.signing.isSome then endSigning s else s
  if rootOk s then endSigning (beginCheckpoint s) else s

theorem credentials_lifeReady (s : State) : credentials (lifeReady s) = credentials s := by
  unfold lifeReady
  extract_lets ended
  have hended : credentials ended = credentials s := by
    unfold ended
    split
    · exact credentials_endSigning s
    · rfl
  split
  · exact (credentials_endSigning _).trans ((credentials_beginCheckpoint _).trans hended)
  · exact hended

theorem le_clock_lifeReady (s : State) : clock s ≤ clock (lifeReady s) := by
  simp only [lifeReady]; bound

/-! A transition -/

/-- A transition that Table 11-7 lists burns the fuse of its life cycle. -/
theorem lifeOf_burnt {f : BitVec 3} {dst : LifeCycle} (h : lifeNext (lifeOf f) dst = true) :
    lifeOf (f ||| BitVec.ofNat 3 (2 ^ (lifeCode dst - 1))) = dst := by
  revert f
  cases dst <;> decide

/-- The root is there after every transition but the one to RETIRED (R497). -/
theorem rootOk_lifeSteps (s : State) (dst : LifeCycle) : rootOk (lifeSteps s dst) = true ↔ dst ≠ .retired := by
  unfold lifeSteps
  split
  next h =>
    obtain rfl : dst = .retired := beq_iff_eq.mp h
    refine iff_of_false ?_ fun h => h rfl
    unfold rootOk lostCause
    dsimp only
    split <;> decide
  next h => exact iff_of_true rfl fun hdst => h (beq_iff_eq.mpr hdst)

theorem lc_lifeSteps (s : State) (dst : LifeCycle) :
    (lifeSteps s dst).fuses.lc = s.fuses.lc ||| BitVec.ofNat 3 (2 ^ (lifeCode dst - 1)) := by
  unfold lifeSteps
  split <;> rfl

theorem keys_lifeSteps (s : State) (dst : LifeCycle) : (lifeSteps s dst).keys = List.replicate 512 {} := by
  unfold lifeSteps
  split <;> rfl

theorem tls_lifeSteps (s : State) (dst : LifeCycle) : (lifeSteps s dst).mgmt.tls = s.mgmt.tls := by
  unfold lifeSteps
  split <;> rfl

theorem lcMirror_lifeSteps (s : State) (dst : LifeCycle) : (lifeSteps s dst).bbram.lcMirror.toNat = lifeCode dst := by
  have hcode : lifeCode dst < 2 ^ 32 := by cases dst <;> decide
  exact (BitVec.toNat_ofNat ..).trans (Nat.mod_eq_of_lt hcode)

section
variable {s : State} {r : GmpReq} {dst : LifeCycle}

/-- What R496 and R516 ask of a transition. -/
abbrev MayMove (s : State) (dst : LifeCycle) : Prop :=
  lifeNext (lifeOf s.fuses.lc) dst = true ∧ (∀ e ∈ s.map.entries, e.state ≠ 1) ∧
    (∀ x ∈ trackedResources, statOf s x ≠ .scrubbing) ∧ (dst = .deployed → storeEmpty s = false)

theorem mayMove_iff : MayMove s dst ↔ (!lifeNext (lifeOf s.fuses.lc) dst || s.map.entries.any (fun e => e.state == 1)
    || trackedResources.any (fun x => statOf s x == .scrubbing) || (dst == .deployed && storeEmpty s)) = false := by
  simp only [Bool.or_eq_false_iff, Bool.not_eq_false', List.any_eq_false, beq_iff_eq, Bool.and_eq_false_imp, MayMove, and_assoc]

theorem setLife_refused (h : ¬ MayMove s dst) : setLife s r dst = gmpAnswer s r .notPermitted [] :=
  if_pos (by rwa [mayMove_iff, Bool.not_eq_false] at h)

/-- A transition, up to its answer (R497, R545). -/
def lifeMoved (s : State) (dst : LifeCycle) : State :=
  let s := tallyDevice (lifeSteps (lifeReady s) dst) 6 0
  if dst == .retired then s else tallyKeyEvent s

theorem setLife_moves (h : MayMove s dst) : setLife s r dst = gmpAnswer (lifeMoved s dst) r .ok [] :=
  if_neg (by rw [mayMove_iff.mp h]; decide)

theorem lifeMoved_frame (s : State) (dst : LifeCycle) : lifeMoved s dst =
    { lifeSteps (lifeReady s) dst with tally := (lifeMoved s dst).tally, freeCtr := (lifeMoved s dst).freeCtr } := by
  unfold lifeMoved
  dsimp only
  split
  · rfl
  · rw [tallyKeyEvent_frame]
    rfl

theorem next_lifeMoved (s : State) (dst : LifeCycle) : s.tally.next < (lifeMoved s dst).tally.next := by
  have hready : clock s ≤ clock (lifeSteps (lifeReady s) dst) := le_clock_lifeSteps (le_clock_lifeReady s) dst
  have hafter : clock (tallyDevice (lifeSteps (lifeReady s) dst) 6 0) ≤ clock (lifeMoved s dst) := by
    simp only [lifeMoved]; bound
  exact ((next_of_clock hready).trans_lt (next_tally_one ..)).trans_le (next_of_clock hafter)

/-- What a transition leaves (R497, R516). -/
theorem setLife_leaves (hmay : MayMove s dst) (hopen : chanOpen s r.channel = true) :
    lifeOf (setLife s r dst).fuses.lc = dst ∧ (setLife s r dst).keys = List.replicate 512 {} ∧
      (setLife s r dst).bbram.lcMirror.toNat = lifeCode dst ∧ (rootOk (setLife s r dst) = true ↔ dst ≠ .retired) ∧
      s.tally.next < (setLife s r dst).tally.next ∧
      (setLife s r dst).outbox.getLast? = some (.gmp r.channel r.requestId .ok []) := by
  obtain ⟨hfuses, htls⟩ := Prod.mk.inj (credentials_lifeReady s)
  have hopen' : chanOpen (lifeMoved s dst) r.channel = true := by
    rw [← hopen, lifeMoved_frame]
    unfold chanOpen
    dsimp only
    rw [tls_lifeSteps, htls]
  have hlc : (lifeMoved s dst).fuses.lc = s.fuses.lc ||| BitVec.ofNat 3 (2 ^ (lifeCode dst - 1)) := by
    rw [lifeMoved_frame, ← hfuses]
    exact lc_lifeSteps ..
  rw [setLife_moves hmay, gmpAnswer_of_chanOpen hopen']
  refine ⟨?_, ?_, ?_, ?_, next_lifeMoved s dst, List.getLast?_concat ..⟩
  · exact (congrArg lifeOf hlc).trans (lifeOf_burnt hmay.1)
  · exact (congrArg State.keys (lifeMoved_frame s dst)).trans (keys_lifeSteps ..)
  · exact (congrArg (fun s => s.bbram.lcMirror.toNat) (lifeMoved_frame s dst)).trans (lcMirror_lifeSteps ..)
  · exact (congrArg (fun s => rootOk s = true) (lifeMoved_frame s dst)).to_iff.trans (rootOk_lifeSteps ..)

/-! REPROVISION -/

/-- What R494 asks of a new root. -/
abbrev MayReprovision (s : State) : Prop :=
  rootOk s = false ∧ (lifeOf s.fuses.lc = .provisioned ∨ lifeOf s.fuses.lc = .deployed)

theorem mayReprovision_iff : MayReprovision s ↔
    (rootOk s || !(lifeOf s.fuses.lc == .provisioned || lifeOf s.fuses.lc == .deployed)) = false := by
  simp only [Bool.or_eq_false_iff, Bool.not_eq_false', Bool.or_eq_true, beq_iff_eq]

theorem provisionAgain_refused (h : ¬ MayReprovision s) : provisionAgain s r = gmpAnswer s r .notPermitted [] :=
  if_pos (by rwa [mayReprovision_iff, Bool.not_eq_false] at h)

/-- A device with a new root and an empty journal and parent table (R494). -/
def reprovisioned (s : State) : State :=
  newRoot { s with bbram := { s.bbram with journal := List.replicate 16 {}, parents := resetParents s.bbram.parents,
                                           lcMirror := BitVec.ofNat 32 (lifeCode (lifeOf s.fuses.lc)) } }

theorem provisionAgain_makes (h : MayReprovision s) :
    provisionAgain s r = gmpAnswer (tallyKeyEvent (tallyDevice (reprovisioned s) 5 0)) r .ok [] :=
  if_neg (by rw [mayReprovision_iff.mp h]; decide)

theorem provisionAgain_leaves (h : MayReprovision s) (hopen : chanOpen s r.channel = true) :
    rootOk (provisionAgain s r) = true ∧ (provisionAgain s r).fuses = s.fuses ∧
      (provisionAgain s r).bbram.journal = List.replicate 16 {} ∧ (provisionAgain s r).bbram.root.length = 32 ∧
      s.tally.next < (provisionAgain s r).tally.next ∧ Answered s (provisionAgain s r) r .ok [] := by
  have hnext : s.tally.next < (tallyKeyEvent (tallyDevice (reprovisioned s) 5 0)).tally.next := by
    have hafter : clock (tallyDevice (reprovisioned s) 5 0) ≤ clock (tallyKeyEvent (tallyDevice (reprovisioned s) 5 0)) :=
      le_clock_tallyKeyEvent le_rfl
    exact (next_tally_one (reprovisioned s) ..).trans_le (next_of_clock hafter)
  rw [provisionAgain_makes h]
  refine ⟨?_, ?_, ?_, ?_, ?_, answered_gmpAnswer hopen (by rw [tallyKeyEvent_frame]; rfl) (by rw [tallyKeyEvent_frame]; rfl)⟩
  all_goals rw [gmpAnswer, gmpReply_frame]
  · rw [tallyKeyEvent_frame]; rfl
  · rw [tallyKeyEvent_frame]; rfl
  · rw [tallyKeyEvent_frame]; rfl
  · rw [tallyKeyEvent_frame]
    exact (List.length_map _).trans List.length_range
  · exact hnext

/-! DEBUG_SET and TAMPER_ARM -/

/-- DEBUG_SET's own effect (R450). -/
def setSwitches (s : State) (r : GmpReq) (sw : DebugSwitch) : State :=
  gmpAnswer (tallyDebug { s with mgmt := { s.mgmt with switches := sw } } anyTarn 2) r .ok []

theorem setSwitches_leaves (hopen : chanOpen s r.channel = true) (sw : DebugSwitch) :
    (setSwitches s r sw).mgmt.switches = sw ∧ s.tally.next < (setSwitches s r sw).tally.next ∧
      Answered s (setSwitches s r sw) r .ok [] := by
  refine ⟨?_, ?_, answered_gmpAnswer hopen rfl rfl⟩
  · rw [setSwitches, gmpAnswer, gmpReply_frame]
    rfl
  · rw [setSwitches, tally_gmpAnswer]
    exact next_tally_one ..


theorem getLsbD_or_twoPow (a : BitVec 4) (n : Fin 4) : (a ||| BitVec.ofNat 4 (2 ^ n.val)).getLsbD n = true := by
  rw [BitVec.getLsbD_or, BitVec.getLsbD_ofNat, Nat.testBit_two_pow_self, decide_eq_true n.isLt, Bool.and_self, Bool.or_true]

/-- What TAMPER_ARM leaves: its fuse is burnt (R499). -/
theorem armTamper_leaves (n : Fin 4) (h : lifeOf s.fuses.lc = .manufacture ∨ lifeOf s.fuses.lc = .provisioned)
    (hopen : chanOpen s r.channel = true) :
    (armTamper s r n).fuses.tamperArm.getLsbD n = true ∧ Answered s (armTamper s r n) r .ok [] := by
  have hburns : armTamper s r n =
      gmpAnswer { s with fuses := { s.fuses with tamperArm := s.fuses.tamperArm ||| BitVec.ofNat 4 (2 ^ n.val) } } r .ok [] :=
    if_pos (by simpa using h)
  rw [hburns]
  refine ⟨?_, answered_gmpAnswer hopen rfl rfl⟩
  rw [gmpAnswer, gmpReply_frame]
  exact getLsbD_or_twoPow ..

theorem armTamper_refused (n : Fin 4) (h : lifeOf s.fuses.lc = .deployed ∨ lifeOf s.fuses.lc = .retired) :
    armTamper s r n = gmpAnswer s r .notPermitted [] :=
  if_neg (by rcases h with h | h <;> rw [h] <;> decide)

end

end Sys2Proof.Machine

open Sys2Proof.Machine

/-- Settles O51, by what each command does once the shared checks have let it go on. -/
theorem securityCommandsAct : Obligations.SecurityCommandsAct := by
  intro s r hshaped no
  have hanchors := hshaped.anchors
  have hparents := hshaped.parents
  refine ⟨fun d roles hgo => ?_, fun k hgo => ?_, fun hgo => ?_⟩
  · obtain ⟨hopen, l, hexec⟩ : chanOpen s r.channel = true ∧
        ∃ l, exec (.trustAdd r d roles) s = .next (addTrust (withNonces s l) r d roles) := by
      rcases hgo with ⟨hgo, hfree⟩ | ⟨hgo, hfree⟩
      all_goals
        obtain ⟨l, hrun⟩ := gmpRun_of_gmpOk hgo
        obtain ⟨-, hopen, -⟩ := hgo
        refine ⟨hopen, l, congrArg Host.Outcome.next ?_⟩
        rw [hfree]
        exact hrun fun s => addTrust s r d roles
    refine ⟨fun k hlen hfree => ?_, fun hlen hfull => refuses_of hopen hexec (addTrust_full (s := withNonces s l) hlen roles hfull),
      fun hlen => refuses_of hopen hexec (addTrust_malformed hlen roles)⟩
    obtain ⟨hanswered, hnew, hothers⟩ := addTrust_leaves (s := withNonces s l) hlen roles hfree hanchors hopen
    refine ⟨_, hexec, hanswered, ?_⟩
    rw [hnew]
    exact ⟨rfl, rfl, rfl, rfl, hothers⟩
  · obtain ⟨l, hrun⟩ := gmpRun_of_gmpOk hgo
    obtain ⟨-, hopen, -⟩ := hgo
    have hexec : exec (.trustRemove r k) s = .next (removeTrust (withNonces s l) r k) := congrArg _ (hrun _)
    exact ⟨fun hk hburnt hother => ⟨_, hexec, removeTrust_leaves (s := withNonces s l) hk hanchors hburnt hother hopen⟩,
      fun hk hlast => refuses_of hopen hexec (removeTrust_refused (s := withNonces s l) hk hanchors hlast),
      fun hk => refuses_of hopen hexec (removeTrust_malformed hk)⟩
  · obtain ⟨l, hrun⟩ := gmpRun_of_gmpOk hgo
    obtain ⟨-, hopen, -⟩ := hgo
    refine ⟨fun t f => ?_, fun t keys => ?_, fun t e c i g => ?_, fun p t hlow hhigh => ?_, fun p t hp => ?_,
      fun p u label => ?_, fun sw => ?_, fun dst => ?_, ?_, fun n => ?_⟩
    · have hexec : exec (.floorSet r t f) s = .next (setFloor (withNonces s l) r t f) := congrArg _ (hrun _)
      exact ⟨fun n hn =>
        ⟨fun hlow hhigh => ⟨_, hexec, setFloor_leaves (s := withNonces s l) hn hlow hhigh hopen⟩,
          fun hlow => refuses_of hopen hexec (setFloor_low (s := withNonces s l) hn hlow),
          fun hhigh => refuses_of hopen hexec (setFloor_high (s := withNonces s l) hn hhigh)⟩,
        fun hn => refuses_of hopen hexec (setFloor_none (s := withNonces s l) hn f)⟩
    · have hexec : exec (.authoritySet r t keys) s = .next (setAuthority (withNonces s l) r t keys) := congrArg _ (hrun _)
      exact ⟨fun hcount hkeys =>
        ⟨fun n hn => ⟨_, hexec, setAuthority_leaves (s := withNonces s l) hcount hkeys hn hopen⟩,
          fun hn => refuses_of hopen hexec (setAuthority_none (s := withNonces s l) hcount hkeys hn)⟩,
        fun hbad => refuses_of hopen hexec (setAuthority_malformed hbad)⟩
    · have hexec : exec (.tagKeySet r t e i c g) s = .next (setTagKey (withNonces s l) r t e i c g) := congrArg _ (hrun _)
      intro form
      exact ⟨fun n k hform hn hclear hopens =>
          ⟨_, hexec, setTagKey_leaves (s := withNonces s l) hform hn hclear hopens hopen⟩,
        fun hform hbad => refuses_of hopen hexec (setTagKey_refused (s := withNonces s l) hform hbad),
        fun hform => refuses_of hopen hexec (setTagKey_malformed hform)⟩
    · have hassign : exec (.parentAssign r p t) s = .next (assignParent (withNonces s l) r p t) := congrArg _ (hrun _)
      have hfree : exec (.parentFree r p) s = .next (freeParent (withNonces s l) r p) := congrArg _ (hrun _)
      refine ⟨fun hspent => ⟨refuses_of hopen hassign (assignParent_spent (s := withNonces s l) hlow hhigh hspent),
        refuses_of hopen hfree (freeParent_spent (s := withNonces s l) hlow hhigh hspent)⟩, fun hstate => ⟨fun hsome => ?_,
        fun hfull => refuses_of hopen hassign (assignParent_full (s := withNonces s l) hlow hhigh hstate hfull), ?_⟩⟩
      · obtain ⟨hnext, hgo, hlast⟩ := assignParent_leaves (s := withNonces s l) hparents hopen hlow hhigh hstate t hsome
        refine ⟨_, hassign, hnext, fun h => ?_, hlast⟩
        obtain ⟨hentry, hanswered⟩ := hgo h
        rw [hentry]
        exact ⟨rfl, (BitVec.toNat_ofNat ..).trans (Nat.mod_eq_of_lt t.isLt), rfl, rfl, hanswered⟩
      · obtain ⟨hnext, hgo, hlast⟩ := freeParent_leaves (s := withNonces s l) hparents hopen hlow hhigh hstate
        refine ⟨_, hfree, hnext, fun h => ?_, hlast⟩
        obtain ⟨hentry, hanswered⟩ := hgo h
        rw [hentry]
        exact ⟨rfl, rfl, hanswered⟩
    · have hassign : exec (.parentAssign r p t) s = .next (assignParent (withNonces s l) r p t) := congrArg _ (hrun _)
      have hfree : exec (.parentFree r p) s = .next (freeParent (withNonces s l) r p) := congrArg _ (hrun _)
      exact ⟨refuses_of hopen hassign (assignParent_malformed hp), refuses_of hopen hfree (freeParent_malformed hp)⟩
    · have hexec : exec (.rootBlobCreate r p u label) s = .next (createRootBlob (withNonces s l) r p u label) := congrArg _ (hrun _)
      intro form
      refine ⟨fun hform => refuses_of hopen hexec (createRootBlob_malformed hform),
        fun hform hroot => refuses_of hopen hexec (createRootBlob_lost (s := withNonces s l) hform hroot),
        fun hform hroot hstate => refuses_of hopen hexec (createRootBlob_refused (s := withNonces s l) hform hroot hstate),
        fun hform hroot hstate => ?_⟩
      obtain ⟨b, hblob⟩ := createRootBlob_leaves (s := withNonces s l) hform hroot hstate hparents hopen
      exact ⟨_, b, hexec, hblob⟩
    · have hexec : exec (.debugSet r sw) s = .next (setSwitches (withNonces s l) r sw) := congrArg _ (hrun _)
      exact ⟨_, hexec, setSwitches_leaves (s := withNonces s l) hopen sw⟩
    · have hexec : exec (.lifecycleSet r dst) s = .next (setLife (withNonces s l) r dst) := congrArg _ (hrun _)
      intro may
      exact ⟨fun hmay => refuses_of hopen hexec (setLife_refused (s := withNonces s l) hmay),
        fun hmay => ⟨_, hexec, setLife_leaves (s := withNonces s l) hmay hopen⟩⟩
    · have hexec : exec (.reprovision r) s = .next (provisionAgain (withNonces s l) r) := congrArg _ (hrun _)
      intro may
      exact ⟨fun hmay => refuses_of hopen hexec (provisionAgain_refused (s := withNonces s l) hmay),
        fun hmay => ⟨_, hexec, provisionAgain_leaves (s := withNonces s l) hmay hopen⟩⟩
    · have hexec : exec (.tamperArm r n) s = .next (armTamper (withNonces s l) r n) := congrArg _ (hrun _)
      exact ⟨fun hearly => ⟨_, hexec, armTamper_leaves (s := withNonces s l) n hearly hopen⟩,
        fun hlate => refuses_of hopen hexec (armTamper_refused (s := withNonces s l) n hlate)⟩
end
